-- ==== Sys2Proof/Word.lean ====
section
/-!
DEFINITION. The word types of the part and their plainest arithmetic.

R11: bit 0 is the least significant bit; multi-byte values in memory are little-endian.
-/

namespace Sys2Proof

/-- A byte of memory. -/
abbrev Byte := BitVec 8

/-- A 32-bit register or instruction word (R35, R68). -/
abbrev Word := BitVec 32

/-- A 64-bit value: a register pair, a script register, a table entry (R92, R268, R343). -/
abbrev DWord := BitVec 64

/-- A 48-bit global virtual address or program counter (R19, R267). -/
abbrev Addr := BitVec 48

/-- `Concat(hi, lo)` of two registers (R13). -/
def Word.pair (hi lo : Word) : DWord := hi ++ lo

/-- The low half of a 64-bit value. -/
def DWord.lo (x : DWord) : Word := x.setWidth 32

/-- The high half of a 64-bit value. -/
def DWord.hi (x : DWord) : Word := (x >>> 32).setWidth 32

/-- `x[h:l]` of R13, as an unsigned integer, for a field of `n` bits from bit `l`. -/
def bitsOf (x l n : Nat) : Nat := x / 2 ^ l % 2 ^ n

/-- The integer that bytes at rising addresses denote, little-endian (R11). -/
def leNat : List Byte → Nat
  | [] => 0
  | b :: bs => b.toNat + 256 * leNat bs

/-- `n` bytes of an integer, little-endian (R11). -/
def natLe : Nat → Nat → List Byte
  | 0, _ => []
  | n + 1, x => BitVec.ofNat 8 x :: natLe n (x / 256)

end Sys2Proof
end

