-- ==== Sys2Proof/Machine/Flags.lean ====
section
/-!
DEFINITION. Number formats (R111 to R113), rounding and the float flags it raises (R114 to R117), quieting and default
NaNs (R119).

An exact real is a dyadic: a sign and a Nat times a power of two. A value that is not one (a quotient, a root) stands
as a dyadic with one more bit that is 1 where the value is not exact, which rounds as the value does.
-/

namespace Sys2Proof.Machine

/-! ## Flags (R116) -/

/-- The bits of FPFLAGS. -/
abbrev FpFlags := BitVec 5

def ive : FpFlags := 1
def dze : FpFlags := 2
def ofe : FpFlags := 4
def ufe : FpFlags := 8
def ixe : FpFlags := 16

/-- `f` where `b` holds, else no flag. -/
def flagIf (b : Bool) (f : FpFlags) : FpFlags := if b then f else 0

/-! ## Formats (R111) -/

/-- How a format codes infinities and NaNs. -/
inductive Specials where
  | ieee
  | e4m3
  | none
  deriving DecidableEq, Repr

/-- A format: its bits, precision p, bias, and vmax as an exponent and a p-bit significand. -/
structure Fmt where
  width : Nat
  prec : Nat
  bias : Nat
  emax : Int
  vsig : Nat
  signed : Bool
  specials : Specials
  deriving DecidableEq, Repr

def fF32 : Fmt := ⟨32, 24, 127, 127, 2 ^ 24 - 1, true, .ieee⟩
def fBF16 : Fmt := ⟨16, 8, 127, 127, 2 ^ 8 - 1, true, .ieee⟩
def fF16 : Fmt := ⟨16, 11, 15, 15, 2 ^ 11 - 1, true, .ieee⟩
def fE5M2 : Fmt := ⟨8, 3, 15, 15, 7, true, .ieee⟩
def fE4M3 : Fmt := ⟨8, 4, 7, 8, 14, true, .e4m3⟩
def fE2M1 : Fmt := ⟨4, 2, 1, 2, 3, true, .none⟩
def fE3M5 : Fmt := ⟨8, 6, 3, 4, 63, false, .none⟩

/-- The exponent of the smallest normal value. -/
def Fmt.emin (f : Fmt) : Int := 1 - f.bias

/-- Bits of the trailing significand. -/
def Fmt.frac (f : Fmt) : Nat := f.prec - 1

/-- Bits of the exponent field. -/
def Fmt.ebits (f : Fmt) : Nat := f.width - f.frac - (if f.signed then 1 else 0)

def Fmt.sign (f : Fmt) (x : Nat) : Bool := f.signed && bitsOf x (f.width - 1) 1 == 1
def Fmt.expField (f : Fmt) (x : Nat) : Nat := bitsOf x f.frac f.ebits
def Fmt.sigField (f : Fmt) (x : Nat) : Nat := bitsOf x 0 f.frac

/-- The sign bit in place. -/
def Fmt.signBits (f : Fmt) (s : Bool) : Nat := if s then 2 ^ (f.width - 1) else 0

def Fmt.isNan (f : Fmt) (x : Nat) : Bool :=
  f.expField x == 2 ^ f.ebits - 1 &&
    (match f.specials with
     | .ieee => f.sigField x != 0
     | .e4m3 => f.sigField x == 7
     | .none => false)

/-- R119: signalling; E4M3 has no signalling NaN. -/
def Fmt.isSnan (f : Fmt) (x : Nat) : Bool :=
  f.isNan x && f.specials == .ieee && bitsOf x (f.frac - 1) 1 == 0

/-- R119: quiets a NaN. -/
def Fmt.quiet (f : Fmt) (x : Nat) : Nat :=
  if f.specials == .ieee && bitsOf x (f.frac - 1) 1 == 0 then x + 2 ^ (f.frac - 1) else x

def Fmt.isInf (f : Fmt) (x : Nat) : Bool :=
  f.specials == .ieee && f.expField x == 2 ^ f.ebits - 1 && f.sigField x == 0

/-- The pattern of an infinity; for E4M3 the NaN of that sign (R114). -/
def Fmt.inf (f : Fmt) (s : Bool) : Nat :=
  f.signBits s + (match f.specials with | .e4m3 => 0x7F | _ => (2 ^ f.ebits - 1) * 2 ^ f.frac)

/-- The default NaN (R119), with a sign. -/
def Fmt.nan (f : Fmt) (s : Bool) : Nat :=
  f.signBits s +
    (match f.specials with | .e4m3 => 0x7F | _ => (2 ^ f.ebits - 1) * 2 ^ f.frac + 2 ^ (f.frac - 1))

/-- The pattern of vmax. -/
def Fmt.vmax (f : Fmt) (s : Bool) : Nat :=
  f.signBits s + ((f.emax + f.bias).toNat * 2 ^ f.frac + (f.vsig - 2 ^ f.frac))

/-- A value of a format, apart from a NaN's payload. -/
inductive Num where
  | nan
  | inf (s : Bool)
  | fin (s : Bool) (m : Nat) (e : Int)
  deriving DecidableEq, Repr

/-- Value(x) (R111, R113). -/
def Fmt.value (f : Fmt) (x : Nat) : Num :=
  if f.isNan x then .nan
  else if f.isInf x then .inf (f.sign x)
  else if f.expField x = 0 then .fin (f.sign x) (f.sigField x) (f.emin - f.frac)
  else .fin (f.sign x) (2 ^ f.frac + f.sigField x) ((f.expField x : Int) - f.bias - f.frac)

/-! ## Rounding (R114, R115) -/

/-- FPMODE.RM: 0 RNE, 1 RTZ, 2 RUP, 3 RDN. -/
abbrev RMode := BitVec 2

def rne : RMode := 0

/-- Whether a magnitude between two neighbours goes to the greater magnitude: `odd` is the lower one's last bit and
`side` says how it lies to the midpoint. -/
def roundsUp (mode : RMode) (s odd : Bool) (side : Ordering) : Bool :=
  match mode.toNat with
  | 0 => side == .gt || (side == .eq && odd)
  | 1 => false
  | 2 => !s
  | _ => s

/-- `m · 2^e` as a multiple of `2^q`: the rounded count, and whether it is exact. -/
def roundAt (mode : RMode) (s : Bool) (m : Nat) (e q : Int) : Nat × Bool :=
  if q ≤ e then (m * 2 ^ (e - q).toNat, true)
  else if m = 0 then (0, true)
  else
    let k := (q - e).toNat
    if Nat.log2 m + 1 < k then (if roundsUp mode s false .lt then 1 else 0, false)
    else
      let n := m / 2 ^ k
      let r := m % 2 ^ k
      if r = 0 then (n, true)
      else (if roundsUp mode s (n % 2 == 1) (compare (2 * r) (2 ^ k)) then n + 1 else n, false)

/-- What `Round` finds before the overflow rule: the sign, the count of `2^q` that is r, whether the unbounded rounding
lies beyond vmax, whether r is inexact, and whether it is tiny (R114). -/
structure Rounded where
  s : Bool
  n : Nat
  q : Int
  beyond : Bool
  inexact : Bool
  tiny : Bool

/-- Steps 2 to 5 of R114 for a nonzero magnitude. -/
def Fmt.roundMag (f : Fmt) (mode : RMode) (s : Bool) (m : Nat) (e : Int) : Rounded :=
  let top : Int := Nat.log2 m + e
  let qu := top - f.frac
  let q := max qu (f.emin - f.frac)
  let (nu, _) := roundAt mode s m e qu
  let (n, exact) := roundAt mode s m e q
  let topu : Int := qu + Nat.log2 nu
  { s := s, n := n, q := q,
    beyond := f.emax < topu || (topu == f.emax && f.vsig < nu / 2 ^ (Nat.log2 nu - f.frac)),
    inexact := !exact, tiny := topu < f.emin && !exact }

/-- The pattern of `n · 2^q`, a value of the format. -/
def Fmt.pattern (f : Fmt) (s : Bool) (n : Nat) (q : Int) : Nat :=
  f.signBits s +
    (if n < 2 ^ f.frac then n
     else
       let k := Nat.log2 n - f.frac
       (q + k + f.frac + f.bias).toNat * 2 ^ f.frac + (n / 2 ^ k - 2 ^ f.frac))

/-- The result of an overflow under a mode (R114). -/
def Fmt.overflowed (f : Fmt) (mode : RMode) (s : Bool) : Nat :=
  match mode.toNat with
  | 0 => f.inf s
  | 1 => f.vmax s
  | 2 => if s then f.vmax s else f.inf s
  | _ => if s then f.inf s else f.vmax s

/-- The flags of a result that did not overflow (R114 step 5). -/
def Rounded.flags (r : Rounded) : FpFlags := flagIf r.inexact ixe ||| flagIf r.tiny ufe

/-- `Round(y, fmt, mode)` (R114): the pattern and the flags. -/
def Fmt.round (f : Fmt) (mode : RMode) (s : Bool) (m : Nat) (e : Int) : Nat × FpFlags :=
  if m = 0 then (f.signBits s, 0)
  else
    let r := f.roundMag mode s m e
    if r.beyond then (f.overflowed mode s, ofe ||| ixe) else (f.pattern s r.n r.q, r.flags)

/-- A value that may be infinite, rounded; an infinity raises no flag. -/
def Fmt.ofNum (f : Fmt) (mode : RMode) : Num → Nat × FpFlags
  | .nan => (f.nan false, 0)
  | .inf s => (f.inf s, 0)
  | .fin s m e => f.round mode s m e

/-- R119: an invalid operation with no NaN operand. -/
def Fmt.invalid (f : Fmt) : Nat × FpFlags := (f.nan false, ive)

/-- R119: the result when some operand is NaN: the first one, quieted, with IVE where any is signalling. -/
def Fmt.nanOf (f : Fmt) (xs : List Nat) : Option (Nat × FpFlags) :=
  (xs.find? f.isNan).map fun x => (f.quiet x, flagIf (xs.any f.isSnan) ive)

end Sys2Proof.Machine
end

