-- ==== Sys2Proof/Config.lean ====
section
/-!
DEFINITION. What the spec fixes for every part, and the values it leaves open.

An open value is an opaque constant, applied to a count that the state keeps (`Clock.fresh`) or to its operands: no
proof can see what it is.
-/

namespace Sys2Proof.Config

/-! ## Fixed by the spec -/

/-- ISAVER: major 3, minor 0, generation 3, stepping 0 (R4). -/
def isaver : Word := 0x03000300

/-- FEAT0 to FEAT3 (R6 to R9). -/
def feat : Nat → Word
  | 0 => 0x00000FFF
  | 1 => 0x00003FFF
  | 2 => 0x83C6C480
  | _ => 0x0044200F

/-- The end of local HBM: 576 GiB (R271, R400). -/
def hbmTop : Nat := 0x9000000000

/-- Where this model lays bank memory out: above every HBM address, 2^28 bytes for each launch (R296; DESIGN CHOICE,
log 26). -/
def bankBase : Nat := 2 ^ 40

/-- Bytes this model keeps for one launch's bank memory (DESIGN CHOICE, log 26). -/
def bankSpan : Nat := 2 ^ 28

/-- The on-chip task pool (R226): 65,536 records. -/
def poolRecords : Nat := 65536

/-- Scratchpad bytes of a core (R313). -/
def scratchBytes : Nat := 1572864

/-- The base of firmware-reserved memory for its size in GiB (R400). -/
def reservedBase (gib : Nat) : Nat := hbmTop - gib * 2 ^ 30

/-! ## Left open: free values (DESIGN CHOICE, log 6, 18, 90) -/

/-- The delay, in half nanoseconds, of the `n`-th thing whose time the spec leaves open. -/
opaque latency : Nat → Nat

/-- Firmware's `n`-th answer to a service (R233). -/
opaque serviceAnswer : Nat → Word

/-- The vendor key digest in the fuses (R392; DESIGN CHOICE, log 90). -/
opaque vendorKeyDigest : List Byte

/-- The boot ROM's own bytes, of which it records the digest (R391; DESIGN CHOICE, log 90). -/
opaque romImage : List Byte

/-- The device identity key in the fuses, and the number drawn for a signature of a digest (R394; DESIGN CHOICE, log
90). -/
opaque deviceKey : Nat
opaque signNumber : List Byte → Nat

/-- The part's energy counters, by class, at their `n`-th reading (R395; DESIGN CHOICE, log 6). -/
opaque energy : Nat → Nat → BitVec 64

/-- The home slice of a superblock of local HBM (R276; DESIGN CHOICE, log 15). -/
opaque sliceOf : Nat → Nat

/-- The `n`-th value of 64 bits that the spec leaves open. -/
opaque freeDWord : Nat → DWord

/-- The `n`-th bit of contents that the spec leaves open. -/
opaque freeBit : Nat → Bool

end Sys2Proof.Config
end

