-- ==== Sys2Proof/Syntax.lean ====
section
/-!
DEFINITION. The steps of the part as syntax: one constructor per row of the table of operations and events.

Core instructions (R68 to R94) carry the switch marker `m`, which is bit 31, and the fields of their format at the
widths of R69. Trellis instructions (R344) carry the fields of their format. A row without an encoding is a step that
no instruction word starts; its arguments name what it acts on.
-/

namespace Sys2Proof

/-- A control-port message (R384): the header fields and the payload. `reserved` is the value of the eight reserved
bytes of the header. -/
structure CtlMsg where
  mtype : Nat
  len : Nat
  seq : Nat
  addr : Nat
  tag : Nat
  status : Nat
  reserved : Nat
  payload : List Byte
  deriving DecidableEq, Repr

/-- What a member of a collective learns from a peer (R360, R363): that the peer has issued its matching operation,
with its descriptor fields; a chunk; an acknowledgement of a chunk; or that no path to the peer exists. `kind` is 0
to 3 in that order. `members` and `number` pair the operations up. -/
structure CollMsg where
  members : Nat
  number : Nat
  rank : Nat
  kind : Nat
  fields : List Nat
  chunk : Nat
  data : List Byte
  deriving DecidableEq, Repr

/-- The steps of the part: every row of the table of operations and events. -/
inductive Instr where
  /-- R140. Adds two vector integers in each active lane and writes the low 32 bits tagged I32. -/
  | iadd (m : Bool) (d a b : BitVec 7)
  /-- R140. Subtracts vector integers per lane. -/
  | isub (m : Bool) (d a b : BitVec 7)
  /-- R140. Multiplies vector integers per lane, keeping the low 32 bits. -/
  | imul (m : Bool) (d a b : BitVec 7)
  /-- R140. Writes the high 32 bits of a signed 64-bit product. -/
  | imulh (m : Bool) (d a b : BitVec 7)
  /-- R140. Writes the high 32 bits of an unsigned product tagged UI32. -/
  | imulhu (m : Bool) (d a b : BitVec 7)
  /-- R140. Multiplies a by b and adds d per lane. -/
  | imad (m : Bool) (d a b : BitVec 7)
  /-- R140. Writes the signed minimum per lane. -/
  | imin (m : Bool) (d a b : BitVec 7)
  /-- R140. Writes the signed maximum per lane. -/
  | imax (m : Bool) (d a b : BitVec 7)
  /-- R140. Writes the unsigned minimum per lane. -/
  | iminu (m : Bool) (d a b : BitVec 7)
  /-- R140. Writes the unsigned maximum per lane. -/
  | imaxu (m : Bool) (d a b : BitVec 7)
  /-- R140. Writes the absolute value per lane. -/
  | iabs (m : Bool) (d a : BitVec 7)
  /-- R140. Writes the negation per lane. -/
  | ineg (m : Bool) (d a : BitVec 7)
  /-- R141. Bitwise AND per lane, tagged RAW. -/
  | and (m : Bool) (d a b : BitVec 7)
  /-- R141. Bitwise OR per lane. -/
  | or (m : Bool) (d a b : BitVec 7)
  /-- R141. Bitwise XOR per lane. -/
  | xor (m : Bool) (d a b : BitVec 7)
  /-- R141. Writes a AND NOT b per lane. -/
  | andn (m : Bool) (d a b : BitVec 7)
  /-- R141. Shifts left by b per lane. -/
  | shl (m : Bool) (d a b : BitVec 7)
  /-- R141. Shifts right logically by b per lane. -/
  | shr (m : Bool) (d a b : BitVec 7)
  /-- R141. Shifts right arithmetically by b per lane. -/
  | sar (m : Bool) (d a b : BitVec 7)
  /-- R141. Rotates left by b mod 32 per lane. -/
  | rotl (m : Bool) (d a b : BitVec 7)
  /-- R141. Counts 1 bits per lane. -/
  | popc (m : Bool) (d a : BitVec 7)
  /-- R141. Counts leading zero bits per lane. -/
  | clz (m : Bool) (d a : BitVec 7)
  /-- R141. Reverses the bits per lane. -/
  | brev (m : Bool) (d a : BitVec 7)
  /-- R142. Extracts a zero-extended bit field. -/
  | bfx (m : Bool) (d a b : BitVec 7)
  /-- R142. Extracts a sign-extended bit field. -/
  | bfxs (m : Bool) (d a b : BitVec 7)
  /-- R142. Inserts a bit field into d. -/
  | bfi (m : Bool) (d a b : BitVec 7)
  /-- R140. Saturating signed add per lane. -/
  | iadds (m : Bool) (d a b : BitVec 7)
  /-- R140. Saturating signed subtract per lane. -/
  | isubs (m : Bool) (d a b : BitVec 7)
  /-- R143. Copies bits and tag of a vector register. -/
  | mov (m : Bool) (d a : BitVec 7)
  /-- R143. Copies bits and sets the format tag to k. -/
  | retag (m : Bool) (d a k : BitVec 7)
  /-- R144. Add with a uniform b operand, uniform or vector class by VC. -/
  | ualuIadd (m vc : Bool) (d a b : BitVec 7)
  /-- R144. Subtract with a uniform b operand. -/
  | ualuIsub (m vc : Bool) (d a b : BitVec 7)
  /-- R144. Multiply with a uniform b operand. -/
  | ualuImul (m vc : Bool) (d a b : BitVec 7)
  /-- R144. Signed minimum with a uniform b operand. -/
  | ualuImin (m vc : Bool) (d a b : BitVec 7)
  /-- R144. Signed maximum with a uniform b operand. -/
  | ualuImax (m vc : Bool) (d a b : BitVec 7)
  /-- R144. Unsigned minimum with a uniform b operand. -/
  | ualuIminu (m vc : Bool) (d a b : BitVec 7)
  /-- R144. Unsigned maximum with a uniform b operand. -/
  | ualuImaxu (m vc : Bool) (d a b : BitVec 7)
  /-- R144. Bitwise AND with a uniform b operand. -/
  | ualuAnd (m vc : Bool) (d a b : BitVec 7)
  /-- R144. Bitwise OR with a uniform b operand. -/
  | ualuOr (m vc : Bool) (d a b : BitVec 7)
  /-- R144. Bitwise XOR with a uniform b operand. -/
  | ualuXor (m vc : Bool) (d a b : BitVec 7)
  /-- R144. AND NOT with a uniform b operand. -/
  | ualuAndn (m vc : Bool) (d a b : BitVec 7)
  /-- R144. Shift left by a uniform amount. -/
  | ualuShl (m vc : Bool) (d a b : BitVec 7)
  /-- R144. Logical shift right by a uniform amount. -/
  | ualuShr (m vc : Bool) (d a b : BitVec 7)
  /-- R144. Arithmetic shift right by a uniform amount. -/
  | ualuSar (m vc : Bool) (d a b : BitVec 7)
  /-- R144. Moves a uniform value to a uniform or vector register. -/
  | ualuMov (m vc : Bool) (d b : BitVec 7)
  /-- R145. Adds a signed immediate per lane. -/
  | iaddi (m : Bool) (d a : BitVec 7) (imm : BitVec 9)
  /-- R145. ANDs a sign-extended immediate per lane. -/
  | andi (m : Bool) (d a : BitVec 7) (imm : BitVec 9)
  /-- R145. ORs a sign-extended immediate per lane. -/
  | ori (m : Bool) (d a : BitVec 7) (imm : BitVec 9)
  /-- R145. XORs a sign-extended immediate per lane. -/
  | xori (m : Bool) (d a : BitVec 7) (imm : BitVec 9)
  /-- R145. Shifts left by an immediate per lane. -/
  | shli (m : Bool) (d a : BitVec 7) (imm : BitVec 9)
  /-- R145. Shifts right logically by an immediate per lane. -/
  | shri (m : Bool) (d a : BitVec 7) (imm : BitVec 9)
  /-- R145. Shifts right arithmetically by an immediate per lane. -/
  | sari (m : Bool) (d a : BitVec 7) (imm : BitVec 9)
  /-- R145. Multiplies by a signed immediate per lane. -/
  | imuli (m : Bool) (d a : BitVec 7) (imm : BitVec 9)
  /-- R145. Adds an immediate to a uniform register. -/
  | ualuiIaddi (m : Bool) (d a : BitVec 7) (imm : BitVec 9)
  /-- R145. ANDs an immediate into a uniform register. -/
  | ualuiAndi (m : Bool) (d a : BitVec 7) (imm : BitVec 9)
  /-- R145. ORs an immediate into a uniform register. -/
  | ualuiOri (m : Bool) (d a : BitVec 7) (imm : BitVec 9)
  /-- R145. XORs an immediate into a uniform register. -/
  | ualuiXori (m : Bool) (d a : BitVec 7) (imm : BitVec 9)
  /-- R145. Shifts a uniform register left by an immediate. -/
  | ualuiShli (m : Bool) (d a : BitVec 7) (imm : BitVec 9)
  /-- R145. Shifts a uniform register right logically by an immediate. -/
  | ualuiShri (m : Bool) (d a : BitVec 7) (imm : BitVec 9)
  /-- R145. Shifts a uniform register right arithmetically by an immediate. -/
  | ualuiSari (m : Bool) (d a : BitVec 7) (imm : BitVec 9)
  /-- R145. Multiplies a uniform register by an immediate. -/
  | ualuiImuli (m : Bool) (d a : BitVec 7) (imm : BitVec 9)
  /-- R146. Writes a sign-extended 17-bit immediate to a vector register, tag I32. -/
  | movl (m : Bool) (d : BitVec 7) (imm : BitVec 17)
  /-- R146. Writes an immediate to bits 31:15 of a vector register. -/
  | movh (m : Bool) (d : BitVec 7) (imm : BitVec 17)
  /-- R146. Writes a sign-extended immediate to a uniform register. -/
  | movlUniform (m : Bool) (d : BitVec 7) (imm : BitVec 17)
  /-- R146. Writes an immediate to bits 31:15 of a uniform register. -/
  | movhUniform (m : Bool) (d : BitVec 7) (imm : BitVec 17)
  /-- R147. Compares integers per lane under the condition in fn and writes a predicate. -/
  | icmp (m : Bool) (c : BitVec 5) (d a b : BitVec 7)
  /-- R148. Adds two 64-bit pairs. -/
  | aadd (m : Bool) (d a b : BitVec 7)
  /-- R148. Adds an extended 32-bit value to a 64-bit pair. -/
  | aaddx (m : Bool) (d a b : BitVec 7)
  /-- R148. Subtracts two 64-bit pairs. -/
  | asub (m : Bool) (d a b : BitVec 7)
  /-- R148. Adds a scaled extended index to a 64-bit pair, scale 1, 2, 4 or 8 by fn. -/
  | alea (m : Bool) (x : BitVec 2) (d a b : BitVec 7)
  /-- R148. Compares 64-bit pairs for equality into a predicate. -/
  | acmpeq (m : Bool) (d a b : BitVec 7)
  /-- R148. Compares 64-bit pairs unsigned less-than into a predicate. -/
  | acmpltu (m : Bool) (d a b : BitVec 7)
  /-- R148. Builds a 64-bit vector pair from a uniform pair. -/
  | afroms (m : Bool) (d a : BitVec 7)
  /-- R150. Float add rounded by FPMODE. -/
  | fadd (m : Bool) (d a b : BitVec 7)
  /-- R150. Float subtract. -/
  | fsub (m : Bool) (d a b : BitVec 7)
  /-- R150. Float multiply. -/
  | fmul (m : Bool) (d a b : BitVec 7)
  /-- R151. Fused a·b + d. -/
  | ffma (m : Bool) (d a b : BitVec 7)
  /-- R151. Fused a·b − d. -/
  | ffms (m : Bool) (d a b : BitVec 7)
  /-- R151. Fused −(a·b) + d. -/
  | fnma (m : Bool) (d a b : BitVec 7)
  /-- R152. Float minimum with NaN propagation. -/
  | fmin (m : Bool) (d a b : BitVec 7)
  /-- R152. Float maximum with NaN propagation. -/
  | fmax (m : Bool) (d a b : BitVec 7)
  /-- R152. Float minimum preferring the number. -/
  | fminnum (m : Bool) (d a b : BitVec 7)
  /-- R152. Float maximum preferring the number. -/
  | fmaxnum (m : Bool) (d a b : BitVec 7)
  /-- R153. Clears each element's sign bit. -/
  | fabs (m : Bool) (d a : BitVec 7)
  /-- R153. Inverts each element's sign bit. -/
  | fneg (m : Bool) (d a : BitVec 7)
  /-- R153. Takes the sign of b onto a. -/
  | fcopysign (m : Bool) (d a b : BitVec 7)
  /-- R154. Rounds each element to an integral value by the mode in b. -/
  | frnd (m : Bool) (d a k : BitVec 7)
  /-- R155. Writes a class mask for each element. -/
  | fclass (m : Bool) (d a : BitVec 7)
  /-- R156. Two-element 16-bit dot product accumulated into F32 with one rounding. -/
  | fdot2 (m : Bool) (d a b : BitVec 7)
  /-- R156. Four-element F8 dot product accumulated into F32 with one rounding. -/
  | fdot4 (m : Bool) (d a b : BitVec 7)
  /-- R157. Correctly rounded division. -/
  | fdiv (m : Bool) (d a b : BitVec 7)
  /-- R158. Multiplies by 2 to an integer power. -/
  | fscale (m : Bool) (d a b : BitVec 7)
  /-- R159. Returns the exponent as a float. -/
  | fgetexp (m : Bool) (d a : BitVec 7)
  /-- R159. Returns the mantissa in [1,2). -/
  | fgetman (m : Bool) (d a : BitVec 7)
  /-- R160. Compares floats under the condition in fn and writes a predicate. -/
  | fcmp (m : Bool) (c : BitVec 5) (d a b : BitVec 7)
  /-- R162. Converts elements to the target tag with element select, rounding and saturation. -/
  | cvt (m : Bool) (t : BitVec 5) (d a : BitVec 7) (elem : BitVec 3) (dyn sat : Bool) (rnd : BitVec 2)
  /-- R164. Correctly rounded reciprocal, variable latency. -/
  | frcp (m : Bool) (d a : BitVec 7)
  /-- R164. Correctly rounded reciprocal square root. -/
  | frsq (m : Bool) (d a : BitVec 7)
  /-- R164. Correctly rounded square root. -/
  | fsqrt (m : Bool) (d a : BitVec 7)
  /-- R165. Evaluates the bound activation table bank on an F32 input. -/
  | flut (m : Bool) (d a : BitVec 7)
  /-- R167. Starts loading an activation table bank from memory once no other group is bound to it. -/
  | atload (m : Bool) (a k : BitVec 7)
  /-- R168. Binds the group to an activation table bank. -/
  | atbind (m : Bool) (k : BitVec 7)
  /-- R169. Returns a snapshot of the core's activation table banks. -/
  | atstat (m : Bool) (d : BitVec 7)
  /-- R172. Shuffles from the lane indexed by b. -/
  | shfli (m : Bool) (d a b : BitVec 7)
  /-- R172. Shuffles from lane l − k. -/
  | shflu (m : Bool) (d a k : BitVec 7)
  /-- R172. Shuffles from lane l + k. -/
  | shfld (m : Bool) (d a k : BitVec 7)
  /-- R172. Shuffles from lane l XOR k. -/
  | shflx (m : Bool) (d a k : BitVec 7)
  /-- R173. Writes the AND of a predicate over participants. -/
  | voteall (m : Bool) (d a : BitVec 7)
  /-- R173. Writes the OR of a predicate over participants. -/
  | voteany (m : Bool) (d a : BitVec 7)
  /-- R173. Gathers participants' predicate bits into a uniform mask. -/
  | ballot (m : Bool) (d a : BitVec 7)
  /-- R174. Tree sum over participants. -/
  | redadd (m : Bool) (d a : BitVec 7)
  /-- R174. Tree minimum over participants. -/
  | redmin (m : Bool) (d a : BitVec 7)
  /-- R174. Tree maximum over participants. -/
  | redmax (m : Bool) (d a : BitVec 7)
  /-- R174. Bitwise AND reduction. -/
  | redand (m : Bool) (d a : BitVec 7)
  /-- R174. Bitwise OR reduction. -/
  | redor (m : Bool) (d a : BitVec 7)
  /-- R174. Bitwise XOR reduction. -/
  | redxor (m : Bool) (d a : BitVec 7)
  /-- R175. Inclusive sum scan over participants. -/
  | scanadd (m : Bool) (d a : BitVec 7)
  /-- R175. Inclusive maximum scan over participants. -/
  | scanmax (m : Bool) (d a : BitVec 7)
  /-- R176. Writes the mask of participants holding equal bits. -/
  | matchLanes (m : Bool) (d a : BitVec 7)
  /-- R176. Broadcasts lane k's value to participants. -/
  | bcast (m : Bool) (d a k : BitVec 7)
  /-- R176. Writes a uniform value to every participant, tag RAW. -/
  | splat (m : Bool) (d a : BitVec 7)
  /-- R177. Predicate AND per lane. -/
  | pand (m : Bool) (d a b : BitVec 7)
  /-- R177. Predicate OR per lane. -/
  | por (m : Bool) (d a b : BitVec 7)
  /-- R177. Predicate XOR per lane. -/
  | pxor (m : Bool) (d a b : BitVec 7)
  /-- R177. Predicate NOT per lane. -/
  | pnot (m : Bool) (d a : BitVec 7)
  /-- R177. Predicate copy per lane. -/
  | pmov (m : Bool) (d a : BitVec 7)
  /-- R177. Predicate AND NOT per lane. -/
  | pandn (m : Bool) (d a b : BitVec 7)
  /-- R178. Gathers a predicate of all 32 lanes into a uniform mask. -/
  | ptos (m : Bool) (d a : BitVec 7)
  /-- R178. Sets each active lane's predicate from a uniform mask bit. -/
  | pfroms (m : Bool) (d a : BitVec 7)
  /-- R179. Selects a or b per lane by a predicate. -/
  | sel (m n : Bool) (p : BitVec 4) (d a b : BitVec 7)
  /-- R180. Branches each active lane whose predicate holds. -/
  | bra (m n : Bool) (p : BitVec 4) (off : BitVec 21)
  /-- R181. Moves the window, saves return offset and caller base, and jumps. -/
  | call (m : Bool) (wsh : BitVec 5) (off : BitVec 21)
  /-- R183. Jumps each lane to the address in a 64-bit pair. -/
  | brx (m : Bool) (a : BitVec 7)
  /-- R182. Returns through v0 and v1, restoring the window. -/
  | ret (m : Bool)
  /-- R184. Sets each lane's window base from a register. -/
  | wbase (m : Bool) (a : BitVec 7)
  /-- R184. Adds a signed step to each lane's window base. -/
  | wadj (m : Bool) (k : BitVec 7)
  /-- R28. Enrols the active lanes in a rejoin mask. -/
  | jenr (m : Bool) (d : BitVec 7)
  /-- R28. Records arrival of enrolled lanes, which park in JOIN; a safe point. -/
  | jarv (m : Bool) (d : BitVec 7)
  /-- R28. Strikes the active lanes out of a rejoin mask. -/
  | jstk (m : Bool) (d : BitVec 7)
  /-- R28. Releases parked lanes and clears a rejoin mask. -/
  | jclr (m : Bool) (d : BitVec 7)
  /-- R185. Reads ENROL and ARRIVED of a rejoin mask into a vector pair. -/
  | jqry (m : Bool) (d a : BitVec 7)
  /-- R26. Safe point that begins a fairness rotation at once. -/
  | yield (m : Bool)
  /-- R186. Safe point with no other effect. -/
  | safept (m : Bool)
  /-- R56. Moves the active lanes to DONE and retires the group with its last lane. -/
  | exit (m : Bool)
  /-- R188. Advances LPC only. -/
  | nop (m : Bool)
  /-- R54. Ends a rebuild stub, returning lanes to their saved state. -/
  | resume (m : Bool)
  /-- R40. Sets the team's accumulator window base. -/
  | acbase (m : Bool) (k : BitVec 7)
  /-- R230. Reads a special register into a vector or uniform destination. -/
  | sread (m : Bool) (d cls b : BitVec 7)
  /-- R231. Writes an RW special register such as FPMODE, FPFLAGS, PPROM, FAIRTIME or LEASEOVR. -/
  | swrite (m : Bool) (cls a b : BitVec 7)
  /-- R232. Raises the software-trap fault with code k. -/
  | trap (m : Bool) (k : BitVec 7)
  /-- R233. Null firmware service writing 0 to s124. -/
  | svcNull (m : Bool)
  /-- R310. Asks firmware to extend the group's stack limit. -/
  | svcStack (m : Bool)
  /-- R233. Asks firmware to map a page at an address. -/
  | svcMap (m : Bool)
  /-- R233. Posts a 32-bit log word to the control node. -/
  | svcLog (m : Bool)
  /-- R233. A service number 4–127 that writes 0xFFFF_FFFF to s124. -/
  | svcUnprovided (m : Bool) (k : BitVec 7)
  /-- R234. Halts the group for an attached debugger, else acts as NOP. -/
  | bkpt (m : Bool) (k : BitVec 7)
  /-- R235. Ends the handler and re-executes the faulting instruction. -/
  | tret (m : Bool)
  /-- R235. Ends the handler and skips the faulting instruction. -/
  | tskip (m : Bool)
  /-- R235. Ends the handler by moving lanes to DONE and posting fault records. -/
  | tkill (m : Bool)
  /-- R198. Loads global memory per lane with the width and tag of at. -/
  | ldg (m : Bool) (acc : BitVec 5) (d a b : BitVec 7)
  /-- R199. Stores to global memory per lane, receiving a WCT. -/
  | stg (m : Bool) (acc : BitVec 5) (d a b : BitVec 7)
  /-- R198. Loads scratchpad per lane. -/
  | ldp (m : Bool) (acc : BitVec 5) (d a b : BitVec 7)
  /-- R199. Stores to scratchpad per lane. -/
  | stp (m : Bool) (acc : BitVec 5) (d a b : BitVec 7)
  /-- R198. Loads global memory once into uniform registers. -/
  | ldu (m : Bool) (acc : BitVec 5) (d a b : BitVec 7)
  /-- R199. Stores uniform registers to global memory once. -/
  | stu (m : Bool) (acc : BitVec 5) (d a b : BitVec 7)
  /-- R202. Global 32-bit atomic, optionally lane-reduced. -/
  | atom (m r : Bool) (op : BitVec 4) (d a b : BitVec 7)
  /-- R202. Scratchpad 32-bit atomic, optionally lane-reduced. -/
  | atomp (m r : Bool) (op : BitVec 4) (d a b : BitVec 7)
  /-- R205. Puts active lanes in WAIT until their writes of the scope are visible. -/
  | fence (m : Bool) (k : BitVec 7)
  /-- R206. Team barrier; a safe point. -/
  | bar (m : Bool)
  /-- R206. Cluster barrier; a safe point. -/
  | cbar (m : Bool)
  /-- R208. Initialises a byte-counting barrier word. -/
  | bcinit (m : Bool) (a b : BitVec 7)
  /-- R208. Adds to EXPECTED of a byte-counting barrier. -/
  | bcexp (m : Bool) (a b : BitVec 7)
  /-- R208. Waits until ARRIVED reaches EXPECTED or ERR is set; a safe point. -/
  | bcwait (m : Bool) (a : BitVec 7)
  /-- R211. Checks and resets a trug descriptor. -/
  | tginit (m : Bool) (a : BitVec 7)
  /-- R211. Acquires a free trug slot, waiting if none; a safe point. -/
  | tgacq (m : Bool) (d a : BitVec 7)
  /-- R211. Commits bytes to an acquired trug slot as a release. -/
  | tgcmt (m : Bool) (d a b : BitVec 7)
  /-- R211. Waits for the member's next filled trug slot; a safe point. -/
  | tgwait (m : Bool) (d a : BitVec 7)
  /-- R211. Releases the member's current trug slot. -/
  | tgrel (m : Bool) (a : BitVec 7)
  /-- R213. Increments kernel-to-script counter K k after a chip fence. -/
  | evsig (m : Bool) (k : BitVec 7)
  /-- R213. Waits until script-to-kernel counter X k reaches a value; a safe point. -/
  | evwait (m : Bool) (a k : BitVec 7)
  /-- R213. Each active lane waits until GTIME reaches a uniform pair. -/
  | twait (m : Bool) (a : BitVec 7)
  /-- R217. Starts a copy engine operation from a descriptor. -/
  | cpy (m : Bool) (d a : BitVec 7)
  /-- R219. Starts a strided or indexed gather. -/
  | gath (m : Bool) (d a : BitVec 7)
  /-- R219. Starts a strided or indexed scatter. -/
  | scat (m : Bool) (d a : BitVec 7)
  /-- R222. Starts a collective over a member table. -/
  | coll (m : Bool) (d a : BitVec 7)
  /-- R220. Starts an element-wise bank-memory operation. -/
  | bankop (m : Bool) (d a : BitVec 7)
  /-- R221. Starts a fixed-order reduction of bank-memory vectors. -/
  | bankred (m : Bool) (d a : BitVec 7)
  /-- R223. Prefetches a range into L1 or the last-level cache. -/
  | pfetch (m : Bool) (lvl a b : BitVec 7)
  /-- R223. Writes dirty last-level lines of a range back to HBM. -/
  | cflush (m : Bool) (d a b : BitVec 7)
  /-- R223. Drops the core's L1 superblocks of a range. -/
  | cinv (m : Bool) (d a b : BitVec 7)
  /-- R216. Returns the status or error address of an engine handle. -/
  | engst (m : Bool) (d a k : BitVec 7)
  /-- R224. Pushes a task record and returns its status. -/
  | task (m : Bool) (d a : BitVec 7)
  /-- R225. Atomically adds to a successor count at its home slice. -/
  | tsucc (m : Bool) (d a b : BitVec 7)
  /-- R226. Returns task pool information selected by k. -/
  | tstat (m : Bool) (d k : BitVec 7)
  /-- R227. Declares a cutting slot. -/
  | ctdecl (m : Bool) (d a : BitVec 7)
  /-- R227. Frees a cutting slot selected by the FREE bit, squashing its speculative groups. -/
  | ctdeclFree (m : Bool) (d a : BitVec 7)
  /-- R228. Starts posting a tile as a slot's next version. -/
  | ctpost (m : Bool) (d a b : BitVec 7)
  /-- R228. Starts fetching a real or predicted tile from a slot. -/
  | ctget (m : Bool) (d a b : BitVec 7)
  /-- R229. Returns a snapshot of a cutting slot. -/
  | ctstat (m : Bool) (d a : BitVec 7)
  /-- R248. Writes a tile descriptor and discards its unclaimed scale packets. -/
  | tdset (m : Bool) (d a : BitVec 7)
  /-- R252. Queues loading of a B tile into a weight-store span. -/
  | bload (m : Bool) (a b : BitVec 7)
  /-- R252. Queues freeing of a weight-store span, selected by the FREE bit. -/
  | bloadFree (m : Bool) (a b : BitVec 7)
  /-- R249. Pushes a packet of A block scales into a scale queue. -/
  | scpush (m : Bool) (d a b : BitVec 7)
  /-- R250. Checks and queues one matrix step, claiming its scale packets. -/
  | mma (m : Bool) (d a b : BitVec 7)
  /-- R253. Returns the status of a weight-store slot. -/
  | bstatSlot (m : Bool) (d a : BitVec 7)
  /-- R253. Returns the state of a scale queue. -/
  | bstatQueue (m : Bool) (d a : BitVec 7)
  /-- R253. Reads and clears the team's matrix error word. -/
  | bstatError (m : Bool) (d : BitVec 7)
  /-- R253. Writes 0 once every matrix operation of the group has completed. -/
  | bstatDrain (m : Bool) (d : BitVec 7)
  /-- R255. Queues zeroing of the owned rows of a tile. -/
  | aczero (m : Bool) (d : BitVec 7)
  /-- R255. Queues loading of owned tile rows from scratchpad. -/
  | acld (m : Bool) (d a b : BitVec 7)
  /-- R256. Queues storing of owned tile rows with conversion and optional epilogue. -/
  | acst (m : Bool) (d a : BitVec 7)
  /-- R255. Queues element-wise addition of two tiles. -/
  | acadd (m : Bool) (d a b : BitVec 7)
  /-- R255. Queues row scaling of a tile. -/
  | acmul (m : Bool) (d a b : BitVec 7)
  /-- R257. Reads and clears a tile's overflow counter after earlier writes complete. -/
  | acovf (m : Bool) (d a : BitVec 7)
  /-- R255. Queues copying of a tile's owned rows. -/
  | acmov (m : Bool) (d a : BitVec 7)
  /-- R74. A word with a reserved major or fn raises the illegal-instruction fault. -/
  | illegalInstruction
  /-- R345. Copies a script register. -/
  | kmov (d a : BitVec 4)
  /-- R345. Loads a sign-extended 14-bit immediate. -/
  | kmovi (d : BitVec 4) (imm : BitVec 14)
  /-- R345. Shifts a register left by 14 and adds an immediate. -/
  | kmoviSh (d : BitVec 4) (imm : BitVec 14)
  /-- R345. Adds two registers and an immediate. -/
  | kadd (d a b : BitVec 4) (imm : BitVec 14)
  /-- R345. Subtracts two registers. -/
  | ksub (d a b : BitVec 4)
  /-- R345. Bitwise AND of two registers. -/
  | kand (d a b : BitVec 4)
  /-- R345. Bitwise OR of two registers. -/
  | kor (d a b : BitVec 4)
  /-- R345. Loads 8 bytes of global memory as a class-0 load. -/
  | kld (d a : BitVec 4) (imm : BitVec 14)
  /-- R345. Stores 8 bytes and waits for the WCT. -/
  | kst (d a : BitVec 4) (imm : BitVec 14)
  /-- R345. Branches if two registers are equal. -/
  | kbeq (a b : BitVec 4) (imm : BitVec 14)
  /-- R345. Branches if two registers differ. -/
  | kbne (a b : BitVec 4) (imm : BitVec 14)
  /-- R345. Branches if signed less than. -/
  | kblt (a b : BitVec 4) (imm : BitVec 14)
  /-- R345. Jumps by a word offset. -/
  | kjmp (imm : BitVec 14)
  /-- R345. Reads GTIME into a register. -/
  | ktime (d : BitVec 4)
  /-- R345. Starts a timed wait of the script context. -/
  | ksleep (a : BitVec 4) (imm : BitVec 14)
  /-- R345. Halts the context and posts a script-halt completion. -/
  | khalt (imm : BitVec 14)
  /-- R345. Does nothing. -/
  | knop
  /-- R347. Requests a circuit on a DARK port, naming peer and barrier word. -/
  | creq (d a b : BitVec 4)
  /-- R347. Waits for a port state, DARK or FAULT, or a deadline. -/
  | cwait (d a b : BitVec 4) (imm : BitVec 14)
  /-- R340. Releases a port's circuit, draining or going DARK. -/
  | crel (d a : BitVec 4)
  /-- R339. Writes a port's latency-tolerance register. -/
  | ctol (a b : BitVec 4)
  /-- R347. Returns a port's barrier word, link status or refusal code. -/
  | cstat (d a : BitVec 4) (imm : BitVec 14)
  /-- R351. Writes a route-table entry subject to the rank order. -/
  | cpathRoute (d a : BitVec 4)
  /-- R351. Sets a channel rank and reports it to the peer. -/
  | cpathRank (d a : BitVec 4)
  /-- R351. Sets every route-table entry to NONE. -/
  | cpathClear (d a : BitVec 4)
  /-- R348. Waits until kernel-to-script counter K k reaches a value. -/
  | ewait (a : BitVec 4) (imm : BitVec 14)
  /-- R348. Increments script-to-kernel counter X k after earlier stores are visible. -/
  | esig (imm : BitVec 14)
  /-- R345. GTIME reaches the KSLEEP deadline and the context continues. -/
  | ksleepExpiry (ctx : Nat)
  /-- R347. GTIME reaches the CWAIT deadline and the port state is returned. -/
  | cwaitTimeout (ctx : Nat)
  /-- R305. A launch record arrives, is checked and enters its queue or is refused. -/
  | launch (msg : CtlMsg)
  /-- R307. A queue takes its head record through image checks, carve-out placement and script start once the previous
  grid has completed. -/
  | launchQueueHead (queue : Nat)
  /-- R296. A launch waiting for bank-memory room proceeds when completing launches free units. -/
  | carveoutWaitEnd (queue : Nat)
  /-- R386. Reads physical local HBM for the control node. -/
  | read (msg : CtlMsg)
  /-- R386. Writes physical local HBM as class-3 stores and acknowledges at their WCTs. -/
  | write (msg : CtlMsg)
  /-- R389. Invalidates translations of a virtual range in every TLB and translation cache. -/
  | tinval (msg : CtlMsg)
  /-- R386. Removes queued records and begins termination of running grids of an LTAG. -/
  | terminate (msg : CtlMsg)
  /-- R389. Attaches the debugger so BKPT halts. -/
  | debugAttach (msg : CtlMsg)
  /-- R389. Detaches the debugger and resumes every halted group. -/
  | debugDetach (msg : CtlMsg)
  /-- R322. Freezes a resident group at once. -/
  | debugHalt (msg : CtlMsg)
  /-- R322. Resumes a halted group where it stood. -/
  | debugResume (msg : CtlMsg)
  /-- R389. Reads a register of a halted group. -/
  | debugReadRegister (msg : CtlMsg)
  /-- R389. Writes a register of a halted group. -/
  | debugWriteRegister (msg : CtlMsg)
  /-- R395. Sets placement, migration and throttle thresholds together. -/
  | mgmtThresholds (msg : CtlMsg)
  /-- R395. Sets the ageing quantum. -/
  | mgmtAgeingQuantum (msg : CtlMsg)
  /-- R395. Sets the park delay. -/
  | mgmtParkDelay (msg : CtlMsg)
  /-- R395. Sets the firmware safe-point distance cap. -/
  | mgmtSpdistCap (msg : CtlMsg)
  /-- R395. Sets the package power limit. -/
  | mgmtPowerLimit (msg : CtlMsg)
  /-- R395. Returns ECC, retry, degrade or energy counters. -/
  | mgmtReadCounters (msg : CtlMsg)
  /-- R395. Raises the fused security-version minimum. -/
  | mgmtRaiseSvn (msg : CtlMsg)
  /-- R400. Returns the base of firmware-reserved memory. -/
  | mgmtReservedBase (msg : CtlMsg)
  /-- R394. Returns a signed quote of the measurement log for a nonce. -/
  | attest (msg : CtlMsg)
  /-- R390. The node answers a DEVREAD or DEVWRITE, completing the lane's access. -/
  | devrsp (msg : CtlMsg)
  /-- R390. No DEVRSP within 100 ms: the load faults or the write is reported undelivered. -/
  | devrspTimeout (req : Nat)
  /-- R391. Takes bundle bytes at an offset during boot. -/
  | bootdata (msg : CtlMsg)
  /-- R391. Boot ROM clears SRAM, starts GTIME, records its digest and sends BOOTREQ. -/
  | powerGood
  /-- R391. A reset from the board begins a new boot. -/
  | boardReset
  /-- R391. Firmware finishes training links and reports readiness with an ACK of SEQ 0. -/
  | firmwareReady (reservedGiB : Nat) (blocks : List (List Byte))
  /-- R308. A grid's teams, tasks and operations have all completed; its slots and carve-out are freed. -/
  | gridCompletion (grid : Nat)
  /-- R309. Operations of a terminated grid have completed and GRIDTERMINATED is posted. -/
  | gridTerminationDone (grid : Nat)
  /-- R313. The dispatcher places a candidate team where room exists. -/
  | candidatePlacement (team : Nat)
  /-- R62. A ready task record is bound to a new group which starts at ENTRY. -/
  | taskDispatch (record : Nat)
  /-- R60. A spilled record enters the pool as room appears. -/
  | spillRefill (grid : Nat)
  /-- R59. Firmware finishes or fails mapping a ring page and the held push returns. -/
  | ringPageMapped (grid : Nat) (ok : Bool)
  /-- R272. Firmware maps or refuses a serviceable page and the held access proceeds or faults. -/
  | serviceablePageMapped (grid : Nat) (va : Nat) (ok : Bool) (entry : DWord)
  /-- R25. The fairness count reaches LIMIT and a rotation begins. -/
  | fairnessRotation (group : Nat)
  /-- R25. A rotation ends after LIMIT issues. -/
  | rotationEnd (group : Nat)
  /-- R49. An issue that would raise SPCOUNT above D faults. -/
  | safePointDistanceFault (group : Nat)
  /-- R34. A variable-latency result is written and its pending mark clears. -/
  | pendingResultLands (result : Nat)
  /-- R205. GTIME reaches the lanes' LWCT and acceptances are done; fence lanes return to RUN. -/
  | fenceRelease (group : Nat) (wait : Nat)
  /-- R213. GTIME reaches a TWAIT deadline and the lane returns to RUN. -/
  | twaitRelease (group : Nat)
  /-- R319. No unheld RUN lane remains and the trapped lanes begin the handler. -/
  | handlerStart (group : Nat)
  /-- R57. A retirement tracker entry frees once writes, engines and the decrement are done. -/
  | trackerEntryFree (core : Nat) (group : Nat)
  /-- R63. A retired task's decrement executes at the successor block's home slice. -/
  | successorDecrement (core : Nat) (group : Nat)
  /-- R63. A kept companion record is pushed again as room appears. -/
  | companionRetry (record : Nat)
  /-- R317. A waiting group that has stood for the park delay is parked. -/
  | groupPark (group : Nat)
  /-- R317. A parked group's wait condition holds and it is bound again. -/
  | groupWake (group : Nat)
  /-- R321. A team's TSLICE expires and a pre-emption request is posted if a candidate waits. -/
  | timeSliceExpiry (team : Nat)
  /-- R325. The dispatcher requests pre-emption of lower-priority teams to make room. -/
  | preemptionRequest (team : Nat)
  /-- R324. A team with a pending request stands at a safe point and its save begins. -/
  | teamSave (team : Nat)
  /-- R324. A team's save regions are written and it becomes SAVED. -/
  | saveComplete (team : Nat)
  /-- R326. A saved team is placed again, refilled and its stubs begin. -/
  | teamRestore (team : Nat)
  /-- R328. Each 10 µs a core's temperature sample is compared with the thresholds. -/
  | sensorSample (core : Nat) (temp : Nat) (watts : Nat)
  /-- R396. Package power averaged over 100 µs above 2,000 W stops issue on every core. -/
  | powerStop (watts : Nat)
  /-- R329. Firmware chooses a cooler target and posts migration requests to every team of a hot core. -/
  | migrationRequest (src dst : Nat)
  /-- R329. The last team has moved; LCID map entries are exchanged and paused copies resume. -/
  | migrationTransferDone (src : Nat)
  /-- R279. An L1 superblock's lease expires and its lines become invalid. -/
  | leaseExpiry (core : Nat) (superblock : Nat)
  /-- R359. The ingress atomic cache writes a line back to its home and ownership ends. -/
  | ingressWriteback (line : Nat)
  /-- R209. A delivered run of bytes becomes visible and is added to the barrier or trug. -/
  | engineRunDelivered (core : Nat) (handle : Nat)
  /-- R215. An engine operation completes or errs; locks, status and last bytes are settled in one step. -/
  | engineCompletion (core : Nat) (handle : Nat)
  /-- R218. A waiting copy sees its circuit-live word LIVE at CLGEN, or a later generation. -/
  | circuitBarrierMatch (core : Nat) (handle : Nat)
  /-- R167. An activation table bank finishes loading or faults. -/
  | atloadComplete (core : Nat) (bank : Nat)
  /-- R252. A queued BLOAD reads its data and sets the slot READY. -/
  | bloadTurn (core : Nat)
  /-- R251. A queued MMA step updates its rows by the window sum. -/
  | mmaStep (core : Nat)
  /-- R256. A queued ACST stores converted rows and its epilogue. -/
  | acstTurn (core : Nat)
  /-- R242. Another queued matrix or accumulator operation is performed at its turn. -/
  | matrixQueueTurn (core : Nat)
  /-- R338. The broker grants a paired circuit request. -/
  | circuitGrant (port peerPort setup : Nat)
  /-- R338. The broker refuses a request and the port returns to DARK. -/
  | brokerRefusal (port code : Nat)
  /-- R337. Light arrives after a grant and the port enters LOCKING. -/
  | lightDetected (port : Nat)
  /-- R337. No light within 10 µs of the grant; the port enters FAULT. -/
  | lightTimeout (port : Nat)
  /-- R337. Wavelength lock and clock recovery finish; the port enters TRAINED. -/
  | lockAchieved (port : Nat)
  /-- R337. LOCKING exceeds 30 µs; the port enters FAULT. -/
  | lockTimeout (port : Nat)
  /-- R337. Lane map, credits and rank exchange finish and the LIVE handshake begins. -/
  | trainingDone (port rank : Nat)
  /-- R337. TRAINED exceeds its bound; the port enters FAULT. -/
  | trainingTimeout (port : Nat)
  /-- R337. The port enters LIVE and its generation rises by 1. -/
  | liveHandshakeDone (port : Nat)
  /-- R339. An idle LIVE port enters DOZE after 2 µs. -/
  | portDoze (port : Nat)
  /-- R339. A port in DOZE for 100 µs enters NAP. -/
  | portNap (port : Nat)
  /-- R339. Traffic, a peer request, a waiting copy or a TOL write wakes a sleeping port to LIVE. -/
  | portWake (port : Nat)
  /-- R340. A draining port's in-flight flits are settled and it enters DARK. -/
  | drainEnd (port : Nat)
  /-- R337. DRAINING exceeds 2 µs; the port enters FAULT. -/
  | drainTimeout (port : Nat)
  /-- R355. A lane loses lock or fails FEC and the link retrains. -/
  | laneFailure (channel : Nat) (lanes : BitVec 16)
  /-- R355. A retrain exits; credits resync and replay begins. -/
  | retrainEnd (channel : Nat)
  /-- R358. A retrain exceeds 50 µs and the port faults. -/
  | retrainTimeout (channel : Nat)
  /-- R358. All light is lost and the port faults. -/
  | lightLoss (port : Nat)
  /-- R358. A UCIe module cannot recover and the port faults. -/
  | ucieFailure (port : Nat)
  /-- R357. An electrical link fails its retrain or loses all lanes and goes down. -/
  | elinkDown (link : Nat)
  /-- R336. A flit arrives; CRC, sequence, ACK and credits are processed. -/
  | flitReceive (channel : Nat) (flit : List Byte)
  /-- R356. 2 µs without a new ACK; the sender replays unacknowledged flits. -/
  | retryTimeout (channel : Nat)
  /-- R350. A packet arrives and is delivered or forwarded by the route table. -/
  | packetReceive (channel : Nat) (packet : List Byte)
  /-- R363. A collective chunk arrives and is written once its contributions are present. -/
  | collChunkReceive (msg : CollMsg)
  /-- R374. A CUT record's WAITNS passes and it may be dispatched on a cutting. -/
  | cuttingWaitExpiry (record : Nat)
  /-- R375. A CTGET at the slot delivers a real tile, a speculative version or a prediction. -/
  | ctgetTurn (core : Nat) (handle : Nat)
  /-- R376. A CTPOST at the slot installs a real version or writes a speculative one. -/
  | ctpostTurn (core : Nat) (handle : Nat)
  /-- R379. A committing group's stores reach their WCTs and its held records enter the pool. -/
  | commitWritebackDone (group : Nat)
  /-- R377. Every speculative group lacks line room; the hardware squashes the highest-level one. -/
  | speculativeRoomSquash (core : Nat)
  /-- R377. An uncorrectable error in a speculative line squashes its group. -/
  | speculativeLineError (core : Nat) (group : Nat)
  /-- R318. A lane fetches an instruction at its LPC from a page that fails translation or lacks execute permission and
  enters TRAP with FETCH = 1. -/
  | fetchFault (group : Nat)
  /-- R344. A script context fetches a word whose fetch fails or whose op is reserved, and the context halts with a
  script fault. -/
  | scriptIllegalWord (ctx : Nat)
  /-- R340. The peer port's CREL makes the local port enter DRAINING and then DARK, or DARK at once from LOCKING or
  TRAINED. -/
  | peerRelease (port : Nat)
  /-- R358. The broker reports that the peer port entered FAULT, and the local port enters FAULT with its barrier write
  and copy endings. -/
  | peerFault (port : Nat)
  /-- R350. The other end of a channel reports its rank, and the channel carries packets or stops carrying them as the
  ranks agree or disagree. -/
  | rankReport (channel rank : Nat)
  /-- R357. Firmware trains a down electrical link again, its ranks are exchanged and its channel may carry packets. -/
  | electricalLinkTrained (link rank : Nat)
  /-- R396. The 100 µs average package power falls below 1,800 W and issue resumes on every core at 0.8 GHz. -/
  | powerStopEnd (watts : Nat)
  /-- R379. A committed group's held task record that met a full pool and ring is pushed again as room appears. -/
  | heldRecordRetry (group : Nat)
  /-- R385. A control-port message with an unlisted MTYPE, a nonzero reserved field or a bad LEN draws an ACK with
  STATUS 2 and has no other effect. -/
  | unknownMtype (msg : CtlMsg)
  deriving DecidableEq, Repr

end Sys2Proof
end

