-- ==== Sys2Proof/Machine/State.lean ====
section
/-!
DEFINITION. The state of one Berlos part, as plain data, and the state right after reset.

Sparse tables are lists of (key, value) pairs with keys strictly rising; tables of bytes also list no entry equal to
what an unlisted address reads as. Teams, groups, grids and records are named by a `uid`, a number the model gives out once.
-/

namespace Sys2Proof.Machine

/-! ## Lanes and groups (R16 to R57) -/

/-- What a lane in WAIT waits for (R19). `id` names the issue, so that a fence releases the lanes of one issue
together (R205). -/
inductive Wait where
  | fence (scope id : Nat)
  | bar (id : Nat)
  | cbar (id : Nat)
  | bcwait (offset : Nat)
  | tgacq (address d id : Nat)
  | tgwait (address d id : Nat)
  | evwait (k : Nat) (value : Word)
  | twait (deadline : Nat)
  deriving DecidableEq, Repr

/-- The lane states of R19. -/
inductive LaneState where
  | run
  | wait (w : Wait)
  | join (j : Nat)
  | trap
  | done
  deriving DecidableEq, Repr

/-- A vector register of one lane: 32 bits and a format tag (R35, R42). -/
structure VReg where
  bits : Word
  tag : BitVec 5
  deriving DecidableEq, Repr

/-- Where a lane stood before its rebuild stub (R54). -/
structure Stood where
  lpc : Addr
  state : LaneState
  deriving DecidableEq, Repr

/-- What an access keeps of its issue while firmware is asked to map its page, for the access that follows (R272): the
number of the issue, and the group's registers that it reads. -/
structure Redo where
  issue : Nat
  uregs : List (Nat × Word)
  upend : List Nat
  leaseovr : BitVec 3
  spcount : Nat
  deriving DecidableEq, Repr

/-- One lane (R16, R19, R35, R47). -/
structure Lane where
  /-- The program counter (R19). A waiting or parked lane keeps it at its instruction (DEDUCED, log 23). -/
  lpc : Addr
  state : LaneState
  /-- Running its fault handler (R319). -/
  handler : Bool
  /-- Its last issued instruction was a safe point and it has issued nothing since (R50, R319). -/
  atSafe : Bool
  /-- The virtual address of a serviceable page that firmware is asked to map for this lane (R272). -/
  service : Option Nat
  /-- Its access that was held so, until it is performed or faults (R272). -/
  redo : Option Redo
  /-- Where the lane stood, while it runs a rebuild stub (R54). -/
  stood : Option Stood
  /-- Its stub's RESUME has issued: it goes back once the segment has ended, with the stub's loads complete (R31, R67). -/
  leaving : Bool
  /-- The window base W (R37). -/
  window : Nat
  /-- Physical vector registers; an unlisted one is 0 with tag RAW (R41). -/
  vregs : List (Nat × VReg)
  /-- p0 to p14 (R39). -/
  preds : BitVec 15
  /-- FPFLAGS, bits 4:0 (R116). -/
  fpflags : BitVec 5
  lwct : Nat
  tcause : Word
  tpc : DWord
  taddr : DWord
  /-- Physical vector registers marked pending (R32). -/
  pend : List Nat
  deriving DecidableEq, Repr

/-- A rejoin-mask register (R28). -/
structure JMask where
  enrol : BitVec 32
  arrived : BitVec 32
  deriving DecidableEq, Repr

/-- A tile descriptor with its hidden fields (R240). -/
structure TileDesc where
  abase : Word
  rstride : Word
  word2 : Word
  banda : Word
  valid : Bool
  pseq : BitVec 16
  cseq : BitVec 16
  deriving DecidableEq, Repr

/-- A fairness rotation: its base and the issues left (R25). -/
structure Rotation where
  base : Addr
  left : Nat
  deriving DecidableEq, Repr

/-- A rebuild stub still to run: the safe point's offset, the first instruction, the lanes (R54). -/
structure Stub where
  pcoff : Nat
  start : Addr
  lanes : BitVec 32
  deriving DecidableEq, Repr

/-- Bytes that a held instruction (R193) reads from pages of another chip or of the node before it issues (R214, R364):
the instruction, the address of the first, the request under way, the CAUSE of a refusal, 0 for none, and the bytes so
far. -/
structure HeldRead where
  pc : Addr
  va : Nat
  request : Option Nat
  refused : Nat
  bytes : List Byte
  deriving DecidableEq, Repr

/-- The scheduler states of R316. -/
inductive Sched where
  | candidate
  | resident
  | parked
  | halted
  | saving
  | saved
  | migrating
  | restoring
  | retiring
  deriving DecidableEq, Repr

/-- A task record (R58). `uid` names it, `vis` is its visibility time (R61), `since` the time from which it ages
(R311, R374), `order` its arrival order in the pool, and `gated` says that neither condition of R374 has held yet. -/
structure Task where
  uid : Nat
  grid : Nat
  prio : Nat
  depth : Nat
  cut : Bool
  eclass : Nat
  entry : Nat
  argp : DWord
  tile : DWord
  succ : Nat
  args : List Word
  vis : Nat
  since : Nat
  order : Nat
  gated : Bool
  deriving DecidableEq, Repr

/-- What a speculative group grew from (R375) and what the hardware holds for it (R377). `level` is 0 once it is
committed and before it is speculative. -/
structure Spec where
  level : Nat
  slot : Nat
  want : Nat
  /-- The speculative version it consumed was posted by this group; none when it consumed none. -/
  producer : Option Nat
  /-- It consumed a prediction that is not resolved (R375, R378). -/
  predicted : Bool
  /-- Its commit is counted in a slot's COMMITS (R378). -/
  counted : Bool
  /-- Speculative bytes by physical address, with the lane that wrote each (R377). -/
  lines : List (Nat × (Byte × Nat))
  /-- Held task records, first pushed first (R377). -/
  held : List Task
  /-- A commit under way: the greatest WCT of its write-back (R379). -/
  committing : Option Nat
  /-- A squash under way: the resolution time; the group is discarded once its operations have completed (R380). -/
  doomed : Option Nat
  deriving DecidableEq, Repr

/-- One group (R16). -/
structure Group where
  uid : Nat
  team : Nat
  grid : Nat
  /-- GROUPID (R47). -/
  index : Nat
  /-- The issue slot it is bound to (R18); none while it is not bound. -/
  slot : Option Nat
  /-- Its place among the 64 group places of its core (R313, R389); none while its team is off every core (DESIGN CHOICE,
  log 24). -/
  place : Option Nat
  sched : Sched
  /-- Frozen by a debugger halt (R322), with the tag of the BKPT that halted it, if one did (R234). -/
  halted : Option (Option Nat)
  lanes : List Lane
  /-- s0 to s127; an unlisted one is 0 (R41). -/
  uregs : List (Nat × Word)
  /-- j0 to j7 (R28). -/
  jmasks : List JMask
  /-- t0 to t31; an unlisted one is 0 and not VALID (R41, R240). -/
  tdescs : List (Nat × TileDesc)
  /-- FPMODE.RM (R115). -/
  fpmode : BitVec 2
  /-- PPROM.EN (R24). -/
  pprom : Bool
  /-- FAIRTIME.LIMIT (R24). -/
  fairtime : Nat
  /-- LEASEOVR [2:0] (R278). -/
  leaseovr : BitVec 3
  /-- SPCOUNT (R49). -/
  spcount : Nat
  /-- ATBANK (R168). -/
  atbank : Nat
  /-- Uniform registers marked pending (R32). -/
  upend : List Nat
  /-- The fairness count and the rotation in force (R25). -/
  fairness : Nat
  rotation : Option Rotation
  /-- The segment has ended and pending results are awaited (R33). -/
  segEnd : Bool
  /-- Not issuing its next instruction in this cycle (R193). -/
  blocked : Bool
  /-- Its last attempt to issue met no room for a speculative line (R377). -/
  noRoom : Bool
  /-- When it issued last, in the model's count of issues, for the round robin of R55. -/
  lastIssue : Nat
  /-- The address of its last issue, from which a rotation takes its base (R25). -/
  lastAddr : Addr
  /-- GTIME from which it has stood ready to park (R317). -/
  standing : Option Nat
  /-- Rebuild stubs still to run (R54). -/
  stubs : List Stub
  /-- The task it runs (R62). -/
  task : Option Task
  /-- Its stack slot and stack limit (R310). -/
  stackSlot : Nat
  stackLimit : Nat
  spec : Option Spec
  /-- A task push held while firmware maps a ring page, and its outcome once known (R59, R224). -/
  push : Option (Option Nat)
  /-- What its held instruction has read from another chip or the node (R214, R364). -/
  held : Option HeldRead
  /-- The SVC that it asks firmware for, and the tick of the answer (R233). -/
  service : Option (Addr × Nat)
  deriving DecidableEq, Repr

/-! ## Teams, grids and launches (R305 to R334) -/

/-- Requests pending for a team (R321, R323, R325, R329). -/
inductive Request where
  | slice
  | preempt
  | migrate (target : Nat)
  deriving DecidableEq, Repr

/-- The kind, space and span of a range-lock entry, and its owner (R292): an engine operation by handle or a matrix
operation by number. -/
structure Lock where
  write : Bool
  scratch : Bool
  low : Nat
  high : Nat
  matrix : Bool
  owner : Nat
  deriving DecidableEq, Repr

/-- The issuer of an update, as the race order of R285 names it; `lanes` are the lanes whose access it is, for their own
order (R282). -/
structure Writer where
  cls : Nat
  chip : Nat
  lcid : Nat
  team : Nat
  group : Nat
  lane : Nat
  lanes : BitVec 32 := 0
  deriving DecidableEq, Repr

/-- The STATE of an engine operation (R216). -/
inductive OpState where
  | pending
  | ok
  | translation
  | permission
  | dataErr
  | circuitLost
  | unreachable
  | staleGen
  | aperture
  | address
  deriving DecidableEq, Repr

/-- Bytes on their way to the bank of a team: the GTIME at which it accepts them, the team, the offset and the address
they were written at (R291). -/
structure BankWrite where
  due : Nat
  team : Nat
  offset : Nat
  address : Nat
  bytes : List Byte
  deriving DecidableEq, Repr

/-- A run of bytes an engine has written and will count once it is visible (R209). `bytes` is the run's length,
`wct` the greatest WCT of its global writes, `remote` the requests whose acknowledgements it awaits (R295), `banks` the
scratchpad writes that their banks have not accepted. -/
structure EngRun where
  bytes : Nat
  wct : Nat
  remote : List Nat
  banks : List BankWrite
  deriving DecidableEq, Repr

/-- A peer's part in a collective, as this member knows it (R360, R363): its rank, the fields of its matching
operation once issued, the chunks received from it, how many were sent to it, and which of those it acknowledged.
The member itself stands in the list too, for its own contribution (R369). -/
structure CollPeer where
  rank : Nat
  fields : Option (List Nat)
  got : List Nat
  sent : Nat
  acked : List Nat
  deriving DecidableEq, Repr

/-- What a collective is at work on: reading a chunk for a peer, or writing a chunk of a peer's (R363). -/
inductive CollWork where
  | send (rank chunk : Nat)
  | write (rank chunk : Nat)
  deriving DecidableEq, Repr

/-- An engine operation (R214 to R228). `kind` is the ENG fn, or 11 and 12 for CTPOST and CTGET. -/
structure EngOp where
  /-- Its handle (R214), with 65,536 or a multiple of it added where its core no longer counts the handle as in use
  (R333). -/
  handle : Nat
  kind : Nat
  group : Nat
  team : Nat
  grid : Nat
  member : Nat
  writer : Writer
  /-- The descriptor, or the registers of the form. -/
  words : List Word
  /-- Begun: every earlier operation of the group that holds it back has begun (R215). -/
  begun : Bool
  /-- Waiting on a circuit-live barrier or for a real version (R218, R375). -/
  waiting : Bool
  /-- The port a copy is bound to (R342). -/
  bound : Option Nat
  /-- Paused at a 512-byte boundary for a save (R324). -/
  paused : Bool
  /-- Bytes done so far, counted where they are written. -/
  progress : Nat
  /-- WCT of the latest write (R219). -/
  lastWct : Nat
  /-- The run written and not yet counted. -/
  run : Option EngRun
  /-- Bytes read so far of the index list, the source list or the member table. -/
  list : List Byte
  /-- The espalier map (R364). -/
  map : List Byte
  /-- The request whose data is awaited, and the bytes fetched and not yet written or sent. -/
  reading : Option Nat
  data : List Byte
  /-- For COLL: its number on its MEMBERS address, the peers, the chunks held (rank, chunk) and the work in hand. -/
  number : Nat
  peers : List CollPeer
  parts : List ((Nat × Nat) × List Byte)
  work : Option CollWork
  /-- The lease class the issuing group's loads had (R278). -/
  lease : BitVec 3
  /-- The trug slot acquired for the bytes being delivered (R212). -/
  trugSlot : Option Nat
  /-- For CTGET and CTPOST: the version, and whether a prediction was delivered (R216). -/
  version : Nat
  pred : Bool
  /-- Its status is discarded, by a migration to its core (R333). -/
  silent : Bool
  /-- The outcome, once known; the operation still awaits the visibility of what it wrote (R215). -/
  outcome : Option (OpState × Nat)
  deriving DecidableEq, Repr

/-- The status kept for a completed operation (R216). -/
structure OpStatus where
  handle : Nat
  team : Nat
  state : OpState
  address : Nat
  version : Nat
  pred : Bool
  deriving DecidableEq, Repr

/-- What a saved team keeps with its context (R324): the core that it was saved from, locks, paused operations and, for a
migration, statuses (R333). -/
structure SavedContext where
  core : Nat
  locks : List Lock
  ops : List EngOp
  done : List OpStatus
  deriving DecidableEq, Repr

/-- One team (R16, R17). -/
structure Team where
  uid : Nat
  grid : Nat
  /-- TEAMID (R47); a task's team reads the number of R310. -/
  index : Nat
  x : Nat
  y : Nat
  /-- The physical core, while it is resident or saving (R17). -/
  core : Option Nat
  /-- The teams of one cluster carry one number; `member` is the place in it (R17). -/
  cluster : Nat
  member : Nat
  /-- The LCID it reads (R329). -/
  lcid : Nat
  sched : Sched
  /-- ACCWIN (R40), and the base that an ACBASE of this cycle gives it from the next cycle on. -/
  accwin : Nat
  accnext : Option Nat
  /-- Its scratchpad region by offset; an unlisted byte is 0 (R289). -/
  scratch : List (Nat × Byte)
  /-- Damaged 8-byte granules of its scratchpad (R298). -/
  scratchDamage : List Nat
  /-- Accumulator elements by 4096·tile + 64·row + column; an unlisted one is +0 (R40, R238). -/
  acc : List (Nat × Word)
  /-- Damaged 8-byte granules of its accumulator tiles (R298). -/
  accDamage : List Nat
  /-- Overflow counters by tile (R238). -/
  overflow : List (Nat × Nat)
  /-- The matrix error word: the slot in which a parity error was met (R262). -/
  matrixError : Option Nat
  /-- Base priority, the time it became a candidate or was saved, its admission, and the start of its slice
  (R311, R321, R325). -/
  prio : Nat
  since : Nat
  admitted : Nat
  slice : Nat
  requests : List Request
  /-- When its save will be written (R324), while it is saving. -/
  saveDue : Nat
  /-- Migrating to this core (R329). -/
  target : Option Nat
  context : SavedContext
  /-- Handles of its completed operations, and those of them that completed before its last save (R333). -/
  ended : List Nat
  stale : List Nat
  deriving DecidableEq, Repr

/-- One safe-point table entry (R106). -/
structure SafePoint where
  pcoff : Nat
  stub : Option Nat
  vlive : BitVec 512
  ulive : BitVec 128
  plive : BitVec 16
  jlive : BitVec 8
  tlive : BitVec 32
  alive : BitVec 128
  deriving DecidableEq, Repr

/-- What the launch unit keeps of a kernel image (R104 to R108). `va` and `ca` are the rounded allocations
(R36, R40). -/
structure Image where
  base : Nat
  isa2 : Bool
  va : Nat
  teamGroups : Nat
  width : Nat
  height : Nat
  scratch : Nat
  ca : Nat
  saveRegions : List (Nat × Nat)
  spdist : Nat
  entry : Nat
  handler : Nat
  codeOff : Nat
  codeSize : Nat
  safePoints : List SafePoint
  deriving DecidableEq, Repr

/-- A launch record (R306). -/
structure Launch where
  queue : Nat
  prio : Nat
  script : Bool
  eclass : Nat
  ltag : Nat
  image : Nat
  troot : Nat
  gridX : Nat
  gridY : Nat
  bankmem : Nat
  depthLim : Nat
  stkTasks : Nat
  tslice : Nat
  ringCap : Nat
  stkLane : Nat
  stkBase : Nat
  stkInit : Nat
  sctx : Nat
  scriptAddr : Nat
  deriving DecidableEq, Repr

/-- A queued launch: its record, the SEQ of its message (R384), and whether it waits at step 3 of R307 with its image
already checked. -/
structure Queued where
  launch : Launch
  seq : Nat
  waiting : Option Image
  deriving DecidableEq, Repr

/-- A fault record (R387). -/
structure FaultRec where
  team : Nat
  group : Nat
  lane : Nat
  lcid : Nat
  tcause : Word
  tpc : DWord
  taddr : DWord
  deriving DecidableEq, Repr

/-- An accepted launch (R307 to R309). -/
structure Grid where
  uid : Nat
  launch : Launch
  image : Image
  terminating : Bool
  /-- The overflow ring, oldest first (R60, R334), the number of ring records firmware has mapped, and whether the
  ring's next page is awaited (R59). -/
  ring : List Task
  ringMapped : Nat
  ringWait : Bool
  /-- The fault records, in order; NREC counts them all (R387). -/
  nrec : Nat
  records : List FaultRec
  /-- How many COLL operations have been issued by MEMBERS address (R360). -/
  colls : List (Nat × Nat)
  deriving DecidableEq, Repr

/-- An entry of a retirement tracker (R56, R57, R63). `decrement` is none before the successor decrement is made,
then its outcome: the WCT, or `none` inside when it failed or there is no successor. -/
structure Retiring where
  group : Nat
  core : Nat
  grid : Nat
  team : Nat
  index : Nat
  lcid : Nat
  lwct : Nat
  succ : Nat
  decrement : Option (Option Nat)
  task : Option Task
  spec : Option Spec
  deriving DecidableEq, Repr

/-- A companion record the hardware keeps until the pool has room (R63), or a held record of a committed group
(R379). -/
structure Kept where
  task : Task
  companion : Bool
  group : Nat
  deriving DecidableEq, Repr

/-! ## Cores (R130, R166, R214, R238, R275, R292) -/

/-- States of an activation table bank (R166). -/
inductive BankState where
  | valid
  | loading
  | invalid
  deriving DecidableEq, Repr

/-- An ATLOAD in progress (R167): its group and lanes, the source, the tick before which it does not end, and the lines
asked of another chip or of the node: the request, the line, and once it is answered the CAUSE of a refusal, 0 for none,
and the bytes. -/
structure TableLoad where
  group : Nat
  lanes : BitVec 32
  pc : Addr
  address : Nat
  due : Nat
  asked : List (Nat × Nat × Option (Nat × List Byte))
  waiting : List Nat
  deriving DecidableEq, Repr

/-- An activation table bank (R130, R166, R167): its bytes, and the load in progress. -/
structure ActBank where
  state : BankState
  bytes : List (Nat × Byte)
  load : Option TableLoad
  deriving DecidableEq, Repr

/-- The STATE of a weight-store slot (R241). -/
inductive SlotState where
  | empty
  | loading
  | ready
  | error
  deriving DecidableEq, Repr

/-- The status entry of a weight-store slot (R241). A tail carries the number of its head. -/
structure WSlot where
  state : SlotState
  owner : Nat
  head : Nat
  tag : BitVec 5
  spk : BitVec 2
  bandb : BitVec 16
  deriving DecidableEq, Repr

/-- What the slots of a span hold: B data, block scales and indices (R238, R246, R247). -/
structure WData where
  data : List Byte
  scales : List Byte
  indices : List Byte
  deriving DecidableEq, Repr

/-- A packet of A block scales (R249). `bytes` is filled at its turn. -/
structure Packet where
  id : Nat
  queue : Nat
  team : Nat
  group : Nat
  td : Nat
  seq : BitVec 16
  len : Nat
  claimed : Bool
  bytes : List Byte
  /-- Damaged (R298). -/
  damaged : Bool
  deriving DecidableEq, Repr

/-- What a queued matrix operation does (R242 to R257). -/
inductive MatKind where
  | bload (head tag spk baddr sbaddr iaddr : Nat)
  | bfree (head : Nat)
  | scpush (packet address : Nat)
  | mma (tile : Nat) (td : TileDesc) (slot : Nat) (bandb : BitVec 16) (claim : List Nat)
  | aczero (tile : Nat)
  | acld (tile address stride : Nat)
  | acst (tile : Nat) (block : List Word)
  | acadd (tile a b : Nat)
  | acmul (tile a address : Nat)
  | acmov (tile a : Nat)
  | acovf (tile : Nat)
  deriving DecidableEq, Repr

/-- An entry of the matrix queue (R242). `lanes` is the active mask at issue; its turn does not come before `due`
(DESIGN CHOICE, log 6). -/
structure MatOp where
  id : Nat
  group : Nat
  team : Nat
  grid : Nat
  lanes : BitVec 32
  due : Nat
  kind : MatKind
  deriving DecidableEq, Repr

/-- An L1 superblock: its number (physical address ÷ 512), its expiry and its valid lines (R275, R279). -/
structure L1Block where
  block : Nat
  expiry : Nat
  lines : BitVec 4
  deriving DecidableEq, Repr

/-- One core (R18). -/
structure Core where
  /-- The LCID map entry (R329). -/
  lcid : Nat
  temp : Nat
  /-- The clock step: 0 to 3 for 2.0, 1.6, 1.2 and 0.8 GHz (R330). -/
  clock : Nat
  /-- Issue stopped at the trip (R331). -/
  stopped : Bool
  /-- Under migration, with the core at the other end (R329). -/
  migrating : Option Nat
  banks : List ActBank
  locks : List Lock
  ops : List EngOp
  /-- The statuses of completed operations, newest first (R216). -/
  done : List OpStatus
  nextHandle : Nat
  /-- Weight-store slots; an unlisted one is EMPTY (R241). What they hold stands by the number of the head; `parity`
  lists the slots in which a parity error stands that no step has met (R262). -/
  slots : List (Nat × WSlot)
  contents : List (Nat × WData)
  parity : List Nat
  /-- The packets of the four scale queues, in push order (R249). -/
  packets : List Packet
  matrix : List MatOp
  nextMat : Nat
  l1 : List L1Block
  deriving DecidableEq, Repr

/-! ## Memory (R267 to R300) -/

/-- An update of one 4-byte word that has been received and becomes visible at its WCT (R280, R285). `bytes` are
(place in the word, value) pairs. -/
structure Update where
  word : Nat
  bytes : List (Nat × Byte)
  wct : Nat
  writer : Writer
  /-- The group, engine operation, context or port within its class, so that one writer's updates can be told (R280). -/
  source : Nat
  atomic : Bool
  /-- GTIME at which its home receives it (R280). -/
  arrival : Nat
  deriving DecidableEq, Repr

/-- A cached translation (R273): where it is cached (a core's TLB by core number, a die's translation cache by 128 +
die), the root, the page's virtual base and size, and its leaf entry. -/
structure TlbEntry where
  home : Nat
  root : Nat
  base : Nat
  size : Nat
  leaf : DWord
  deriving DecidableEq, Repr

/-- A line owned by the ingress atomic cache (R359): the line number, the grant's time and WCT, and the last WCT by
word. -/
structure IngressLine where
  line : Nat
  granted : Nat
  wct : Nat
  last : List (Nat × Nat)
  deriving DecidableEq, Repr

/-- A superblock of local HBM that its home slice holds: its number, and its valid and dirty lines (R275). -/
structure SliceBlock where
  block : Nat
  valid : BitVec 4
  dirty : BitVec 4
  deriving DecidableEq, Repr

/-- Bytes that a store has rewritten once GTIME reaches `wct` (R298). -/
structure Heal where
  wct : Nat
  low : Nat
  len : Nat
  deriving DecidableEq, Repr

/-- The memory system. -/
structure Memory where
  /-- Bytes by physical address: local HBM from 0, then bank memory, launch by launch, above it (R267, R296). -/
  cells : List Host.Cell
  /-- In the order in which they were received (R280). -/
  updates : List Update
  /-- Latest granted expiry by superblock (R280); an unlisted one is the floor of its slice. -/
  lg : List (Nat × Nat)
  /-- The floors of the slices, by slice; an unlisted one is 0 (R280). -/
  floors : List (Nat × Nat)
  /-- The floors as they stood when a launch's carve-out was placed, by grid: where the LG of its superblocks starts
  (R280, R296). -/
  carved : List (Nat × List (Nat × Nat))
  /-- What the last-level cache holds of local HBM, latest allocated first (R275). -/
  llc : List SliceBlock
  tlb : List TlbEntry
  ingress : List IngressLine
  /-- Damaged granules of HBM, by address ÷ 32 (R298). -/
  damage : List Nat
  /-- Dirty last-level lines and bank-memory lines in error, by address ÷ 128, with the 16-byte granules still to be
  rewritten (R298). -/
  badLines : List (Nat × BitVec 8)
  /-- Clean last-level lines met in error in this cycle, which are dropped at its end (R298, R300). -/
  passing : List Nat
  /-- Rewrites that are not visible yet. -/
  heals : List Heal
  deriving DecidableEq, Repr

/-! ## Results on their way (R32 to R34, R287) -/

/-- A register write on its way: register, bits and tag. -/
structure RegWrite where
  reg : Nat
  bits : Word
  tag : BitVec 5
  deriving DecidableEq, Repr

/-- What a pending result will be (R32). -/
inductive Awaited where
  /-- Known register writes. -/
  | value (writes : List RegWrite)
  /-- A load of global memory, performed when it lands (DEDUCED, log 8): virtual and physical address, access type, first
  register, lease class, and the GTIME before which it is not performed (R282). -/
  | load (va pa : Nat) (acc d : Nat) (lease after : Nat)
  /-- A superblock that a PFETCH is still to bring to the L1 of a core, or to its home slice (R223, R359): the physical
  address, and the lease class. -/
  | fill (core pa lease : Nat) (l1 : Bool)
  /-- A scratchpad access, accepted by its bank when it lands: the bank's team, the offset, and what it does (R197, R290).
  `issue` names the instruction a store belongs to (R199). -/
  | bankLoad (team offset acc d : Nat)
  | bankStore (team offset issue : Nat) (bytes : List Byte)
  /-- An atomic at a bank: for each lane its register, operands and tag. -/
  | bankAtom (team offset op : Nat) (r : Bool) (values : List (Nat × Nat × Word × Word × BitVec 5))
  /-- An atomic of global memory on its way back with its old value; the word's physical address (R202, R300). -/
  | atom (pa : Nat) (write : RegWrite)
  /-- The old value that the bank's acceptance of the atomic `atomic` brings this lane. -/
  | accepted (atomic : Nat)
  /-- A load's answer from a peer chip or the control node, by request, with its access type and first register (R287,
  R390). -/
  | answer (request acc d : Nat)
  /-- The old value that a peer's answer to an atomic brings this lane, with its register and tag (R202, R302). -/
  | oldValue (request d : Nat) (tag : BitVec 5)
  deriving DecidableEq, Repr

/-- A result on its way to a lane, or to the group where `lane` is none (R32). For an access: the lanes that make it, the
instruction and the address, for a fault that it meets later (R299). -/
structure Pend where
  id : Nat
  group : Nat
  lane : Option Nat
  lanes : BitVec 32
  pc : Addr
  va : Nat
  /-- The registers it marks pending, physical for a lane. -/
  regs : List Nat
  due : Nat
  what : Awaited
  deriving DecidableEq, Repr

/-- An access sent to a peer chip or to the control node and not yet answered (R287, R288, R390). `kind` is the packet
type of R349. -/
structure Remote where
  id : Nat
  node : Bool
  chip : Nat
  kind : Nat
  address : Nat
  len : Nat
  data : List Byte
  group : Nat
  lanes : BitVec 32
  /-- The instruction and the virtual address, for a fault that comes with the answer. -/
  pc : Addr
  va : Nat
  /-- Who makes it, as the race order of R285 names the issuer. -/
  writer : Writer
  /-- For an atomic: the operation and R. -/
  op : Nat
  r : Bool
  sent : Nat
  /-- Still to be sent: held behind an earlier write (R352), or waiting for a route (R353). -/
  queued : Bool
  /-- The engine operation it serves, by core and handle. -/
  engine : Option (Nat × Nat)
  /-- The circuit that carries it, for a bound copy (R342). -/
  port : Option Nat
  /-- Its end-to-end number, once it has been sent: a request sent again keeps it (R353). -/
  e2e : Option Nat
  deriving DecidableEq, Repr

/-! ## Optical ports, links, packets and scripts (R335 to R370) -/

/-- A flit sent and not acknowledged, with the packet it is part of; `copy` says that the packet is copy or collective
data (R356, R358). -/
structure RetryFlit where
  flit : List Byte
  whole : List Byte
  copy : Bool
  deriving DecidableEq, Repr

/-- A packet with flits still to be sent: whether it goes as copy data, since when it is queued here, its bytes, and how
many of them have been sent (R336, R349). -/
structure Waiting where
  copy : Bool
  since : Nat
  whole : List Byte
  sent : Nat
  deriving DecidableEq, Repr

/-- A flit put on a channel: its first byte's count in the stream and the lanes it is striped over (R354). -/
structure WireFlit where
  channel : Nat
  start : Nat
  lanes : BitVec 16
  flit : List Byte
  deriving DecidableEq, Repr

/-- The state of one channel: an optical port's or an electrical link's path (R336, R350, R354 to R357). -/
structure Channel where
  rank : Nat
  peerRank : Option Nat
  /-- Working physical lanes (R354, R355). -/
  working : BitVec 16
  nextSeq : Nat
  /-- SEQ of the latest flit received in order (R336). -/
  received : Nat
  /-- Flits sent and not acknowledged, oldest first (R356). -/
  retry : List RetryFlit
  /-- GTIME of the latest new ACK or send from an empty buffer (R356). -/
  ackTime : Nat
  /-- Credits held for each virtual channel (R336). -/
  credits : Nat × Nat
  /-- Payload bytes received of a packet not yet whole, by virtual channel, plus 2 for copy data. -/
  partials : List (Nat × List Byte)
  /-- Packets with flits that wait for a slot, credits or room in the retry buffer, first first (R356). -/
  waiting : List Waiting
  /-- Copy flits sent since the last packet flit (R349). -/
  slots : Nat
  /-- Bytes sent since entry to LIVE or the last retrain exit (R354). -/
  stripe : Nat
  /-- GTIME at which a retrain began (R355), lanes that failed while the port slept (R367), and whether the next credit
  return for each virtual channel sets the count (R355). -/
  retrain : Option Nat
  lost : BitVec 16
  resync : Bool × Bool
  retries : Nat
  /-- A replay is due once both credit returns of a retrain exit have come (R355, R370). -/
  replayDue : Bool
  /-- Flits of packets that have left this end's buffer, whose credits are still to be returned, by virtual channel
  (R336). -/
  owed : Nat × Nat
  deriving DecidableEq, Repr

/-- The port states of R337. -/
inductive PortState where
  | dark
  | requested
  | locking
  | trained
  | live
  | doze
  | nap
  | draining
  | fault
  deriving DecidableEq, Repr

/-- An optical port (R337 to R341, R347). -/
structure Port where
  state : PortState
  /-- GTIME of the last change of state, of the grant, and since when it has been idle. -/
  since : Nat
  granted : Option Nat
  idle : Nat
  /-- GTIME at which the present handshake or drain ends (R337). -/
  due : Nat
  trained : Bool
  generation : Word
  peer : Nat
  /-- The physical address of its barrier word, once a CREQ has named one (R341). -/
  barrier : Option Nat
  /-- WCT of its last barrier-word write (R341). -/
  lastWct : Nat
  tol : Nat
  refusal : Nat
  setup : Nat
  peerPort : Nat
  degrades : Nat
  channel : Channel
  deriving DecidableEq, Repr

/-- An electrical link (R335, R357). -/
structure ELink where
  up : Bool
  channel : Channel
  deriving DecidableEq, Repr

/-- What a script context waits for (R345, R347, R348). -/
inductive CtxWait where
  | sleep (deadline : Nat)
  | cwait (d port state : Nat) (deadline : Nat)
  | ewait (k : Nat) (value : Word)
  | store (wct : Nat)
  /-- Firmware is asked to map a page (R272). -/
  | page (va : Nat) (fetch : Bool)
  /-- The same for the barrier word of a CREQ that writes register `d` (R347). -/
  | barrier (d va : Nat)
  deriving DecidableEq, Repr

/-- A script context (R343). -/
structure Ctx where
  running : Bool
  wait : Option CtxWait
  pc : Addr
  /-- k0 to k15; an unlisted one is 0. -/
  regs : List (Nat × DWord)
  troot : Nat
  /-- The launch that started it, for bank-memory pages. -/
  grid : Nat
  /-- Event counters from kernels, K, and from scripts, X (R213); an unlisted one is 0. -/
  k : List (Nat × Word)
  x : List (Nat × Word)
  deriving DecidableEq, Repr

/-- The circuit that a response goes back over: the channel, and whether as copy flits (R342). -/
structure Via where
  channel : Nat
  copy : Bool
  deriving DecidableEq, Repr

/-- A recorded response to a peer's request (R353). -/
structure Response where
  chip : Nat
  e2e : Nat
  packet : List Byte
  via : Option Via
  deriving DecidableEq, Repr

/-- A response that waits until the write it acknowledges is visible (R287). -/
structure Ack where
  wct : Nat
  response : Response
  deriving DecidableEq, Repr

/-- A message of a collective to another member (R360): its number, the chip, whether it has been sent, and the
end-to-end number of the first packet it was last sent in. -/
structure CollSent where
  id : Nat
  chip : Nat
  sent : Bool
  e2e : Nat
  msg : CollMsg
  deriving DecidableEq, Repr

/-- The pieces of a member's message that have come: the chip, its number, the bytes it has, and the pieces by place. -/
structure CollPart where
  chip : Nat
  id : Nat
  total : Nat
  pieces : List (Nat × List Byte)
  deriving DecidableEq, Repr

/-- The packet plane, ports and links. -/
structure Fabric where
  ports : List Port
  links : List ELink
  /-- The route table by 64·destination + input; an unlisted entry is NONE (R350). -/
  routes : List (Nat × Nat)
  /-- End-to-end sequence numbers by destination (R349). -/
  e2e : List (Nat × Nat)
  /-- Responses of the last 4,096 requests of each source (R353). -/
  responses : List Response
  remotes : List Remote
  nextRemote : Nat
  /-- Packets received whole and not yet delivered or forwarded: channel, whether they came as copy data, and bytes. -/
  arrived : List (Nat × Bool × List Byte)
  /-- Responses and returned packets of this chip that met NONE, by destination: they are sent when the table gives them a
  channel (R353). -/
  stranded : List (Nat × List Byte)
  /-- Flits put on each channel, latest last: what the outside sees (R336, R354). -/
  wire : List WireFlit
  /-- Collective messages to other members, those of members that have come in part, the chip and number of the latest
  that have come whole, and messages that match no operation issued here yet (R360). -/
  collSent : List CollSent
  collParts : List CollPart
  collSeen : List (Nat × Nat)
  collIn : List CollMsg
  /-- Members whose message of an operation that has ended here is still to come: MEMBERS, the number and the rank. -/
  collOwed : List (Nat × Nat × Nat)
  /-- Acknowledgements of peers' writes and atomics that await their visibility (R287). -/
  acks : List Ack
  /-- Ranks reported to the other ends, latest last (R350): channel and rank. -/
  rankOut : List (Nat × Nat)
  /-- Ports whose peer was asked to wake, latest last (R339). -/
  wakeOut : List Nat
  /-- What has been told to the circuit broker, latest last: port and code, 0 request, 1 release, 2 fault
  (R338, R340, R358). -/
  broker : List (Nat × Nat)
  deriving DecidableEq, Repr

/-! ## Cutting slots (R371 to R383) -/

/-- A declared cutting slot (R227, R371). -/
structure CutSlot where
  grid : Nat
  bytes : Nat
  mode : Nat
  tolabs : Word
  tolrel : Word
  /-- Physical address of STORE, the bytes of it on its first page, and the physical address of the rest. -/
  store : Nat
  split : Nat
  store2 : Nat
  waitNs : Nat
  version : Nat
  specVer : Nat
  specLevel : Nat
  /-- The group that posted the pending speculative version. -/
  specBy : Nat
  result : Nat
  maxErr : Word
  resVer : Nat
  commits : Nat
  squashes : Nat
  /-- A prediction for the next version has been delivered and is unresolved (R376). -/
  foretold : Bool
  /-- The WCT of the last resolution's header write, up to which RESOLVING is 1 (R376). -/
  resolving : Nat
  deriving DecidableEq, Repr

/-! ## The control port and the outside -/

/-- What can damage the part from outside (R298): where, and the address or number within it. -/
inductive SoftError where
  | corrected
  | hbm (address : Nat)
  | line (address : Nat)
  | l1 (core address : Nat)
  | scratch (team offset : Nat)
  | accumulator (team element : Nat)
  | weightSlot (core slot : Nat)
  | scalePacket (core packet : Nat)
  deriving DecidableEq, Repr

/-- What reaches the part from outside, other than control-port messages: one constructor per step of the table that
the outside starts, with that step's arguments, soft errors and the broker's release of a switch path. -/
inductive Env where
  | powerGood
  | boardReset
  | firmwareReady (reservedGiB : Nat) (blocks : List (List Byte))
  | ringPageMapped (grid : Nat) (ok : Bool)
  | serviceablePageMapped (grid : Nat) (va : Nat) (ok : Bool) (entry : DWord)
  | firmwarePolicy (depth : Option Nat) (weights : List (Nat × Nat))
  | portTol (port tol : Nat)
  | sensorSample (core temp watts : Nat)
  | powerStop (watts : Nat)
  | powerStopEnd (watts : Nat)
  | migrationRequest (src dst : Nat)
  | circuitGrant (port peerPort setup : Nat)
  | brokerRefusal (port code : Nat)
  | lightDetected (port : Nat)
  | lockAchieved (port : Nat)
  | trainingDone (port rank : Nat)
  | portWake (port : Nat)
  | laneFailure (channel : Nat) (lanes : BitVec 16)
  | retrainEnd (channel : Nat)
  | lightLoss (port : Nat)
  | ucieFailure (port : Nat)
  | elinkDown (link : Nat)
  | electricalLinkTrained (link rank : Nat)
  | flitReceive (channel : Nat) (flit : List Byte)
  | speculativeLineError (core group : Nat)
  | peerRelease (port : Nat)
  | peerFault (port : Nat)
  | rankReport (channel rank : Nat)
  | softError (e : SoftError)
  deriving DecidableEq, Repr

/-- One input: a control-port message as it stands on the link (R384), or something else from outside. -/
inductive Input where
  | message (bytes : List Byte)
  | env (e : Env)
  deriving DecidableEq, Repr

/-- A message being performed whose completion awaits a time or a condition (R386): the reply to send
once GTIME has reached `due`. -/
structure BusyMsg where
  due : Nat
  /-- The range that a translation invalidation names, and its bytes (R389). -/
  low : Nat
  len : Nat
  /-- A translation invalidation also waits for the accesses that were in flight (R273). -/
  pends : List Nat
  remotes : List Nat
  /-- The lanes, by group and number, that were held for firmware service on the range (R300). -/
  held : List (Nat × Nat)
  reply : CtlMsg
  deriving DecidableEq, Repr

/-- The phases of boot (R391). -/
inductive BootPhase where
  | powerGood
  | bundle
  | failed
  | firmware
  | ready
  deriving DecidableEq, Repr

/-- An entry of the measurement log (R393): kind, index and digest. -/
structure LogEntry where
  kind : Nat
  index : Nat
  digest : List Byte
  deriving DecidableEq, Repr

/-- Boot, fuses and attestation (R391 to R394). -/
structure Boot where
  phase : BootPhase
  buffer : List (Nat × Byte)
  log : List LogEntry
  measure : List Byte
  /-- The fused minimum security version and the version of the bundle that runs (R392). -/
  svnMin : Nat
  svnRun : Nat
  deriving DecidableEq, Repr

/-- Firmware's settings and counters (R328, R332, R395, R400). Times are in nanoseconds. -/
structure Firmware where
  placement : Nat
  migration : Nat
  throttle : Nat
  quantum : Nat
  parkDelay : Nat
  spdistCap : Nat
  powerLimit : Nat
  reservedGiB : Nat
  eccCorrections : Nat
  linkRetries : Nat
  laneDegrades : Nat
  debugger : Bool
  /-- The hardware power stop is in force (R396). -/
  powerStop : Bool
  /-- The depth limit that stands for the launch's, if firmware has set one, and its placement weights by the physical
  id of member 0, an unlisted one being 0 (R314, R332). -/
  depthLimit : Option Nat
  weights : List (Nat × Nat)
  /-- The throttle threshold and the power limit in force when the cycle began (R395), and when the power cap last lowered
  a clock (R396). -/
  throttleWas : Nat
  powerLimitWas : Nat
  capAt : Option Nat
  deriving DecidableEq, Repr

/-- The model's own clock and counters (DESIGN CHOICE, log 5): half nanoseconds since power-good, which slot or context
the cycle serves next (0 to 511: slot k of core c at 4c + k; 512 to 515: the contexts; 516: past them), a count of
issues, the next uid, and the count from which free values are drawn. -/
structure Clock where
  tick : Nat
  turn : Nat
  stamp : Nat
  uid : Nat
  fresh : Nat
  deriving DecidableEq, Repr

/-- The whole part. -/
structure State where
  clock : Clock
  /-- The group, or the script context, that the step has chosen (DESIGN CHOICE, log 5). -/
  cur : Nat
  curCtx : Nat
  /-- What will reach the part, with the tick at which it arrives. -/
  inputs : List (Nat × Input)
  /-- Messages sent on the control port, latest last (R384). -/
  outbox : List CtlMsg
  seqOut : Nat
  /-- Breakpoints reported to the attached debugger, latest last: LCID, group place and tag (R234). -/
  breaks : List (Nat × Nat × Nat)
  busy : Option BusyMsg
  chipId : Nat
  boot : Boot
  fw : Firmware
  mem : Memory
  cores : List Core
  teams : List Team
  groups : List Group
  grids : List Grid
  /-- The eight launch queues, head first (R305). -/
  queues : List (List Queued)
  /-- The on-chip task pool (R60). -/
  pool : List Task
  kept : List Kept
  retiring : List Retiring
  /-- Declared cutting slots by number (R371). -/
  cuts : List (Nat × CutSlot)
  pend : List Pend
  fabric : Fabric
  ctxs : List Ctx
  deriving DecidableEq, Repr

/-- Why the machine stops: never. Every step of the part has an effect in this model. -/
inductive Fault where
  deriving DecidableEq, Repr

/-- Why an instruction has no meaning in the model. -/
inductive Refusal where
  /-- Raised by the dispatcher alone, for an instruction whose meaning is not written. Safe: nothing is proved of it. -/
  | notModelled (mnemonic : String)
  deriving DecidableEq, Repr

/-! ## Reset -/

/-- A channel at part reset: rank 0 (R350), no lane working (R347), nothing sent or received; SEQ and credits as log 3
says (DESIGN CHOICE). -/
def Channel.reset : Channel :=
  { rank := 0, peerRank := none, working := 0, nextSeq := 0, received := 0xFFFF, retry := [], ackTime := 0,
    credits := (255, 255), partials := [], waiting := [], slots := 0, stripe := 0, retrain := none, lost := 0,
    resync := (false, false), retries := 0, replayDue := false, owed := (0, 0) }

/-- A port at part reset (R337, R339). -/
def Port.reset : Port :=
  { state := .dark, since := 0, granted := none, idle := 0, due := 0, trained := false, generation := 0, peer := 0,
    barrier := none, lastWct := 0, tol := 0, refusal := 0, setup := 0, peerPort := 0, degrades := 0, channel := Channel.reset }

/-- A core at reset: its LCID is its physical number (R2), both banks VALID with zero bytes (R166), handles count from
1 (R214). -/
def Core.reset (id : Nat) : Core :=
  { lcid := id, temp := 0, clock := 0, stopped := false, migrating := none,
    banks := List.replicate 2 { state := .valid, bytes := [], load := none }, locks := [], ops := [], done := [],
    nextHandle := 1, slots := [], contents := [], parity := [], packets := [], matrix := [], nextMat := 0, l1 := [] }

/-- A script context at part reset: halted, counters 0 (R213, R343). -/
def Ctx.reset : Ctx :=
  { running := false, wait := none, pc := 0, regs := [], troot := 0, grid := 0, k := [], x := [] }

/-- Firmware's settings at reset (R328, R332); DESIGN CHOICE, log 3 names the values the spec does not give. -/
def Firmware.reset : Firmware :=
  { placement := 85, migration := 95, throttle := 100, quantum := 100000, parkDelay := 2000, spdistCap := 262144,
    powerLimit := 1800, reservedGiB := 8, eccCorrections := 0, linkRetries := 0, laneDegrades := 0,
    debugger := false, powerStop := false, depthLimit := none, weights := [], throttleWas := 100, powerLimitWas := 1800, capAt := none }

/-- The part at power-good, before the boot ROM's first action (R391; DEDUCED, log 1). -/
def State.reset : State :=
  { clock := { tick := 0, turn := 0, stamp := 0, uid := 1, fresh := 0 }, cur := 0, curCtx := 0, inputs := [],
    outbox := [], seqOut := 0, breaks := [], busy := none, chipId := 0,
    boot := { phase := .powerGood, buffer := [], log := [], measure := List.replicate 64 0, svnMin := 0, svnRun := 0 },
    fw := Firmware.reset,
    mem := { cells := [], updates := [], lg := [], floors := [], carved := [], llc := [], tlb := [], ingress := [], damage := [],
             badLines := [], passing := [], heals := [] },
    cores := (List.range 128).map Core.reset, teams := [], groups := [], grids := [],
    queues := List.replicate 8 [], pool := [], kept := [], retiring := [], cuts := [], pend := [],
    fabric := { ports := List.replicate 32 Port.reset,
                links := List.replicate 4 { up := false, channel := Channel.reset },
                routes := [], e2e := [], responses := [], remotes := [], nextRemote := 0, arrived := [], stranded := [], wire := [],
                collSent := [], collParts := [], collSeen := [], collIn := [], collOwed := [], acks := [], rankOut := [], wakeOut := [],
                broker := [] },
    ctxs := List.replicate 4 Ctx.reset }

end Sys2Proof.Machine
end

