-- ==== Sys2Proof/Machine/Table.lean ====
section
/-!
DEFINITION. Sparse tables: lists of (key, value) pairs with keys strictly rising, an unlisted key reading as a default.
-/

namespace Sys2Proof.Machine

/-- What `k` reads as. -/
def tget {α : Type} (dflt : α) : List (Nat × α) → Nat → α
  | [], _ => dflt
  | (k', v) :: t, k => if k' = k then v else tget dflt t k

/-- Writes `v` at `k`. -/
def tput {α : Type} : List (Nat × α) → Nat → α → List (Nat × α)
  | [], k, v => [(k, v)]
  | (k', v') :: t, k, v =>
    if k < k' then (k, v) :: (k', v') :: t else if k' = k then (k, v) :: t else (k', v') :: tput t k v

/-- Writes several values, in order. -/
def tputs {α : Type} (t : List (Nat × α)) : List (Nat × α) → List (Nat × α)
  | [] => t
  | (k, v) :: kvs => tputs (tput t k v) kvs

/-- Removes `k`, which then reads as the default. -/
def tdel {α : Type} : List (Nat × α) → Nat → List (Nat × α)
  | [], _ => []
  | (k', v') :: t, k => if k' = k then t else (k', v') :: tdel t k

/-- Changes the value at `k`, if it is listed. -/
def tmap {α : Type} (t : List (Nat × α)) (k : Nat) (f : α → α) : List (Nat × α) :=
  t.map fun (k', v) => if k' = k then (k', f v) else (k', v)

/-! The canonical byte table: an entry equal to what an unlisted address reads as is not kept. -/

/-- What an unlisted byte of memory reads as (R296 for bank memory, R289 for scratchpad; HBM by DESIGN CHOICE, log 2). -/
def unlisted : Byte := 0

/-- Reads one byte. -/
def cget (t : List Host.Cell) (a : Nat) : Byte := tget unlisted t a

/-- Writes one byte, keeping the canonical form. -/
def cput : List Host.Cell → Nat → Byte → List Host.Cell
  | [], a, v => if v = unlisted then [] else [(a, v)]
  | (a', v') :: t, a, v =>
    if a < a' then (if v = unlisted then (a', v') :: t else (a, v) :: (a', v') :: t)
    else if a' = a then (if v = unlisted then t else (a, v) :: t)
    else (a', v') :: cput t a v

/-- Reads `n` bytes at rising addresses. -/
def cgets (t : List Host.Cell) (a : Nat) : Nat → List Byte
  | 0 => []
  | n + 1 => cget t a :: cgets t (a + 1) n

/-- Writes bytes at rising addresses. -/
def cputs (t : List Host.Cell) (a : Nat) : List Byte → List Host.Cell
  | [] => t
  | b :: bs => cputs (cput t a b) (a + 1) bs

/-- Every address listed is above `lo`, they rise strictly, and no entry equals the unlisted value. -/
def cwfAbove (lo : Option Nat) : List Host.Cell → Bool
  | [] => true
  | (a, v) :: t => (match lo with | none => true | some l => decide (l < a)) && decide (v ≠ unlisted) && cwfAbove (some a) t

/-- The canonical form of a byte table. -/
def cwf (t : List Host.Cell) : Bool := cwfAbove none t

/-! List helpers. -/

/-- Maps with the place of each element, counting from `i`. -/
def mapFrom {α β : Type} (f : Nat → α → β) : Nat → List α → List β
  | _, [] => []
  | i, x :: xs => f i x :: mapFrom f (i + 1) xs

/-- Changes the element at place `i`. -/
def setAt {α : Type} (f : α → α) : Nat → List α → List α
  | _, [] => []
  | 0, x :: xs => f x :: xs
  | i + 1, x :: xs => x :: setAt f i xs

/-- The least of a list, if any. -/
def least : List Nat → Option Nat
  | [] => none
  | x :: xs => some (xs.foldl min x)

/-- Inserts by a strict order, after equals. -/
def insertBy {α : Type} (lt : α → α → Bool) (x : α) : List α → List α
  | [] => [x]
  | y :: ys => if lt x y then x :: y :: ys else y :: insertBy lt x ys

/-- Sorts by a strict order, keeping equals in order. -/
def sortBy {α : Type} (lt : α → α → Bool) (xs : List α) : List α := xs.foldl (fun acc x => insertBy lt x acc) []

/-- Keeps the first of equal elements. -/
def nubNat : List Nat → List Nat
  | [] => []
  | x :: xs => x :: (nubNat xs).filter (· != x)

end Sys2Proof.Machine
end

