-- ==== Sys2Proof/Machine/Ops.lean ====
section
/-!
DEFINITION. The shared operations on registers, lanes and groups: reading and writing registers, the issue of an
instruction, taking a fault and leaving its handler, leaving a grid or a group.
-/

namespace Sys2Proof.Machine

/-- What an instruction or event answers. -/
abbrev Result := Host.Outcome State Fault Refusal

/-! ## Finding and changing parts of the state -/

/-- GTIME in nanoseconds (R2). -/
def State.gtime (s : State) : Nat := s.clock.tick / 2

def State.group? (s : State) (uid : Nat) : Option Group := s.groups.find? (·.uid == uid)

def State.team? (s : State) (uid : Nat) : Option Team := s.teams.find? (·.uid == uid)

def State.grid? (s : State) (uid : Nat) : Option Grid := s.grids.find? (·.uid == uid)

def State.modGroup (s : State) (uid : Nat) (f : Group → Group) : State :=
  { s with groups := s.groups.map fun g => if g.uid = uid then f g else g }

def State.modTeam (s : State) (uid : Nat) (f : Team → Team) : State :=
  { s with teams := s.teams.map fun t => if t.uid = uid then f t else t }

def State.modGrid (s : State) (uid : Nat) (f : Grid → Grid) : State :=
  { s with grids := s.grids.map fun g => if g.uid = uid then f g else g }

def State.modCore (s : State) (i : Nat) (f : Core → Core) : State := { s with cores := setAt f i s.cores }

def State.core (s : State) (i : Nat) : Core := (s.cores[i]?).getD (Core.reset i)

/-- The core a team is on; teams that are off every core read core 0. -/
def State.coreOf (s : State) (team : Nat) : Nat := ((s.team? team).bind (·.core)).getD 0

/-- A new uid. -/
def State.newUid (s : State) : Nat × State :=
  (s.clock.uid, { s with clock := { s.clock with uid := s.clock.uid + 1 } })

/-- The next free value's number (DESIGN CHOICE, log 6). -/
def State.newFresh (s : State) : Nat × State :=
  (s.clock.fresh, { s with clock := { s.clock with fresh := s.clock.fresh + 1 } })

/-! ## Registers (R35 to R42) -/

/-- Name `vi` of a lane: physical register W + i (R37). -/
def Lane.get (l : Lane) (i : Nat) : VReg := tget ⟨0, 0⟩ l.vregs (l.window + i)

def Lane.put (l : Lane) (i : Nat) (bits : Word) (tag : BitVec 5) : Lane :=
  { l with vregs := tput l.vregs (l.window + i) ⟨bits, tag⟩ }

/-- The 64-bit value of a register pair (R13, R92). -/
def Lane.pair (l : Lane) (i : Nat) : DWord := Word.pair (l.get (i + 1)).bits (l.get i).bits

/-- Writes bit `i` of a bit vector. -/
def setBit {n : Nat} (x : BitVec n) (i : Nat) (b : Bool) : BitVec n :=
  (x &&& ~~~(BitVec.ofNat n (2 ^ i))) ||| (if b then BitVec.ofNat n (2 ^ i) else 0)

/-- p15 reads as 1 (R39). -/
def Lane.pred (l : Lane) (p : Nat) : Bool := if p = 15 then true else l.preds.getLsbD p

/-- A write to p15 is discarded (R39). -/
def Lane.setPred (l : Lane) (p : Nat) (b : Bool) : Lane :=
  if p = 15 then l else { l with preds := setBit l.preds p b }

/-- A uniform register (R41). -/
def Group.u (g : Group) (i : Nat) : Word := tget 0 g.uregs i

def Group.setU (g : Group) (i : Nat) (w : Word) : Group := { g with uregs := tput g.uregs i w }

/-- The 64-bit value of a uniform pair. -/
def Group.uPair (g : Group) (i : Nat) : DWord := Word.pair (g.u (i + 1)) (g.u i)

def Group.setUPair (g : Group) (i : Nat) (x : DWord) : Group := (g.setU i x.lo).setU (i + 1) x.hi

def TileDesc.empty : TileDesc :=
  { abase := 0, rstride := 0, word2 := 0, banda := 0, valid := false, pseq := 0, cseq := 0 }

def Group.td (g : Group) (i : Nat) : TileDesc := tget TileDesc.empty g.tdescs i

/-- Lane `i` of a group. -/
def Group.lane? (g : Group) (i : Nat) : Option Lane := g.lanes[i]?

/-- The lanes, from place `i`, of which `p` holds. -/
def maskFrom (p : Nat → Lane → Bool) : Nat → List Lane → BitVec 32
  | _, [] => 0
  | i, l :: ls => (if p i l then BitVec.ofNat 32 (2 ^ i) else 0) ||| maskFrom p (i + 1) ls

def Group.maskOf (g : Group) (p : Nat → Lane → Bool) : BitVec 32 := maskFrom p 0 g.lanes

/-- Changes the lanes of a mask. -/
def Group.onLanes (g : Group) (mask : BitVec 32) (f : Nat → Lane → Lane) : Group :=
  { g with lanes := mapFrom (fun i l => if mask.getLsbD i then f i l else l) 0 g.lanes }

/-- The lane numbers of a mask, rising. -/
def laneList (mask : BitVec 32) : List Nat := (List.range 32).filter mask.getLsbD

/-! ## Faults (R13, R65, R318) -/

/-- What a fault writes: CAUSE, SUB and FETCH of TCAUSE, and TADDR (R318). -/
structure Cause where
  code : Nat
  sub : Nat
  addr : Nat
  fetch : Bool
  deriving DecidableEq, Repr

def Cause.plain (code : Nat) : Cause := ⟨code, 0, 0, false⟩
def Cause.at (code addr : Nat) : Cause := ⟨code, 0, addr, false⟩
def Cause.illegalInstruction : Cause := Cause.plain 0x01
def Cause.illegalOperand : Cause := Cause.plain 0x02
def Cause.translation (sub addr : Nat) : Cause := ⟨0x03, sub, addr, false⟩
def Cause.address (addr : Nat) : Cause := Cause.at 0x04 addr
def Cause.permission (sub addr : Nat) : Cause := ⟨0x05, sub, addr, false⟩
def Cause.registerBounds : Cause := Cause.plain 0x06
def Cause.windowBounds : Cause := Cause.plain 0x07
def Cause.pendingRegister : Cause := Cause.plain 0x08
def Cause.formatTag : Cause := Cause.plain 0x09
def Cause.distance : Cause := Cause.plain 0x0A
def Cause.unreachable (addr : Nat) : Cause := Cause.at 0x0B addr
def Cause.rangeLock (addr : Nat) : Cause := Cause.at 0x0C addr
def Cause.dataError (addr : Nat) : Cause := Cause.at 0x0D addr
def Cause.weightSlot (slot : Nat) : Cause := Cause.at 0x0E slot
def Cause.desync (sub : Nat) : Cause := ⟨0x0F, sub, 0, false⟩
def Cause.stackLimit (addr : Nat) : Cause := Cause.at 0x10 addr
def Cause.softwareTrap (k : Nat) : Cause := ⟨0x11, k, 0, false⟩

/-- TCAUSE (R318); `stub` is set inside a rebuild stub. -/
def Cause.word (c : Cause) (stub : Bool) : Word :=
  BitVec.ofNat 32 (c.code + 2 ^ 8 * c.sub + (if c.fetch then 2 ^ 16 else 0) + (if stub then 2 ^ 17 else 0))

/-- Taking a fault (R319 step 1): the lane enters TRAP at its instruction with its state unchanged, and TCAUSE, TPC and
TADDR are written. -/
def Lane.trap (l : Lane) (pc : Addr) (stub : Bool) (c : Cause) : Lane :=
  { l with state := .trap, atSafe := false, service := none, redo := none, leaving := false, tcause := c.word stub, tpc := pc.setWidth 64,
           taddr := BitVec.ofNat 64 c.addr }

/-- The start of the handler (R319 step 3). -/
def Lane.startHandler (l : Lane) (start : Addr) : Lane :=
  { l with state := .run, handler := true, atSafe := false, lpc := start }

/-- Leaving the handler for an address (R235): TRET goes to TPC, TSKIP to the word after it. -/
def Lane.leaveHandler (l : Lane) (pc : Addr) : Lane := { l with handler := false, lpc := pc }

/-! ## The issue address (R19 to R26, R54, R319) -/

def Lane.running (l : Lane) : Bool :=
  match l.state with
  | .run => true
  | _ => false

def Lane.trapped (l : Lane) : Bool :=
  match l.state with
  | .trap => true
  | _ => false

def Lane.isDone (l : Lane) : Bool :=
  match l.state with
  | .done => true
  | _ => false

/-- Some lane is in handler mode (R319 step 4). -/
def Group.inHandler (g : Group) : Bool := g.lanes.any (·.handler)

/-- Some lane is in TRAP. -/
def Group.inTrap (g : Group) : Bool := g.lanes.any (·.trapped)

/-- The access that is repeated next: firmware has mapped the page that it was held for (R272). -/
def Group.redo? (g : Group) : Option Redo :=
  g.lanes.findSome? fun l => if l.running && l.service.isNone then l.redo else none

/-- The lane counts for the issue address: in RUN, not waiting for a serviceable page, of the access that is repeated
(R272) and the stub that runs (R54), and not held by step 2 or 4 of R319. -/
def Group.counts (g : Group) (i : Nat) (l : Lane) : Bool :=
  l.running && l.service.isNone && (g.redo?.isNone || l.redo == g.redo?) &&
    (match g.stubs with | [] => true | st :: _ => st.lanes.getLsbD i) &&
    (if g.inHandler then l.handler else if g.inTrap then !l.atSafe else true)

/-- The lanes that count for the issue address. -/
def Group.counting (g : Group) : BitVec 32 := g.maskOf g.counts

/-- The LPCs of the lanes of a mask. -/
def Group.pcs (g : Group) (mask : BitVec 32) : List Nat :=
  (mapFrom (fun i (l : Lane) => if mask.getLsbD i then [l.lpc.toNat] else []) 0 g.lanes).flatten

/-- The rotation in force, unless its issues are used up or no lane stands at or above its base (R25 step 3). None
while rebuild stubs run (R54, R65). -/
def Group.activeRotation (g : Group) : Option Rotation :=
  match g.rotation with
  | none => none
  | some r =>
    if g.stubs.isEmpty && 0 < r.left && (g.pcs g.counting).any (r.base.toNat ≤ ·) then some r else none

/-- The issue address (R20, R25 step 2). -/
def Group.issueAddr (g : Group) : Option Addr :=
  let ps := g.pcs g.counting
  let ps := match g.activeRotation with
    | none => ps
    | some r => ps.filter (r.base.toNat ≤ ·)
  (least ps).map (BitVec.ofNat 48)

/-- The active mask of an issue at `pc` (R20). -/
def Group.activeMask (g : Group) (pc : Addr) : BitVec 32 := g.maskOf fun i l => g.counts i l && l.lpc == pc

/-- The least LPC above an address, over the lanes that count (R25 step 1, R26). -/
def Group.leastAbove (g : Group) (pc : Addr) : Option Addr :=
  (least ((g.pcs g.counting).filter (pc.toNat < ·))).map (BitVec.ofNat 48)

/-! ## Issue -/

/-- The issue of the chosen group: the group, its image, the address and the active mask. -/
structure Site where
  g : Group
  img : Image
  pc : Addr
  mask : BitVec 32

/-- A group's image: a task's group forms a team by itself, on one core (R62; DESIGN CHOICE, log 45). -/
def Group.image (g : Group) (img : Image) : Image := if g.task.isSome then { img with width := 1, height := 1 } else img

/-- The group as its next issue reads it: an access that is repeated reads what its first issue read (R272). -/
def Group.seen (g : Group) : Group :=
  match g.redo? with
  | none => g
  | some r => { g with uregs := r.uregs, upend := r.upend, leaseovr := r.leaseovr, spcount := r.spcount }

/-- The chosen group's issue (R20); none where it has no lane to issue for. -/
def State.site? (s : State) : Option Site :=
  match s.group? s.cur with
  | none => none
  | some g =>
    match s.grid? g.grid, g.issueAddr with
    | some gr, some pc => some { g := g.seen, img := g.image gr.image, pc := pc, mask := g.activeMask pc }
    | _, _ => none

/-- How an instruction bears on segments and SPCOUNT (R31, R48, R49). -/
inductive IssueKind where
  | plain
  | safePoint
  | yield
  | exit
  | resume
  deriving DecidableEq, Repr

/-- R49: a safe point or RESUME sets SPCOUNT to 0. -/
def IssueKind.zeroes : IssueKind → Bool
  | .plain | .exit => false
  | .safePoint | .yield | .resume => true

/-- R48: a safe-point instruction. -/
def IssueKind.safe : IssueKind → Bool
  | .safePoint | .yield => true
  | _ => false

/-- The effective safe-point distance D (R49); unbounded for an ISA 2 image (R108). -/
def distance (cap : Nat) (img : Image) : Option Nat :=
  if img.isa2 then none else some (if img.spdist = 0 then cap else min img.spdist cap)

/-- The safe-point table entry for an address (R106, R108). -/
def Image.safePoint? (img : Image) (pc : Addr) : Option SafePoint :=
  if img.isa2 then
    some { pcoff := pc.toNat - img.base, stub := none, vlive := BitVec.allOnes 512, ulive := BitVec.allOnes 128,
           plive := BitVec.allOnes 16, jlive := BitVec.allOnes 8, tlive := BitVec.allOnes 32,
           alive := BitVec.allOnes 128 }
  else img.safePoints.find? (fun e => img.base + e.pcoff == pc.toNat)

/-- R48, R54: a safe point without an entry, or inside a stub, is an illegal operand; so is EXIT inside a stub (R67)
and RESUME outside one. A handler that runs for a fault raised in a stub counts as inside it (DESIGN CHOICE, log 66). -/
def kindFault (x : Site) : IssueKind → Option Cause
  | .plain => none
  | .safePoint | .yield =>
    if x.g.stubs.isEmpty && (x.img.safePoint? x.pc).isSome then none else some Cause.illegalOperand
  | .exit => if x.g.stubs.isEmpty then none else some Cause.illegalOperand
  | .resume => if x.g.stubs.isEmpty then some Cause.illegalOperand else none

/-- Whether the issue would raise SPCOUNT above D (R49). -/
def overDistance (cap : Nat) (x : Site) (kind : IssueKind) : Bool :=
  !kind.zeroes && (match distance cap x.img with | none => false | some d => d < x.g.spcount + 1)

/-- SPCOUNT after an issue (R49, R108, R304). -/
def nextSpcount (kind : IssueKind) (past : Bool) (n : Nat) : Nat :=
  if kind.zeroes then 0 else if past then n else min (n + 1) (2 ^ 21 - 1)

/-- An issue at `pc` is a YIELD that completed: its lanes did not fault (R26). -/
def Group.yielded (g : Group) (pc : Addr) (kind : IssueKind) (now : Group) : Bool :=
  kind == .yield && now.maskOf (fun i l => (g.activeMask pc).getLsbD i && l.trapped) == 0

/-- The fairness count after an issue under R20. One at which a rotation ends counts from 0 (R25 step 3). -/
def Group.fairCount (g : Group) (pc : Addr) : Nat :=
  if g.pprom && (g.leastAbove pc).isSome then (if g.rotation.isSome then 1 else g.fairness + 1) else 0

/-- The fairness count and the rotation after an issue that began from `g` at `pc` (R25, R26). A YIELD's own rotation
stands as `now` holds it; an issue of a rebuild stub leaves both as they were (R65). -/
def Group.fair (g : Group) (pc : Addr) (kind : IssueKind) (now : Group) : Group :=
  if !g.stubs.isEmpty then { now with rotation := g.rotation, fairness := g.fairness }
  else
    match g.activeRotation with
    | some r =>
      if g.yielded pc kind now then { now with fairness := 0 }
      else { now with rotation := some { r with left := r.left - 1 }, fairness := 0 }
    | none =>
      if g.yielded pc kind now then { now with fairness := if now.rotation.isSome then 0 else g.fairCount pc }
      else { now with rotation := none, fairness := g.fairCount pc }

/-- What every issue leaves behind in its group (R25, R31, R49, R50), given the group it began from. An access that is
repeated was counted at its first issue (R272). -/
def Group.book (g : Group) (pc : Addr) (mask : BitVec 32) (m : Bool) (kind : IssueKind) (past : Bool) (stamp : Nat)
    (now : Group) : Group :=
  let now := { now with lastIssue := stamp, blocked := false, noRoom := false, standing := none }
  if g.redo?.isSome then
    now.onLanes mask fun _ l => { l with redo := if l.service.isSome then l.redo else none }
  else
    let now := g.fair pc kind now
    let now := if kind == .resume then now else
      now.onLanes mask fun _ l => { l with atSafe := kind.safe && !l.trapped && !l.isDone }
    { now with spcount := nextSpcount kind past g.spcount, segEnd := now.segEnd || m || kind != .plain,
               lastAddr := if g.stubs.isEmpty then pc else g.lastAddr }

/-- The lanes of the active mask that fault, each with its cause. -/
def faultMask (x : Site) (fault : Nat → Lane → Option Cause) : BitVec 32 :=
  x.g.maskOf fun i l => x.mask.getLsbD i && (fault i l).isSome

/-- R320, R387: the fault records of a lane: its latest fault, and before a handler's fault the original one. -/
def faultRec (t : Team) (index : Nat) (lane : Nat) (l : Lane) : FaultRec :=
  { team := t.index, group := index, lane := lane, lcid := t.lcid, tcause := l.tcause, tpc := l.tpc, taddr := l.taddr }

/-- Adds fault records to a grid; the count saturates at 2^32 − 1 (R387). -/
def State.addRecords (s : State) (grid : Nat) (rs : List FaultRec) : State :=
  s.modGrid grid fun g => { g with nrec := min (g.nrec + rs.length) (2 ^ 32 - 1), records := g.records ++ rs }

/-- The handle that an operation was given (R214). -/
def EngOp.named (o : EngOp) : Nat := o.handle % 2 ^ 16

/-- A number that no operation of the core has, for one whose handle the core does not count as in use: the handle stays
in its low 16 bits (R333; DEDUCED, log 51). -/
def Core.strayNumber (c : Core) (handle : Nat) : Nat :=
  (((List.range (c.ops.length + 1)).map fun j => handle % 2 ^ 16 + 2 ^ 16 * (j + 1)).find?
    fun n => !c.ops.any (·.handle == n)).getD handle

/-- An operation comes to a core that records no status of it, and goes on there. -/
def Core.addStray (c : Core) (o : EngOp) : Core :=
  { c with ops := c.ops ++ [{ o with handle := c.strayNumber o.handle, silent := true, paused := false }] }

/-- The operations kept with a saved team's context go on at the core that it was saved from, to run to completion (R309
step 2; DESIGN CHOICE, log 94). -/
def State.runContext (s : State) (t : Team) : State :=
  (s.modCore t.context.core fun c => t.context.ops.foldl Core.addStray c).modTeam t.uid fun t =>
    { t with context := { t.context with ops := [] } }

/-- The beginning of a grid's termination (R309 steps 1 and 3; a waiting copy ends with CIRCUITLOST, step 2, and a CTGET
that waits for a version no group will post ends too, DEDUCED, log 46). Teams and engine and matrix operations, those of
saved teams too, stay until GRID_TERMINATION_DONE. -/
def State.terminate (s : State) (grid : Nat) : State :=
  if (s.grid? grid).any (·.terminating) then s
  else
    let s := (s.teams.filter (·.grid == grid)).foldl State.runContext s
    { (s.modGrid grid fun g => { g with terminating := true, ring := [], ringWait := false }) with
      groups := (s.groups.filter (·.grid != grid)).map fun g => { g with noRoom := false }, pool := s.pool.filter (·.grid != grid),
      kept := s.kept.filter (·.task.grid != grid), retiring := s.retiring.filter (·.grid != grid),
      cores := s.cores.map fun c =>
        { c with ops := c.ops.map fun o =>
            if o.grid == grid && o.waiting && o.outcome.isNone then
              { o with waiting := false, paused := false,
                       outcome := some (if o.kind = 1 then .circuitLost else .staleGen, 0) }
            else if o.grid == grid then { o with paused := false }
            else o } }

/-- Ends a grid on faults that its handler cannot take, with their records (R320). -/
def State.terminateWith (s : State) (grid : Nat) (rs : List FaultRec) : State :=
  if (s.grid? grid).any (·.terminating) then s else (s.addRecords grid rs).terminate grid

/-- The faults of an issue (R319 step 1, R320): the lanes of `bad` enter TRAP; a fault in handler mode terminates the
grid at once, with the handler fault's record beside the original's. -/
def State.raise (s : State) (x : Site) (bad : BitVec 32) (fault : Nat → Lane → Option Cause) : State :=
  let stub := !x.g.stubs.isEmpty
  let trapAt (i : Nat) (l : Lane) : Lane :=
    match fault i l with
    | none => l
    | some c => l.trap x.pc stub c
  let s := s.modGroup x.g.uid fun g => g.onLanes bad trapAt
  let inHandler := x.g.maskOf fun i l => bad.getLsbD i && l.handler
  if inHandler = 0 then s
  else
    match s.team? x.g.team with
    | none => s
    | some t =>
      s.terminateWith x.g.grid
        ((mapFrom (fun i l => if inHandler.getLsbD i then [faultRec t x.g.index i (trapAt i l),
            faultRec t x.g.index i l] else []) 0 x.g.lanes).flatten)

/-- A fault that an access meets after its issue: its lanes trap at its instruction, unless they have left (R271, R299,
R390; DEDUCED, log 55). -/
def State.raiseLate (s : State) (group : Nat) (lanes : BitVec 32) (pc : Addr) (c : Cause) : State :=
  match s.group? group with
  | none => s
  | some g =>
    match s.grid? g.grid with
    | none => s
    | some gr =>
      let mask := g.maskOf fun i l => lanes.getLsbD i && !l.isDone
      (s.modGroup group fun g => g.onLanes mask fun _ l => { l with lpc := pc }).raise
        { g := g, img := g.image gr.image, pc := pc, mask := mask } mask fun _ _ => some c

/-- The lanes that complete the instruction go on to the next word (R21). -/
def State.advance (s : State) (x : Site) (good : BitVec 32) : State :=
  s.modGroup x.g.uid fun g => g.onLanes good fun _ l => { l with lpc := x.pc + 4 }

/-- What an instruction is made of: its marker and kind; the faults of R65 up to the format tags; the operation's own
faults; when it is not issued (R193), whatever its lanes meet (`wait`) or for the lanes that pass (`hold`); and its
effect for the lanes that pass. -/
structure Op where
  m : Bool
  kind : IssueKind
  check : Site → Nat → Lane → Option Cause
  fault : Site → Nat → Lane → Option Cause := fun _ _ _ => none
  wait : Site → Bool := fun _ => false
  hold : Site → BitVec 32 → Bool := fun _ _ => false
  onHold : Site → BitVec 32 → State → State := fun _ _ s => s
  effect : Site → BitVec 32 → State → State

/-- The fault of one lane at an issue, in the order of R65: the kind's own and the operand checks, the distance fault,
then the operation's faults. -/
def Op.faultOf (o : Op) (cap : Nat) (x : Site) (i : Nat) (l : Lane) : Option Cause :=
  match kindFault x o.kind with
  | some c => some c
  | none =>
    match o.check x i l with
    | some c => some c
    | none => if overDistance cap x o.kind then some Cause.distance else o.fault x i l

/-- The state after an issue: faults, then the advance and the effect for the lanes that pass, then the books. -/
def Op.perform (o : Op) (s : State) (x : Site) : State :=
  let fault := o.faultOf s.fw.spdistCap x
  let bad := faultMask x fault
  let good := x.mask &&& ~~~bad
  let s1 := if bad = 0 then s else s.raise x bad fault
  let s2 := if good = 0 then s1 else o.effect x good (s1.advance x good)
  let s3 := s2.modGroup x.g.uid
    (x.g.book x.pc x.mask o.m o.kind (overDistance s.fw.spdistCap x o.kind) s.clock.stamp)
  { s3 with clock := { s3.clock with stamp := s3.clock.stamp + 1 } }

/-- One issue of the chosen group (R20 to R22, R31, R49, R65, R193). -/
def Op.issue (o : Op) (s : State) : Result :=
  match s.site? with
  | none => .next s
  | some x =>
    let good := x.mask &&& ~~~faultMask x (o.faultOf s.fw.spdistCap x)
    if o.wait x || (good != 0 && o.hold x good) then
      .next (o.onHold x good (s.modGroup x.g.uid fun g => { g with blocked := true }))
    else .next (o.perform s x)

/-- The fault a word that does not decode takes (R73): it ends no segment (R31) and counts as an issue (R49). -/
def decodeFault (c : Cause) (s : State) : Result :=
  Op.issue { m := false, kind := .plain, check := fun _ _ _ => some c, effect := fun _ _ s => s } s

/-! ## Rejoin masks and leaving (R28 to R30, R56) -/

/-- R29: when ENROL is nonempty and equals ARRIVED, the lanes parked on register `j` are released. -/
def Group.testRejoin (g : Group) (j : Nat) : Group :=
  match g.jmasks[j]? with
  | none => g
  | some jm =>
    if jm.enrol != 0 && jm.arrived == jm.enrol then
      { g with
        lanes := g.lanes.map fun l => if l.state == .join j then { l with state := .run, lpc := l.lpc + 4 } else l,
        jmasks := setAt (fun _ => ⟨0, 0⟩) j g.jmasks }
    else g

/-- Changes register `j` and tests it for release (R29). -/
def Group.changeJ (g : Group) (j : Nat) (f : JMask → JMask) : Group :=
  ({ g with jmasks := setAt f j g.jmasks }).testRejoin j

/-- R30: lanes that enter DONE leave every rejoin mask. -/
def Group.leaveMasks (g : Group) (mask : BitVec 32) : Group :=
  (List.range 8).foldl (fun g j => g.changeJ j fun jm => ⟨jm.enrol &&& ~~~mask, jm.arrived &&& ~~~mask⟩) g

/-- Lanes leave the rebuild stubs they run or wait to run; a stub without lanes is over (R54). -/
def Group.leaveStubs (g : Group) (mask : BitVec 32) : Group :=
  { g with stubs := (g.stubs.map fun st => { st with lanes := st.lanes &&& ~~~mask }).filter (·.lanes != 0) }

/-- Lanes enter DONE (R30, R56). -/
def Group.finishLanes (g : Group) (mask : BitVec 32) : Group :=
  ((g.onLanes mask fun _ l =>
    { l with state := .done, handler := false, atSafe := false, service := none, redo := none,
             stood := none, leaving := false }).leaveMasks mask).leaveStubs mask

def Group.allDone (g : Group) : Bool := g.lanes.all (·.isDone)

/-- The greatest LWCT of the lanes of a mask. -/
def Group.maxLwct (g : Group) (mask : BitVec 32) : Nat :=
  (mapFrom (fun i (l : Lane) => if mask.getLsbD i then l.lwct else 0) 0 g.lanes).foldl max 0

/-- The entries of a core's retirement tracker in use (R56). -/
def State.trackers (s : State) (core : Nat) : Nat := (s.retiring.filter (·.core == core)).length

/-- The tracker entry a group is handed to (R56, R57). -/
def trackerEntry (t : Team) (g : Group) : Retiring :=
  { group := g.uid, core := t.core.getD 0, grid := g.grid, team := g.team, index := g.index, lcid := t.lcid,
    lwct := g.maxLwct (BitVec.allOnes 32), succ := (g.task.map (·.succ)).getD 0, decrement := none, task := g.task,
    spec := g.spec }

/-- R56: a group whose last lane is DONE leaves its slot and is handed to a tracker entry. -/
def State.retire (s : State) (uid : Nat) : State :=
  match s.group? uid with
  | none => s
  | some g =>
    if !g.allDone then s
    else
      match s.team? g.team with
      | none => s
      | some t =>
        { s with groups := s.groups.filter (·.uid != uid), retiring := s.retiring ++ [trackerEntry t g] }

/-- Whether lanes leaving would retire the group while its core's tracker is full (R56: the last EXIT stalls). -/
def State.exitStalls (s : State) (g : Group) (mask : BitVec 32) : Bool :=
  (g.finishLanes mask).allDone && 16 ≤ s.trackers (s.coreOf g.team)

end Sys2Proof.Machine
end

