-- ==== Sys2Proof/Machine/Operands.lean ====
section
/-!
DEFINITION. Operand forms: the checks of register operands (R37, R33, R44), the tags of R42, the access types of R93 and
the address forms of R92.
-/

namespace Sys2Proof.Machine

/-! ## Tags (R42, R44) -/

def tagRAW : BitVec 5 := 0
def tagI32 : BitVec 5 := 1
def tagUI32 : BitVec 5 := 2
def tagF32 : BitVec 5 := 3
def tagBF16 : BitVec 5 := 4
def tagF16 : BitVec 5 := 5
def tagE4 : BitVec 5 := 6
def tagE5 : BitVec 5 := 7
def tagF4 : BitVec 5 := 8
def tagI8 : BitVec 5 := 9
def tagU8 : BitVec 5 := 10
def tagI16 : BitVec 5 := 11
def tagU16 : BitVec 5 := 12
def tagI64L : BitVec 5 := 13
def tagI64H : BitVec 5 := 14
def tagSC8 : BitVec 5 := 15

/-- Integer arithmetic accepts I32, UI32 and RAW (R44). -/
def isInt (t : BitVec 5) : Bool := t.toNat ≤ 2

/-- Logical, shift and bit-field instructions accept codes 0 to 15 (R44). -/
def isAny (t : BitVec 5) : Bool := t.toNat ≤ 15

/-- Float instructions take F32, BF16x2 and F16x2 (R44). -/
def isFloat (t : BitVec 5) : Bool := t == tagF32 || t == tagBF16 || t == tagF16

/-- The tags of a 64-bit pair (R44). -/
def isWide (l : Lane) (r : Nat) : Bool := (l.get r).tag == tagI64L && (l.get (r + 1)).tag == tagI64H

/-! ## Operand checks -/

/-- The register operands of a form: vector registers (by name, in the window) and uniform registers, read or
written. -/
structure Operands where
  vs : List Nat := []
  us : List Nat := []

/-- R37: a vector operand whose physical register is at or above Va. -/
def outOfBounds (x : Site) (l : Lane) (o : Operands) : Bool := o.vs.any fun r => x.img.va ≤ l.window + r

/-- R33: an operand is pending for the lane, or a uniform one for the group. -/
def isPending (x : Site) (l : Lane) (o : Operands) : Bool :=
  (o.vs.any fun r => l.pend.contains (l.window + r)) || o.us.any x.g.upend.contains

/-- The operand checks of R137 in the order of R65: register bounds, pending registers, format tags. -/
def operandFault (x : Site) (l : Lane) (o : Operands) (tags : Bool) : Option Cause :=
  if outOfBounds x l o then some Cause.registerBounds
  else if isPending x l o then some Cause.pendingRegister
  else if tags then none else some Cause.formatTag

/-- R65: an illegal operand that depends on register contents stands before the other checks, once the registers it
reads can be read (DEDUCED, log 25). -/
def valueFault (x : Site) (l : Lane) (reads : Operands) (illegal : Bool) (rest : Option Cause) : Option Cause :=
  if !outOfBounds x l reads && !isPending x l reads && illegal then some Cause.illegalOperand else rest

/-- Conditions that make a block of uniform registers illegal, each with the words of the block that it is read from. -/
abbrev Rules : Type := List (List Nat × Bool)

/-- What makes a block of uniform registers from `a` on illegal (R65): each condition with the registers that it is read
from, given with the words of the block. -/
def blockRules (a : Nat) (rules : Rules) : Rules :=
  rules.map fun (ws, bad) => (ws.map (a + ·), bad)

/-- R65: an illegal word of such a block stands before the other checks, once the registers that its condition is read
from can be read, be others of the block pending or not (DEDUCED, log 25). -/
def blockFault (x : Site) (l : Lane) (a : Nat) (rules : Rules) (rest : Option Cause) : Option Cause :=
  if (blockRules a rules).any fun (us, bad) => bad && !isPending x l { us := us } then some Cause.illegalOperand
  else rest

/-- The registers `r` to `r + n - 1`. -/
def regsFrom (r n : Nat) : List Nat := (List.range n).map (r + ·)

/-! ## Shapes of instructions -/

/-- An instruction that acts lane by lane (R21): operands, the tags it accepts, and what it does to a lane. -/
def laneOp (m : Bool) (o : Operands) (tags : Site → Lane → Bool) (f : Site → Nat → Lane → Lane) : Op :=
  { m := m, kind := .plain, check := fun x _ l => operandFault x l o (tags x l),
    effect := fun x good s => s.modGroup x.g.uid fun g => g.onLanes good (f x) }

/-- An instruction that acts once for the group (R22). -/
def groupOp (m : Bool) (us : List Nat) (f : Site → BitVec 32 → Group → Group) : Op :=
  { m := m, kind := .plain, check := fun x _ l => operandFault x l { us := us } true,
    effect := fun x good s => s.modGroup x.g.uid (f x good) }

/-! ## Access types (R93) -/

/-- Bytes of an access. -/
def accBytes (acc : Nat) : Nat :=
  if acc ≤ 1 then 1 else if acc ≤ 3 then 2 else if acc ≤ 17 then 4 else if acc ≤ 24 then 8 else 16

/-- Registers of an access. -/
def accCount (acc : Nat) : Nat := if acc ≤ 17 then 1 else if acc ≤ 24 then 2 else 4

/-- The tags of types 5 to 17. -/
def wordTags : List (BitVec 5) :=
  [tagI32, tagUI32, tagF32, tagBF16, tagF16, tagE4, tagE5, tagF4, tagI8, tagU8, tagI16, tagU16, tagSC8]

/-- The tags of types 19 to 24, and of 25 to 30. -/
def wideTags : List (BitVec 5) := [tagRAW, tagF32, tagBF16, tagF4, tagE4, tagI8]

/-- The tag of register `i` of an access. -/
def accTag (acc i : Nat) : BitVec 5 :=
  if acc = 0 ∨ acc = 2 then tagI32
  else if acc = 1 ∨ acc = 3 then tagUI32
  else if acc = 4 then tagRAW
  else if acc ≤ 17 then (wordTags[acc - 5]?).getD tagRAW
  else if acc = 18 then (if i = 0 then tagI64L else tagI64H)
  else if acc ≤ 24 then (wideTags[acc - 19]?).getD tagRAW
  else (wideTags[acc - 25]?).getD tagRAW

/-- R93: the tag a store requires of register `i`. -/
def storeTagOk (acc i : Nat) (t : BitVec 5) : Bool :=
  if acc ≤ 3 then isInt t else if accTag acc i == tagRAW then true else t == accTag acc i

/-- Little-endian 32-bit words of bytes. -/
def wordsOf : List Byte → List Word
  | [] => []
  | b0 :: b1 :: b2 :: b3 :: bs => (b3 ++ b2 ++ b1 ++ b0) :: wordsOf bs
  | bs => [BitVec.ofNat 32 (leNat bs)]

/-- Sign- or zero-extends a byte or half (R93). -/
def extend (acc : Nat) (bytes : List Byte) : Word :=
  let x := leNat bytes
  if acc = 0 then (BitVec.ofNat 8 x).signExtend 32
  else if acc = 2 then (BitVec.ofNat 16 x).signExtend 32
  else BitVec.ofNat 32 x

/-- The register words a load of `bytes` writes (R93, R198). -/
def loadWords (acc : Nat) (bytes : List Byte) : List Word :=
  if acc ≤ 3 then [extend acc bytes] else wordsOf bytes

/-- The bytes a store of the registers' words writes (R93, R199). -/
def storeBytes (acc : Nat) (ws : List Word) : List Byte :=
  ((ws.map fun w => natLe 4 w.toNat).flatten).take (accBytes acc)

/-- The register writes of a load into `d` (physical numbering from `base`). -/
def loadWrites (acc base : Nat) (bytes : List Byte) : List RegWrite :=
  mapFrom (fun i w => { reg := base + i, bits := w, tag := accTag acc i }) 0 (loadWords acc bytes)

/-! ## Address forms (R92, R97) -/

/-- The global address of LDG, STG and ATOM. -/
def globalAddr (g : Group) (l : Lane) (a b : Nat) : Nat :=
  if b = 126 then (l.pair a).toNat % 2 ^ 48
  else (g.uPair b + (l.get a).bits.signExtend 64).toNat % 2 ^ 48

/-- The scratchpad address of LDP, STP and ATOMP. -/
def scratchAddr (g : Group) (l : Lane) (a b : Nat) : Nat :=
  if b = 126 then (l.get a).bits.toNat else (g.u b + (l.get a).bits).toNat

/-- The global address of LDU and STU. -/
def uniformAddr (g : Group) (a b : Nat) : Nat := (g.uPair b + (g.u a).signExtend 64).toNat % 2 ^ 48

/-- The operands an address form reads: global. -/
def globalOperands (a b : Nat) : Operands :=
  if b = 126 then { vs := [a, a + 1] } else { vs := [a], us := [b, b + 1] }

/-- The operands an address form reads: scratchpad. -/
def scratchOperands (a b : Nat) : Operands := if b = 126 then { vs := [a] } else { vs := [a], us := [b] }

/-- R192: the tags an address operand accepts. -/
def globalTags (l : Lane) (a b : Nat) : Bool := if b = 126 then isWide l a else isInt (l.get a).tag

def scratchTags (l : Lane) (a : Nat) : Bool := isInt (l.get a).tag

def Operands.add (o p : Operands) : Operands := { vs := o.vs ++ p.vs, us := o.us ++ p.us }

end Sys2Proof.Machine
end

