-- ==== Sys2Proof/Machine/Float.lean ====
section
/-!
DEFINITION. Float arithmetic on patterns: sums and products (R118), minimum and maximum (R152), division and roots
(R121), conversions (R122 to R126), comparison (R120), FLUT (R131, R132), dot products (R156) and the fixed orders
across lanes (R133, R134).
-/

namespace Sys2Proof.Machine

/-! ## Exact sums and products (R118) -/

def Num.neg : Num → Num
  | .nan => .nan
  | .inf s => .inf !s
  | .fin s m e => .fin (!s) m e

/-- The exact product; `nan` where it is 0 · ∞. -/
def Num.mul : Num → Num → Num
  | .fin s m e, .fin t n g => .fin (s != t) (m * n) (e + g)
  | .inf s, .inf t => .inf (s != t)
  | .inf s, .fin t n _ => if n = 0 then .nan else .inf (s != t)
  | .fin s m _, .inf t => if m = 0 then .nan else .inf (s != t)
  | _, _ => .nan

/-- A signed integer count of `2^e`. -/
def scaled (s : Bool) (m : Nat) (e g : Int) : Int := (if s then -(m : Int) else m) * 2 ^ (e - g).toNat

/-- The exact sum; a zero sum takes its sign from R118; `nan` where it is ∞ − ∞. -/
def Num.add (mode : RMode) : Num → Num → Num
  | .fin s m e, .fin t n g =>
    let low := min e g
    let x := scaled s m e low + scaled t n g low
    if x = 0 then .fin (if s == t then s else mode == 3) 0 low else .fin (x < 0) x.natAbs low
  | .inf s, .inf t => if s == t then .inf s else .nan
  | .inf s, .fin _ _ _ => .inf s
  | .fin _ _ _, .inf t => .inf t
  | _, _ => .nan

/-- The rounding of an exact result that came from operands none of which is NaN. -/
def Fmt.settle (f : Fmt) (mode : RMode) : Num → Nat × FpFlags
  | .nan => f.invalid
  | x => f.ofNum mode x

/-- Round(a + b) (R150). -/
def Fmt.add (f : Fmt) (mode : RMode) (a b : Nat) : Nat × FpFlags :=
  (f.nanOf [a, b]).getD (f.settle mode ((f.value a).add mode (f.value b)))

/-- Round(a − b). -/
def Fmt.sub (f : Fmt) (mode : RMode) (a b : Nat) : Nat × FpFlags :=
  (f.nanOf [a, b]).getD (f.settle mode ((f.value a).add mode (f.value b).neg))

/-- Round(a · b). -/
def Fmt.mul (f : Fmt) (mode : RMode) (a b : Nat) : Nat × FpFlags :=
  (f.nanOf [a, b]).getD (f.settle mode ((f.value a).mul (f.value b)))

/-- R151: one rounding of ±(a · b) ± d. A product of zero and infinity raises IVE even beside a quiet NaN d. -/
def Fmt.fma (f : Fmt) (mode : RMode) (negP negD : Bool) (a b d : Nat) : Nat × FpFlags :=
  let p := (f.value a).mul (f.value b)
  let bad := p == .nan && !f.isNan a && !f.isNan b
  match f.nanOf [a, b, d] with
  | some (r, fl) => (r, fl ||| flagIf bad ive)
  | none =>
    let d := f.value d
    f.settle mode ((if negP then p.neg else p).add mode (if negD then d.neg else d))

/-! ## Comparison (R120, R152) -/

/-- Orders two numbers that are not NaN; −0 and +0 are equal. -/
def Num.cmp : Num → Num → Ordering
  | .inf s, .inf t => if s == t then .eq else if s then .lt else .gt
  | .inf s, _ => if s then .lt else .gt
  | _, .inf t => if t then .gt else .lt
  | .fin s m e, .fin t n g =>
    let low := min e g
    compare (scaled s m e low) (scaled t n g low)
  | _, _ => .eq

/-- a is below b, where −0 is below +0 (R152). -/
def Fmt.below (f : Fmt) (a b : Nat) : Bool :=
  match (f.value a).cmp (f.value b) with
  | .lt => true
  | .gt => false
  | .eq => f.sign a && !f.sign b

/-- FMIN and FMAX (R152). -/
def Fmt.minmax (f : Fmt) (greater : Bool) (a b : Nat) : Nat × FpFlags :=
  (f.nanOf [a, b]).getD ((if greater then (if f.below a b then b else a) else (if f.below b a then b else a)), 0)

/-- FMINNUM and FMAXNUM (R152). -/
def Fmt.minmaxNum (f : Fmt) (greater : Bool) (a b : Nat) : Nat × FpFlags :=
  let fl := flagIf (f.isSnan a || f.isSnan b) ive
  if f.isNan a && f.isNan b then (f.quiet a, fl)
  else if f.isNan a then (b, fl)
  else if f.isNan b then (a, fl)
  else f.minmax greater a b

/-- R79, R120: conditions 0 EQ, 1 NE, 2 LT, 3 LE, 4 GT, 5 GE, 6 UN, 7 OR. -/
def Fmt.compare (f : Fmt) (cond : Nat) (a b : Nat) : Bool × FpFlags :=
  if f.isNan a || f.isNan b then
    (cond == 1 || cond == 6, flagIf ((2 ≤ cond && cond ≤ 5) || f.isSnan a || f.isSnan b) ive)
  else
    let c := (f.value a).cmp (f.value b)
    (match cond with
     | 0 => c == .eq
     | 1 => c != .eq
     | 2 => c == .lt
     | 3 => c != .gt
     | 4 => c == .gt
     | 5 => c != .lt
     | 6 => false
     | _ => true, 0)

/-! ## Quotients and roots (R121) -/

/-- `m / n` with at least `p` bits, its last bit 1 where the quotient goes on. -/
def quotient (p m n : Nat) : Nat × Int :=
  let k := Nat.log2 n + p + 2 - Nat.log2 m
  let x := m * 2 ^ k
  (2 * (x / n) + (if x % n = 0 then 0 else 1), -(k : Int) - 1)

/-- R157: a / b. -/
def Fmt.div (f : Fmt) (mode : RMode) (a b : Nat) : Nat × FpFlags :=
  (f.nanOf [a, b]).getD
    (match f.value a, f.value b with
     | .fin s m e, .fin t n g =>
       if n = 0 then (if m = 0 then f.invalid else (f.inf (s != t), dze))
       else if m = 0 then (f.signBits (s != t), 0)
       else
         let (q, h) := quotient f.prec m n
         f.round mode (s != t) q (e - g + h)
     | .inf s, .fin t _ _ => (f.inf (s != t), 0)
     | .fin s _ _, .inf t => (f.signBits (s != t), 0)
     | _, _ => f.invalid)

/-- The pattern of 1. -/
def Fmt.one (f : Fmt) : Nat := f.bias * 2 ^ f.frac

/-- FRCP. -/
def Fmt.rcp (f : Fmt) (mode : RMode) (a : Nat) : Nat × FpFlags :=
  (f.nanOf [a]).getD (f.div mode f.one a)

/-- The integer square root, one result bit for each step from bit `n − 1`. -/
def isqrt (x : Nat) : Nat → Nat → Nat
  | 0, r => r
  | n + 1, r => isqrt x n (if (r + 2 ^ n) * (r + 2 ^ n) ≤ x then r + 2 ^ n else r)

/-- The root of `m · 2^e` for even `e`, its last bit 1 where the root goes on. -/
def root (m : Nat) (e : Int) : Nat × Int :=
  let r := isqrt m (Nat.log2 m / 2 + 1) 0
  (2 * r + (if r * r = m then 0 else 1), e / 2 - 1)

/-- FSQRT. -/
def Fmt.sqrt (f : Fmt) (mode : RMode) (a : Nat) : Nat × FpFlags :=
  (f.nanOf [a]).getD
    (match f.value a with
     | .fin s m e =>
       if m = 0 then (a, 0)
       else if s then f.invalid
       else
         let k := 2 * f.prec + 4 + (if (e - (2 * f.prec + 4 : Nat)) % 2 = 0 then 0 else 1)
         let (r, h) := root (m * 2 ^ k) (e - k)
         f.round mode false r h
     | .inf s => if s then f.invalid else (a, 0)
     | .nan => f.invalid)

/-- FRSQ: the root of 1/a. -/
def Fmt.rsq (f : Fmt) (mode : RMode) (a : Nat) : Nat × FpFlags :=
  (f.nanOf [a]).getD
    (match f.value a with
     | .fin s m e =>
       if m = 0 then (f.inf s, dze)
       else if s then f.invalid
       else
         let k := 2 * f.prec + 4 + Nat.log2 m
         let k := k + (if (e + k) % 2 = 0 then 0 else 1)
         let x := 2 ^ k / m
         let r := isqrt x (Nat.log2 x / 2 + 1) 0
         f.round mode false (2 * r + (if r * r * m = 2 ^ k then 0 else 1)) (-(e + k) / 2 - 1)
     | .inf s => if s then f.invalid else (0, 0)
     | .nan => f.invalid)

/-! ## Scaling, exponents, integral values, classes (R154, R155, R158, R159) -/

/-- FSCALE. -/
def Fmt.scale (f : Fmt) (mode : RMode) (a : Nat) (n : Int) : Nat × FpFlags :=
  (f.nanOf [a]).getD
    (match f.value a with
     | .fin s m e => f.round mode s m (e + n)
     | _ => (a, 0))

/-- FGETEXP. -/
def Fmt.getExp (f : Fmt) (mode : RMode) (a : Nat) : Nat × FpFlags :=
  (f.nanOf [a]).getD
    (match f.value a with
     | .fin _ m e =>
       if m = 0 then (f.inf true, dze)
       else
         let x : Int := Nat.log2 m + e
         f.round mode (x < 0) x.natAbs 0
     | _ => (f.inf false, 0))

/-- FGETMAN. -/
def Fmt.getMan (f : Fmt) (mode : RMode) (a : Nat) : Nat × FpFlags :=
  (f.nanOf [a]).getD
    (match f.value a with
     | .fin s m _ => f.round mode s m (-(Nat.log2 m : Int))
     | _ => f.invalid)

/-- FRND: integral values; no IXE. -/
def Fmt.integral (f : Fmt) (mode : RMode) (a : Nat) : Nat × FpFlags :=
  (f.nanOf [a]).getD
    (match f.value a with
     | .fin s m e => ((f.round mode s (roundAt mode s m e 0).1 0).1, 0)
     | _ => (a, 0))

/-- The class of an element, by bit number (R155). -/
def Fmt.classOf (f : Fmt) (a : Nat) : Nat :=
  let pick (neg pos : Nat) : Nat := if f.sign a then neg else pos
  if f.isNan a then (if f.isSnan a then 0 else 1)
  else if f.isInf a then pick 2 9
  else if f.expField a != 0 then pick 3 8
  else if f.sigField a != 0 then pick 4 7
  else pick 5 6

/-! ## Elements of a register (R162) -/

/-- Elem(x, i, w). -/
def elem (x : Word) (i w : Nat) : Nat := bitsOf x.toNat (i * w) w

/-- Packs elements of width `w`, element 0 lowest. -/
def pack (w : Nat) (es : List Nat) : Word := BitVec.ofNat 32 (es.foldr (fun e acc => e + 2 ^ w * acc) 0)

/-- Applies an operation to each element of width `w`; the flags are ORed (R117). -/
def eachElem (w : Nat) (f : Nat → Nat × FpFlags) : Word × FpFlags :=
  let rs := (List.range (32 / w)).map f
  (pack w (rs.map (·.1)), rs.foldl (fun acc r => acc ||| r.2) 0)

/-- The element format of a float tag (R149). -/
def floatFmt (t : BitVec 5) : Fmt := if t == tagBF16 then fBF16 else if t == tagF16 then fF16 else fF32

/-! ## Conversions (R122 to R126, R161 to R163) -/

/-- What the elements of a tag are: floats, or integers of a width and signedness (R161). -/
inductive ElemKind where
  | float (f : Fmt)
  | int (width : Nat) (signed : Bool)
  deriving DecidableEq, Repr

/-- The element kind of a tag; none for RAW, I64L and I64H (R161). -/
def elemKind (t : BitVec 5) : Option ElemKind :=
  match t.toNat with
  | 1 => some (.int 32 true)
  | 2 => some (.int 32 false)
  | 3 => some (.float fF32)
  | 4 => some (.float fBF16)
  | 5 => some (.float fF16)
  | 6 => some (.float fE4M3)
  | 7 => some (.float fE5M2)
  | 8 => some (.float fE2M1)
  | 9 => some (.int 8 true)
  | 10 => some (.int 8 false)
  | 11 => some (.int 16 true)
  | 12 => some (.int 16 false)
  | 15 => some (.float fE3M5)
  | _ => none

def ElemKind.width : ElemKind → Nat
  | .float f => f.width
  | .int w _ => w

/-- The integer an element holds. -/
def intValue (w : Nat) (signed : Bool) (x : Nat) : Int :=
  if signed && 2 ^ (w - 1) ≤ x then (x : Int) - 2 ^ w else x

/-- The range of an integer target. -/
def intMin (w : Nat) (signed : Bool) : Int := if signed then -(2 ^ (w - 1)) else 0
def intMax (w : Nat) (signed : Bool) : Int := if signed then 2 ^ (w - 1) - 1 else 2 ^ w - 1

/-- The two's-complement pattern of an integer. -/
def intPattern (w : Nat) (x : Int) : Nat := (x % 2 ^ w).toNat

/-- R122: a NaN of `src` as a NaN of `dst`. The listed widenings keep the payload (DEDUCED, log 27). -/
def convNan (src dst : Fmt) (x : Nat) : Nat × FpFlags :=
  let fl := flagIf (src.isSnan x) ive
  if src = dst then (src.quiet x, fl)
  else if (src = fBF16 ∧ dst = fF32) ∨ (src = fF16 ∧ dst = fF32) ∨ (src = fE5M2 ∧ dst = fF16) then
    (dst.signBits (src.sign x) + (2 ^ dst.ebits - 1) * 2 ^ dst.frac +
      (src.sigField (src.quiet x)) * 2 ^ (dst.frac - src.frac), fl)
  else (dst.nan (src.sign x), fl)

/-- A finite value into a float target (R122 to R124, R126). -/
def convFinite (dst : Fmt) (mode : RMode) (sat : Bool) (s : Bool) (m : Nat) (e : Int) : Nat × FpFlags :=
  if dst = fE3M5 then
    if m = 0 then (0, 0)
    else if s then (0, ive)
    else
      let r := dst.roundMag mode s m e
      if r.beyond then (0xFF, ofe ||| ixe) else (dst.pattern s r.n r.q, r.flags)
  else if m = 0 then (dst.signBits s, 0)
  else
    let r := dst.roundMag mode s m e
    if r.beyond then
      if sat || dst = fE2M1 then (dst.vmax s, ofe ||| ixe) else (dst.overflowed mode s, ofe ||| ixe)
    else (dst.pattern s r.n r.q, r.flags)

/-- An infinity into a float target. -/
def convInf (dst : Fmt) (sat : Bool) (s : Bool) : Nat × FpFlags :=
  if dst = fE3M5 then (if s then (0, ive) else (0xFF, ofe))
  else if sat || dst = fE2M1 then (dst.vmax s, ofe)
  else (dst.inf s, flagIf (dst.specials == .e4m3) ive)

/-- A float element into a float target. -/
def convFloat (src dst : Fmt) (mode : RMode) (sat : Bool) (x : Nat) : Nat × FpFlags :=
  match src.value x with
  | .nan => if dst.specials == .none then (0, ive) else convNan src dst x
  | .inf s => convInf dst sat s
  | .fin s m e => convFinite dst mode sat s m e

/-- R125: a float element into an integer target. -/
def convToInt (src : Fmt) (w : Nat) (signed : Bool) (mode : RMode) (x : Nat) : Nat × FpFlags :=
  match src.value x with
  | .nan => (0, ive)
  | .inf s => (intPattern w (if s then intMin w signed else intMax w signed), ive)
  | .fin s m e =>
    let (n, exact) := roundAt mode s m e 0
    let y : Int := if s then -(n : Int) else n
    if y < intMin w signed then (intPattern w (intMin w signed), ive)
    else if intMax w signed < y then (intPattern w (intMax w signed), ive)
    else (intPattern w y, flagIf (!exact) ixe)

/-- R126: an integer into an integer target. -/
def convInt (v : Int) (w : Nat) (signed sat : Bool) : Nat × FpFlags :=
  if intMin w signed ≤ v && v ≤ intMax w signed then (intPattern w v, 0)
  else if sat then (intPattern w (if v < intMin w signed then intMin w signed else intMax w signed), ofe)
  else (intPattern w v, 0)

/-- Conv of R163. -/
def conv (src dst : ElemKind) (mode : RMode) (sat : Bool) (x : Nat) : Nat × FpFlags :=
  match src, dst with
  | .float f, .float g => convFloat f g mode sat x
  | .float f, .int w sg => convToInt f w sg mode x
  | .int w sg, .float g =>
    let v := intValue w sg x
    convFinite g mode sat (v < 0) v.natAbs 0
  | .int w sg, .int w' sg' => convInt (intValue w sg x) w' sg' sat

/-- R162: ELEM is beyond the groups of the conversion. -/
def cvtElemIllegal (src dst : ElemKind) (e : Nat) : Bool :=
  if src.width = dst.width then e != 0
  else max src.width dst.width / min src.width dst.width ≤ e

/-- R162: the converted register, from the source `x` and the old destination `old`. -/
def cvtWord (src dst : ElemKind) (mode : RMode) (sat : Bool) (e : Nat) (x old : Word) : Word × FpFlags :=
  let ws := src.width
  let wt := dst.width
  let c (i : Nat) : Nat × FpFlags := conv src dst mode sat (elem x i ws)
  if wt < ws then
    let n := 32 / ws
    let rs := (List.range n).map c
    let fl := rs.foldl (fun acc r => acc ||| r.2) 0
    (pack wt ((List.range (32 / wt)).map fun i =>
      if e * n ≤ i && i < e * n + n then ((rs[i - e * n]?).getD (0, 0)).1 else elem old i wt), fl)
  else
    let n := 32 / wt
    let first := if ws = wt then 0 else e * n
    let rs := (List.range n).map fun i => c (first + i)
    (pack wt (rs.map (·.1)), rs.foldl (fun acc r => acc ||| r.2) 0)

/-! ## Dot products (R156) -/

/-- The elements of two registers in their formats and an F32 value, summed exactly and rounded once. Beside a NaN
operand no product or sum raises the invalid flag, a signalling NaN alone does (DESIGN CHOICE, log 97). -/
def dot (fa fb : Fmt) (mode : RMode) (as bs : List Nat) (d : Nat) : Nat × FpFlags :=
  let nans := ((as.map fun x => (fa, x)) ++ (bs.map fun x => (fb, x)) ++ [(fF32, d)]).filter fun (f, x) => f.isNan x
  match nans with
  | (f, x) :: _ =>
    ((fF32.quiet (convNan f fF32 x).1), flagIf (nans.any fun (f, x) => f.isSnan x) ive)
  | [] =>
    fF32.settle mode ((as.zip bs).foldl (fun y (a, b) => y.add mode ((fa.value a).mul (fb.value b))) (fF32.value d))

/-! ## FLUT (R131, R132) -/

/-- The segment and the evaluation point of an F32 input that is not NaN (R131). -/
def flutPoint (x : Nat) : Nat × Nat :=
  let s := bitsOf x 31 1
  let e := bitsOf x 23 8
  if e ≤ 95 then (512 * s, x)
  else if e ≤ 158 then
    (512 * s + 1 + 8 * (e - 96) + bitsOf x 20 3, (fF32.round rne false (bitsOf x 0 20) (-20)).1)
  else if e ≤ 254 then (512 * s + 505, 0)
  else (512 * s + 506, 0)

/-- R132: the value of FLUT, from the coefficients of a segment. -/
def flutValue (coeff : Nat → Nat × Nat × Nat) (x : Nat) : Nat :=
  if fF32.isNan x then fF32.quiet x
  else
    let (i, t) := flutPoint x
    let (c0, c1, c2) := coeff i
    let y1 := (fF32.fma rne false false c2 t c1).1
    (fF32.fma rne false false y1 t c0).1

/-! ## The window sum (R128) -/

/-- WindowSum over nonzero dyadic terms: sign, magnitude, exponent. -/
def windowSum (terms : List (Bool × Nat × Int)) : Nat :=
  let zs := terms.filter fun (_, m, _) => m != 0
  match zs with
  | [] => 0
  | (_, m, e) :: rest =>
    let emax := rest.foldl (fun acc (_, m, e) => max acc ((Nat.log2 m : Int) + e)) ((Nat.log2 m : Int) + e)
    let q := emax - 62
    let (total, sticky) := zs.foldl
      (fun (total, sticky) (s, m, e) =>
        let k := if q ≤ e then m * 2 ^ (e - q).toNat else m / 2 ^ (q - e).toNat
        let lost := e < q && m % 2 ^ (q - e).toNat != 0
        (total + (if s then -(k : Int) else k), sticky || lost)) ((0 : Int), false)
    if total = 0 then 0
    else (fF32.round rne (total < 0) (4 * total.natAbs + (if sticky then 1 else 0)) (q - 2)).1

/-! ## Fixed orders across lanes (R133, R134) -/

/-- One width of the tree of R133: neighbours combine, and a lone child passes. -/
def treeLevel {α : Type} (op : α → α → α × FpFlags) : List (Option α) → List (Option α) × FpFlags
  | a :: b :: rest =>
    let (xs, fl) := treeLevel op rest
    match a, b with
    | some x, some y =>
      let (z, g) := op x y
      (some z :: xs, fl ||| g)
    | some x, none => (some x :: xs, fl)
    | none, y => (y :: xs, fl)
  | xs => (xs, 0)

/-- TreeReduce of R133 over 2^n places. -/
def treeReduce {α : Type} (op : α → α → α × FpFlags) : Nat → List (Option α) → Option α × FpFlags
  | 0, xs => (xs.head?.join, 0)
  | n + 1, xs =>
    let (ys, fl) := treeLevel op xs
    let (r, g) := treeReduce op n ys
    (r, fl ||| g)

/-- The inclusive scan of R134. -/
def scanFrom {α : Type} (op : α → α → α × FpFlags) : Option α → List (Option α) → List (Option α) × FpFlags
  | _, [] => ([], 0)
  | acc, none :: xs =>
    let (ys, fl) := scanFrom op acc xs
    (none :: ys, fl)
  | none, some x :: xs =>
    let (ys, fl) := scanFrom op (some x) xs
    (some x :: ys, fl)
  | some u, some x :: xs =>
    let (z, g) := op u x
    let (ys, fl) := scanFrom op (some z) xs
    (some z :: ys, fl ||| g)

end Sys2Proof.Machine
end

