-- ==== Sys2Proof/Machine/Mem.lean ====
section
/-!
DEFINITION. Memory: translation (R267 to R274), updates and write-completion times (R278 to R286), leases, scratchpad
(R197, R289), range locks (R200, R292, R293), damaged data (R298, R299), and the faults of an access (R195).
-/

namespace Sys2Proof.Machine

/-! ## Bytes at GTIME -/

/-- The canonical form of memory: addresses strictly rising, and no entry equal to what an unlisted address reads as. -/
def Memory.wf (mem : Memory) : Bool := cwf mem.cells

/-- The bytes of memory as they stand at GTIME (R281). -/
def State.peek (s : State) (pa n : Nat) : List Byte := cgets s.mem.cells pa n

/-- A little-endian value of memory as it stands. -/
def State.peekNat (s : State) (pa n : Nat) : Nat := leNat (s.peek pa n)

/-! ## Translation (R268 to R272) -/

/-- What a walk ends in: a leaf with the page's virtual base and size, a translation fault with its sub-cause, or a
serviceable entry at a physical address. -/
inductive Walked where
  | leaf (base size : Nat) (entry : DWord)
  | fault (sub : Nat)
  | service (entryAt : Nat)
  deriving DecidableEq, Repr

/-- The levels of a walk: low bit of the index, entries, page size of a leaf, level (R268). -/
def walkLevels : List (Nat × Nat × Nat × Nat) :=
  [(39, 512, 2 ^ 39, 1), (30, 512, 2 ^ 30, 2), (21, 512, 2 ^ 21, 3), (16, 32, 2 ^ 16, 4)]

/-- A leaf that breaks R270 (R271 MALFORMED). -/
def leafMalformed (e size level : Nat) : Bool :=
  level == 1 || bitsOf e 13 3 != 0 || 3 < bitsOf e 6 3 || (bitsOf e 16 36 * 2 ^ 16) % size != 0 ||
    (bitsOf e 3 1 == 1 && bitsOf e 4 1 == 1) || (bitsOf e 5 1 == 1 && bitsOf e 6 3 != 1) ||
    (bitsOf e 52 12 != 0 && bitsOf e 6 3 != 1)

/-- A pointer that breaks R269 (R271 MALFORMED). -/
def pointerMalformed (e level : Nat) : Bool :=
  level == 4 || bitsOf e 52 12 != 0 || bitsOf e 2 6 != 0 || (level ≤ 2 && bitsOf e 8 4 != 0)

/-- Walks the tables from `table` (R268 to R271). Entries are read as they stand, at the home slice (R273). -/
def State.walkFrom (s : State) (va : Nat) : List (Nat × Nat × Nat × Nat) → Nat → Walked
  | [], _ => .fault 1
  | (low, count, size, level) :: rest, table =>
    if Config.reservedBase s.fw.reservedGiB ≤ table then .fault 2
    else
      let entryAt := table + 8 * (va / 2 ^ low % count)
      let e := s.peekNat entryAt 8
      if bitsOf e 0 1 = 0 then (if bitsOf e 12 1 = 1 then .service entryAt else .fault 0)
      else if bitsOf e 1 1 = 1 then
        if leafMalformed e size level then .fault 1
        else if bitsOf e 6 3 = 0 && Config.reservedBase s.fw.reservedGiB ≤ bitsOf e 16 36 * 2 ^ 16 then .fault 2
        else .leaf (va / size * size) size (BitVec.ofNat 64 e)
      else if pointerMalformed e level then .fault 1
      else s.walkFrom va rest (bitsOf e 8 44 * 2 ^ 8)

/-- A translation cached at a place covers an address under a root. -/
def TlbEntry.covers (t : TlbEntry) (home root va : Nat) : Bool :=
  t.home == home && t.root == root && t.base ≤ va && va < t.base + t.size

/-- The die of a core, as the place of its translation cache. -/
def dieCache (core : Nat) : Nat := 128 + core / 32

/-- The translation that a core finds cached: in its TLB, else in its die's cache (R273). -/
def Memory.cached (mem : Memory) (core root va : Nat) : Option TlbEntry :=
  (mem.tlb.find? (·.covers core root va)).or (mem.tlb.find? (·.covers (dieCache core) root va))

/-- A walk, or the translation that a core has cached; the launch unit and the script contexts have no cache (R273;
DEDUCED, log 71). -/
def State.walk (s : State) (core : Option Nat) (root va : Nat) : Walked :=
  match core.bind fun c => s.mem.cached c root va with
  | some t => .leaf t.base t.size t.leaf
  | none => s.walkFrom va walkLevels root

/-- A translated address: the leaf, and the physical address; bank memory stands above HBM (DESIGN CHOICE, log 26). -/
structure Place where
  leaf : Nat
  pa : Nat
  deriving DecidableEq, Repr

/-- APER of the leaf: 0 local HBM, 1 peer, 2 control node, 3 bank memory (R270). -/
def Place.aper (p : Place) : Nat := bitsOf p.leaf 6 3
def Place.readable (p : Place) : Bool := bitsOf p.leaf 2 1 == 1
def Place.writable (p : Place) : Bool := bitsOf p.leaf 3 1 == 1
def Place.executable (p : Place) : Bool := bitsOf p.leaf 4 1 == 1
def Place.remoteAtomics (p : Place) : Bool := bitsOf p.leaf 5 1 == 1
def Place.chip (p : Place) : Nat := bitsOf p.leaf 52 12
/-- Held by this part: local HBM or bank memory. -/
def Place.home (p : Place) : Bool := p.aper == 0 || p.aper == 3

/-- What translating an address answers. -/
inductive Xlat where
  | ok (p : Place)
  | fault (sub : Nat)
  | service (entryAt : Nat)
  deriving DecidableEq, Repr

/-- Translates an address under a root; bank memory is the carve-out of `carve` bytes of launch `grid` (R267, R271,
R296). -/
def State.xlat (s : State) (core : Option Nat) (root grid carve va : Nat) : Xlat :=
  match s.walk core root va with
  | .fault sub => .fault sub
  | .service e => .service e
  | .leaf base _ e =>
    let off := bitsOf e.toNat 16 36 * 2 ^ 16 + (va - base)
    if bitsOf e.toNat 6 3 = 3 then
      if carve ≤ off then .fault 2
      else .ok { leaf := e.toNat, pa := Config.bankBase + grid * Config.bankSpan + off }
    else .ok { leaf := e.toNat, pa := off }

/-- Translates for a grid, on a core. -/
def State.xlatG (s : State) (core grid va : Nat) : Xlat :=
  match s.grid? grid with
  | none => .fault 0
  | some g => s.xlat (some core) g.launch.troot grid g.launch.bankmem va

/-- Entries of a core's TLB and of a die's translation cache (R273). -/
def cacheSize (home : Nat) : Nat := if home < 128 then 2048 else 32768

/-- Keeps a translation at a place; in a full one it takes the place of the oldest entry (R273; DESIGN CHOICE, log 14).
-/
def Memory.keepXlat (mem : Memory) (t : TlbEntry) : Memory :=
  let here := mem.tlb.filter (·.home == t.home)
  let kept := if here.length < cacheSize t.home then mem.tlb else (here.getLast?.map mem.tlb.erase).getD mem.tlb
  { mem with tlb := t :: kept }

/-- Keeps the translation of an address in the TLB of a core and in its die's cache (R273). -/
def State.cacheXlat (s : State) (core root va : Nat) : State :=
  if s.mem.tlb.any (·.covers core root va) then s
  else
    match s.mem.tlb.find? (·.covers (dieCache core) root va) with
    | some t => { s with mem := s.mem.keepXlat { t with home := core } }
    | none =>
      match s.walkFrom va walkLevels root with
      | .leaf base size e =>
        let t : TlbEntry := { home := core, root := root, base := base, size := size, leaf := e }
        { s with mem := (s.mem.keepXlat { t with home := dieCache core }).keepXlat t }
      | _ => s

/-- The permission sub-cause an access lacks, in the order READ, WRITE, EXEC, RAP (R271); `rap` for an atomic. -/
def permSub (p : Place) (read write atomic : Bool) : Option Nat :=
  if read && !p.readable then some 0
  else if write && !p.writable then some 1
  else if atomic && p.aper == 1 && !p.remoteAtomics then some 3
  else none

/-! ## Range locks (R200, R292, R293) -/

/-- R293: a scratchpad address with the own member read as 0xF. -/
def normScratch (member address : Nat) : Nat :=
  if address / 2 ^ 28 = member then 0xF0000000 + address % 2 ^ 28 else address

/-- The lowest byte of an access that a lock covers: any lock for a store, a write lock for a load (R200). -/
def lockedByte (locks : List Lock) (scratch store : Bool) (a n : Nat) : Option Nat :=
  least ((locks.filter fun k => k.scratch == scratch && (store || k.write) && k.low < a + n && a ≤ k.high).map
    fun k => max a k.low)

/-! ## Damaged data (R298, R299) -/

/-- The home slice holds a line of local HBM (R275). -/
def Memory.holds (mem : Memory) (line : Nat) : Bool :=
  mem.llc.any fun b => b.block == line / 4 && b.valid.getLsbD (line % 4)

/-- A live superblock of an L1 holds the line of an address (R279). -/
def Core.hits (c : Core) (now pa : Nat) : Bool :=
  c.l1.any fun b => b.block == pa / 512 && now < b.expiry && b.lines.getLsbD (pa / 128 % 4)

/-- The lowest byte of an access that lies in a piece of storage, of those of `n` bytes each that a list numbers. -/
def lowestIn (size : Nat) (pieces : List Nat) (a n : Nat) : Option Nat :=
  least ((pieces.filter fun d => size * d < a + n && a < size * d + size).map fun d => max a (size * d))

/-- The lesser of two places. -/
def lower : Option Nat → Option Nat → Option Nat
  | some a, some b => some (min a b)
  | none, b => b
  | a, none => a

/-- The damaged granules of HBM that an access to its home slice reads: not those of lines that the slice holds (R275,
R298). -/
def Memory.exposed (mem : Memory) : List Nat := mem.damage.filter fun d => !mem.holds (d / 4)

/-- The lowest damaged byte of an access at the home slice: of an HBM granule, or of a last-level or bank-memory line in
error (R298). -/
def Memory.damagedByte (mem : Memory) (a n : Nat) : Option Nat :=
  lower (lowestIn 32 mem.exposed a n) (lowestIn 128 (mem.badLines.map (·.1) ++ mem.passing) a n)

/-- The pieces of `size` bytes that an access does not cover wholly. -/
def uncovered (size : Nat) (pieces : List Nat) (a n : Nat) : List Nat :=
  pieces.filter fun d => !(a ≤ size * d && size * d + size ≤ a + n)

/-- The damaged byte a store would have to merge with: of an HBM granule, or of 16 bytes of a line in error, that it does
not cover (R298, R299; DEDUCED, log 72). -/
def Memory.mergedByte (mem : Memory) (a n : Nat) : Option Nat :=
  let granules := (mem.badLines.map fun (l, _) => (List.range 8).map (8 * l + ·)).flatten
  lower (lowestIn 32 (uncovered 32 mem.exposed a n) a n) (lowestIn 16 (uncovered 16 granules a n) a n)

/-- The lowest damaged byte of a scratchpad access; the granules are 8 bytes. -/
def scratchDamaged (t : Team) (off n : Nat) : Option Nat :=
  least ((t.scratchDamage.filter fun d => 8 * d < off + n && off < 8 * d + 8).map fun d => max off (8 * d))

/-- The damaged byte that a scratchpad store would have to merge with (R299). -/
def scratchMerged (t : Team) (off n : Nat) : Option Nat :=
  least ((t.scratchDamage.filter fun d =>
    8 * d < off + n && off < 8 * d + 8 && !(off ≤ 8 * d && 8 * d + 8 ≤ off + n)).map fun d => max off (8 * d))

/-! ## Updates and write-completion times (R280 to R286) -/

/-- The race key order of R285. -/
def Writer.key (w : Writer) : List Nat := [w.cls, w.chip, w.lcid, w.team, w.group, w.lane]

/-- Two updates of one source are of one writer, or of one lane among the lanes whose access each is (R280, R282). -/
def Writer.sharesLane (a b : Writer) : Bool := a == b || (a.lanes &&& b.lanes) != 0

/-- Lexicographic order of equal-length lists. -/
def keyLt : List Nat → List Nat → Bool
  | a :: as, b :: bs => a < b || (a == b && keyLt as bs)
  | _, _ => false

/-- The order in which updates are applied: ascending WCT, then ascending key (R285). -/
def Update.before (a b : Update) : Bool := a.wct < b.wct || (a.wct == b.wct && keyLt a.writer.key b.writer.key)

/-- The home superblock of an address (R275). -/
def blockOf (pa : Nat) : Nat := pa / 512

/-- The first superblock of bank memory. -/
def bankBlock : Nat := Config.bankBase / 512

/-- The home slice of a superblock: of bank memory, the place in the carve-out decides; the carve-outs stand at multiples
of 256 superblocks (R276, R296). -/
def homeSlice (block : Nat) : Nat := if bankBlock ≤ block then block % 256 else Config.sliceOf block % 256

/-- The LG that a superblock starts with: the floor of its slice as it stands, or as it stood when the carve-out was placed
(R280, R296). -/
def Memory.floorOf (mem : Memory) (block : Nat) : Nat :=
  tget 0 (if bankBlock ≤ block then tget [] mem.carved ((block - bankBlock) / (Config.bankSpan / 512)) else mem.floors)
    (homeSlice block)

/-- The LG of a superblock (R280). -/
def Memory.lgOf (mem : Memory) (block : Nat) : Nat := tget (mem.floorOf block) mem.lg block

/-- The updates of a word that one of a writer comes after (R280). -/
def Memory.foregoing (mem : Memory) (word : Nat) (writer : Writer) (source : Nat) (atomic : Bool) : List Update :=
  mem.updates.filter fun u =>
    u.word == word && (atomic || u.atomic || (u.source == source && u.writer.sharesLane writer))

/-- The WCT of a store or atomic to one word that arrives at `arrival` (R280). No lease is granted before it arrives that
would raise it (`Memory.grantAfter`; DESIGN CHOICE, log 7). -/
def Memory.wctFor (mem : Memory) (word : Nat) (writer : Writer) (source : Nat) (atomic : Bool) (arrival : Nat) : Nat :=
  max arrival (max (mem.lgOf (blockOf word)) (((mem.foregoing word writer source atomic).map (·.wct)).foldl max 0)) + 1

/-- When it is received: not before the updates that it comes after. -/
def Memory.receivedAt (mem : Memory) (word : Nat) (writer : Writer) (source : Nat) (atomic : Bool) (arrival : Nat) : Nat :=
  ((mem.foregoing word writer source atomic).map (·.arrival)).foldl max arrival

/-- Applies one update to memory. -/
def Update.apply (cells : List Host.Cell) (u : Update) : List Host.Cell :=
  u.bytes.foldl (fun c (k, b) => cput c (u.word + k) b) cells

/-- The 16-byte granules of a line that a rewrite covers wholly. -/
def coveredGranules (line low len : Nat) : BitVec 8 :=
  (List.range 8).foldl (fun m k =>
    let a := 128 * line + 16 * k
    if low ≤ a ∧ a + 16 ≤ low + len then m ||| BitVec.ofNat 8 (2 ^ k) else m) 0

/-- A rewrite takes effect (R298): granules of HBM that it covers are whole again, and a line of which nothing is left to
rewrite. -/
def Memory.heal (mem : Memory) (h : Heal) : Memory :=
  { mem with
    damage := mem.damage.filter fun d => !(h.low ≤ 32 * d && 32 * d + 32 ≤ h.low + h.len),
    badLines := (mem.badLines.map fun (l, m) => (l, m &&& ~~~coveredGranules l h.low h.len)).filter fun (_, m) => m != 0 }

/-- The rewrites that are visible by GTIME `now` take effect. -/
def Memory.healed (mem : Memory) (now : Nat) : Memory :=
  let m := (mem.heals.filter (·.wct ≤ now)).foldl Memory.heal mem
  { m with heals := mem.heals.filter (now < ·.wct) }

/-- A store that is visible at `t` rewrites bytes. One that nothing damaged awaits leaves no note. -/
def Memory.rewrites (mem : Memory) (t pa n : Nat) : Memory :=
  if mem.damage.isEmpty && mem.badLines.isEmpty then mem
  else { mem with heals := mem.heals ++ [{ wct := t, low := pa, len := n }] }

/-- Makes visible every update whose WCT has been reached (R281, R285). -/
def Memory.fold (mem : Memory) (now : Nat) : Memory :=
  let due := sortBy Update.before (mem.updates.filter (·.wct ≤ now))
  ({ mem with cells := due.foldl Update.apply mem.cells, updates := mem.updates.filter (now < ·.wct) } : Memory).healed
    now

/-- The value of a word after every update received so far: an atomic's old value (R286). -/
def Memory.latest (mem : Memory) (word : Nat) : Word :=
  let us := sortBy Update.before (mem.updates.filter (·.word == word))
  BitVec.ofNat 32 (leNat (cgets (us.foldl Update.apply mem.cells) word 4))

/-- Splits bytes at `pa` into the 4-byte words they touch. -/
def splitWords (pa : Nat) (bytes : List Byte) : List (Nat × List (Nat × Byte)) :=
  let placed := mapFrom (fun i b => (pa + i, b)) 0 bytes
  (nubNat (placed.map fun (a, _) => a / 4 * 4)).map fun w =>
    (w, (placed.filter fun (a, _) => a / 4 * 4 == w).map fun (a, b) => (a - w, b))

/-- An access to the lines of `n` bytes ends their ownership by the ingress atomic cache (R359). -/
def Memory.reclaim (mem : Memory) (pa n : Nat) : Memory :=
  { mem with ingress := mem.ingress.filter fun l => l.line < pa / 128 || (pa + n - 1) / 128 < l.line }

/-- The time by which every update of the ingress atomic cache to the lines of `n` bytes is visible: another access to
those lines waits for it (R359). -/
def Memory.ingressUntil (mem : Memory) (pa n : Nat) : Nat :=
  (mem.ingress.filter fun l => pa / 128 ≤ l.line && l.line ≤ (pa + n - 1) / 128).foldl
    (fun t l => (l.last.map fun (_, w) => w).foldl max (max t l.wct)) 0

/-- Receives the updates of the words of one store, all arriving at `arrival`; answers the greatest WCT. -/
def Memory.receiveWords (mem : Memory) (pa : Nat) (bytes : List Byte) (writer : Writer) (source : Nat) (atomic : Bool)
    (arrival : Nat) : Memory × Nat :=
  (splitWords pa bytes).foldl
    (fun (mem, top) (w, bs) =>
      let t := mem.wctFor w writer source atomic arrival
      ({ mem with updates := mem.updates ++ [{ word := w, bytes := bs, wct := t, writer := writer, source := source,
                                                atomic := atomic,
                                                arrival := mem.receivedAt w writer source atomic arrival }] }, max top t))
    (mem.reclaim pa bytes.length, 0)

/-- Receives one store to one or more words; what damage it covers is rewritten once it is visible (R298). -/
def Memory.receive (mem : Memory) (pa : Nat) (bytes : List Byte) (writer : Writer) (source : Nat) (atomic : Bool)
    (arrival : Nat) : Memory × Nat :=
  let (mem, t) := mem.receiveWords pa bytes writer source atomic arrival
  (mem.rewrites t pa bytes.length, t)

/-- When a write sent now reaches its home: GTIME plus a free delay (DESIGN CHOICE, log 6 and 7). -/
def State.arrival (s : State) : Nat × State :=
  let (n, s) := s.newFresh
  (s.gtime + Config.latency n, s)

/-- Arrival times for each lane's store of one instruction. -/
def State.arrivals (s : State) : (Nat → Nat) × State :=
  (fun i => s.gtime + Config.latency (s.clock.fresh + i),
   { s with clock := { s.clock with fresh := s.clock.fresh + 32 } })

/-- A store from outside the lanes: an engine, a script, a port or the control port. Answers its WCT. -/
def State.storeAs (s : State) (pa : Nat) (bytes : List Byte) (writer : Writer) (source : Nat) : State × Nat :=
  let (arr, s) := s.arrival
  let (mem, t) := s.mem.receive pa bytes writer source false arr
  (({ s with mem := mem } : State), t)

/-- The stores of one instruction of the group `source`: lane, address, bytes, each lane's arriving at its own time. A
word that several lanes write gets one WCT, so that the highest-numbered lane's write stands (R199, R285). Answers the
WCT of each lane's store. -/
def Memory.receiveLanes (mem : Memory) (source : Nat) (writer : Nat → Writer) (arrival : Nat → Nat)
    (ws : List (Nat × Nat × List Byte)) : Memory × List (Nat × Nat) :=
  let mem := ws.foldl (fun mem (_, pa, bs) => mem.reclaim pa bs.length) mem
  let parts := (ws.map fun (i, pa, bs) => (splitWords pa bs).map fun (w, b) => (i, w, b)).flatten
  let wct (w : Nat) : Nat :=
    ((parts.filter fun (_, w', _) => w' == w).map fun (i, _, _) => mem.wctFor w (writer i) source false (arrival i)).foldl max 0
  let received (w : Nat) : Nat :=
    ((parts.filter fun (_, w', _) => w' == w).map fun (i, _, _) =>
      mem.receivedAt w (writer i) source false (arrival i)).foldl max 0
  let us := parts.map fun (i, w, b) =>
    { word := w, bytes := b, wct := wct w, writer := writer i, source := source, atomic := false,
      arrival := received w : Update }
  let done : List (Nat × Nat × Nat × Nat) := ws.map fun (i, pa, bs) =>
    (pa, bs.length, ((splitWords pa bs).map fun (w, _) => wct w).foldl max 0, i)
  (done.foldl (fun mem (pa, n, t, _) => mem.rewrites t pa n) ({ mem with updates := mem.updates ++ us } : Memory),
   done.map fun (_, _, t, i) => (i, t))

/-! ## Leases (R278, R279) -/

/-- The lease lengths of R278, in ns. -/
def leaseLength (cls : Nat) : Nat :=
  match cls with
  | 1 => 64
  | 2 => 512
  | 3 => 8192
  | _ => 0

/-- The class of a load: LEASEOVR when EN, else the leaf's LEASE; 0 on a page with C = 0, and off this part (R277,
R278). -/
def leaseClass (p : Place) (ovr : BitVec 3) : Nat :=
  if bitsOf p.leaf 11 1 = 0 || !p.home then 0
  else if ovr.getLsbD 2 then (ovr.extractLsb' 0 2).toNat else bitsOf p.leaf 9 2

/-- The expiry a home slice grants now: lowered below the WCT of every update to the superblock it has received
(R279). -/
def Memory.grant (mem : Memory) (block now cls : Nat) : Nat :=
  (mem.updates.filter fun u => blockOf u.word == block && u.arrival < now).foldl (fun e u => min e (u.wct - 1))
    (now + leaseLength cls)

/-- The GTIME from which a load may be granted its lease: once every update to the superblock whose WCT the expiry would
reach has been received, so that no grant cuts across an update on its way (R279, R280; DESIGN CHOICE, log 7). -/
def Memory.grantAfter (mem : Memory) (block now cls : Nat) : Nat :=
  let e := mem.grant block now cls
  (mem.updates.filter fun u => blockOf u.word == block && now ≤ u.arrival && u.wct ≤ e).foldl
    (fun t u => max t (u.arrival + 1)) 0

/-- Superblocks in an L1 (R1, R275). -/
def l1Blocks : Nat := 1024

/-- A fill of the line at `pa` into an L1, the oldest superblock making room (R275, R279; DESIGN CHOICE, log 73): what
the L1 and the home's record of grants become. -/
def fillLine (now cls pa : Nat) (l1 : List L1Block) (mem : Memory) : List L1Block × Memory :=
  let block := blockOf pa
  let line : BitVec 4 := BitVec.ofNat 4 (2 ^ (pa / 128 % 4))
  if cls = 0 then (l1, mem)
  else
    match l1.find? (fun b => b.block == block && now < b.expiry) with
    | some _ => (l1.map fun b => if b.block = block then { b with lines := b.lines ||| line } else b, mem)
    | none =>
      let e := mem.grant block now cls
      if e ≤ now then (l1.filter (·.block != block), mem)
      else (({ block := block, expiry := e, lines := line } :: l1.filter (·.block != block)).take l1Blocks,
            { mem with lg := tput mem.lg block (max e (mem.lgOf block)) })

/-- The GTIME before which core `core` does not perform a load now, if its class takes a lease that it has not got. -/
def State.leaseAfter (s : State) (core cls pa : Nat) : Nat :=
  if cls = 0 || (s.core core).l1.any (fun b => b.block == blockOf pa && s.gtime < b.expiry) then 0
  else s.mem.grantAfter (blockOf pa) s.gtime cls

/-- Performs a load now for core `core`: the bytes at GTIME, and the fill (R279, R281). -/
def State.performLoad (s : State) (core cls pa n : Nat) : List Byte × State :=
  let (l1, mem) := fillLine s.gtime cls pa (s.core core).l1 (s.mem.reclaim pa n)
  (s.peek pa n, { (s.modCore core fun c => { c with l1 := l1 }) with mem := mem })

/-- The GTIME before which a superblock is not prefetched (R279, R359). -/
def State.fillAfter (s : State) (core cls : Nat) (l1 : Bool) (pa : Nat) : Nat :=
  max (s.mem.ingressUntil pa 512) (if l1 then s.leaseAfter core cls pa else 0)

/-- A prefetch of a superblock: into an L1 its four lines, with a lease; its access ends an ownership of the ingress
cache (R223, R359). -/
def State.fillBlock (s : State) (core cls : Nat) (l1 : Bool) (pa : Nat) : State :=
  (List.range (if l1 then 4 else 0)).foldl
    (fun s k =>
      let (blocks, mem) := fillLine s.gtime cls (pa + 128 * k) (s.core core).l1 s.mem
      { s.modCore core fun c => { c with l1 := blocks } with mem := mem })
    { s with mem := s.mem.reclaim pa 512 }

/-- R279: the lines of a superblock whose expiry has passed. -/
def Core.expire (c : Core) (block : Nat) : Core := { c with l1 := c.l1.filter (·.block != block) }

/-! ## The last-level cache (R275, R276, R280) -/

/-- Frames of each slice that cache HBM: all but those of the task pool and of the carve-outs (R276, R296). -/
def State.sliceFrames (s : State) : Nat :=
  4096 - 32 - (s.grids.map fun g => (g.launch.bankmem + 131071) / 131072).sum

/-- Lines of a superblock are written to HBM: what was damaged there is rewritten (R298). -/
def Memory.writeBack (mem : Memory) (block : Nat) (lines : BitVec 4) : Memory :=
  { mem with damage := mem.damage.filter fun d => !(d / 16 == block && lines.getLsbD (d / 4 % 4)) }

/-- A slice evicts a superblock: its dirty lines go to HBM, which they rewrite, and its LG into the slice's floor (R275,
R280, R298). -/
def Memory.evict (mem : Memory) (b : SliceBlock) : Memory :=
  let slice := homeSlice b.block
  { mem.writeBack b.block b.dirty with
    llc := mem.llc.erase b, lg := tdel mem.lg b.block,
    floors := tput mem.floors slice (max (tget 0 mem.floors slice) (mem.lgOf b.block)) }

/-- The superblock that a slice evicts when it holds more than `frames`: the one it allocated first, of those without a
line in error (R298; DESIGN CHOICE, log 73). -/
def Memory.victim (mem : Memory) (frames slice : Nat) : Option SliceBlock :=
  let held := mem.llc.filter fun b => homeSlice b.block == slice
  if held.length ≤ frames then none
  else (held.filter fun b => !mem.badLines.any fun (l, _) => l / 4 == b.block).getLast?

/-- A slice evicts superblocks, at most `most`, until it holds no more than `frames` (R276, R296). -/
def Memory.makeRoom (mem : Memory) (frames slice : Nat) : Nat → Memory
  | 0 => mem
  | most + 1 =>
    match mem.victim frames slice with
    | none => mem
    | some b => (mem.evict b).makeRoom frames slice most

/-- A line is held by its home slice, and is dirty after a store. A line of which HBM holds damaged bytes is not filled
(DEDUCED, log 72). -/
def Memory.holdLine (mem : Memory) (frames : Nat) (write : Bool) (line : Nat) : Memory :=
  let block := line / 4
  let bit : BitVec 4 := BitVec.ofNat 4 (2 ^ (line % 4))
  let dirty : BitVec 4 := if write then bit else 0
  if !mem.holds line && mem.damage.any (· / 4 == line) then mem
  else if mem.llc.any (·.block == block) then
    { mem with llc := mem.llc.map fun b =>
        if b.block = block then { b with valid := b.valid ||| bit, dirty := b.dirty ||| dirty } else b }
  else
    let mem := mem.makeRoom (frames - 1) (homeSlice block) mem.llc.length
    { mem with llc := { block := block, valid := bit, dirty := dirty } :: mem.llc, lg := tput mem.lg block (mem.lgOf block) }

/-- The home slices of `n` bytes of local HBM hold their lines; on a page with C = 0 they hold none (R275, R277). -/
def State.atHome (s : State) (cached write : Bool) (pa n : Nat) : State :=
  if !cached || n = 0 || Config.bankBase ≤ pa then s
  else
    let lines := List.range ((pa + n - 1) / 128 + 1 - pa / 128)
    { s with mem := lines.foldl (fun mem k => mem.holdLine s.sliceFrames write (pa / 128 + k)) s.mem }

/-- The slices give up the frames that a carve-out takes, and its superblocks start with the floors as they stand (R276,
R280, R296). -/
def State.placeCarve (s : State) (grid : Nat) : State :=
  let mem := (nubNat (s.mem.llc.map fun b => homeSlice b.block)).foldl
    (fun mem slice => mem.makeRoom s.sliceFrames slice mem.llc.length) s.mem
  { s with mem := { mem with carved := tput mem.carved grid mem.floors } }

/-- The page caches its lines (R277). -/
def Place.caches (p : Place) : Bool := p.home && bitsOf p.leaf 11 1 == 1

/-- An access to a place of this part reaches the home slices of its bytes. -/
def State.reachHome (s : State) (p : Place) (write : Bool) (n : Nat) : State := s.atHome p.caches write p.pa n

/-! ## Scratchpad (R197, R289 to R291) -/

/-- The team that is member `m` of a team's cluster. -/
def State.clusterMember (s : State) (t : Team) (m : Nat) : Option Team :=
  s.teams.find? fun u => u.grid == t.grid && u.cluster == t.cluster && u.member == m

/-- R197: the team whose scratchpad an address names and the offset in it; none for an address fault. -/
def State.scratchPlace (s : State) (img : Image) (t : Team) (address n : Nat) : Option (Team × Nat) :=
  let off := address % 2 ^ 21
  let m := address / 2 ^ 28 % 16
  if address / 2 ^ 21 % 2 ^ 7 != 0 || img.scratch < off + n then none
  else if m = 0xF ∨ m = t.member then some (t, off)
  else if m < img.width * img.height then (s.clusterMember t m).map fun u => (u, off)
  else none

/-- An address that must name the issuing core (R208, R243); answers the offset. -/
def ownOffset (t : Team) (address : Nat) : Option Nat :=
  let m := address / 2 ^ 28 % 16
  if (m = 0xF ∨ m = t.member) ∧ address / 2 ^ 21 % 2 ^ 7 = 0 then some (address % 2 ^ 21) else none

def Team.bytes (t : Team) (off n : Nat) : List Byte := cgets t.scratch off n

/-- A write to a scratchpad bank; damage it covers is gone (R298). -/
def Team.write (t : Team) (off : Nat) (bs : List Byte) : Team :=
  { t with scratch := cputs t.scratch off bs,
           scratchDamage := t.scratchDamage.filter fun d => !(off ≤ 8 * d && 8 * d + 8 ≤ off + bs.length) }

/-- A 4-byte word of a team's scratchpad. -/
def Team.word (t : Team) (off : Nat) : Word := BitVec.ofNat 32 (leNat (t.bytes off 4))

def Team.setWord (t : Team) (off : Nat) (w : Word) : Team := t.write off (natLe 4 w.toNat)

/-! ## Reachability of peers (R349, R350, R353) -/

/-- The route table entry for a destination and an input; 62 is NONE (R350). -/
def Fabric.route (f : Fabric) (dest input : Nat) : Nat := tget 62 f.routes (64 * dest + input)

def Fabric.channel? (f : Fabric) (c : Nat) : Option Channel :=
  if c < 32 then (f.ports[c]?).map (·.channel) else (f.links[c - 32]?).map (·.channel)

/-- The two ends last reported one rank; else the channel carries no packets (R350). -/
def Channel.agrees (ch : Channel) : Bool := ch.peerRank == some ch.rank

/-- R349, R350: a link that is up, or a port in LIVE, DOZE or NAP, whose ends last reported one rank. -/
def Fabric.carries (f : Fabric) (c : Nat) : Bool :=
  if c < 32 then
    match f.ports[c]? with
    | none => false
    | some p => (p.state == .live || p.state == .doze || p.state == .nap) && p.channel.agrees
  else
    match f.links[c - 32]? with
    | none => false
    | some l => l.up && l.channel.agrees

/-- R353: the local chip has a route to a chip. -/
def Fabric.reaches (f : Fabric) (chip : Nat) : Bool :=
  let out := f.route chip 63
  out != 62 && f.carries out

/-! ## The faults of a lane's access (R195) -/

/-- What an access needs: reads, writes, atomic (R271). -/
structure Access where
  read : Bool
  write : Bool
  atomic : Bool

def Access.load : Access := ⟨true, false, false⟩
def Access.store : Access := ⟨false, true, false⟩
def Access.rmw : Access := ⟨true, true, true⟩

/-- R310: a store or atomic of a lane to its own stack at or beyond the group's limit. -/
def stackFault (gr : Grid) (g : Group) (lane va n : Nat) : Bool :=
  let base := gr.launch.stkBase + (32 * g.stackSlot + lane) * gr.launch.stkLane
  gr.launch.stkLane != 0 && base ≤ va && va < base + gr.launch.stkLane && base + g.stackLimit < va + n

/-- What an access meets: a fault, a serviceable page, or its place. -/
inductive Met where
  | fault (c : Cause)
  | service (entryAt : Nat)
  | place (p : Place)

/-- The damaged byte that an access at a place of this part consumes. A load of a line that its core's L1 holds live
consumes none (R279, R298); one that reads its home even so is told when it is performed (R278). -/
def State.damageAt (s : State) (core pa n : Nat) (acc : Access) : Option Nat :=
  if !acc.read then s.mem.mergedByte pa n
  else if !acc.write && (s.core core).hits s.gtime pa then none
  else s.mem.damagedByte pa n

/-- R195: the translation, aperture, permission, reachability, range-lock and data-error checks of an access of `n`
bytes at `va`, against a table of range locks. -/
def State.meetWith (s : State) (locks : List Lock) (core grid va n : Nat) (acc : Access) : Met :=
  match s.xlatG core grid va with
  | .fault sub => .fault (Cause.translation sub va)
  | .service e => .service e
  | .ok p =>
    if acc.atomic && p.aper == 2 then .fault (Cause.address va)
    else
      match permSub p acc.read acc.write acc.atomic with
      | some sub => .fault (Cause.permission sub va)
      | none =>
        if p.aper == 1 && !s.fabric.reaches p.chip then .fault (Cause.unreachable va)
        else
          match lockedByte locks false acc.write va n with
          | some b => .fault (Cause.rangeLock b)
          | none =>
            match (if p.home then s.damageAt core p.pa n acc else none) with
            | some b => .fault (Cause.dataError (va + (b - p.pa)))
            | none => .place p

/-- The access of a group on a core, against that core's table (R200). -/
def State.meet (s : State) (grid core : Nat) (va n : Nat) (acc : Access) : Met :=
  s.meetWith (s.core core).locks core grid va n acc

/-- A lane's global access: alignment, the stack limit (DEDUCED, log 16), then the checks of `meet`. -/
def State.meetLane (s : State) (g : Group) (lane va n : Nat) (acc : Access) : Met :=
  if va % n != 0 then .fault (Cause.address va)
  else if acc.write && (s.grid? g.grid).any (fun gr => stackFault gr g lane va n) then .fault (Cause.stackLimit va)
  else s.meet g.grid (s.coreOf g.team) va n acc

/-- The fault of a lane's global access, if any. -/
def Met.cause : Met → Option Cause
  | .fault c => some c
  | _ => none

/-- The place of an access that passed. -/
def Met.place? : Met → Option Place
  | .place p => some p
  | _ => none

/-- The fault of a lane's scratchpad access (R195, R197, R200, R299). -/
def State.scratchFault (s : State) (x : Site) (address n : Nat) (store : Bool) : Option Cause :=
  match s.team? x.g.team with
  | none => some (Cause.address address)
  | some t =>
    if address % n != 0 then some (Cause.address address)
    else
      match s.scratchPlace x.img t address n with
      | none => some (Cause.address address)
      | some (u, off) =>
        let a := normScratch t.member address
        match lockedByte (s.core (t.core.getD 0)).locks true store a n with
        | some b => some (Cause.rangeLock (address + (b - a)))
        | none =>
          match (if store then scratchMerged u off n else scratchDamaged u off n) with
          | some b => some (Cause.dataError (address + (b - off)))
          | none => none

/-! ## Writers (R285) -/

/-- The key of a lane, or of lane 32 for the group's engines. -/
def State.writer (s : State) (g : Group) (lane : Nat) : Writer :=
  let t := s.team? g.team
  { cls := 1, chip := s.chipId, lcid := (t.map (·.lcid)).getD 0, team := (t.map (·.index)).getD 0, group := g.index,
    lane := lane, lanes := if lane < 32 then BitVec.ofNat 32 (2 ^ lane) else 0 }

/-- The key of one update of several lanes, or of one that the group makes for its active lanes (R199, R285). -/
def State.writerOf (s : State) (g : Group) (lane : Nat) (lanes : BitVec 32) : Writer :=
  { s.writer g lane with lanes := lanes }

/-- Keys of the other classes of R285. -/
def Writer.script (chip ctx : Nat) : Writer := ⟨2, chip, 0, 0, ctx, 0, 0⟩
def Writer.control (chip : Nat) : Writer := ⟨3, chip, 0, 0, 0, 0, 0⟩
def Writer.port (chip port : Nat) : Writer := ⟨4, chip, 0, 0, port, 0, 0⟩

/-- Raises a lane's LWCT (R280). -/
def Lane.raiseLwct (l : Lane) (wct : Nat) : Lane := { l with lwct := max l.lwct wct }

/-! ## Marking and writing variable-latency results (R32 to R34) -/

/-- Writes registers of a lane by physical number. -/
def Lane.writeRegs (l : Lane) (ws : List RegWrite) : Lane :=
  { l with vregs := ws.foldl (fun t w => tput t w.reg ⟨w.bits, w.tag⟩) l.vregs }

/-- Writes uniform registers. -/
def Group.writeRegs (g : Group) (ws : List RegWrite) : Group :=
  { g with uregs := ws.foldl (fun t w => tput t w.reg w.bits) g.uregs }

/-- The GTIME before which a result is not there: that of a load (R282). -/
def Awaited.after : Awaited → Nat
  | .load _ _ _ _ _ after => after
  | _ => 0

/-- The GTIME from which a load by some lanes may be performed: the latest WCT of an update of those lanes that overlaps
it and is not yet visible (R282). -/
def State.ownAfter (s : State) (g : Group) (lanes : BitVec 32) (pa n : Nat) : Nat :=
  ((s.mem.updates.filter fun u =>
      s.gtime < u.wct && u.word < pa + n && pa < u.word + 4 && u.source == g.uid &&
        u.writer.sharesLane (s.writerOf g 32 lanes)).map (·.wct)).foldl max 0

/-- The instruction and the lanes an access belongs to, and its address. -/
structure Origin where
  pc : Addr := 0
  lanes : BitVec 32 := 0
  va : Nat := 0

/-- Adds a result that is not there before tick `due`, and marks its registers pending. -/
def State.awaitAt (s : State) (from_ : Origin) (group : Nat) (lane : Option Nat) (regs : List Nat) (what : Awaited)
    (due : Nat) : State :=
  let (id, s1) := s.newUid
  let p : Pend := { id := id, group := group, lane := lane, lanes := from_.lanes, pc := from_.pc, va := from_.va,
                    regs := regs, due := due, what := what }
  ({ s1 with pend := s1.pend ++ [p] } : State).modGroup group fun g =>
    match lane with
    | none => { g with upend := g.upend ++ regs }
    | some i => { g with lanes := setAt (fun l => { l with pend := l.pend ++ regs }) i g.lanes }

/-- Adds a result on its way that comes after a free delay, not before GTIME `after` (DESIGN CHOICE, log 6). -/
def State.awaitFrom (s : State) (from_ : Origin) (after group : Nat) (lane : Option Nat) (regs : List Nat)
    (what : Awaited) : State :=
  let (n, s1) := s.newFresh
  s1.awaitAt from_ group lane regs what (max (s.clock.tick + Config.latency n) (2 * after))

/-- Adds a result on its way, of an access of the lanes of `from_`. -/
def State.awaitAccess (s : State) (from_ : Origin) (group : Nat) (lane : Option Nat) (regs : List Nat) (what : Awaited) :
    State :=
  s.awaitFrom from_ what.after group lane regs what

/-- Adds a result on its way. -/
def State.await (s : State) (group : Nat) (lane : Option Nat) (regs : List Nat) (what : Awaited) : State :=
  s.awaitAccess {} group lane regs what

/-- Results that come no more: their registers are marked no longer. -/
def State.dropPends (s : State) (gone : Pend → Bool) : State :=
  (s.pend.filter gone).foldl
    (fun s p => s.modGroup p.group fun g =>
      match p.lane with
      | none => { g with upend := g.upend.filter fun r => !p.regs.contains r }
      | some i =>
        { g with lanes := setAt (fun l => { l with pend := l.pend.filter fun r => !p.regs.contains r }) i g.lanes })
    { s with pend := s.pend.filter fun p => !gone p }

/-- An access meets a fault after its issue: its result does not come, and its lanes trap (R299). -/
def State.failPend (s : State) (p : Pend) (c : Cause) : State :=
  (s.dropPends (·.id == p.id)).raiseLate p.group p.lanes p.pc c

/-- Writes a landed result to its lane or group. -/
def State.writeResult (s : State) (p : Pend) (ws : List RegWrite) : State :=
  s.modGroup p.group fun g =>
    match p.lane with
    | none => g.writeRegs ws
    | some i => { g with lanes := setAt (fun l => l.writeRegs ws) i g.lanes }

/-- Lanes in turn: threads the state through the lanes of a mask in rising order. -/
def State.forLanes (s : State) (g : Group) (mask : BitVec 32) (f : Nat → Lane → State → State) : State :=
  (laneList mask).foldl (fun s i => match g.lane? i with | none => s | some l => f i l s) s

/-- A variable-latency instruction whose results are known at issue (R32): SFU, reductions, ENGST. -/
def State.awaitLanes (s : State) (g : Group) (mask : BitVec 32) (f : Nat → Lane → List RegWrite) : State :=
  s.forLanes g mask fun i l s =>
    let ws := f i l
    s.await g.uid (some i) (ws.map (·.reg)) (.value ws)

end Sys2Proof.Machine
end

