-- ==== Sys2Proof/Machine/Falu.lean ====
section
/-!
DEFINITION. Float instructions (R149 to R160), conversion (R161 to R163) and special functions (R164 to R170).
-/

namespace Sys2Proof.Machine

/-! ## Shapes -/

/-- ORs flags into FPFLAGS (R117). -/
def Lane.flag (l : Lane) (fl : FpFlags) : Lane := { l with fpflags := l.fpflags ||| fl }

/-- Writes a result and its flags. -/
def Lane.putFloat (l : Lane) (d : Nat) (tag : BitVec 5) (r : Word × FpFlags) : Lane := (l.put d r.1 tag).flag r.2

/-- The elements of a result, from elements of up to three registers (R149). -/
def elementwise (fmt : Fmt) (f : Nat → Nat → Nat → Nat × FpFlags) (a b d : Word) : Word × FpFlags :=
  eachElem fmt.width fun i => f (elem a i fmt.width) (elem b i fmt.width) (elem d i fmt.width)

/-- d ← f(a) element by element (R149). -/
def floatUnary (m : Bool) (d a : BitVec 7) (f : Fmt → RMode → Nat → Nat × FpFlags) : Op :=
  laneOp m { vs := [d.toNat, a.toNat] } (fun _ l => isFloat (l.get a.toNat).tag)
    (fun x _ l =>
      let fmt := floatFmt (l.get a.toNat).tag
      l.putFloat d.toNat (l.get a.toNat).tag
        (elementwise fmt (fun p _ _ => f fmt x.g.fpmode p) (l.get a.toNat).bits 0 0))

/-- The tags of a binary float operation: b carries a's tag (R149). -/
def floatTags (l : Lane) (a b : Nat) : Bool := isFloat (l.get a).tag && (l.get b).tag == (l.get a).tag

/-- d ← f(a, b) element by element (R149). -/
def floatBinary (m : Bool) (d a b : BitVec 7) (f : Fmt → RMode → Nat → Nat → Nat × FpFlags) : Op :=
  laneOp m { vs := [d.toNat, a.toNat, b.toNat] } (fun _ l => floatTags l a.toNat b.toNat)
    (fun x _ l =>
      let fmt := floatFmt (l.get a.toNat).tag
      l.putFloat d.toNat (l.get a.toNat).tag
        (elementwise fmt (fun p q _ => f fmt x.g.fpmode p q) (l.get a.toNat).bits (l.get b.toNat).bits 0))

/-- d ← ±(a · b) ± d element by element (R151). -/
def floatFused (m : Bool) (d a b : BitVec 7) (negP negD : Bool) : Op :=
  laneOp m { vs := [d.toNat, a.toNat, b.toNat] }
    (fun _ l => floatTags l a.toNat b.toNat && (l.get d.toNat).tag == (l.get a.toNat).tag)
    (fun x _ l =>
      let fmt := floatFmt (l.get a.toNat).tag
      l.putFloat d.toNat (l.get a.toNat).tag
        (elementwise fmt (fmt.fma x.g.fpmode negP negD) (l.get a.toNat).bits (l.get b.toNat).bits
          (l.get d.toNat).bits))

/-- A dot product of `n` elements into F32 (R156). -/
def floatDot (m : Bool) (d a b : BitVec 7) (n : Nat) (ok : BitVec 5 → BitVec 5 → Bool) (fmt : BitVec 5 → Fmt) : Op :=
  laneOp m { vs := [d.toNat, a.toNat, b.toNat] }
    (fun _ l => ok (l.get a.toNat).tag (l.get b.toNat).tag && (l.get d.toNat).tag == tagF32)
    (fun x _ l =>
      let va := l.get a.toNat
      let vb := l.get b.toNat
      let r := dot (fmt va.tag) (fmt vb.tag) x.g.fpmode ((List.range n).map fun i => elem va.bits i (32 / n))
        ((List.range n).map fun i => elem vb.bits i (32 / n)) (l.get d.toNat).bits.toNat
      l.putFloat d.toNat tagF32 (BitVec.ofNat 32 r.1, r.2))

/-! ## Float arithmetic (R150 to R160) -/

/-- FADD (R150). -/
def execFadd (m : Bool) (d a b : BitVec 7) (s : State) : Result :=
  (floatBinary m d a b Fmt.add).issue s

/-- FSUB (R150). -/
def execFsub (m : Bool) (d a b : BitVec 7) (s : State) : Result :=
  (floatBinary m d a b Fmt.sub).issue s

/-- FMUL (R150). -/
def execFmul (m : Bool) (d a b : BitVec 7) (s : State) : Result :=
  (floatBinary m d a b Fmt.mul).issue s

/-- FFMA (R151): a · b + d. -/
def execFfma (m : Bool) (d a b : BitVec 7) (s : State) : Result :=
  (floatFused m d a b false false).issue s

/-- FFMS (R151): a · b − d. -/
def execFfms (m : Bool) (d a b : BitVec 7) (s : State) : Result :=
  (floatFused m d a b false true).issue s

/-- FNMA (R151): −(a · b) + d. -/
def execFnma (m : Bool) (d a b : BitVec 7) (s : State) : Result :=
  (floatFused m d a b true false).issue s

/-- FMIN (R152). -/
def execFmin (m : Bool) (d a b : BitVec 7) (s : State) : Result :=
  (floatBinary m d a b fun fmt _ => fmt.minmax false).issue s

/-- FMAX (R152). -/
def execFmax (m : Bool) (d a b : BitVec 7) (s : State) : Result :=
  (floatBinary m d a b fun fmt _ => fmt.minmax true).issue s

/-- FMINNUM (R152). -/
def execFminnum (m : Bool) (d a b : BitVec 7) (s : State) : Result :=
  (floatBinary m d a b fun fmt _ => fmt.minmaxNum false).issue s

/-- FMAXNUM (R152). -/
def execFmaxnum (m : Bool) (d a b : BitVec 7) (s : State) : Result :=
  (floatBinary m d a b fun fmt _ => fmt.minmaxNum true).issue s

/-- FABS (R153). -/
def execFabs (m : Bool) (d a : BitVec 7) (s : State) : Result :=
  (floatUnary m d a fun fmt _ p => (p % 2 ^ (fmt.width - 1), 0)).issue s

/-- FNEG (R153). -/
def execFneg (m : Bool) (d a : BitVec 7) (s : State) : Result :=
  (floatUnary m d a fun fmt _ p => (p % 2 ^ (fmt.width - 1) + fmt.signBits (!fmt.sign p), 0)).issue s

/-- FCOPYSIGN (R153). -/
def execFcopysign (m : Bool) (d a b : BitVec 7) (s : State) : Result :=
  (floatBinary m d a b fun fmt _ p q => (p % 2 ^ (fmt.width - 1) + fmt.signBits (fmt.sign q), 0)).issue s

/-- FRND (R154): mode k, or FPMODE for 4. -/
def execFrnd (m : Bool) (d a k : BitVec 7) (s : State) : Result :=
  (floatUnary m d a fun fmt rm => fmt.integral (if k = 4 then rm else k.setWidth 2)).issue s

/-- The class mask of a register (R155): element 0 in [9:0], element 1 in [25:16]. -/
def classMask (r : VReg) : Word :=
  let fmt := floatFmt r.tag
  if r.tag == tagF32 then BitVec.ofNat 32 (2 ^ fmt.classOf r.bits.toNat)
  else BitVec.ofNat 32 (2 ^ fmt.classOf (elem r.bits 0 16) + 2 ^ 16 * 2 ^ fmt.classOf (elem r.bits 1 16))

/-- FCLASS (R155). -/
def execFclass (m : Bool) (d a : BitVec 7) (s : State) : Result :=
  (laneOp m { vs := [d.toNat, a.toNat] } (fun _ l => isFloat (l.get a.toNat).tag)
    (fun _ _ l => l.put d.toNat (classMask (l.get a.toNat)) tagUI32)).issue s

/-- FDOT2 (R156). -/
def execFdot2 (m : Bool) (d a b : BitVec 7) (s : State) : Result :=
  (floatDot m d a b 2 (fun s t => (s == tagBF16 || s == tagF16) && t == s) floatFmt).issue s

/-- The formats of FDOT4 (R156). -/
def byteFmt (t : BitVec 5) : Fmt := if t == tagE4 then fE4M3 else fE5M2

def isByteFloat (t : BitVec 5) : Bool := t == tagE4 || t == tagE5

/-- FDOT4 (R156). -/
def execFdot4 (m : Bool) (d a b : BitVec 7) (s : State) : Result :=
  (floatDot m d a b 4 (fun s t => isByteFloat s && isByteFloat t) byteFmt).issue s

/-- FDIV (R157). -/
def execFdiv (m : Bool) (d a b : BitVec 7) (s : State) : Result :=
  (floatBinary m d a b Fmt.div).issue s

/-- FSCALE (R158): b is I32 or RAW, one exponent for every element. -/
def execFscale (m : Bool) (d a b : BitVec 7) (s : State) : Result :=
  (laneOp m { vs := [d.toNat, a.toNat, b.toNat] }
    (fun _ l => isFloat (l.get a.toNat).tag && ((l.get b.toNat).tag == tagI32 || (l.get b.toNat).tag == tagRAW))
    (fun x _ l =>
      let fmt := floatFmt (l.get a.toNat).tag
      l.putFloat d.toNat (l.get a.toNat).tag
        (elementwise fmt (fun p _ _ => fmt.scale x.g.fpmode p (l.get b.toNat).bits.toInt) (l.get a.toNat).bits 0 0))).issue s

/-- FGETEXP (R159). -/
def execFgetexp (m : Bool) (d a : BitVec 7) (s : State) : Result :=
  (floatUnary m d a Fmt.getExp).issue s

/-- FGETMAN (R159). -/
def execFgetman (m : Bool) (d a : BitVec 7) (s : State) : Result :=
  (floatUnary m d a Fmt.getMan).issue s

/-- The comparison of element 0 (R160). -/
def compareFloats (c : BitVec 5) (a b : VReg) : Bool × FpFlags :=
  let fmt := floatFmt a.tag
  fmt.compare c.toNat (elem a.bits 0 fmt.width) (elem b.bits 0 fmt.width)

/-- FCMP (R160). -/
def execFcmp (m : Bool) (c : BitVec 5) (d a b : BitVec 7) (s : State) : Result :=
  (laneOp m { vs := [a.toNat, b.toNat] } (fun _ l => floatTags l a.toNat b.toNat)
    (fun _ _ l =>
      let r := compareFloats c (l.get a.toNat) (l.get b.toNat)
      (l.setPred d.toNat r.1).flag r.2)).issue s

/-! ## Conversion (R161 to R163) -/

/-- The tags CVT accepts: a source with elements, and for a narrowing a destination of the target tag or RAW. -/
def cvtTags (t : BitVec 5) (src dst : VReg) : Bool :=
  match elemKind src.tag, elemKind t with
  | some ks, some kt => decide (ks.width ≤ kt.width) || dst.tag == t || dst.tag == tagRAW
  | _, _ => false

/-- R162: ELEM is illegal for the tag of the source. -/
def cvtIllegal (t : BitVec 5) (e : BitVec 3) (src : VReg) : Bool :=
  match elemKind src.tag, elemKind t with
  | some ks, some kt => cvtElemIllegal ks kt e.toNat
  | _, _ => false

/-- The converted register. -/
def cvtResult (t : BitVec 5) (e : BitVec 3) (mode : RMode) (sat : Bool) (src dst : VReg) : Word × FpFlags :=
  match elemKind src.tag, elemKind t with
  | some ks, some kt => cvtWord ks kt mode sat e.toNat src.bits dst.bits
  | _, _ => (dst.bits, 0)

/-- CVT (R161 to R163). -/
def execCvt (m : Bool) (t : BitVec 5) (d a : BitVec 7) (elem : BitVec 3) (dyn sat : Bool) (rnd : BitVec 2) (s : State) :
    Result :=
  let o := laneOp m { vs := [d.toNat, a.toNat] } (fun _ l => cvtTags t (l.get a.toNat) (l.get d.toNat))
    (fun x _ l =>
      l.putFloat d.toNat t
        (cvtResult t elem (if dyn then x.g.fpmode else rnd) sat (l.get a.toNat) (l.get d.toNat)))
  Op.issue
    { o with check := fun x i l => valueFault x l { vs := [a.toNat] } (cvtIllegal t elem (l.get a.toNat)) (o.check x i l) }
    s

/-! ## Special functions (R164 to R170) -/

/-- A special function: its flags are raised at issue, its result lands later (R32, R139). -/
def sfuOp (m : Bool) (d a : BitVec 7) (ok : BitVec 5 → Bool) (f : Site → VReg → Word × FpFlags) : Op :=
  { m := m, kind := .plain,
    check := fun x _ l => operandFault x l { vs := [d.toNat, a.toNat] } (ok (l.get a.toNat).tag),
    effect := fun x good s =>
      let s := s.modGroup x.g.uid fun g => g.onLanes good fun _ l => l.flag (f x (l.get a.toNat)).2
      s.awaitLanes x.g good fun _ l =>
        [{ reg := l.window + d.toNat, bits := (f x (l.get a.toNat)).1, tag := (l.get a.toNat).tag }] }

/-- FRCP, FRSQ and FSQRT (R164). -/
def rootOp (m : Bool) (d a : BitVec 7) (f : Fmt → RMode → Nat → Nat × FpFlags) : Op :=
  sfuOp m d a isFloat fun x r =>
    elementwise (floatFmt r.tag) (fun p _ _ => f (floatFmt r.tag) x.g.fpmode p) r.bits 0 0

/-- FRCP (R121, R164). -/
def execFrcp (m : Bool) (d a : BitVec 7) (s : State) : Result :=
  (rootOp m d a Fmt.rcp).issue s

/-- FRSQ (R121, R164). -/
def execFrsq (m : Bool) (d a : BitVec 7) (s : State) : Result :=
  (rootOp m d a Fmt.rsq).issue s

/-- FSQRT (R121, R164). -/
def execFsqrt (m : Bool) (d a : BitVec 7) (s : State) : Result :=
  (rootOp m d a Fmt.sqrt).issue s

/-- The bank a group is bound to (R166, R168). -/
def State.bank (s : State) (core k : Nat) : ActBank :=
  ((s.core core).banks[k]?).getD { state := .valid, bytes := [], load := none }

/-- The coefficients of a segment of a bank (R130). -/
def ActBank.coeff (b : ActBank) (i : Nat) : Nat × Nat × Nat :=
  (leNat (cgets b.bytes (16 * i) 4), leNat (cgets b.bytes (16 * i + 4) 4), leNat (cgets b.bytes (16 * i + 8) 4))

/-- FLUT's value from a bank (R132, R165). -/
def ActBank.flut (b : ActBank) (x : Nat) : Nat :=
  if b.state == .invalid then (if fF32.isNan x then fF32.quiet x else 0x7FC00000) else flutValue b.coeff x

/-- FLUT (R165): not issued while the bank is LOADING. -/
def execFlut (m : Bool) (d a : BitVec 7) (s : State) : Result :=
  let bank (x : Site) : ActBank := s.bank (s.coreOf x.g.team) x.g.atbank
  let o := sfuOp m d a (· == tagF32) fun x r => (BitVec.ofNat 32 ((bank x).flut r.bits.toNat), 0)
  Op.issue { o with wait := fun x => (bank x).state == .loading } s

/-- The resident groups of a core that are bound to bank `k`: not those whose team has been saved off it (R166). -/
def State.boundTo (s : State) (core k : Nat) : List Group :=
  s.groups.filter fun g => g.atbank == k && (s.team? g.team).any fun t => t.core == some core && t.sched != .migrating

/-- ATBIND (R168). -/
def execAtbind (m : Bool) (k : BitVec 7) (s : State) : Result :=
  (groupOp m [] fun _ _ g => { g with atbank := k.toNat }).issue s

/-- The STATE code of ATSTAT (R169). -/
def BankState.code : BankState → Nat
  | .valid => 0
  | .loading => 1
  | .invalid => 2

/-- The snapshot of ATSTAT (R169). -/
def State.bankWord (s : State) (core atbank : Nat) : Word :=
  BitVec.ofNat 32 (atbank + 2 * (s.bank core 0).state.code + 8 * (s.bank core 1).state.code +
    2 ^ 8 * (s.boundTo core 0).length + 2 ^ 16 * (s.boundTo core 1).length)

/-- A variable-latency value for a uniform register (R32). -/
def uniformLater (m : Bool) (d : Nat) (us : List Nat) (f : Site → State → Word) : Op :=
  { m := m, kind := .plain, check := fun x _ l => operandFault x l { us := d :: us } true,
    effect := fun x _ s => s.await x.g.uid none [d] (.value [{ reg := d, bits := f x s, tag := tagRAW }]) }

/-- ATSTAT (R169). -/
def execAtstat (m : Bool) (d : BitVec 7) (s : State) : Result :=
  (uniformLater m d.toNat [] fun x s => s.bankWord (s.coreOf x.g.team) x.g.atbank).issue s

end Sys2Proof.Machine
end

