-- ==== Sys2Proof/Machine/Report.lean ====
section
/-!
DEFINITION. What the part sends on its control port (R384, R385, R387, R388).
-/

namespace Sys2Proof.Machine

/-! Message types (R385). -/

def mtAck : Nat := 0x0102
def mtReadRsp : Nat := 0x0101
def mtDebugRsp : Nat := 0x0103
def mtMgmtRsp : Nat := 0x0104
def mtQuote : Nat := 0x0105
def mtBootReq : Nat := 0x0106
def mtLaunchRefused : Nat := 0x0110
def mtGridComplete : Nat := 0x0111
def mtGridTerminated : Nat := 0x0112
def mtScriptHalt : Nat := 0x0113
def mtScriptFault : Nat := 0x0114
def mtLogWord : Nat := 0x0115
def mtEvent : Nat := 0x0116
def mtDevRead : Nat := 0x0120
def mtDevWrite : Nat := 0x0121

/-- A message from the part. -/
def outMsg (mtype seq addr tag status : Nat) (payload : List Byte) : CtlMsg :=
  { mtype := mtype, len := payload.length, seq := seq, addr := addr, tag := tag, status := status, reserved := 0,
    payload := payload }

/-- A message as it stands on the link (R384): its header, and its payload padded with zero bytes to a multiple of 8. -/
def linkBytes (m : CtlMsg) : List Byte :=
  natLe 2 m.mtype ++ natLe 2 m.len ++ natLe 4 m.seq ++ natLe 8 m.addr ++ natLe 4 m.tag ++ natLe 4 m.status ++
    natLe 8 m.reserved ++ m.payload ++ List.replicate ((8 - m.payload.length % 8) % 8) 0

/-- What the part has put on the control port's link, latest last (R384). -/
def State.link (s : State) : List (List Byte) := s.outbox.map linkBytes

/-- Sends a message that answers no request, with the part's own count (R384). -/
def State.post (s : State) (mtype addr tag status : Nat) (payload : List Byte) : State :=
  { s with outbox := s.outbox ++ [outMsg mtype s.seqOut addr tag status payload],
           seqOut := (s.seqOut + 1) % 2 ^ 32 }

/-- A reply to a request: its SEQ and TAG (R384). -/
def replyMsg (req : CtlMsg) (mtype status : Nat) (payload : List Byte) : CtlMsg :=
  outMsg mtype req.seq 0 req.tag status payload

/-- Sends a message as it stands. -/
def State.send (s : State) (msg : CtlMsg) : State := { s with outbox := s.outbox ++ [msg] }

/-- Answers a request. -/
def State.reply (s : State) (req : CtlMsg) (mtype status : Nat) (payload : List Byte) : State :=
  s.send (replyMsg req mtype status payload)

/-- An EVENT (R388). -/
def State.event (s : State) (kind addr : Nat) (payload : List Byte) : State := s.post mtEvent addr 0 kind payload

/-- A fault record as bytes (R387). -/
def FaultRec.bytes (r : FaultRec) : List Byte :=
  natLe 4 r.team ++ natLe 1 r.group ++ natLe 1 r.lane ++ natLe 2 r.lcid ++ natLe 4 r.tcause.toNat ++ natLe 4 0 ++
    natLe 8 r.tpc.toNat ++ natLe 8 r.taddr.toNat

/-- The payload of a completion (R387). -/
def recordPayload (nrec : Nat) (rs : List FaultRec) : List Byte :=
  natLe 4 nrec ++ natLe 12 0 ++ ((rs.take 127).map FaultRec.bytes).flatten

end Sys2Proof.Machine
end

