-- ==== Sys2Proof/Machine/Packets.lean ====
section
/-!
DEFINITION. Flits (R336), packets (R349) and requests to peer chips and the control node (R287, R288, R352, R353, R390).

The spec leaves the contents of copy flits, the byte count of a READ and the coding of a refusal open (DESIGN CHOICE, log
29 and 30).
-/

namespace Sys2Proof.Machine

/-! ## Flits (R336) -/

/-- One bit of CRC-16 with polynomial 0x8BB7, most significant bit first (DEDUCED, log 21). -/
def crcStep (crc : Nat) : Nat := if 2 ^ 15 ≤ crc then (2 * crc % 2 ^ 16) ^^^ 0x8BB7 else 2 * crc

/-- One byte of the CRC. -/
def crcByte (crc : Nat) (b : Byte) : Nat :=
  crcStep (crcStep (crcStep (crcStep (crcStep (crcStep (crcStep (crcStep (crc ^^^ (b.toNat * 2 ^ 8)))))))))

/-- CRC-16 from the initial value 0xFFFF. -/
def crc16 (bs : List Byte) : Nat := bs.foldl crcByte 0xFFFF

/-- Pads with zero bytes to `n`. -/
def padTo (n : Nat) (bs : List Byte) : List Byte := bs ++ List.replicate (n - bs.length) 0

/-- A flit (R336). -/
def flitBytes (payload : List Byte) (seq ack kind vc credit : Nat) : List Byte :=
  let body := padTo 56 payload ++ natLe 2 seq ++ natLe 2 ack ++ natLe 1 (16 * kind + 4 * vc) ++ natLe 1 credit
  body ++ natLe 2 (crc16 body)

/-- A field of a flit or packet. -/
def fieldAt (bs : List Byte) (o n : Nat) : Nat := leNat ((bs.drop o).take n)

/-- Cuts bytes into pieces of at most `n`. -/
def pieces (n : Nat) : Nat → List Byte → List (List Byte)
  | 0, _ => []
  | k + 1, bs => if bs.isEmpty then [] else bs.take n :: pieces n k (bs.drop n)

/-! ## Packets (R349) -/

def pkRead : Nat := 0
def pkWrite : Nat := 1
def pkAtomic : Nat := 2
def pkReadRsp : Nat := 3
def pkAck : Nat := 4
def pkData : Nat := 5
def pkUndeliverable : Nat := 6

/-- The virtual channel of a type (R349). -/
def packetVc (type : Nat) : Nat := if type ≤ 2 || type == 5 then 0 else 1

/-- The code in AOP by which a response refuses its request (DESIGN CHOICE, log 30). -/
def aopRefused : Nat := 15

/-- A packet (R349). A READ's LEN is the byte count it asks for (DESIGN CHOICE, log 30). -/
def packetBytes (type : Nat) (r : Bool) (aop src dst e2e len addr rtag : Nat) (data : List Byte) : List Byte :=
  natLe 4 (type + 16 * packetVc type + 32 * r.toNat + 64 * aop) ++ natLe 4 (src + 2 ^ 12 * dst) ++ natLe 4 e2e ++
    natLe 2 len ++ natLe 2 0 ++ natLe 8 addr ++ natLe 8 rtag ++ data

/-- The fields of a packet. -/
structure PacketView where
  type : Nat
  r : Bool
  aop : Nat
  src : Nat
  dst : Nat
  e2e : Nat
  len : Nat
  addr : Nat
  rtag : Nat
  data : List Byte
  deriving DecidableEq, Repr

/-- Reads a packet's header and payload. -/
def viewPacket (bs : List Byte) : PacketView :=
  let h := fieldAt bs 0 4
  let ends := fieldAt bs 4 4
  { type := bitsOf h 0 4, r := bitsOf h 5 1 == 1, aop := bitsOf h 6 4, src := bitsOf ends 0 12,
    dst := bitsOf ends 12 12, e2e := fieldAt bs 8 4, len := fieldAt bs 12 2, addr := fieldAt bs 16 6,
    rtag := fieldAt bs 24 8, data := bs.drop 32 }

/-- The bytes a packet has, from its header. -/
def packetSize (bs : List Byte) : Nat :=
  let p := viewPacket bs
  if p.type = pkRead then 32 else 32 + p.len

/-! ## Channels (R336, R354 to R356) -/

/-- Changes a channel, by number (R349). -/
def Fabric.modChannel (f : Fabric) (c : Nat) (g : Channel → Channel) : Fabric :=
  if c < 32 then { f with ports := setAt (fun p => { p with channel := g p.channel }) c f.ports }
  else { f with links := setAt (fun l => { l with channel := g l.channel }) (c - 32) f.links }

/-- The working lane that byte `i` of a stream goes to, and its position there (R354). -/
def stripeOf (lanes : BitVec 16) (i : Nat) : Option (Nat × Nat) :=
  let ls := (List.range 16).filter lanes.getLsbD
  (ls[i % ls.length]?).map fun l => (l, i / ls.length)

/-- Lane, position and value of each byte of a flit on a channel. -/
def WireFlit.places (w : WireFlit) : List (Option (Nat × Nat) × Byte) :=
  mapFrom (fun k b => (stripeOf w.lanes (w.start + k), b)) 0 w.flit

/-- Puts a flit on a channel. -/
def Fabric.put (f : Fabric) (c : Nat) (flit : List Byte) : Fabric :=
  match f.channel? c with
  | none => f
  | some ch =>
    { f.modChannel c (fun ch => { ch with stripe := ch.stripe + 64 }) with
      wire := f.wire ++ [{ channel := c, start := ch.stripe, lanes := ch.working, flit := flit }] }

/-- A channel that may send now: a link that is up or a LIVE port, not retraining. -/
def Fabric.sends (f : Fabric) (c : Nat) : Bool :=
  let free := (f.channel? c).any (·.retrain.isNone)
  if c < 32 then free && (f.ports[c]?).any (·.state == .live) else free && (f.links[c - 32]?).any (·.up)

/-- The credits of a virtual channel. -/
def Channel.credit (ch : Channel) (vc : Nat) : Nat := if vc = 0 then ch.credits.1 else ch.credits.2

/-- Spends or gains credits. -/
def Channel.setCredit (ch : Channel) (vc n : Nat) : Channel :=
  { ch with credits := if vc = 0 then (n, ch.credits.2) else (ch.credits.1, n) }

/-- Marks a port as busy now, so that its idle time starts afresh (R339). -/
def Fabric.touch (f : Fabric) (c now : Nat) : Fabric :=
  if c < 32 then { f with ports := setAt (fun p => { p with idle := now }) c f.ports } else f

/-- A port that has been idle long enough for its peer to sleep asks it to wake before it sends (R339). -/
def Fabric.wakePeer (f : Fabric) (c now : Nat) : Fabric :=
  if c < 32 && (f.ports[c]?).any (fun p => p.idle + 2000 ≤ now) then { f with wakeOut := f.wakeOut ++ [c] } else f

/-- A packet with the time it has been queued here added to its AGE (R349). -/
def aged (bs : List Byte) (time : Nat) : List Byte :=
  bs.take 2 ++ [BitVec.ofNat 8 (min 255 (fieldAt bs 2 1 + time / 64))] ++ bs.drop 3

/-- The virtual channel of a waiting packet. -/
def Waiting.vc (w : Waiting) : Nat := packetVc (viewPacket w.whole).type

/-- The packet whose flit takes the next slot: each virtual channel keeps its order and waits for its own credits, a
response before a request (R351; DESIGN CHOICE, log 83). While copy flits wait, packet flits take one slot in 16
(R349), and while the ranks disagree none (R350). -/
def Channel.next (ch : Channel) : Option Waiting :=
  let first (p : Waiting → Bool) : Option Waiting := ch.waiting.find? fun w => p w && 0 < ch.credit w.vc
  let copy := first (·.copy)
  let packet :=
    if ch.agrees then (first fun w => !w.copy && w.vc == 1).orElse fun _ => first fun w => !w.copy else none
  if copy.isSome && (packet.isNone || ch.slots < 15) then copy else packet

/-- Sends the next flit of a waiting packet; it stays in the retry buffer until acknowledged (R356). -/
def Channel.sent (ch : Channel) (w : Waiting) (now : Nat) : Channel × List Byte :=
  let v := if w.sent = 0 then { w with whole := aged w.whole (now - w.since) } else w
  let flit := flitBytes ((v.whole.drop v.sent).take 56) ch.nextSeq ch.received (if v.copy then 2 else 1) v.vc 0
  ({ ch.setCredit v.vc (ch.credit v.vc - 1) with
     nextSeq := (ch.nextSeq + 1) % 2 ^ 16, retry := ch.retry ++ [{ flit := flit, whole := v.whole, copy := v.copy }],
     ackTime := if ch.retry.isEmpty then now else ch.ackTime, slots := if v.copy then ch.slots + 1 else 0,
     waiting := if v.whole.length ≤ v.sent + 56 then ch.waiting.erase w
       else ch.waiting.replace w { v with sent := v.sent + 56 } }, flit)

/-- Sends waiting flits of a channel while it may send, has credits and has room (R356). -/
def Fabric.pump (f : Fabric) (c now : Nat) : Nat → Fabric
  | 0 => f
  | n + 1 =>
    match f.channel? c with
    | none => f
    | some ch =>
      match ch.next with
      | none => f
      | some w =>
        if f.sends c && !ch.replayDue && ch.retry.length < 256 then
          let (ch1, flit) := ch.sent w now
          ((((f.wakePeer c now).touch c now).modChannel c fun _ => ch1).put c flit).pump c now n
        else f

/-- Queues a packet on a channel and sends what can be sent. -/
def Fabric.enqueue (f : Fabric) (c now : Nat) (copy : Bool) (bs : List Byte) : Fabric :=
  let f := f.modChannel c fun ch =>
    { ch with waiting := ch.waiting ++ [{ copy := copy, since := now, whole := bs, sent := 0 }] }
  f.pump c now 256

/-- The flits that carry a packet's bytes. -/
def flitsOf (bs : List Byte) : Nat := (bs.length + 55) / 56

/-- A credit-return flit (R336); it takes no SEQ (DEDUCED, log 44). -/
def Fabric.putCredit (f : Fabric) (c vc n : Nat) : Fabric :=
  match f.channel? c with
  | none => f
  | some ch => f.put c (flitBytes [] 0 ch.received 3 vc n)

/-- A path that takes flits: a LIVE or DRAINING port or a link that is up. -/
def Fabric.hears (f : Fabric) (c : Nat) : Bool :=
  if c < 32 then (f.ports[c]?).any fun p => p.state == .live || p.state == .draining
  else (f.links[c - 32]?).any (·.up)

/-- Returns the credits that a channel owes, unless it sleeps or retrains: a retrain exit reports the free count (R336,
R355). -/
def Fabric.flushOwed (f : Fabric) (c : Nat) : Fabric :=
  match f.channel? c with
  | none => f
  | some ch =>
    if !f.hears c || ch.retrain.isSome then f
    else
      let back (f : Fabric) (vc n : Nat) : Fabric := if n = 0 then f else f.putCredit c vc n
      (back (back f 0 ch.owed.1) 1 ch.owed.2).modChannel c fun ch => { ch with owed := (0, 0) }

/-- A packet has left this end's buffer: the credits of its flits go back (R336; DEDUCED, log 44). -/
def Fabric.release (f : Fabric) (c : Nat) (bs : List Byte) : Fabric :=
  let n := flitsOf bs
  (f.modChannel c fun ch =>
    { ch with owed := if packetVc (viewPacket bs).type = 0 then (ch.owed.1 + n, ch.owed.2) else (ch.owed.1, ch.owed.2 + n) }
    ).flushOwed c

/-- The next end-to-end number to a destination (R349). -/
def Fabric.nextE2e (f : Fabric) (dst : Nat) : Nat × Fabric :=
  (tget 0 f.e2e dst, { f with e2e := tput f.e2e dst ((tget 0 f.e2e dst + 1) % 2 ^ 32) })

/-- Sends a packet of this chip to a destination (R350); one for which its table gives no channel that carries packets
waits until it does (R353; DESIGN CHOICE, log 93). -/
def Fabric.inject (f : Fabric) (dst now : Nat) (bs : List Byte) : Fabric :=
  let out := f.route dst 63
  if out != 62 && f.carries out then f.enqueue out now false bs else { f with stranded := f.stranded ++ [(dst, bs)] }

/-- Sends what waited for the table to give a channel (R353). -/
def Fabric.flushStranded (f : Fabric) (now : Nat) : Fabric :=
  f.stranded.foldl (fun f (dst, bs) => f.inject dst now bs) { f with stranded := [] }

/-! ## Requests (R287, R288, R352, R353, R390) -/

/-- A request that writes. -/
def Remote.writes (r : Remote) : Bool := r.kind != pkRead

/-- Two requests of one lane touch common bytes of one place (R352). -/
def Remote.meets (a b : Remote) : Bool :=
  a.node == b.node && a.chip == b.chip && a.group == b.group && (a.lanes &&& b.lanes) != 0 &&
    a.address < b.address + b.len && b.address < a.address + a.len

/-- Held behind an earlier unacknowledged write of the same lane (R352). -/
def Fabric.behind (f : Fabric) (r : Remote) : Bool :=
  f.remotes.any fun q => q.id < r.id && q.writes && q.engine.isNone && r.engine.isNone && q.meets r

/-- The bit of RTAG by which a bound copy's READ asks for its data as copy flits (R342; DESIGN CHOICE, log 30). -/
def rtagCopy : Nat := 2 ^ 63

/-- RTAG: the request's number and, beside it, its issuer's lane, GROUPID, TEAMID and LCID (R285, R349; DESIGN CHOICE, log
89). -/
def Remote.rtag (r : Remote) : Nat :=
  r.id % 2 ^ 24 + 2 ^ 24 * (r.writer.lane % 2 ^ 6) + 2 ^ 30 * (r.writer.group % 2 ^ 5) + 2 ^ 35 * (r.writer.team % 2 ^ 21) +
    2 ^ 56 * (r.writer.lcid % 2 ^ 7) + if r.kind = pkRead && r.port.isSome then rtagCopy else 0

/-- The packet of a request. -/
def Remote.packet (r : Remote) (self e2e : Nat) : List Byte :=
  packetBytes r.kind r.r r.op self r.chip e2e (if r.kind = pkRead then r.len else r.data.length) r.address r.rtag r.data

/-- The request to a chip that a tag names. -/
def Remote.tagged (r : Remote) (chip tag : Nat) : Bool := !r.node && r.chip == chip && r.id % 2 ^ 24 == tag % 2 ^ 24

/-- The issuer of a lane's request (R285): for an atomic its highest lane, else the lowest. -/
def State.issuer (s : State) (r : Remote) : Writer :=
  match s.group? r.group with
  | none => r.writer
  | some g => s.writer g (if r.kind = pkAtomic then (laneList r.lanes).foldl max 0 else (laneList r.lanes).headD 0)

/-- Sends a request on its way now; one that is sent again keeps its end-to-end number (R353). -/
def State.transmit (s : State) (r : Remote) : State :=
  if r.node then
    if r.writes then s.post mtDevWrite r.address r.id 0 r.data
    else s.post mtDevRead r.address r.id 0 (natLe 8 r.len)
  else
    let (e, f) : Nat × Fabric :=
      match r.e2e with
      | some e => (e, s.fabric)
      | none => s.fabric.nextE2e r.chip
    let f : Fabric := { f with remotes := f.remotes.map fun q => if q.id = r.id then { q with e2e := some e } else q }
    let bs := r.packet s.chipId e
    match r.port with
    | some p => { s with fabric := f.enqueue p s.gtime (r.kind == pkWrite) bs }
    | none => { s with fabric := f.inject r.chip s.gtime bs }

/-- Whether a request has a way to go now. -/
def State.canSend (s : State) (r : Remote) : Bool :=
  !s.fabric.behind r && (r.node || r.port.isSome || s.fabric.reaches r.chip)

/-- Makes a request: it is sent now, or held (R352, R353). Answers its number. -/
def State.request (s : State) (r : Remote) : Nat × State :=
  let r := { r with id := s.fabric.nextRemote, sent := s.gtime, writer := if r.engine.isSome then r.writer else s.issuer r }
  let r := { r with queued := !s.canSend r }
  let s1 : State := { s with fabric := { s.fabric with remotes := s.fabric.remotes ++ [r],
                                                       nextRemote := s.fabric.nextRemote + 1 } }
  (r.id, if r.queued then s1 else s1.transmit r)

/-- Sends the held requests that now have a way, first first (R352, R353). -/
def State.flushQueued (s : State) : State :=
  s.fabric.remotes.foldl
    (fun s r =>
      if r.queued && s.canSend r then
        ({ s with fabric := { s.fabric with remotes := s.fabric.remotes.map fun q =>
            if q.id = r.id then { q with queued := false, sent := s.gtime } else q } } : State).transmit r
      else s) s

/-- A request is answered or given up. -/
def Fabric.settled (f : Fabric) (id : Nat) : Fabric := { f with remotes := f.remotes.filter (·.id != id) }

/-! ## Collective messages (R360; DESIGN CHOICE, log 61)

A message goes as DATA packets: each payload is the message's length and a piece of its bytes, ADDR is the place of the
piece, RTAG the message's number on its chip. -/

/-- A message as bytes. -/
def CollMsg.bytes (m : CollMsg) : List Byte :=
  natLe 8 m.members ++ natLe 4 m.number ++ natLe 2 m.rank ++ natLe 2 m.kind ++ natLe 4 m.chunk ++
    natLe 4 m.fields.length ++ (m.fields.map (natLe 8)).flatten ++ m.data

/-- The message that bytes hold. -/
def CollMsg.ofBytes (bs : List Byte) : CollMsg :=
  let n := fieldAt bs 20 4
  { members := fieldAt bs 0 8, number := fieldAt bs 8 4, rank := fieldAt bs 12 2, kind := fieldAt bs 14 2,
    chunk := fieldAt bs 16 4, fields := (List.range n).map fun i => fieldAt bs (24 + 8 * i) 8, data := bs.drop (24 + 8 * n) }

/-- A port in LIVE, DOZE or NAP to a chip (R360). -/
def Fabric.portTo (f : Fabric) (chip : Nat) : Option Nat :=
  (List.range 32).find? fun n => (f.ports[n]?).any fun p =>
    p.peer == chip && (p.state == .live || p.state == .doze || p.state == .nap)

/-- A path to a chip: such a port, or a route (R360). -/
def Fabric.collPath (f : Fabric) (chip : Nat) : Bool := (f.portTo chip).isSome || f.reaches chip

/-- Sends a message whole: over a port to the chip if there is one, else on the packet plane (R360). -/
def Fabric.sendMsg (f : Fabric) (self now : Nat) (m : CollSent) : Fabric :=
  let all := CollMsg.bytes m.msg
  let via := f.portTo m.chip
  let f := { f with collSent := f.collSent.map fun q =>
    if q.id = m.id then { q with sent := true, e2e := (f.nextE2e m.chip).1 } else q }
  (List.range ((all.length + 507) / 508)).foldl
    (fun f k =>
      let piece := (all.drop (508 * k)).take 508
      let (e, f) := f.nextE2e m.chip
      let bs := packetBytes pkData false 0 self m.chip e (4 + piece.length) (508 * k) m.id (natLe 4 all.length ++ piece)
      match via with
      | some p => f.enqueue p now true bs
      | none => f.inject m.chip now bs) f

/-- Sends the collective messages that now have a path. -/
def State.flushColl (s : State) : State :=
  s.fabric.collSent.foldl
    (fun s m =>
      if !m.sent && s.fabric.collPath m.chip then { s with fabric := s.fabric.sendMsg s.chipId s.gtime m } else s) s

/-- A message of a collective to a chip: sent now, or once there is a path. The latest 4,096 are kept, to be sent
again. -/
def State.sendColl (s : State) (chip : Nat) (msg : CollMsg) : State :=
  let m : CollSent := { id := s.fabric.nextRemote, chip := chip, sent := false, e2e := 0, msg := msg }
  let old := s.fabric.collSent
  ({ s with fabric := { s.fabric with collSent := old.drop (old.length - 4095) ++ [m],
                                      nextRemote := s.fabric.nextRemote + 1 } } : State).flushColl

/-- An EVENT of kind 3: something for an address of a chip that was not delivered (R388). -/
def State.undeliveredAt (s : State) (address chip : Nat) : State := s.event 3 address (natLe 8 chip)

/-- A write that was not delivered. -/
def State.undelivered (s : State) (r : Remote) : State := s.undeliveredAt r.address (if r.node then 2 ^ 12 else r.chip)

end Sys2Proof.Machine
end

