-- ==== Sys2Proof/Machine/Memory.lean ====
section
/-!
DEFINITION. Loads and stores (R196 to R201).
-/

namespace Sys2Proof.Machine

/-! ## Speculation (R201, R375, R377) -/

/-- The group holds effects back: it is speculative (R377). -/
def Group.speculative (g : Group) : Bool := g.spec.any fun sp => 0 < sp.level

/-- The CTGET that may make its group speculative: a task on a cutting asks for the version it was dispatched for
(R375). -/
def EngOp.mayCut (o : EngOp) (g : Group) : Bool :=
  o.kind == 12 && o.group == g.uid &&
    g.spec.any fun sp => sp.level == 0 && o.words[0]? == some (BitVec.ofNat 32 (sp.slot + 2 ^ 16 * sp.want))

/-- The group has issued such a CTGET and its delivery is not settled: R377 counts it as speculative from that issue if
a prediction or a speculative version is delivered, so that its effects are held back. -/
def State.undecided (s : State) (g : Group) : Bool :=
  (s.core (s.coreOf g.team)).ops.any fun o => o.mayCut g && !o.begun && !o.waiting && o.outcome.isNone

/-- What R377 keeps a speculative group from issuing. -/
def State.keepsBack (s : State) (g : Group) : Bool := g.speculative || s.undecided g

/-- The speculative lines, of 128 bytes, that a group's bytes stand in (R275, R377). -/
def lineNumbers (bytes : List (Nat × (Byte × Nat))) : List Nat := nubNat (bytes.map fun (a, _) => a / 128)

/-- The speculative lines of a core: of its groups and of those whose tracker entries are held (R377). -/
def State.specLines (s : State) (core : Nat) : Nat :=
  ((s.groups.filter fun g => s.coreOf g.team == core).map fun g =>
      (g.spec.map fun sp => (lineNumbers sp.lines).length).getD 0).sum +
    ((s.retiring.filter (·.core == core)).map fun r => (r.spec.map fun sp => (lineNumbers sp.lines).length).getD 0).sum

/-- The bytes of a store as speculative bytes: address, value, lane. -/
def specBytes (ws : List (Nat × Nat × List Byte)) : List (Nat × (Byte × Nat)) :=
  (ws.map fun (i, pa, bs) => mapFrom (fun k b => (pa + k, (b, i))) 0 bs).flatten

/-- Whether a store would need more than 256 KiB of speculative lines on its core (R377). -/
def State.noLineRoom (s : State) (g : Group) (ws : List (Nat × Nat × List Byte)) : Bool :=
  let mine := (g.spec.map (·.lines)).getD []
  2048 < s.specLines (s.coreOf g.team) - (lineNumbers mine).length + (lineNumbers (tputs mine (specBytes ws))).length

/-- Notes that a speculative store was held for want of line room. -/
def State.noteNoRoom (s : State) (x : Site) (short : Bool) : State :=
  s.modGroup x.g.uid fun g => { g with noRoom := short }

/-- Writes speculative bytes (R377). -/
def Group.specStore (g : Group) (ws : List (Nat × Nat × List Byte)) : Group :=
  { g with spec := g.spec.map fun sp => { sp with lines := tputs sp.lines (specBytes ws) } }

/-- Bytes of memory as a group reads them: its own speculative bytes first (R201). -/
def Group.overlay (g : Group) (pa : Nat) (bs : List Byte) : List Byte :=
  match g.spec with
  | none => bs
  | some sp => mapFrom (fun k b => (tget (b, 0) sp.lines (pa + k)).1) 0 bs

/-! ## Accesses of lanes -/

/-- The translation root of a grid. -/
def State.rootOf (s : State) (grid : Nat) : Nat := ((s.grid? grid).map (·.launch.troot)).getD 0

/-- Lanes whose access met a serviceable page keep their place until firmware answers, and the access what it reads of
the group (R272); the uniform registers it will write are pending from now (R32). -/
def State.holdForService (s : State) (x : Site) (lanes : BitVec 32) (va : Nat) (marks : List Nat := []) : State :=
  let redo : Redo := (x.g.redo?).getD
    { issue := s.clock.stamp, uregs := x.g.uregs, upend := x.g.upend, leaseovr := x.g.leaseovr, spcount := x.g.spcount }
  s.modGroup x.g.uid fun g =>
    { g.onLanes lanes (fun _ l => { l with lpc := x.pc, service := some va, redo := some redo }) with
      upend := g.upend ++ marks }

/-- What each lane's access meets, as the state stands at issue: lane, address, meeting. -/
def State.meetings (s : State) (x : Site) (good : BitVec 32) (addr : Lane → Nat) (n : Nat) (acc : Access) :
    List (Nat × Nat × Met) :=
  (mapFrom (fun i l => if good.getLsbD i then [(i, addr l, s.meetLane x.g i (addr l) n acc)] else []) 0
    x.g.lanes).flatten

/-- The accesses that are performed: lane, address, place. -/
def placesOf (ms : List (Nat × Nat × Met)) : List (Nat × Nat × Place) :=
  ms.filterMap fun (i, va, m) => m.place?.map fun p => (i, va, p)

/-- Holds the lanes whose pages firmware is asked to map, and keeps the translations of the others. -/
def State.settleMeetings (s : State) (x : Site) (ms : List (Nat × Nat × Met)) : State :=
  ms.foldl (fun s (i, va, m) =>
    match m with
    | .service _ => s.holdForService x (BitVec.ofNat 32 (2 ^ i)) va
    | .place _ => s.cacheXlat (s.coreOf x.g.team) (s.rootOf x.g.grid) va
    | .fault _ => s) s

/-- The fault of a lane's access at an address. -/
def State.laneFault (s : State) (addr : Group → Lane → Nat) (n : Nat) (acc : Access) (x : Site) (i : Nat) (l : Lane) :
    Option Cause :=
  (s.meetLane x.g i (addr x.g l) n acc).cause

/-- The fault of a group-level access, which falls on every active lane (R193). A store that some active lane makes to
its own stack beyond the limit counts for them all (DEDUCED, log 16). -/
def State.uniformFault (s : State) (x : Site) (va n : Nat) (acc : Access) : Option Cause :=
  let past := acc.write && (s.grid? x.g.grid).any fun gr => (laneList x.mask).any fun i => stackFault gr x.g i va n
  if va % n != 0 then some (Cause.address va)
  else if past then some (Cause.stackLimit va)
  else (s.meet x.g.grid (s.coreOf x.g.team) va n acc).cause

/-- A request to the chip or the node that holds a page (R287, R288). -/
def remoteTo (x : Site) (p : Place) (kind va len : Nat) (data : List Byte) (lanes : BitVec 32) : Remote :=
  { id := 0, node := p.aper == 2, chip := p.chip, kind := kind, address := p.pa, len := len, data := data,
    group := x.g.uid, lanes := lanes, pc := x.pc, va := va, writer := ⟨1, 0, 0, 0, 0, 0, 0⟩, op := 0, r := false, sent := 0, queued := false,
    engine := none, port := none, e2e := none }

/-! ## Loads (R198, R281) -/

/-- The core of a group. -/
def State.groupCore (s : State) (group : Nat) : Nat := s.coreOf (((s.group? group).map (·.team)).getD 0)

/-- Performs a load of a group now: its register writes (R281). -/
def State.loadNow (s : State) (group pa acc d lease : Nat) : List RegWrite × State :=
  let (bs, s1) := s.performLoad (s.groupCore group) lease pa (accBytes acc)
  (loadWrites acc d (((s.group? group).map fun g => g.overlay pa bs).getD bs), s1)

/-- A load whose time is settled: it is performed at GTIME `after`, and takes no lease. -/
def Awaited.settled (after : Nat) : Awaited → Awaited
  | .load va pa acc d _ _ => .load va pa acc d 0 after
  | w => w

/-- The GTIME before which a load on its way is not performed (R282), for a write-back of its line (R359), or for its lease
(R279). -/
def State.loadAfter (s : State) (group pa acc lease after : Nat) : Nat :=
  max after (max (s.mem.ingressUntil pa (accBytes acc)) (s.leaseAfter (s.groupCore group) lease pa))

/-- The damaged byte that a load meets as it is performed: none where the L1 serves it (R279, R298, R299). -/
def State.loadDamage (s : State) (group pa acc lease : Nat) : Option Nat :=
  if lease != 0 && (s.core (s.groupCore group)).hits s.gtime pa then none else s.mem.damagedByte pa (accBytes acc)

/-- Settles when the pending loads, of lanes that `who` picks, that overlap a store about to be received are performed
(R282): now, or, where an earlier store of the lane is not yet visible, at that store's WCT. Answers the latest such
time; the store's own WCT is to exceed it. A load whose time is settled so and that could not be granted its lease then
takes none (DESIGN CHOICE, log 7). -/
def State.performEarlier (s : State) (group : Nat) (who : Option Nat → Bool) (pa n : Nat) : Nat × State :=
  s.pend.foldl
    (fun (top, s) p =>
      match p.what with
      | .load _ pa' acc d lease after =>
        if p.group == group && who p.lane && pa' < pa + n && pa < pa' + accBytes acc then
          let after := max after (s.mem.ingressUntil pa' (accBytes acc))
          if s.gtime < after then
            (max top after,
             { s with pend := s.pend.map fun q =>
                 if q.id = p.id then { q with due := 2 * after, what := p.what.settled after } else q })
          else
            let lease := if s.gtime < s.leaseAfter (s.groupCore group) lease pa' then 0 else lease
            let (ws, s) := s.loadNow group pa' acc d lease
            (top, { s with pend := s.pend.map fun q => if q.id = p.id then { q with what := .value ws } else q })
        else (top, s)
      | _ => (top, s)) (0, s)

/-- An earlier load of the lanes that overlaps a speculative store is still to be performed later: until then the store does
not issue, and then it follows the load (R282, R377; DESIGN CHOICE, log 95). -/
def State.loadsAhead (s : State) (group : Nat) (who : Option Nat → Bool) (pa n : Nat) : Bool :=
  s.gtime < (s.performEarlier group who pa n).1

/-- The speculative stores of one instruction: earlier loads of the same lanes to those bytes are performed first (R282,
R377). -/
def State.specStores (s : State) (x : Site) (who : Nat → Option Nat → Bool) (ws : List (Nat × Nat × List Byte)) : State :=
  (ws.foldl (fun s (i, pa, bs) => (s.performEarlier x.g.uid (who i) pa bs.length).2) s).modGroup x.g.uid fun g =>
    g.specStore ws

/-- Starts a load into registers from `first` of a lane, or of the group, to be performed from GTIME `after` on (R194,
R198, R282). -/
def State.startLoad (s : State) (x : Site) (lane : Option Nat) (lanes : BitVec 32) (first acc va after : Nat) (p : Place) :
    State :=
  let regs := regsFrom first (accCount acc)
  if p.home then
    (s.reachHome p false (accBytes acc)).awaitAccess ⟨x.pc, lanes, va⟩ x.g.uid lane regs
      (.load va p.pa acc first (leaseClass p x.g.leaseovr) after)
  else
    let (id, s1) := s.request (remoteTo x p pkRead va (accBytes acc) [] lanes)
    s1.await x.g.uid lane regs (.answer id acc first)

/-- R377, R288: some place is off this part. -/
def anyRemote (ps : List (Nat × Nat × Place)) : Bool := ps.any fun (_, _, p) => !p.home

/-- LDG (R196, R198). -/
def execLdg (m : Bool) (acc : BitVec 5) (d a b : BitVec 7) (s : State) : Result :=
  let n := accBytes acc.toNat
  let addr (g : Group) (l : Lane) : Nat := globalAddr g l a.toNat b.toNat
  let o := (globalOperands a.toNat b.toNat).add { vs := regsFrom d.toNat (accCount acc.toNat) }
  let after (x : Site) (i : Nat) (p : Place) : Nat := s.ownAfter x.g (BitVec.ofNat 32 (2 ^ i)) p.pa n
  Op.issue
    { m := m, kind := .plain, check := fun x _ l => operandFault x l o (globalTags l a.toNat b.toNat),
      fault := s.laneFault addr n .load,
      hold := fun x good => s.keepsBack x.g && anyRemote (placesOf (s.meetings x good (addr x.g) n .load)),
      effect := fun x good s' =>
        let ms := s.meetings x good (addr x.g) n .load
        (placesOf ms).foldl
          (fun s (i, va, p) =>
            match x.g.lane? i with
            | none => s
            | some l =>
              s.startLoad x (some i) (BitVec.ofNat 32 (2 ^ i)) (l.window + d.toNat) acc.toNat va (after x i p) p)
          (s'.settleMeetings x ms) }
    s

/-- LDU (R196, R198): once for the group, into uniform registers. -/
def execLdu (m : Bool) (acc : BitVec 5) (d a b : BitVec 7) (s : State) : Result :=
  let n := accBytes acc.toNat
  let va (x : Site) : Nat := uniformAddr x.g a.toNat b.toNat
  let meeting (x : Site) : Met := s.meet x.g.grid (s.coreOf x.g.team) (va x) n .load
  let us := [a.toNat, b.toNat, b.toNat + 1] ++ regsFrom d.toNat (accCount acc.toNat)
  Op.issue
    { m := m, kind := .plain, check := fun x _ l => operandFault x l { us := us } true,
      fault := fun x _ _ => s.uniformFault x (va x) n .load,
      hold := fun x _ => s.keepsBack x.g && ((meeting x).place?.any fun p => !p.home),
      effect := fun x good s' =>
        match meeting x with
        | .place p =>
          (s'.cacheXlat (s.coreOf x.g.team) (s.rootOf x.g.grid) (va x)).startLoad x none good d.toNat acc.toNat (va x)
            (s.ownAfter x.g good p.pa n) p
        | .service _ => s'.holdForService x good (va x) (regsFrom d.toNat (accCount acc.toNat))
        | .fault _ => s' }
    s

/-- When an access reaches the bank of a team: the own core's in this cycle, a member's after a free delay (R197, R290;
DESIGN CHOICE, log 91). -/
def State.reachBank (s : State) (x : Site) (lane : Option Nat) (lanes : BitVec 32) (own : Bool) (address : Nat)
    (regs : List Nat) (what : Awaited) : State :=
  let from_ : Origin := ⟨x.pc, lanes, address⟩
  if own then s.awaitAt from_ x.g.uid lane regs what s.clock.tick else s.awaitAccess from_ x.g.uid lane regs what

/-- LDP (R196, R197, R198). -/
def execLdp (m : Bool) (acc : BitVec 5) (d a b : BitVec 7) (s : State) : Result :=
  let n := accBytes acc.toNat
  let addr (g : Group) (l : Lane) : Nat := scratchAddr g l a.toNat b.toNat
  let o := (scratchOperands a.toNat b.toNat).add { vs := regsFrom d.toNat (accCount acc.toNat) }
  Op.issue
    { m := m, kind := .plain, check := fun x _ l => operandFault x l o (scratchTags l a.toNat),
      fault := fun x _ l => s.scratchFault x (addr x.g l) n false,
      effect := fun x good s' =>
        s'.forLanes x.g good fun i l s' =>
          match s.team? x.g.team with
          | none => s'
          | some t =>
            match s.scratchPlace x.img t (addr x.g l) n with
            | none => s'
            | some (u, off) =>
              let first := l.window + d.toNat
              s'.reachBank x (some i) (BitVec.ofNat 32 (2 ^ i)) (u.uid == t.uid) (addr x.g l)
                (regsFrom first (accCount acc.toNat)) (.bankLoad u.uid off acc.toNat first) }
    s

/-! ## Stores (R199) -/

/-- The words of registers `d` on of a lane. -/
def Lane.words (l : Lane) (d n : Nat) : List Word := (regsFrom d n).map fun r => (l.get r).bits

/-- R93: the tags a store requires. -/
def storeTags (l : Lane) (acc d : Nat) : Bool :=
  (List.range (accCount acc)).all fun k => storeTagOk acc k (l.get (d + k)).tag

/-- Raises the LWCT of lanes by their stores' WCTs. -/
def State.raiseLwcts (s : State) (group : Nat) (ts : List (Nat × Nat)) : State :=
  s.modGroup group fun g => ts.foldl (fun g (i, t) => { g with lanes := setAt (fun l => l.raiseLwct t) i g.lanes }) g

/-- The stores of one instruction to places of this part: earlier loads of the same lanes to those bytes come first
(R282), each word takes its WCT and each lane's LWCT rises (R199, R280). -/
def State.storeLanes (s : State) (x : Site) (who : Nat → Option Nat → Bool) (ws : List (Nat × Nat × List Byte)) :
    State :=
  let (top, s1) := ws.foldl
    (fun (top, s) (i, pa, bs) =>
      let (t, s) := s.performEarlier x.g.uid (who i) pa bs.length
      (max top t, s)) (0, s)
  let (arr, s2) := s1.arrivals
  let (mem, ts) := s2.mem.receiveLanes x.g.uid (s.writer x.g) (fun i => max top (arr i)) ws
  ({ s2 with mem := mem } : State).raiseLwcts x.g.uid ts

/-- STG (R196, R199, R201). -/
def execStg (m : Bool) (acc : BitVec 5) (d a b : BitVec 7) (s : State) : Result :=
  let n := accBytes acc.toNat
  let addr (g : Group) (l : Lane) : Nat := globalAddr g l a.toNat b.toNat
  let o := (globalOperands a.toNat b.toNat).add { vs := regsFrom d.toNat (accCount acc.toNat) }
  let data (x : Site) (i : Nat) : List Byte :=
    ((x.g.lane? i).map fun l => storeBytes acc.toNat (l.words d.toNat (accCount acc.toNat))).getD []
  let local? (x : Site) (ps : List (Nat × Nat × Place)) : List (Nat × Nat × List Byte) :=
    (ps.filter fun (_, _, p) => p.home).map fun (i, _, p) => (i, p.pa, data x i)
  Op.issue
    { m := m, kind := .plain,
      check := fun x _ l => operandFault x l o (globalTags l a.toNat b.toNat && storeTags l acc.toNat d.toNat),
      fault := s.laneFault addr n .store,
      hold := fun x good =>
        let ps := placesOf (s.meetings x good (addr x.g) n .store)
        s.undecided x.g || (x.g.speculative && (anyRemote ps || s.noLineRoom x.g (local? x ps) ||
          (local? x ps).any fun (i, pa, bs) => s.loadsAhead x.g.uid (fun lane => lane.all (· == i)) pa bs.length)),
      onHold := fun x good s' =>
        let ps := placesOf (s.meetings x good (addr x.g) n .store)
        s'.noteNoRoom x (!s.undecided x.g && !anyRemote ps && s.noLineRoom x.g (local? x ps)),
      effect := fun x good s' =>
        let ms := s.meetings x good (addr x.g) n .store
        let ps := placesOf ms
        let s1 := s'.settleMeetings x ms
        let s2 :=
          if x.g.speculative then s1.specStores x (fun i lane => lane.all (· == i)) (local? x ps)
          else
            (ps.foldl (fun s (_, _, p) => s.reachHome p true n) s1).storeLanes x (fun i lane => lane.all (· == i))
              (local? x ps)
        (ps.filter fun (_, _, p) => !p.home).foldl
          (fun s (i, va, p) => (s.request (remoteTo x p pkWrite va n (data x i) (BitVec.ofNat 32 (2 ^ i)))).2) s2 }
    s

/-- The lowest lane of a mask. -/
def lowestLane (mask : BitVec 32) : Nat := (laneList mask).headD 0

/-- STU (R196, R199, R285): once for the group; its WCT enters every active lane's LWCT. -/
def execStu (m : Bool) (acc : BitVec 5) (d a b : BitVec 7) (s : State) : Result :=
  let n := accBytes acc.toNat
  let va (x : Site) : Nat := uniformAddr x.g a.toNat b.toNat
  let meeting (x : Site) : Met := s.meet x.g.grid (s.coreOf x.g.team) (va x) n .store
  let rs := regsFrom d.toNat (accCount acc.toNat)
  let data (x : Site) : List Byte := storeBytes acc.toNat (rs.map x.g.u)
  let stores (x : Site) (good : BitVec 32) (p : Place) : List (Nat × Nat × List Byte) :=
    [(lowestLane good, p.pa, data x)]
  Op.issue
    { m := m, kind := .plain,
      check := fun x _ l => operandFault x l { us := [a.toNat, b.toNat, b.toNat + 1] ++ rs } true,
      fault := fun x _ _ => s.uniformFault x (va x) n .store,
      hold := fun x good =>
        s.undecided x.g || (x.g.speculative &&
          ((meeting x).place?.any fun p => !p.home || s.noLineRoom x.g (stores x good p) ||
            s.loadsAhead x.g.uid (fun lane => lane.all good.getLsbD) p.pa n)),
      onHold := fun x good s' =>
        s'.noteNoRoom x (!s.undecided x.g &&
          (meeting x).place?.any fun p => p.home && s.noLineRoom x.g (stores x good p)),
      effect := fun x good s' =>
        match meeting x with
        | .fault _ => s'
        | .service _ => s'.holdForService x good (va x)
        | .place p =>
          let s1 := s'.cacheXlat (s.coreOf x.g.team) (s.rootOf x.g.grid) (va x)
          if !p.home then (s1.request (remoteTo x p pkWrite (va x) n (data x) good)).2
          else if x.g.speculative then
            s1.specStores x (fun _ lane => lane.all good.getLsbD) (stores x good p)
          else
            let (top, s2) := (s1.reachHome p true n).performEarlier x.g.uid (fun lane => lane.all good.getLsbD) p.pa n
            let (arr, s3) := s2.arrival
            let (mem, t) := s3.mem.receive p.pa (data x) (s.writerOf x.g (lowestLane good) good) x.g.uid false (max top arr)
            ({ s3 with mem := mem } : State).modGroup x.g.uid fun g => g.onLanes good fun _ l => l.raiseLwct t }
    s

/-- STP (R196, R197, R199, R290). -/
def execStp (m : Bool) (acc : BitVec 5) (d a b : BitVec 7) (s : State) : Result :=
  let n := accBytes acc.toNat
  let addr (g : Group) (l : Lane) : Nat := scratchAddr g l a.toNat b.toNat
  let o := (scratchOperands a.toNat b.toNat).add { vs := regsFrom d.toNat (accCount acc.toNat) }
  Op.issue
    { m := m, kind := .plain,
      check := fun x _ l => operandFault x l o (scratchTags l a.toNat && storeTags l acc.toNat d.toNat),
      fault := fun x _ l => s.scratchFault x (addr x.g l) n true,
      effect := fun x good s' =>
        s'.forLanes x.g good fun i l s' =>
          match s.team? x.g.team with
          | none => s'
          | some t =>
            match s.scratchPlace x.img t (addr x.g l) n with
            | none => s'
            | some (u, off) =>
              let bs := storeBytes acc.toNat (l.words d.toNat (accCount acc.toNat))
              s'.reachBank x (some i) (BitVec.ofNat 32 (2 ^ i)) (u.uid == t.uid) (addr x.g l) []
                (.bankStore u.uid off s.clock.stamp bs) }
    s

end Sys2Proof.Machine
end

