-- ==== Sys2Proof/Machine/ActTable.lean ====
section
/-!
DEFINITION. Loading an activation table bank (R167).
-/

namespace Sys2Proof.Machine

/-- The bytes of an activation table bank. -/
def bankBytes : Nat := 16384

/-- The lines of a bank. -/
def bankLines : Nat := 128

/-- Changes a bank of a core. -/
def State.modBank (s : State) (core k : Nat) (f : ActBank → ActBank) : State :=
  s.modCore core fun c => { c with banks := setAt f k c.banks }

/-- The lines of a source that are not of this part: the line and its place. -/
def State.farLines (s : State) (core grid address : Nat) : List (Nat × Place) :=
  (List.range bankLines).filterMap fun n =>
    match s.xlatG core grid (address + 128 * n) with
    | .ok p => if p.home || (permSub p true false false).isSome then none else some (n, p)
    | _ => none

/-- Asks for the lines that are not of this part. -/
def State.askLines (s : State) (x : Site) (good : BitVec 32) (address : Nat) :
    List (Nat × Place) → State × List (Nat × Nat × Option (Nat × List Byte))
  | [] => (s, [])
  | (n, p) :: rest =>
    let (id, s1) := s.request (remoteTo x p pkRead (address + 128 * n) 128 [] good)
    let (s2, more) := s1.askLines x good address rest
    (s2, (id, n, none) :: more)

/-- ATLOAD (R167): executes once; it ends the segment and the group leaves issue until ATLOAD_COMPLETE. The lines are
read then; those of another chip or of the node are asked for now. -/
def execAtload (_m : Bool) (a k : BitVec 7) (s : State) : Result :=
  let addr (g : Group) : Nat := (g.uPair a.toNat).toNat % 2 ^ 48
  Op.issue
    { m := true, kind := .plain,
      check := fun x _ l =>
        if x.g.atbank = k.toNat then some Cause.illegalOperand
        else operandFault x l { us := [a.toNat, a.toNat + 1] } true,
      fault := fun x _ _ =>
        if addr x.g % 128 != 0 then some (Cause.address (addr x.g)) else none,
      hold := fun x _ => (s.boundTo (s.coreOf x.g.team) k.toNat).any (·.uid != x.g.uid) ||
        (s.bank (s.coreOf x.g.team) k.toNat).state == .loading ||
        (s.keepsBack x.g && !(s.farLines (s.coreOf x.g.team) x.g.grid (addr x.g)).isEmpty),
      effect := fun x good s' =>
        let (n, s1) := s'.newFresh
        let (s2, asked) := s1.askLines x good (addr x.g) (s.farLines (s.coreOf x.g.team) x.g.grid (addr x.g))
        let load : TableLoad :=
          { group := x.g.uid, lanes := good, pc := x.pc, address := addr x.g, due := s.clock.tick + Config.latency n,
            asked := asked, waiting := asked.map fun (id, _) => id }
        s2.modBank (s.coreOf x.g.team) k.toNat fun b => { b with state := .loading, load := some load } }
    s

/-- What reading a line of the source gives: its bytes, a fault, a wait, or a line that another chip or the node is still
to be asked for. -/
inductive LineRead where
  | bytes (bs : List Byte)
  | fault (c : Cause)
  | wait
  | ask (n : Nat) (p : Place)

/-- A local line of the source as a load of the ATLOAD's lanes reads it: after their own stores to it (R282) and the
write-back of the ingress atomic cache (R359), and with the group's speculative bytes (R201). -/
def State.lineBytes (s : State) (t : TableLoad) (pa : Nat) : LineRead :=
  let own := ((s.group? t.group).map fun g => s.ownAfter g t.lanes pa 128).getD 0
  if s.gtime < max own (s.mem.ingressUntil pa 128) then .wait
  else .bytes (((s.group? t.group).map fun g => g.overlay pa (s.peek pa 128)).getD (s.peek pa 128))

/-- Reads one line, as a load would (R167, R195). -/
def State.readLine (s : State) (grid core : Nat) (t : TableLoad) (n : Nat) : LineRead :=
  let va := t.address + 128 * n
  match s.meet grid core va 128 .load with
  | .fault c => .fault c
  | .service _ => .wait
  | .place p =>
    match t.asked.find? (fun (_, k, _) => k == n) with
    | some (_, _, some (0, bs)) => .bytes bs
    | some (_, _, some (code, _)) => .fault ⟨code, if code = 0x03 then 2 else 0, va, false⟩
    | some (_, _, none) => .wait
    | none => if p.home then s.lineBytes t p.pa else .ask n p

/-- Reads the lines from `n`: all their bytes, or the first fault, or the first line that must wait. -/
def State.readLines (s : State) (grid core : Nat) (t : TableLoad) : Nat → Nat → List Byte → LineRead
  | _, 0, acc => .bytes acc
  | n, k + 1, acc =>
    match s.readLine grid core t n with
    | .bytes bs => s.readLines grid core t (n + 1) k (acc ++ bs)
    | r => r

/-- The fault of a load in progress: the bank becomes INVALID and the lanes enter TRAP at the ATLOAD (R167), which in
handler mode ends their grid (R320). -/
def State.failTable (s : State) (core k : Nat) (t : TableLoad) (c : Cause) : State :=
  (s.modBank core k fun b => { b with state := .invalid, load := none }).raiseLate t.group t.lanes t.pc c

/-- The local lines of the source have been read: they are at their home slices, and owned by the ingress atomic cache no
more (R275, R359). -/
def State.tableRead (s : State) (grid core : Nat) (t : TableLoad) : State :=
  (List.range bankLines).foldl
    (fun s n =>
      match s.xlatG core grid (t.address + 128 * n) with
      | .ok p => if p.home then ((s.reachHome p false 128).performLoad core 0 p.pa 128).2 else s
      | _ => s) s

/-- Asks for a line that firmware has mapped to another chip or the node since the ATLOAD issued (R272); a speculative
group waits for its resolution (R377). -/
def State.askLine (s : State) (core k : Nat) (t : TableLoad) (n : Nat) (p : Place) : State :=
  match s.group? t.group, (s.group? t.group).bind fun g => s.grid? g.grid with
  | some g, some gr =>
    if s.keepsBack g then s
    else
      let x : Site := { g := g, img := g.image gr.image, pc := t.pc, mask := t.lanes }
      let (id, s1) := s.request (remoteTo x p pkRead (t.address + 128 * n) 128 [] t.lanes)
      s1.modBank core k fun b =>
        { b with load := some { t with asked := t.asked ++ [(id, n, none)], waiting := t.waiting ++ [id] } }
  | _, _ => s

/-- ATLOAD_COMPLETE (R167). A load whose group has gone with its grid meets a translation fault, and the bank becomes
INVALID (DESIGN CHOICE, log 92). -/
def execAtloadComplete (core bank : Nat) (s : State) : Result :=
  match (s.bank core bank).load with
  | none => .next s
  | some t =>
    if s.clock.tick < t.due || !t.waiting.isEmpty then .next s
    else
      let grid := ((s.group? t.group).map (·.grid)).getD 0
      match s.readLines grid core t 0 bankLines [] with
      | .wait => .next s
      | .ask n p => .next (s.askLine core bank t n p)
      | .fault c => .next (s.failTable core bank t c)
      | .bytes bs =>
        .next (((s.tableRead grid core t).cacheXlat core (s.rootOf grid) t.address).modBank core bank fun b =>
          { b with state := .valid, bytes := cputs [] 0 bs, load := none })

end Sys2Proof.Machine
end

