-- ==== Sys2Proof/Machine/Integer.lean ====
section
/-!
DEFINITION. Integer, logical, shift, bit-field and move instructions (R140 to R147) and address instructions (R148).
-/

namespace Sys2Proof.Machine

/-! ## Values -/

/-- `Trunc(y, 32)` of an exact integer. -/
def trunc32 (y : Int) : Word := BitVec.ofInt 32 y

def intAdd (a b : Word) : Word := trunc32 (a.toInt + b.toInt)
def intSub (a b : Word) : Word := trunc32 (a.toInt - b.toInt)
def intMul (a b : Word) : Word := trunc32 (a.toInt * b.toInt)
def intMulh (a b : Word) : Word := trunc32 (a.toInt * b.toInt / 2 ^ 32)
def intMulhu (a b : Word) : Word := BitVec.ofNat 32 (a.toNat * b.toNat / 2 ^ 32)
def intMad (a b d : Word) : Word := trunc32 (a.toInt * b.toInt + d.toInt)
def intLesser (a b : Word) : Word := if b.toInt < a.toInt then b else a
def intGreater (a b : Word) : Word := if a.toInt < b.toInt then b else a
def natLesser (a b : Word) : Word := if b.toNat < a.toNat then b else a
def natGreater (a b : Word) : Word := if a.toNat < b.toNat then b else a
def intAbs (a : Word) : Word := trunc32 (a.toInt.natAbs : Int)
def intNeg (a : Word) : Word := trunc32 (-a.toInt)

/-- Clamps to −2^31 … 2^31 − 1 (IADDS, ISUBS). -/
def clamp32 (y : Int) : Word := trunc32 (max (-(2 ^ 31)) (min y (2 ^ 31 - 1)))

def wordAndn (a b : Word) : Word := a &&& ~~~b

/-- Shifts (R141): 32 or more shifts everything out. -/
def wordShl (a n : Word) : Word := if 32 ≤ n.toNat then 0 else a <<< n.toNat
def wordShr (a n : Word) : Word := if 32 ≤ n.toNat then 0 else a >>> n.toNat
def wordSar (a n : Word) : Word := a.sshiftRight (min n.toNat 31)
def wordRotl (a n : Word) : Word := a.rotateLeft (n.toNat % 32)

/-- Number of 1 bits (POPC). -/
def wordPopc (a : Word) : Word := BitVec.ofNat 32 ((List.range 32).filter a.getLsbD).length

/-- Number of leading 0 bits (CLZ). -/
def wordClz (a : Word) : Word :=
  if a = 0 then 32 else BitVec.ofNat 32 (31 - Nat.log2 a.toNat)

/-- Bit i moved to bit 31 − i (BREV). -/
def wordBrev (a : Word) : Word := a.reverse

/-- The position and length of a bit-field control (R142). -/
def fieldPos (b : Word) : Nat := bitsOf b.toNat 0 5
def fieldLen (b : Word) : Nat := min (bitsOf b.toNat 8 6) (32 - fieldPos b)

/-- BFX. -/
def wordBfx (a b : Word) : Word := BitVec.ofNat 32 (bitsOf a.toNat (fieldPos b) (fieldLen b))

/-- BFXS. -/
def wordBfxs (a b : Word) : Word :=
  let f := bitsOf a.toNat (fieldPos b) (fieldLen b)
  if fieldLen b = 0 then 0
  else if 2 ^ (fieldLen b - 1) ≤ f then trunc32 ((f : Int) - 2 ^ fieldLen b) else BitVec.ofNat 32 f

/-- BFI, into `d`. -/
def wordBfi (a b d : Word) : Word :=
  let mask : Word := BitVec.ofNat 32 ((2 ^ fieldLen b - 1) * 2 ^ fieldPos b)
  (d &&& ~~~mask) ||| (BitVec.ofNat 32 (bitsOf a.toNat 0 (fieldLen b) * 2 ^ fieldPos b) &&& mask)

/-- The conditions of ICMP (R79, R147). -/
def intCond (c : Nat) (a b : Word) : Bool :=
  match c with
  | 0 => a == b
  | 1 => a != b
  | 2 => a.toInt < b.toInt
  | 3 => a.toInt ≤ b.toInt
  | 4 => b.toInt < a.toInt
  | 5 => b.toInt ≤ a.toInt
  | 6 => a.toNat < b.toNat
  | 7 => a.toNat ≤ b.toNat
  | 8 => b.toNat < a.toNat
  | _ => b.toNat ≤ a.toNat

/-! ## Shapes -/

/-- d ← f(a, b) in each lane. -/
def vecBinary (m : Bool) (d a b : BitVec 7) (ok : BitVec 5 → Bool) (tag : BitVec 5) (f : Word → Word → Word) : Op :=
  laneOp m { vs := [d.toNat, a.toNat, b.toNat] } (fun _ l => ok (l.get a.toNat).tag && ok (l.get b.toNat).tag)
    (fun _ _ l => l.put d.toNat (f (l.get a.toNat).bits (l.get b.toNat).bits) tag)

/-- d ← f(a, b, d) in each lane; the tags of a and b are checked, and that of d where `okD` says so. -/
def vecTernary (m : Bool) (d a b : BitVec 7) (ok okD : BitVec 5 → Bool) (tag : BitVec 5)
    (f : Word → Word → Word → Word) : Op :=
  laneOp m { vs := [d.toNat, a.toNat, b.toNat] }
    (fun _ l => ok (l.get a.toNat).tag && ok (l.get b.toNat).tag && okD (l.get d.toNat).tag)
    (fun _ _ l => l.put d.toNat (f (l.get a.toNat).bits (l.get b.toNat).bits (l.get d.toNat).bits) tag)

/-- d ← f(a) in each lane. -/
def vecUnary (m : Bool) (d a : BitVec 7) (ok : BitVec 5 → Bool) (tag : BitVec 5) (f : Word → Word) : Op :=
  laneOp m { vs := [d.toNat, a.toNat] } (fun _ l => ok (l.get a.toNat).tag)
    (fun _ _ l => l.put d.toNat (f (l.get a.toNat).bits) tag)

/-- UALU (R144): with VC = 0 all operands are uniform; with VC = 1 d and a are vector registers and b is uniform. -/
def ualuBinary (m vc : Bool) (d a b : BitVec 7) (ok : BitVec 5 → Bool) (tag : BitVec 5) (f : Word → Word → Word) : Op :=
  if vc then
    laneOp m { vs := [d.toNat, a.toNat], us := [b.toNat] } (fun _ l => ok (l.get a.toNat).tag)
      (fun x _ l => l.put d.toNat (f (l.get a.toNat).bits (x.g.u b.toNat)) tag)
  else
    groupOp m [d.toNat, a.toNat, b.toNat]
      (fun _ _ g => g.setU d.toNat (f (g.u a.toNat) (g.u b.toNat)))

/-- UALUI (R145): d ← f(a), uniform. -/
def uniUnary (m : Bool) (d a : BitVec 7) (f : Word → Word) : Op :=
  groupOp m [d.toNat, a.toNat] (fun _ _ g => g.setU d.toNat (f (g.u a.toNat)))

/-- The immediate of IALUI and UALUI (R145), sign-extended. -/
def imm9 (imm : BitVec 9) : Word := imm.signExtend 32

/-- A pair result d:d+1, tagged I64L and I64H (R148). -/
def Lane.putWide (l : Lane) (d : Nat) (x : DWord) : Lane := (l.put d x.lo tagI64L).put (d + 1) x.hi tagI64H

/-- E(b) (R148): zero-extended for UI32, sign-extended for I32 and RAW. -/
def extended (r : VReg) : DWord := if r.tag == tagUI32 then r.bits.setWidth 64 else r.bits.signExtend 64

/-- A pair operation d ← f(a, b) over pairs (R148). -/
def pairBinary (m : Bool) (d a b : BitVec 7) (f : DWord → DWord → DWord) : Op :=
  laneOp m { vs := [d.toNat, d.toNat + 1, a.toNat, a.toNat + 1, b.toNat, b.toNat + 1] }
    (fun _ l => isWide l a.toNat && isWide l b.toNat)
    (fun _ _ l => l.putWide d.toNat (f (l.pair a.toNat) (l.pair b.toNat)))

/-- A pair operation with a single register b, extended (R148). -/
def pairIndexed (m : Bool) (d a b : BitVec 7) (f : DWord → DWord → DWord) : Op :=
  laneOp m { vs := [d.toNat, d.toNat + 1, a.toNat, a.toNat + 1, b.toNat] }
    (fun _ l => isWide l a.toNat && isInt (l.get b.toNat).tag)
    (fun _ _ l => l.putWide d.toNat (f (l.pair a.toNat) (extended (l.get b.toNat))))

/-- A comparison of pairs into a predicate (R148). -/
def pairCompare (m : Bool) (d a b : BitVec 7) (f : DWord → DWord → Bool) : Op :=
  laneOp m { vs := [a.toNat, a.toNat + 1, b.toNat, b.toNat + 1] }
    (fun _ l => isWide l a.toNat && isWide l b.toNat)
    (fun _ _ l => l.setPred d.toNat (f (l.pair a.toNat) (l.pair b.toNat)))

/-! ## Integer arithmetic (R140) -/

/-- IADD (R140). -/
def execIadd (m : Bool) (d a b : BitVec 7) (s : State) : Result :=
  (vecBinary m d a b isInt tagI32 intAdd).issue s

/-- ISUB (R140). -/
def execIsub (m : Bool) (d a b : BitVec 7) (s : State) : Result :=
  (vecBinary m d a b isInt tagI32 intSub).issue s

/-- IMUL (R140). -/
def execImul (m : Bool) (d a b : BitVec 7) (s : State) : Result :=
  (vecBinary m d a b isInt tagI32 intMul).issue s

/-- IMULH (R140). -/
def execImulh (m : Bool) (d a b : BitVec 7) (s : State) : Result :=
  (vecBinary m d a b isInt tagI32 intMulh).issue s

/-- IMULHU (R140). -/
def execImulhu (m : Bool) (d a b : BitVec 7) (s : State) : Result :=
  (vecBinary m d a b isInt tagUI32 intMulhu).issue s

/-- IMAD (R140): d is read, with an integer tag. -/
def execImad (m : Bool) (d a b : BitVec 7) (s : State) : Result :=
  (vecTernary m d a b isInt isInt tagI32 intMad).issue s

/-- IMIN (R140). -/
def execImin (m : Bool) (d a b : BitVec 7) (s : State) : Result :=
  (vecBinary m d a b isInt tagI32 intLesser).issue s

/-- IMAX (R140). -/
def execImax (m : Bool) (d a b : BitVec 7) (s : State) : Result :=
  (vecBinary m d a b isInt tagI32 intGreater).issue s

/-- IMINU (R140). -/
def execIminu (m : Bool) (d a b : BitVec 7) (s : State) : Result :=
  (vecBinary m d a b isInt tagUI32 natLesser).issue s

/-- IMAXU (R140). -/
def execImaxu (m : Bool) (d a b : BitVec 7) (s : State) : Result :=
  (vecBinary m d a b isInt tagUI32 natGreater).issue s

/-- IABS (R140). -/
def execIabs (m : Bool) (d a : BitVec 7) (s : State) : Result :=
  (vecUnary m d a isInt tagI32 intAbs).issue s

/-- INEG (R140). -/
def execIneg (m : Bool) (d a : BitVec 7) (s : State) : Result :=
  (vecUnary m d a isInt tagI32 intNeg).issue s

/-- IADDS (R140): clamps, with no flag. -/
def execIadds (m : Bool) (d a b : BitVec 7) (s : State) : Result :=
  (vecBinary m d a b isInt tagI32 fun x y => clamp32 (x.toInt + y.toInt)).issue s

/-- ISUBS (R140). -/
def execIsubs (m : Bool) (d a b : BitVec 7) (s : State) : Result :=
  (vecBinary m d a b isInt tagI32 fun x y => clamp32 (x.toInt - y.toInt)).issue s

/-! ## Logical, shift, bit-count and bit-field operations (R141, R142) -/

/-- AND (R141). -/
def execAnd (m : Bool) (d a b : BitVec 7) (s : State) : Result :=
  (vecBinary m d a b isAny tagRAW (· &&& ·)).issue s

/-- OR (R141). -/
def execOr (m : Bool) (d a b : BitVec 7) (s : State) : Result :=
  (vecBinary m d a b isAny tagRAW (· ||| ·)).issue s

/-- XOR (R141). -/
def execXor (m : Bool) (d a b : BitVec 7) (s : State) : Result :=
  (vecBinary m d a b isAny tagRAW (· ^^^ ·)).issue s

/-- ANDN (R141). -/
def execAndn (m : Bool) (d a b : BitVec 7) (s : State) : Result :=
  (vecBinary m d a b isAny tagRAW wordAndn).issue s

/-- SHL (R141). -/
def execShl (m : Bool) (d a b : BitVec 7) (s : State) : Result :=
  (vecBinary m d a b isAny tagRAW wordShl).issue s

/-- SHR (R141). -/
def execShr (m : Bool) (d a b : BitVec 7) (s : State) : Result :=
  (vecBinary m d a b isAny tagRAW wordShr).issue s

/-- SAR (R141). -/
def execSar (m : Bool) (d a b : BitVec 7) (s : State) : Result :=
  (vecBinary m d a b isAny tagRAW wordSar).issue s

/-- ROTL (R141). -/
def execRotl (m : Bool) (d a b : BitVec 7) (s : State) : Result :=
  (vecBinary m d a b isAny tagRAW wordRotl).issue s

/-- POPC (R141). -/
def execPopc (m : Bool) (d a : BitVec 7) (s : State) : Result :=
  (vecUnary m d a isAny tagRAW wordPopc).issue s

/-- CLZ (R141). -/
def execClz (m : Bool) (d a : BitVec 7) (s : State) : Result :=
  (vecUnary m d a isAny tagRAW wordClz).issue s

/-- BREV (R141). -/
def execBrev (m : Bool) (d a : BitVec 7) (s : State) : Result :=
  (vecUnary m d a isAny tagRAW wordBrev).issue s

/-- BFX (R142). -/
def execBfx (m : Bool) (d a b : BitVec 7) (s : State) : Result :=
  (vecBinary m d a b isAny tagRAW wordBfx).issue s

/-- BFXS (R142). -/
def execBfxs (m : Bool) (d a b : BitVec 7) (s : State) : Result :=
  (vecBinary m d a b isAny tagRAW wordBfxs).issue s

/-- BFI (R142): all three operands are read. -/
def execBfi (m : Bool) (d a b : BitVec 7) (s : State) : Result :=
  (vecTernary m d a b isAny isAny tagRAW wordBfi).issue s

/-! ## Moves (R143, R146) -/

/-- MOV (R143): bits and tag. -/
def execMov (m : Bool) (d a : BitVec 7) (s : State) : Result :=
  (laneOp m { vs := [d.toNat, a.toNat] } (fun _ l => isAny (l.get a.toNat).tag)
    (fun _ _ l => l.put d.toNat (l.get a.toNat).bits (l.get a.toNat).tag)).issue s

/-- RETAG (R143). -/
def execRetag (m : Bool) (d a k : BitVec 7) (s : State) : Result :=
  (laneOp m { vs := [d.toNat, a.toNat] } (fun _ l => isAny (l.get a.toNat).tag)
    (fun _ _ l => l.put d.toNat (l.get a.toNat).bits (k.setWidth 5))).issue s

/-- Bits [31:15] from an immediate, the rest kept (R146). -/
def highPart (imm : BitVec 17) (w : Word) : Word := imm ++ w.setWidth 15

/-- MOVL to a vector register (R146). -/
def execMovl (m : Bool) (d : BitVec 7) (imm : BitVec 17) (s : State) : Result :=
  (laneOp m { vs := [d.toNat] } (fun _ _ => true)
    (fun _ _ l => l.put d.toNat (imm.signExtend 32) tagI32)).issue s

/-- MOVH to a vector register, which keeps its tag (R146). -/
def execMovh (m : Bool) (d : BitVec 7) (imm : BitVec 17) (s : State) : Result :=
  (laneOp m { vs := [d.toNat] } (fun _ _ => true)
    (fun _ _ l => l.put d.toNat (highPart imm (l.get d.toNat).bits) (l.get d.toNat).tag)).issue s

/-- MOVL to a uniform register (R146). -/
def execMovlUniform (m : Bool) (d : BitVec 7) (imm : BitVec 17) (s : State) : Result :=
  (groupOp m [d.toNat] fun _ _ g => g.setU d.toNat (imm.signExtend 32)).issue s

/-- MOVH to a uniform register (R146). -/
def execMovhUniform (m : Bool) (d : BitVec 7) (imm : BitVec 17) (s : State) : Result :=
  (groupOp m [d.toNat] fun _ _ g => g.setU d.toNat (highPart imm (g.u d.toNat))).issue s

/-! ## Uniform operations (R144) -/

/-- IADD of UALU (R144). -/
def execUaluIadd (m vc : Bool) (d a b : BitVec 7) (s : State) : Result :=
  (ualuBinary m vc d a b isInt tagI32 intAdd).issue s

/-- ISUB of UALU (R144). -/
def execUaluIsub (m vc : Bool) (d a b : BitVec 7) (s : State) : Result :=
  (ualuBinary m vc d a b isInt tagI32 intSub).issue s

/-- IMUL of UALU (R144). -/
def execUaluImul (m vc : Bool) (d a b : BitVec 7) (s : State) : Result :=
  (ualuBinary m vc d a b isInt tagI32 intMul).issue s

/-- IMIN of UALU (R144). -/
def execUaluImin (m vc : Bool) (d a b : BitVec 7) (s : State) : Result :=
  (ualuBinary m vc d a b isInt tagI32 intLesser).issue s

/-- IMAX of UALU (R144). -/
def execUaluImax (m vc : Bool) (d a b : BitVec 7) (s : State) : Result :=
  (ualuBinary m vc d a b isInt tagI32 intGreater).issue s

/-- IMINU of UALU (R144). -/
def execUaluIminu (m vc : Bool) (d a b : BitVec 7) (s : State) : Result :=
  (ualuBinary m vc d a b isInt tagUI32 natLesser).issue s

/-- IMAXU of UALU (R144). -/
def execUaluImaxu (m vc : Bool) (d a b : BitVec 7) (s : State) : Result :=
  (ualuBinary m vc d a b isInt tagUI32 natGreater).issue s

/-- AND of UALU (R144). -/
def execUaluAnd (m vc : Bool) (d a b : BitVec 7) (s : State) : Result :=
  (ualuBinary m vc d a b isAny tagRAW (· &&& ·)).issue s

/-- OR of UALU (R144). -/
def execUaluOr (m vc : Bool) (d a b : BitVec 7) (s : State) : Result :=
  (ualuBinary m vc d a b isAny tagRAW (· ||| ·)).issue s

/-- XOR of UALU (R144). -/
def execUaluXor (m vc : Bool) (d a b : BitVec 7) (s : State) : Result :=
  (ualuBinary m vc d a b isAny tagRAW (· ^^^ ·)).issue s

/-- ANDN of UALU (R144). -/
def execUaluAndn (m vc : Bool) (d a b : BitVec 7) (s : State) : Result :=
  (ualuBinary m vc d a b isAny tagRAW wordAndn).issue s

/-- SHL of UALU (R144). -/
def execUaluShl (m vc : Bool) (d a b : BitVec 7) (s : State) : Result :=
  (ualuBinary m vc d a b isAny tagRAW wordShl).issue s

/-- SHR of UALU (R144). -/
def execUaluShr (m vc : Bool) (d a b : BitVec 7) (s : State) : Result :=
  (ualuBinary m vc d a b isAny tagRAW wordShr).issue s

/-- SAR of UALU (R144). -/
def execUaluSar (m vc : Bool) (d a b : BitVec 7) (s : State) : Result :=
  (ualuBinary m vc d a b isAny tagRAW wordSar).issue s

/-- MOV of UALU (R77): a vector destination takes RAW. -/
def execUaluMov (m vc : Bool) (d b : BitVec 7) (s : State) : Result :=
  (if vc then
      laneOp m { vs := [d.toNat], us := [b.toNat] } (fun _ _ => true)
        (fun x _ l => l.put d.toNat (x.g.u b.toNat) tagRAW)
    else groupOp m [d.toNat, b.toNat] fun _ _ g => g.setU d.toNat (g.u b.toNat)).issue s

/-! ## Immediates (R145) -/

/-- IADDI (R145). -/
def execIaddi (m : Bool) (d a : BitVec 7) (imm : BitVec 9) (s : State) : Result :=
  (vecUnary m d a isInt tagI32 fun x => intAdd x (imm9 imm)).issue s

/-- ANDI (R145). -/
def execAndi (m : Bool) (d a : BitVec 7) (imm : BitVec 9) (s : State) : Result :=
  (vecUnary m d a isAny tagRAW fun x => x &&& imm9 imm).issue s

/-- ORI (R145). -/
def execOri (m : Bool) (d a : BitVec 7) (imm : BitVec 9) (s : State) : Result :=
  (vecUnary m d a isAny tagRAW fun x => x ||| imm9 imm).issue s

/-- XORI (R145). -/
def execXori (m : Bool) (d a : BitVec 7) (imm : BitVec 9) (s : State) : Result :=
  (vecUnary m d a isAny tagRAW fun x => x ^^^ imm9 imm).issue s

/-- SHLI (R145). -/
def execShli (m : Bool) (d a : BitVec 7) (imm : BitVec 9) (s : State) : Result :=
  (vecUnary m d a isAny tagRAW fun x => wordShl x (imm9 imm)).issue s

/-- SHRI (R145). -/
def execShri (m : Bool) (d a : BitVec 7) (imm : BitVec 9) (s : State) : Result :=
  (vecUnary m d a isAny tagRAW fun x => wordShr x (imm9 imm)).issue s

/-- SARI (R145). -/
def execSari (m : Bool) (d a : BitVec 7) (imm : BitVec 9) (s : State) : Result :=
  (vecUnary m d a isAny tagRAW fun x => wordSar x (imm9 imm)).issue s

/-- IMULI (R145). -/
def execImuli (m : Bool) (d a : BitVec 7) (imm : BitVec 9) (s : State) : Result :=
  (vecUnary m d a isInt tagI32 fun x => intMul x (imm9 imm)).issue s

/-- IADDI of UALUI (R145). -/
def execUaluiIaddi (m : Bool) (d a : BitVec 7) (imm : BitVec 9) (s : State) : Result :=
  (uniUnary m d a fun x => intAdd x (imm9 imm)).issue s

/-- ANDI of UALUI (R145). -/
def execUaluiAndi (m : Bool) (d a : BitVec 7) (imm : BitVec 9) (s : State) : Result :=
  (uniUnary m d a fun x => x &&& imm9 imm).issue s

/-- ORI of UALUI (R145). -/
def execUaluiOri (m : Bool) (d a : BitVec 7) (imm : BitVec 9) (s : State) : Result :=
  (uniUnary m d a fun x => x ||| imm9 imm).issue s

/-- XORI of UALUI (R145). -/
def execUaluiXori (m : Bool) (d a : BitVec 7) (imm : BitVec 9) (s : State) : Result :=
  (uniUnary m d a fun x => x ^^^ imm9 imm).issue s

/-- SHLI of UALUI (R145). -/
def execUaluiShli (m : Bool) (d a : BitVec 7) (imm : BitVec 9) (s : State) : Result :=
  (uniUnary m d a fun x => wordShl x (imm9 imm)).issue s

/-- SHRI of UALUI (R145). -/
def execUaluiShri (m : Bool) (d a : BitVec 7) (imm : BitVec 9) (s : State) : Result :=
  (uniUnary m d a fun x => wordShr x (imm9 imm)).issue s

/-- SARI of UALUI (R145). -/
def execUaluiSari (m : Bool) (d a : BitVec 7) (imm : BitVec 9) (s : State) : Result :=
  (uniUnary m d a fun x => wordSar x (imm9 imm)).issue s

/-- IMULI of UALUI (R145). -/
def execUaluiImuli (m : Bool) (d a : BitVec 7) (imm : BitVec 9) (s : State) : Result :=
  (uniUnary m d a fun x => intMul x (imm9 imm)).issue s

/-! ## Comparison (R147) -/

/-- ICMP (R147). -/
def execIcmp (m : Bool) (c : BitVec 5) (d a b : BitVec 7) (s : State) : Result :=
  (laneOp m { vs := [a.toNat, b.toNat] } (fun _ l => isInt (l.get a.toNat).tag && isInt (l.get b.toNat).tag)
    (fun _ _ l => l.setPred d.toNat (intCond c.toNat (l.get a.toNat).bits (l.get b.toNat).bits))).issue s

/-! ## Address instructions (R148) -/

/-- AADD (R148). -/
def execAadd (m : Bool) (d a b : BitVec 7) (s : State) : Result :=
  (pairBinary m d a b (· + ·)).issue s

/-- AADDX (R148). -/
def execAaddx (m : Bool) (d a b : BitVec 7) (s : State) : Result :=
  (pairIndexed m d a b (· + ·)).issue s

/-- ASUB (R148). -/
def execAsub (m : Bool) (d a b : BitVec 7) (s : State) : Result :=
  (pairBinary m d a b (· - ·)).issue s

/-- ALEA (R148): scale 2^x. -/
def execAlea (m : Bool) (x : BitVec 2) (d a b : BitVec 7) (s : State) : Result :=
  (pairIndexed m d a b fun p q => p + q * BitVec.ofNat 64 (2 ^ x.toNat)).issue s

/-- ACMPEQ (R148). -/
def execAcmpeq (m : Bool) (d a b : BitVec 7) (s : State) : Result :=
  (pairCompare m d a b (· == ·)).issue s

/-- ACMPLTU (R148). -/
def execAcmpltu (m : Bool) (d a b : BitVec 7) (s : State) : Result :=
  (pairCompare m d a b fun p q => p.toNat < q.toNat).issue s

/-- AFROMS (R148). -/
def execAfroms (m : Bool) (d a : BitVec 7) (s : State) : Result :=
  (laneOp m { vs := [d.toNat, d.toNat + 1], us := [a.toNat, a.toNat + 1] } (fun _ _ => true)
    (fun x _ l => l.putWide d.toNat (x.g.uPair a.toNat))).issue s

end Sys2Proof.Machine
end

