-- ==== Sys2Proof/Machine/Atomics.lean ====
section
/-!
DEFINITION. Atomics (R94, R135, R136, R202 to R204, R302).
-/

namespace Sys2Proof.Machine

/-! ## The operation (R94, R202) -/

/-- R94: the tags an operation accepts in d. -/
def atomTag (op : Nat) (t : BitVec 5) : Bool :=
  match op with
  | 0 => isInt t
  | 1 | 7 | 8 => t == tagF32
  | 2 => t == tagBF16
  | 3 | 4 | 14 => t == tagUI32 || t == tagRAW
  | 5 | 6 => t == tagI32 || t == tagRAW
  | _ => isAny t

/-- CAS takes d + 1 too. -/
def atomRegs (op d : Nat) : List Nat := if op = 13 then [d, d + 1] else [d]

/-- New(op, old, v, w) of R202. -/
def atomNew (op : Nat) (old v w : Word) : Word :=
  match op with
  | 0 => old + v
  | 1 => BitVec.ofNat 32 (fF32.add rne old.toNat v.toNat).1
  | 2 => (eachElem 16 fun i => fBF16.add rne (elem old i 16) (elem v i 16)).1
  | 3 => natLesser old v
  | 4 => natGreater old v
  | 5 => intLesser old v
  | 6 => intGreater old v
  | 7 => BitVec.ofNat 32 (fF32.minmax false old.toNat v.toNat).1
  | 8 => BitVec.ofNat 32 (fF32.minmax true old.toNat v.toNat).1
  | 9 => old &&& v
  | 10 => old ||| v
  | 11 => old ^^^ v
  | 12 => v
  | 13 => if old = v then w else old
  | _ => if v.toNat ≤ old.toNat then 0 else old + 1

/-- R135 over lanes in ascending order: what each receives, and P. -/
def reducedFrom (op : Nat) (old : Word) : Option Word → List (Nat × Word × Word) → List (Nat × Word) × Option Word
  | p, [] => ([], p)
  | none, (i, v, _) :: rest =>
    let (rs, q) := reducedFrom op old (some v) rest
    ((i, old) :: rs, q)
  | some p, (i, v, _) :: rest =>
    let (rs, q) := reducedFrom op old (some (atomNew op p v 0)) rest
    ((i, atomNew op old p 0) :: rs, q)

/-- R136 over lanes in ascending order: what each receives, and the value left. -/
def oneByOne (op : Nat) : Word → List (Nat × Word × Word) → List (Nat × Word) × Word
  | old, [] => ([], old)
  | old, (i, v, w) :: rest =>
    let (rs, last) := oneByOne op (atomNew op old v w) rest
    ((i, old) :: rs, last)

/-- The lanes of one address: what each receives and the word left (R135, R136). -/
def applyAtom (op : Nat) (r : Bool) (old : Word) (vs : List (Nat × Word × Word)) : List (Nat × Word) × Word :=
  if r then
    let (rs, p) := reducedFrom op old none vs
    (rs, (p.map fun p => atomNew op old p 0).getD old)
  else oneByOne op old vs

/-! ## ATOM -/

/-- Groups lane accesses by address, the addresses in the order of their lowest lanes. -/
def byAddress {α : Type} (xs : List (Nat × Nat × α)) : List (Nat × List (Nat × Nat × α)) :=
  (nubNat (xs.map fun (_, va, _) => va)).map fun va => (va, xs.filter fun (_, va', _) => va' == va)

/-- A lane's operands: v and w of R202. -/
def atomOperands (x : Site) (d i : Nat) : Word × Word :=
  ((x.g.lane? i).map fun l => ((l.get d).bits, (l.get (d + 1)).bits)).getD (0, 0)

/-- One update of a word by an atomic of a group, with its WCT, past GTIME `top` (R280, R282, R286). -/
def State.atomUpdate (s : State) (group top pa : Nat) (w : Word) (writer : Writer) : State × Nat :=
  let (arr, s1) := s.arrival
  let (mem, t) := s1.mem.receive pa (natLe 4 w.toNat) writer group true (max top arr)
  ({ s1 with mem := mem }, t)

/-- The atomics of the lanes at one address of this part, performed in the order of arrival (R203, R286): what each lane
receives. -/
def State.atomHome (s : State) (x : Site) (op : Nat) (r : Bool) (pa : Nat) (vs : List (Nat × Word × Word)) :
    State × List (Nat × Word) :=
  let (top, s) := vs.foldl
    (fun (top, s) (i, _) =>
      let (t, s) := s.performEarlier x.g.uid (fun lane => lane.all (· == i)) pa 4
      (max top t, s)) (0, s)
  if r then
    let (rs, new) := applyAtom op true (s.mem.latest pa) vs
    let last := (vs.map fun (i, _) => i).foldl max 0
    let (s1, t) := s.atomUpdate x.g.uid top pa new (s.writerOf x.g last (vs.foldl (fun m (i, _) => m ||| BitVec.ofNat 32 (2 ^ i)) 0))
    (s1.raiseLwcts x.g.uid (vs.map fun (i, _) => (i, t)), rs)
  else
    vs.foldl
      (fun (s, rs) (i, v, w) =>
        let old := s.mem.latest pa
        let (s1, t) := s.atomUpdate x.g.uid top pa (atomNew op old v w) (s.writer x.g i)
        (s1.raiseLwcts x.g.uid [(i, t)], rs ++ [(i, old)])) (s, [])

/-- Sends the request for the lanes at one address of a peer page (R302) and awaits each lane's old value. -/
def State.atomPeer (s : State) (x : Site) (op : Nat) (r : Bool) (d va : Nat) (p : Place) (lanes : List Nat) : State :=
  let mask := lanes.foldl (fun m i => m ||| BitVec.ofNat 32 (2 ^ i)) (0 : BitVec 32)
  let data := (lanes.map fun i =>
    let (v, w) := atomOperands x d i
    natLe 4 v.toNat ++ (if op = 13 then natLe 4 w.toNat else [])).flatten
  let (id, s1) := s.request { remoteTo x p pkAtomic va 4 data mask with op := op, r := r }
  lanes.foldl
    (fun s i =>
      match x.g.lane? i with
      | none => s
      | some l => s.await x.g.uid (some i) [l.window + d] (.oldValue id (l.window + d) (l.get d).tag)) s1

/-- ATOM (R202 to R204). -/
def execAtom (m r : Bool) (op : BitVec 4) (d a b : BitVec 7) (s : State) : Result :=
  let addr (g : Group) (l : Lane) : Nat := globalAddr g l a.toNat b.toNat
  let rs := atomRegs op.toNat d.toNat
  let o := (globalOperands a.toNat b.toNat).add { vs := rs }
  Op.issue
    { m := m, kind := .plain,
      check := fun x _ l =>
        operandFault x l o (globalTags l a.toNat b.toNat && rs.all fun k => atomTag op.toNat (l.get k).tag),
      fault := s.laneFault addr 4 .rmw,
      wait := fun x => s.keepsBack x.g,
      effect := fun x good s' =>
        let ms := s.meetings x good (addr x.g) 4 .rmw
        (byAddress (placesOf ms)).foldl
          (fun s (va, ps) =>
            match ps with
            | [] => s
            | (_, _, p) :: _ =>
              let lanes := ps.map fun (i, _, _) => i
              if p.home then
                let (s1, olds) := (s.reachHome p true 4).atomHome x op.toNat r p.pa (lanes.map fun i => (i, atomOperands x d.toNat i))
                olds.foldl
                  (fun s (i, old) =>
                    match x.g.lane? i with
                    | none => s
                    | some l =>
                      let reg := l.window + d.toNat
                      s.awaitAccess ⟨x.pc, BitVec.ofNat 32 (2 ^ i), va⟩ x.g.uid (some i) [reg]
                        (.atom p.pa { reg := reg, bits := old, tag := (l.get d.toNat).tag }))
                  s1
              else s.atomPeer x op.toNat r d.toNat va p lanes)
          (s'.settleMeetings x ms) }
    s

/-! ## ATOMP -/

/-- An atomic is performed at a scratchpad bank (R202, R203): what each lane receives. -/
def State.atomBank (s : State) (team off op : Nat) (r : Bool) (vs : List (Nat × Word × Word)) :
    State × List (Nat × Word) :=
  let old := ((s.team? team).map fun t => t.word off).getD 0
  let (rs, new) := applyAtom op r old vs
  (s.modTeam team fun t => t.setWord off new, rs)

/-- The lanes of an ATOMP at one place, as one access to its bank. -/
def State.atomScratch (s : State) (x : Site) (op : Nat) (r : Bool) (d : Nat) (own : Bool) (address team off : Nat)
    (lanes : List Nat) : State :=
  let id := s.clock.uid
  let mask := lanes.foldl (fun m i => m ||| BitVec.ofNat 32 (2 ^ i)) (0 : BitVec 32)
  let values := lanes.filterMap fun i => (x.g.lane? i).map fun l =>
    (i, l.window + d, (atomOperands x d i).1, (atomOperands x d i).2, (l.get d).tag)
  lanes.foldl
    (fun s i =>
      match x.g.lane? i with
      | none => s
      | some l => s.await x.g.uid (some i) [l.window + d] (.accepted id))
    (s.reachBank x none mask own address [] (.bankAtom team off op r values))

/-- ATOMP (R202, R203). Lanes that name one word by two addresses, its member's number or 15 for the own team (R197), form
one partition, as they do at the bank (R135; DESIGN CHOICE, log 96). -/
def execAtomp (m r : Bool) (op : BitVec 4) (d a b : BitVec 7) (s : State) : Result :=
  let addr (g : Group) (l : Lane) : Nat := scratchAddr g l a.toNat b.toNat
  let rs := atomRegs op.toNat d.toNat
  let o := (scratchOperands a.toNat b.toNat).add { vs := rs }
  Op.issue
    { m := m, kind := .plain,
      check := fun x _ l =>
        operandFault x l o (scratchTags l a.toNat && rs.all fun k => atomTag op.toNat (l.get k).tag),
      fault := fun x _ l => s.scratchFault x (addr x.g l) 4 true,
      wait := fun x => s.keepsBack x.g,
      effect := fun x good s' =>
        match s.team? x.g.team with
        | none => s'
        | some t =>
          let places := (laneList good).filterMap fun i =>
            match x.g.lane? i with
            | none => none
            | some l => (s.scratchPlace x.img t (addr x.g l) 4).map fun (u, off) =>
              (i, off + 2 ^ 21 * u.member, u.uid, addr x.g l)
          (byAddress places).foldl
            (fun s (key, ps) =>
              match ps with
              | [] => s
              | (_, _, u, address) :: _ =>
                s.atomScratch x op.toNat r d.toNat (u == t.uid) address u (key % 2 ^ 21) (ps.map fun (i, _, _, _) => i)) s' }
    s

/-! ## Acceptance at a bank (R197, R290) -/

/-- The team whose bank an access on its way goes to. -/
def Awaited.bank : Awaited → Option Nat
  | .bankLoad team _ _ _ => some team
  | .bankStore team _ _ _ => some team
  | .bankAtom team _ _ _ _ => some team
  | _ => none

/-- The lanes an access to another member's bank acts for. -/
def Pend.actsFor (p : Pend) (i : Nat) : Bool :=
  match p.what with
  | .bankAtom _ _ _ _ vs => vs.any fun (j, _) => j == i
  | _ => p.lane == some i

/-- A store or atomic that its bank has not accepted. -/
def Awaited.unaccepted : Awaited → Bool
  | .bankStore .. => true
  | .bankAtom .. => true
  | _ => false

/-- What a PFETCH is still to bring. -/
def Awaited.fills : Awaited → Bool
  | .fill .. => true
  | _ => false

/-- Gives an awaited result its register writes, which come after a free delay (DESIGN CHOICE, log 6). -/
def State.becomes (s : State) (id : Nat) (ws : List RegWrite) : State :=
  let (n, s1) := s.newFresh
  { s1 with pend := s1.pend.map fun q =>
      if q.id = id then { q with what := .value ws, due := s.clock.tick + Config.latency n } else q }

/-- The damaged byte that an access meets at its bank (R298, R299): one it reads, or one it would have to merge with. -/
def State.bankDamage (s : State) : Awaited → Option Nat
  | .bankLoad team off acc _ => (s.team? team).bind fun t => (scratchDamaged t off (accBytes acc)).map (· - off)
  | .bankStore team off _ bs => (s.team? team).bind fun t => (scratchMerged t off bs.length).map (· - off)
  | .bankAtom team off _ _ _ => (s.team? team).bind fun t => (scratchDamaged t off 4).map (· - off)
  | _ => none

/-- The bank performs an access: a load then knows its result, a store is done, an atomic's lanes know theirs. -/
def State.performBank (s : State) (p : Pend) : State :=
  match p.what with
  | .bankLoad team off acc d =>
    s.becomes p.id (loadWrites acc d (((s.team? team).map fun t => t.bytes off (accBytes acc)).getD []))
  | .bankStore team off _ bs =>
    { s.modTeam team fun t => t.write off bs with pend := s.pend.filter (·.id != p.id) }
  | .bankAtom team off op r vs =>
    let (s1, olds) := s.atomBank team off op r (vs.map fun (i, _, v, w, _) => (i, v, w))
    let s2 : State := { s1 with pend := s1.pend.filter (·.id != p.id) }
    vs.foldl
      (fun s (i, reg, _, _, tag) =>
        let old := ((olds.find? fun (j, _) => j == i).map fun (_, w) => w).getD 0
        match s.pend.find? fun q => q.group == p.group && q.lane == some i && q.what == .accepted p.id with
        | none => s
        | some q => s.becomes q.id [{ reg := reg, bits := old, tag := tag }]) s2
  | _ => s

/-- The bank accepts an access: it is performed, or takes the data-error fault, for an atomic without a result for its
lanes (R290, R299). -/
def State.accept (s : State) (p : Pend) : State :=
  match s.bankDamage p.what with
  | some k => (s.dropPends (·.what == .accepted p.id)).failPend p (Cause.dataError (p.va + k))
  | none => s.performBank p

/-- Two lanes' stores of one instruction write a common byte of one bank (R199). -/
def Awaited.overwrites : Awaited → Awaited → Bool
  | .bankStore t o i bs, .bankStore t' o' i' bs' => t == t' && i == i' && o < o' + bs'.length && o' < o + bs.length
  | _, _ => false

/-- R199, R290: the accesses of one lane to one bank are accepted in issue order, and of lanes' stores of one instruction
that meet the highest lane's last. -/
def Pend.precedes (q p : Pend) : Bool :=
  q.id < p.id && q.group == p.group && q.what.bank == p.what.bank && p.what.bank.isSome &&
    (q.what.overwrites p.what || (List.range 32).any fun i => p.actsFor i && q.actsFor i)

/-- No access that is accepted before this one is still on its way. -/
def State.acceptable (s : State) (p : Pend) : Bool := !s.pend.any (·.precedes p)

/-- The order in which accesses that reach a bank in one cycle are accepted: by the key of R285, ascending (R290). -/
def State.bankOrder (s : State) (p : Pend) : List Nat :=
  if p.what.bank.isNone then [1]
  else
    match s.group? p.group with
    | none => [0]
    | some g => 0 :: (s.writer g ((laneList p.lanes).foldl max 0)).key

/-- The accesses on their way to a bank for the lanes of a mask, and those that are accepted before them, in order. -/
def State.earlierThere (s : State) (group : Nat) (mask : BitVec 32) (team : Nat) : List Pend :=
  s.pend.foldr
    (fun p later =>
      if p.group == group && p.what.bank == some team && ((laneList mask).any p.actsFor || later.any p.precedes)
      then p :: later else later) []

/-- The accesses of the lanes of a mask that are on their way to a bank are accepted before the group's next access
there (R199, R290). -/
def State.acceptEarlier (s : State) (group : Nat) (mask : BitVec 32) (team : Nat) : State :=
  (s.earlierThere group mask team).foldl (fun s p => if s.pend.contains p then s.accept p else s) s

end Sys2Proof.Machine
end

