-- ==== Sys2Proof/Machine/Crypto.lean ====
section
/-!
DEFINITION. SHA-512 and ECDSA over P-521, which R392 to R394 name and do not define: they are those of FIPS 180-4,
FIPS 186-4 and SEC 1 (PRESUMED, log 20).
-/

namespace Sys2Proof.Machine

/-! ## SHA-512 -/

/-- The round constants. -/
def shaK0 : List DWord :=
  [0x428A2F98D728AE22, 0x7137449123EF65CD, 0xB5C0FBCFEC4D3B2F, 0xE9B5DBA58189DBBC,
   0x3956C25BF348B538, 0x59F111F1B605D019, 0x923F82A4AF194F9B, 0xAB1C5ED5DA6D8118,
   0xD807AA98A3030242, 0x12835B0145706FBE, 0x243185BE4EE4B28C, 0x550C7DC3D5FFB4E2,
   0x72BE5D74F27B896F, 0x80DEB1FE3B1696B1, 0x9BDC06A725C71235, 0xC19BF174CF692694,
   0xE49B69C19EF14AD2, 0xEFBE4786384F25E3, 0x0FC19DC68B8CD5B5, 0x240CA1CC77AC9C65,
   0x2DE92C6F592B0275, 0x4A7484AA6EA6E483, 0x5CB0A9DCBD41FBD4, 0x76F988DA831153B5,
   0x983E5152EE66DFAB, 0xA831C66D2DB43210, 0xB00327C898FB213F, 0xBF597FC7BEEF0EE4,
   0xC6E00BF33DA88FC2, 0xD5A79147930AA725, 0x06CA6351E003826F, 0x142929670A0E6E70,
   0x27B70A8546D22FFC, 0x2E1B21385C26C926, 0x4D2C6DFC5AC42AED, 0x53380D139D95B3DF,
   0x650A73548BAF63DE, 0x766A0ABB3C77B2A8, 0x81C2C92E47EDAEE6, 0x92722C851482353B]

def shaK1 : List DWord :=
  [0xA2BFE8A14CF10364, 0xA81A664BBC423001, 0xC24B8B70D0F89791, 0xC76C51A30654BE30,
   0xD192E819D6EF5218, 0xD69906245565A910, 0xF40E35855771202A, 0x106AA07032BBD1B8,
   0x19A4C116B8D2D0C8, 0x1E376C085141AB53, 0x2748774CDF8EEB99, 0x34B0BCB5E19B48A8,
   0x391C0CB3C5C95A63, 0x4ED8AA4AE3418ACB, 0x5B9CCA4F7763E373, 0x682E6FF3D6B2B8A3,
   0x748F82EE5DEFB2FC, 0x78A5636F43172F60, 0x84C87814A1F0AB72, 0x8CC702081A6439EC,
   0x90BEFFFA23631E28, 0xA4506CEBDE82BDE9, 0xBEF9A3F7B2C67915, 0xC67178F2E372532B,
   0xCA273ECEEA26619C, 0xD186B8C721C0C207, 0xEADA7DD6CDE0EB1E, 0xF57D4F7FEE6ED178,
   0x06F067AA72176FBA, 0x0A637DC5A2C898A6, 0x113F9804BEF90DAE, 0x1B710B35131C471B,
   0x28DB77F523047D84, 0x32CAAB7B40C72493, 0x3C9EBE0A15C9BEBC, 0x431D67C49C100D4C,
   0x4CC5D4BECB3E42B6, 0x597F299CFC657E2A, 0x5FCB6FAB3AD6FAEC, 0x6C44198C4A475817]

def shaK : List DWord := shaK0 ++ shaK1

/-- The eight words a digest is made from. -/
def shaInit : List DWord :=
  [0x6A09E667F3BCC908, 0xBB67AE8584CAA73B, 0x3C6EF372FE94F82B, 0xA54FF53A5F1D36F1,
   0x510E527FADE682D1, 0x9B05688C2B3E6C1F, 0x1F83D9ABFB41BD6B, 0x5BE0CD19137E2179]

/-- A number from bytes, and `n` bytes of a number, most significant byte first. -/
def beNat (bs : List Byte) : Nat := leNat bs.reverse
def natBe (n x : Nat) : List Byte := (natLe n x).reverse

/-- The message schedule: 80 words, of which `ws` are the latest, latest first. -/
def shaSchedule : Nat → List DWord → List DWord
  | 0, ws => ws.reverse
  | n + 1, ws =>
    let w (k : Nat) : DWord := ws.getD (k - 1) 0
    let s0 := (w 15).rotateRight 1 ^^^ (w 15).rotateRight 8 ^^^ (w 15) >>> 7
    let s1 := (w 2).rotateRight 19 ^^^ (w 2).rotateRight 61 ^^^ (w 2) >>> 6
    shaSchedule n ((w 16 + s0 + w 7 + s1) :: ws)

/-- One round on the working words a to h. -/
def shaRound (v : List DWord) (kw : DWord × DWord) : List DWord :=
  let x (i : Nat) : DWord := v.getD i 0
  let s1 := (x 4).rotateRight 14 ^^^ (x 4).rotateRight 18 ^^^ (x 4).rotateRight 41
  let ch := (x 4 &&& x 5) ^^^ (~~~(x 4) &&& x 6)
  let t1 := x 7 + s1 + ch + kw.1 + kw.2
  let s0 := (x 0).rotateRight 28 ^^^ (x 0).rotateRight 34 ^^^ (x 0).rotateRight 39
  let maj := (x 0 &&& x 1) ^^^ (x 0 &&& x 2) ^^^ (x 1 &&& x 2)
  [t1 + (s0 + maj), x 0, x 1, x 2, x 3 + t1, x 4, x 5, x 6]

/-- One block of 128 bytes. -/
def shaBlock (h : List DWord) (block : List Byte) : List DWord :=
  let ws := (List.range 16).map fun i => BitVec.ofNat 64 (beNat ((block.drop (8 * i)).take 8))
  let v := (shaK.zip (shaSchedule 64 ws.reverse)).foldl shaRound h
  (h.zip v).map fun (a, b) => a + b

/-- The message with its padding: a bit 1, zeros, and the length in bits. -/
def shaPad (bs : List Byte) : List Byte :=
  bs ++ [0x80] ++ List.replicate ((239 - bs.length % 128) % 128) 0 ++ natBe 16 (8 * bs.length)

/-- The blocks of a message. -/
def shaBlocks : Nat → List Byte → List DWord → List DWord
  | 0, _, h => h
  | n + 1, bs, h => shaBlocks n (bs.drop 128) (shaBlock h (bs.take 128))

/-- SHA-512: 64 bytes. -/
@[irreducible] def sha512 (bs : List Byte) : List Byte :=
  let m := shaPad bs
  ((shaBlocks (m.length / 128) m shaInit).map fun w => natBe 8 w.toNat).flatten

/-! ## P-521 -/

/-- The field's prime, the coefficient b (a is −3), the order of the base point, and the base point. -/
def ecP : Nat := 2 ^ 521 - 1
def ecB : Nat :=
  0x51953EB9618E1C9A1F929A21A0B68540EEA2DA725B99B315F3B8B489918EF109E156193951EC7E937B1652C0BD3BB1BF073573DF883D2C34F1EF451FD46B503F00
def ecN : Nat :=
  0x1FFFFFFFFFFFFFFFFFFFFFFFFFFFFFFFFFFFFFFFFFFFFFFFFFFFFFFFFFFFFFFFFFA51868783BF2F966B7FCC0148F709A5D03BB5C9B8899C47AEBB6FB71E91386409
def ecGx : Nat :=
  0xC6858E06B70404E9CD9E3ECB662395B4429C648139053FB521F828AF606B4D3DBAA14B5E77EFE75928FE1DC127A2FFA8DE3348B3C1856A429BF97E7E31C2E5BD66
def ecGy : Nat :=
  0x11839296A789A3BC0045C8A5FB42C7D1BD998F54449579B446817AFBD17273E662C97EE72995EF42640C550B9013FAD0761353C7086A272C24088BE94769FD16650

/-- A point of the curve; none is the point at infinity. -/
abbrev EcPoint := Option (Nat × Nat)

/-- `x` to the power `e` modulo `m`, bit by bit from the top; `n` bits of `e` are left. -/
def powMod (m x e : Nat) : Nat → Nat → Nat
  | 0, acc => acc
  | n + 1, acc =>
    let sq := acc * acc % m
    powMod m x e n (if e.testBit n then sq * x % m else sq)

/-- The inverse modulo a prime of at most 521 bits. -/
def invMod (m x : Nat) : Nat := powMod m (x % m) (m - 2) 521 1

/-- A difference modulo the field's prime. -/
def ecSub (x y : Nat) : Nat := (x + (ecP - y % ecP)) % ecP

/-- The third point of the line of a slope through two points, mirrored. -/
def ecThird (slope x1 y1 x2 : Nat) : EcPoint :=
  let x := ecSub (ecSub (slope * slope) x1) x2
  some (x, ecSub (slope * ecSub x1 x) y1)

/-- The sum of two points. -/
def ecAdd : EcPoint → EcPoint → EcPoint
  | none, q => q
  | p, none => p
  | some (x1, y1), some (x2, y2) =>
    if x1 ≠ x2 then ecThird (ecSub y2 y1 * invMod ecP (ecSub x2 x1) % ecP) x1 y1 x2
    else if (y1 + y2) % ecP = 0 then none
    else ecThird (ecSub (3 * x1 * x1) 3 * invMod ecP (2 * y1) % ecP) x1 y1 x2

/-- The multiple of a point by `k`, of which `n` bits are left. -/
def ecMulFrom (k : Nat) (q : EcPoint) : Nat → EcPoint → EcPoint
  | 0, acc => acc
  | n + 1, acc =>
    let twice := ecAdd acc acc
    ecMulFrom k q n (if k.testBit n then ecAdd twice q else twice)

def ecMul (k : Nat) (q : EcPoint) : EcPoint := ecMulFrom k q 521 none

/-- The point of an uncompressed key of 133 bytes, if it lies on the curve. -/
def ecKey (key : List Byte) : EcPoint :=
  let x := beNat ((key.drop 1).take 66)
  let y := beNat ((key.drop 67).take 66)
  if key.headD 0 = 4 ∧ x < ecP ∧ y < ecP ∧ y * y % ecP = (ecSub (x * x * x) (3 * x) + ecB) % ecP then some (x, y)
  else none

/-- ECDSA over P-521: whether a signature, r then s of 66 bytes each, verifies under a key for a digest (R392). -/
@[irreducible] def ecdsaVerify (key sig digest : List Byte) : Bool :=
  let r := beNat (sig.take 66)
  let s := beNat ((sig.drop 66).take 66)
  match ecKey key with
  | none => false
  | some q =>
    if r = 0 ∨ ecN ≤ r ∨ s = 0 ∨ ecN ≤ s then false
    else
      let w := invMod ecN s
      match ecAdd (ecMul (beNat digest * w % ecN) (some (ecGx, ecGy))) (ecMul (r * w % ecN) (some q)) with
      | none => false
      | some (x, _) => x % ecN == r

/-- A signature of a digest with the device identity key, 132 bytes (R394). The key and the number drawn for a signature
are free values (DESIGN CHOICE, log 90). -/
@[irreducible] def ecdsaSign (digest : List Byte) : List Byte :=
  let k := 1 + Config.signNumber digest % (ecN - 1)
  let r := ((ecMul k (some (ecGx, ecGy))).map fun (x, _) => x % ecN).getD 0
  natBe 66 r ++ natBe 66 (invMod ecN k * (beNat digest + r * Config.deviceKey) % ecN)

end Sys2Proof.Machine
end

