-- ==== Sys2Proof/WellFormed.lean ====
section
/-!
DEFINITION. Which instruction terms are legal: the field values R72 and R73 allow, row by row.

A term that fails is no instruction of the part: a word of it raises the illegal-operand fault (R73, R74).
-/

namespace Sys2Proof

/-- Codes VP and UP of R72: an even register. -/
def isPair (r : BitVec 7) : Bool := r.toNat % 2 == 0

/-- A uniform or vector quadruple: a multiple of 4 (R72, R248, R252, R256). -/
def isQuad (r : BitVec 7) : Bool := r.toNat % 4 == 0

/-- A block of sixteen uniform registers: a multiple of 16 (R214, R224, R227). -/
def isBlock16 (r : BitVec 7) : Bool := r.toNat % 16 == 0

/-- Code P of R72: p0 to p15. -/
def isP (r : BitVec 7) : Bool := r.toNat ≤ 15

/-- Code J of R72: j0 to j7. -/
def isJ (r : BitVec 7) : Bool := r.toNat ≤ 7

/-- Code T of R72: t0 to t31. -/
def isT (r : BitVec 7) : Bool := r.toNat ≤ 31

/-- The conversion targets of R82. -/
def isCvtTarget (t : BitVec 5) : Bool := (1 ≤ t.toNat && t.toNat ≤ 12) || t.toNat == 15

/-- How many registers an access of type `acc` names (R93): one, a pair or a quadruple. -/
def accRegs (acc : BitVec 5) : Nat := if acc.toNat ≤ 17 then 1 else if acc.toNat ≤ 24 then 2 else 4

/-- R93, R72: the access type is not reserved and d is aligned to the register count. -/
def accLegal (acc : BitVec 5) (d : BitVec 7) : Bool := acc.toNat != 31 && d.toNat % accRegs acc == 0

/-- R92: b of a per-lane global access is even, and with b = 126 so is a. -/
def gAddrLegal (a b : BitVec 7) : Bool := isPair b && (b.toNat != 126 || isPair a)

/-- R94: op 15 is reserved, R is not allowed with EXCH, CAS and INCW, and the d of CAS is a pair. -/
def atomLegal (r : Bool) (op : BitVec 4) (d : BitVec 7) : Bool :=
  op.toNat != 15 && (!r || op.toNat < 12) && (op.toNat != 13 || isPair d)

/-- The special registers of R47 by index: whether the register is per lane, its width, whether it is RW. -/
def specialReg (ix : Nat) : Option (Bool × Nat × Bool) :=
  match ix with
  | 0x00 => some (true, 32, false)
  | 0x01 | 0x02 | 0x03 | 0x04 | 0x05 | 0x06 => some (false, 32, false)
  | 0x08 => some (false, 64, false)
  | 0x0A => some (true, 64, false)
  | 0x10 | 0x11 | 0x12 | 0x13 | 0x14 => some (false, 32, false)
  | 0x18 => some (false, 32, true)
  | 0x19 => some (true, 32, true)
  | 0x1A | 0x1B => some (false, 32, true)
  | 0x1C => some (false, 32, false)
  | 0x1D => some (false, 32, true)
  | 0x1E => some (true, 32, false)
  | 0x1F | 0x20 => some (false, 32, false)
  | 0x28 => some (true, 32, false)
  | 0x2A | 0x2C => some (true, 64, false)
  | _ => none

/-- R47, R89, R230: the index is listed, a per-lane register goes to a vector, a 64-bit one to an even pair. -/
def sreadLegal (d cls b : BitVec 7) : Bool :=
  match specialReg b.toNat with
  | none => false
  | some (perLane, width, _) => cls.toNat ≤ 1 && !(perLane && cls.toNat == 1) && (width == 32 || isPair d)

/-- R47, R89, R231: the register is RW. -/
def swriteLegal (cls b : BitVec 7) : Bool :=
  match specialReg b.toNat with
  | some (_, _, true) => cls.toNat ≤ 1
  | _ => false

/-- R384: the header fields fit their widths and LEN counts the payload. -/
def CtlMsg.wellFormed (msg : CtlMsg) : Bool :=
  msg.mtype < 2 ^ 16 && msg.len == msg.payload.length && msg.len ≤ 4096 && msg.seq < 2 ^ 32 && msg.addr < 2 ^ 64 &&
    msg.tag < 2 ^ 32 && msg.status < 2 ^ 32 && msg.reserved < 2 ^ 64

/-- R360: a rank is below 256 and a kind is one of the four. -/
def CollMsg.wellFormed (msg : CollMsg) : Bool := msg.rank < 256 && msg.kind < 4

/-- Legality of every term, row by row (R72, R73; for steps without an encoding the range of each argument). -/
def Instr.wellFormed : Instr → Bool
  | .iadd _ _ _ _ => true
  | .isub _ _ _ _ => true
  | .imul _ _ _ _ => true
  | .imulh _ _ _ _ => true
  | .imulhu _ _ _ _ => true
  | .imad _ _ _ _ => true
  | .imin _ _ _ _ => true
  | .imax _ _ _ _ => true
  | .iminu _ _ _ _ => true
  | .imaxu _ _ _ _ => true
  | .iabs _ _ _ => true
  | .ineg _ _ _ => true
  | .and _ _ _ _ => true
  | .or _ _ _ _ => true
  | .xor _ _ _ _ => true
  | .andn _ _ _ _ => true
  | .shl _ _ _ _ => true
  | .shr _ _ _ _ => true
  | .sar _ _ _ _ => true
  | .rotl _ _ _ _ => true
  | .popc _ _ _ => true
  | .clz _ _ _ => true
  | .brev _ _ _ => true
  | .bfx _ _ _ _ => true
  | .bfxs _ _ _ _ => true
  | .bfi _ _ _ _ => true
  | .iadds _ _ _ _ => true
  | .isubs _ _ _ _ => true
  | .mov _ _ _ => true
  | .retag _ _ _ k => k.toNat ≤ 15
  | .ualuIadd _ _ _ _ _ => true
  | .ualuIsub _ _ _ _ _ => true
  | .ualuImul _ _ _ _ _ => true
  | .ualuImin _ _ _ _ _ => true
  | .ualuImax _ _ _ _ _ => true
  | .ualuIminu _ _ _ _ _ => true
  | .ualuImaxu _ _ _ _ _ => true
  | .ualuAnd _ _ _ _ _ => true
  | .ualuOr _ _ _ _ _ => true
  | .ualuXor _ _ _ _ _ => true
  | .ualuAndn _ _ _ _ _ => true
  | .ualuShl _ _ _ _ _ => true
  | .ualuShr _ _ _ _ _ => true
  | .ualuSar _ _ _ _ _ => true
  | .ualuMov _ _ _ _ => true
  | .iaddi _ _ _ _ => true
  | .andi _ _ _ _ => true
  | .ori _ _ _ _ => true
  | .xori _ _ _ _ => true
  | .shli _ _ _ imm => imm.toNat ≤ 31
  | .shri _ _ _ imm => imm.toNat ≤ 31
  | .sari _ _ _ imm => imm.toNat ≤ 31
  | .imuli _ _ _ _ => true
  | .ualuiIaddi _ _ _ _ => true
  | .ualuiAndi _ _ _ _ => true
  | .ualuiOri _ _ _ _ => true
  | .ualuiXori _ _ _ _ => true
  | .ualuiShli _ _ _ imm => imm.toNat ≤ 31
  | .ualuiShri _ _ _ imm => imm.toNat ≤ 31
  | .ualuiSari _ _ _ imm => imm.toNat ≤ 31
  | .ualuiImuli _ _ _ _ => true
  | .movl _ _ _ => true
  | .movh _ _ _ => true
  | .movlUniform _ _ _ => true
  | .movhUniform _ _ _ => true
  | .icmp _ c d _ _ => c.toNat ≤ 9 && isP d
  | .aadd _ d a b => isPair d && isPair a && isPair b
  | .aaddx _ d a _ => isPair d && isPair a
  | .asub _ d a b => isPair d && isPair a && isPair b
  | .alea _ _ d a _ => isPair d && isPair a
  | .acmpeq _ d a b => isP d && isPair a && isPair b
  | .acmpltu _ d a b => isP d && isPair a && isPair b
  | .afroms _ d a => isPair d && isPair a
  | .fadd _ _ _ _ => true
  | .fsub _ _ _ _ => true
  | .fmul _ _ _ _ => true
  | .ffma _ _ _ _ => true
  | .ffms _ _ _ _ => true
  | .fnma _ _ _ _ => true
  | .fmin _ _ _ _ => true
  | .fmax _ _ _ _ => true
  | .fminnum _ _ _ _ => true
  | .fmaxnum _ _ _ _ => true
  | .fabs _ _ _ => true
  | .fneg _ _ _ => true
  | .fcopysign _ _ _ _ => true
  | .frnd _ _ _ k => k.toNat ≤ 4
  | .fclass _ _ _ => true
  | .fdot2 _ _ _ _ => true
  | .fdot4 _ _ _ _ => true
  | .fdiv _ _ _ _ => true
  | .fscale _ _ _ _ => true
  | .fgetexp _ _ _ => true
  | .fgetman _ _ _ => true
  | .fcmp _ c d _ _ => c.toNat ≤ 7 && isP d
  | .cvt _ t _ _ _ dyn _ rnd => isCvtTarget t && (!dyn || rnd == 0)
  | .frcp _ _ _ => true
  | .frsq _ _ _ => true
  | .fsqrt _ _ _ => true
  | .flut _ _ _ => true
  | .atload _ a k => isPair a && k.toNat ≤ 1
  | .atbind _ k => k.toNat ≤ 1
  | .atstat _ _ => true
  | .shfli _ _ _ _ => true
  | .shflu _ _ _ k => k.toNat ≤ 31
  | .shfld _ _ _ k => k.toNat ≤ 31
  | .shflx _ _ _ k => k.toNat ≤ 31
  | .voteall _ d a => isP d && isP a
  | .voteany _ d a => isP d && isP a
  | .ballot _ _ a => isP a
  | .redadd _ _ _ => true
  | .redmin _ _ _ => true
  | .redmax _ _ _ => true
  | .redand _ _ _ => true
  | .redor _ _ _ => true
  | .redxor _ _ _ => true
  | .scanadd _ _ _ => true
  | .scanmax _ _ _ => true
  | .matchLanes _ _ _ => true
  | .bcast _ _ _ k => k.toNat ≤ 31
  | .splat _ _ _ => true
  | .pand _ d a b => isP d && isP a && isP b
  | .por _ d a b => isP d && isP a && isP b
  | .pxor _ d a b => isP d && isP a && isP b
  | .pnot _ d a => isP d && isP a
  | .pmov _ d a => isP d && isP a
  | .pandn _ d a b => isP d && isP a && isP b
  | .ptos _ _ a => isP a
  | .pfroms _ d _ => isP d
  | .sel _ _ _ _ _ _ => true
  | .bra _ _ _ _ => true
  | .call _ _ _ => true
  | .brx _ a => isPair a
  | .ret _ => true
  | .wbase _ _ => true
  | .wadj _ _ => true
  | .jenr _ d => isJ d
  | .jarv _ d => isJ d
  | .jstk _ d => isJ d
  | .jclr _ d => isJ d
  | .jqry _ d a => isPair d && isJ a
  | .yield _ => true
  | .safept _ => true
  | .exit _ => true
  | .nop _ => true
  | .resume _ => true
  | .acbase _ k => k.toNat ≤ 31
  | .sread _ d cls b => sreadLegal d cls b
  | .swrite _ cls _ b => swriteLegal cls b
  | .trap _ _ => true
  | .svcNull _ => true
  | .svcStack _ => true
  | .svcMap _ => true
  | .svcLog _ => true
  | .svcUnprovided _ k => 4 ≤ k.toNat
  | .bkpt _ _ => true
  | .tret _ => true
  | .tskip _ => true
  | .tkill _ => true
  | .ldg _ acc d a b => accLegal acc d && gAddrLegal a b
  | .stg _ acc d a b => accLegal acc d && gAddrLegal a b
  | .ldp _ acc d _ _ => accLegal acc d
  | .stp _ acc d _ _ => accLegal acc d
  | .ldu _ acc d _ b => accLegal acc d && isPair b
  | .stu _ acc d _ b => accLegal acc d && isPair b
  | .atom _ r op d a b => atomLegal r op d && gAddrLegal a b
  | .atomp _ r op d _ _ => atomLegal r op d
  | .fence _ k => k.toNat ≤ 4
  | .bar _ => true
  | .cbar _ => true
  | .bcinit _ _ _ => true
  | .bcexp _ _ _ => true
  | .bcwait _ _ => true
  | .tginit _ _ => true
  | .tgacq _ _ _ => true
  | .tgcmt _ _ _ _ => true
  | .tgwait _ _ _ => true
  | .tgrel _ _ => true
  | .evsig _ k => k.toNat ≤ 63
  | .evwait _ _ k => k.toNat ≤ 63
  | .twait _ a => isPair a
  | .cpy _ _ a => isBlock16 a
  | .gath _ _ a => isBlock16 a
  | .scat _ _ a => isBlock16 a
  | .coll _ _ a => isBlock16 a
  | .bankop _ _ a => isBlock16 a
  | .bankred _ _ a => isBlock16 a
  | .pfetch _ lvl a _ => lvl.toNat ≤ 1 && isPair a
  | .cflush _ _ a _ => isPair a
  | .cinv _ _ a _ => isPair a
  | .engst _ _ _ k => k.toNat ≤ 2
  | .task _ _ a => isBlock16 a
  | .tsucc _ d a _ => isPair d && isPair a
  | .tstat _ _ k => k.toNat ≤ 3
  | .ctdecl _ _ a => isBlock16 a
  | .ctdeclFree _ _ a => isBlock16 a
  | .ctpost _ _ _ _ => true
  | .ctget _ _ _ _ => true
  | .ctstat _ _ _ => true
  | .tdset _ d a => isT d && isQuad a
  | .bload _ _ b => isQuad b
  | .bloadFree _ _ b => isQuad b
  | .scpush _ d _ _ => isT d
  | .mma _ _ a _ => isT a
  | .bstatSlot _ _ _ => true
  | .bstatQueue _ _ _ => true
  | .bstatError _ _ => true
  | .bstatDrain _ _ => true
  | .aczero _ _ => true
  | .acld _ _ _ _ => true
  | .acst _ _ a => isQuad a
  | .acadd _ _ _ _ => true
  | .acmul _ _ _ _ => true
  | .acovf _ _ _ => true
  | .acmov _ _ _ => true
  | .illegalInstruction => true
  | .kmov _ _ => true
  | .kmovi _ _ => true
  | .kmoviSh _ _ => true
  | .kadd _ _ _ _ => true
  | .ksub _ _ _ => true
  | .kand _ _ _ => true
  | .kor _ _ _ => true
  | .kld _ _ _ => true
  | .kst _ _ _ => true
  | .kbeq _ _ _ => true
  | .kbne _ _ _ => true
  | .kblt _ _ _ => true
  | .kjmp _ => true
  | .ktime _ => true
  | .ksleep _ _ => true
  | .khalt _ => true
  | .knop => true
  | .creq _ _ _ => true
  | .cwait _ _ _ _ => true
  | .crel _ _ => true
  | .ctol _ _ => true
  | .cstat _ _ _ => true
  | .cpathRoute _ _ => true
  | .cpathRank _ _ => true
  | .cpathClear _ _ => true
  | .ewait _ _ => true
  | .esig _ => true
  | .ksleepExpiry ctx => ctx < 4
  | .cwaitTimeout ctx => ctx < 4
  | .launch msg => msg.wellFormed
  | .launchQueueHead queue => queue < 8
  | .carveoutWaitEnd queue => queue < 8
  | .read msg => msg.wellFormed
  | .write msg => msg.wellFormed
  | .tinval msg => msg.wellFormed
  | .terminate msg => msg.wellFormed
  | .debugAttach msg => msg.wellFormed
  | .debugDetach msg => msg.wellFormed
  | .debugHalt msg => msg.wellFormed
  | .debugResume msg => msg.wellFormed
  | .debugReadRegister msg => msg.wellFormed
  | .debugWriteRegister msg => msg.wellFormed
  | .mgmtThresholds msg => msg.wellFormed
  | .mgmtAgeingQuantum msg => msg.wellFormed
  | .mgmtParkDelay msg => msg.wellFormed
  | .mgmtSpdistCap msg => msg.wellFormed
  | .mgmtPowerLimit msg => msg.wellFormed
  | .mgmtReadCounters msg => msg.wellFormed
  | .mgmtRaiseSvn msg => msg.wellFormed
  | .mgmtReservedBase msg => msg.wellFormed
  | .attest msg => msg.wellFormed
  | .devrsp msg => msg.wellFormed
  | .devrspTimeout _ => true
  | .bootdata msg => msg.wellFormed
  | .powerGood => true
  | .boardReset => true
  | .firmwareReady reservedGiB _ => 8 ≤ reservedGiB && reservedGiB ≤ 64
  | .gridCompletion _ => true
  | .gridTerminationDone _ => true
  | .candidatePlacement _ => true
  | .taskDispatch _ => true
  | .spillRefill _ => true
  | .ringPageMapped _ _ => true
  | .serviceablePageMapped _ _ _ _ => true
  | .fairnessRotation _ => true
  | .rotationEnd _ => true
  | .safePointDistanceFault _ => true
  | .pendingResultLands _ => true
  | .fenceRelease _ _ => true
  | .twaitRelease _ => true
  | .handlerStart _ => true
  | .trackerEntryFree core _ => core < 128
  | .successorDecrement core _ => core < 128
  | .companionRetry _ => true
  | .groupPark _ => true
  | .groupWake _ => true
  | .timeSliceExpiry _ => true
  | .preemptionRequest _ => true
  | .teamSave _ => true
  | .saveComplete _ => true
  | .teamRestore _ => true
  | .sensorSample core _ _ => core < 128
  | .powerStop _ => true
  | .migrationRequest src dst => src < 128 && dst < 128
  | .migrationTransferDone src => src < 128
  | .leaseExpiry core _ => core < 128
  | .ingressWriteback _ => true
  | .engineRunDelivered core _ => core < 128
  | .engineCompletion core _ => core < 128
  | .circuitBarrierMatch core _ => core < 128
  | .atloadComplete core bank => core < 128 && bank < 2
  | .bloadTurn core => core < 128
  | .mmaStep core => core < 128
  | .acstTurn core => core < 128
  | .matrixQueueTurn core => core < 128
  | .circuitGrant port peerPort _ => port < 32 && peerPort < 32
  | .brokerRefusal port code => port < 32 && code < 256
  | .lightDetected port => port < 32
  | .lightTimeout port => port < 32
  | .lockAchieved port => port < 32
  | .lockTimeout port => port < 32
  | .trainingDone port rank => port < 32 && rank < 256
  | .trainingTimeout port => port < 32
  | .liveHandshakeDone port => port < 32
  | .portDoze port => port < 32
  | .portNap port => port < 32
  | .portWake port => port < 32
  | .drainEnd port => port < 32
  | .drainTimeout port => port < 32
  | .laneFailure channel _ => channel < 36
  | .retrainEnd channel => channel < 36
  | .retrainTimeout channel => channel < 36
  | .lightLoss port => port < 32
  | .ucieFailure port => port < 32
  | .elinkDown link => link < 4
  | .flitReceive channel flit => channel < 36 && flit.length == 64
  | .retryTimeout channel => channel < 36
  | .packetReceive channel _ => channel < 36
  | .collChunkReceive msg => msg.wellFormed
  | .cuttingWaitExpiry _ => true
  | .ctgetTurn core _ => core < 128
  | .ctpostTurn core _ => core < 128
  | .commitWritebackDone _ => true
  | .speculativeRoomSquash core => core < 128
  | .speculativeLineError core _ => core < 128
  | .fetchFault _ => true
  | .scriptIllegalWord ctx => ctx < 4
  | .peerRelease port => port < 32
  | .peerFault port => port < 32
  | .rankReport channel rank => channel < 36 && rank < 256
  | .electricalLinkTrained link rank => link < 4 && rank < 256
  | .powerStopEnd _ => true
  | .heldRecordRetry _ => true
  | .unknownMtype msg => msg.wellFormed

end Sys2Proof
end

