-- ==== Sys2Proof/Decode.lean ====
section
/-!
DEFINITION. Decoding of core words (R68 to R94), trellis words (R344) and control-port messages (R384, R385), and the
encoders of the two word formats.

Decoding is total: every word is an operation, an illegal instruction or an illegal operand (R74).
-/

namespace Sys2Proof

/-- The three fates of a word (R74). -/
inductive Decoded where
  | ok (i : Instr)
  | illegalInstruction
  | illegalOperand
  deriving DecidableEq, Repr

/-- The legal field values of R72 and R73. -/
def legalFields (i : Instr) : Bool := i.wellFormed

/-- R73: the unused fields are zero (`zero`) and every other field is legal. -/
def check (zero : Bool) (i : Instr) : Decoded := if zero && legalFields i then .ok i else .illegalOperand

/-- R73 for a form without unused fields. -/
def form (i : Instr) : Decoded := check true i

/-- The fields of formats RRR and MEM (R69). -/
structure Rrr where
  m : Bool
  fn : BitVec 5
  d : BitVec 7
  a : BitVec 7
  b : BitVec 7

/-- The fields of format RRI (R69). -/
structure Rri where
  m : Bool
  fn : BitVec 3
  d : BitVec 7
  a : BitVec 7
  imm : BitVec 9

/-- The fields of format RI (R69). -/
structure Ri where
  m : Bool
  fn : BitVec 2
  d : BitVec 7
  imm : BitVec 17

/-- Reads the fields of RRR (R69); P, BR, J and MEM share the positions of their upper fields. -/
def rrr (w : Word) : Rrr :=
  { m := w.getLsbD 31, fn := w.extractLsb' 21 5, d := w.extractLsb' 14 7, a := w.extractLsb' 7 7, b := w.extractLsb' 0 7 }

/-- Reads the fields of RRI (R69). -/
def rri (w : Word) : Rri :=
  { m := w.getLsbD 31, fn := w.extractLsb' 23 3, d := w.extractLsb' 16 7, a := w.extractLsb' 9 7,
    imm := w.extractLsb' 0 9 }

/-- Reads the fields of RI (R69). -/
def ri (w : Word) : Ri :=
  { m := w.getLsbD 31, fn := w.extractLsb' 24 2, d := w.extractLsb' 17 7, imm := w.extractLsb' 0 17 }

/-- R82: the conversion mode is split out of b. -/
def decodeCvt (f : Rrr) : Decoded :=
  if isCvtTarget f.fn then
    form (.cvt f.m f.fn f.d f.a (f.b.extractLsb' 4 3) (f.b.getLsbD 3) (f.b.getLsbD 2) (f.b.extractLsb' 0 2))
  else .illegalInstruction

/-- R76: the operations of major 0x00 by fn. -/
def decodeIalu (f : Rrr) : Decoded :=
  match f.fn.toNat with
  | 1 => form (.iadd f.m f.d f.a f.b)
  | 2 => form (.isub f.m f.d f.a f.b)
  | 3 => form (.imul f.m f.d f.a f.b)
  | 4 => form (.imulh f.m f.d f.a f.b)
  | 5 => form (.imulhu f.m f.d f.a f.b)
  | 6 => form (.imad f.m f.d f.a f.b)
  | 7 => form (.imin f.m f.d f.a f.b)
  | 8 => form (.imax f.m f.d f.a f.b)
  | 9 => form (.iminu f.m f.d f.a f.b)
  | 10 => form (.imaxu f.m f.d f.a f.b)
  | 11 => check (f.b == 0) (.iabs f.m f.d f.a)
  | 12 => check (f.b == 0) (.ineg f.m f.d f.a)
  | 13 => form (.and f.m f.d f.a f.b)
  | 14 => form (.or f.m f.d f.a f.b)
  | 15 => form (.xor f.m f.d f.a f.b)
  | 16 => form (.andn f.m f.d f.a f.b)
  | 17 => form (.shl f.m f.d f.a f.b)
  | 18 => form (.shr f.m f.d f.a f.b)
  | 19 => form (.sar f.m f.d f.a f.b)
  | 20 => form (.rotl f.m f.d f.a f.b)
  | 21 => check (f.b == 0) (.popc f.m f.d f.a)
  | 22 => check (f.b == 0) (.clz f.m f.d f.a)
  | 23 => check (f.b == 0) (.brev f.m f.d f.a)
  | 24 => form (.bfx f.m f.d f.a f.b)
  | 25 => form (.bfxs f.m f.d f.a f.b)
  | 26 => form (.bfi f.m f.d f.a f.b)
  | 27 => form (.iadds f.m f.d f.a f.b)
  | 28 => form (.isubs f.m f.d f.a f.b)
  | 29 => check (f.b == 0) (.mov f.m f.d f.a)
  | 30 => form (.retag f.m f.d f.a f.b)
  | _ => .illegalInstruction

/-- R78: the operations of major 0x01 by fn. -/
def decodeIalui (f : Rri) : Decoded :=
  match f.fn.toNat with
  | 0 => form (.iaddi f.m f.d f.a f.imm)
  | 1 => form (.andi f.m f.d f.a f.imm)
  | 2 => form (.ori f.m f.d f.a f.imm)
  | 3 => form (.xori f.m f.d f.a f.imm)
  | 4 => form (.shli f.m f.d f.a f.imm)
  | 5 => form (.shri f.m f.d f.a f.imm)
  | 6 => form (.sari f.m f.d f.a f.imm)
  | _ => form (.imuli f.m f.d f.a f.imm)

/-- R80: the operations of major 0x03 by fn. -/
def decodeAddr (f : Rrr) : Decoded :=
  match f.fn.toNat with
  | 1 => form (.aadd f.m f.d f.a f.b)
  | 2 => form (.aaddx f.m f.d f.a f.b)
  | 3 => form (.asub f.m f.d f.a f.b)
  | 4 | 5 | 6 | 7 => form (.alea f.m (f.fn.setWidth 2) f.d f.a f.b)
  | 8 => form (.acmpeq f.m f.d f.a f.b)
  | 9 => form (.acmpltu f.m f.d f.a f.b)
  | 10 => check (f.b == 0) (.afroms f.m f.d f.a)
  | _ => .illegalInstruction

/-- R81: the operations of major 0x04 by fn. -/
def decodeFalu (f : Rrr) : Decoded :=
  match f.fn.toNat with
  | 1 => form (.fadd f.m f.d f.a f.b)
  | 2 => form (.fsub f.m f.d f.a f.b)
  | 3 => form (.fmul f.m f.d f.a f.b)
  | 4 => form (.ffma f.m f.d f.a f.b)
  | 5 => form (.ffms f.m f.d f.a f.b)
  | 6 => form (.fnma f.m f.d f.a f.b)
  | 7 => form (.fmin f.m f.d f.a f.b)
  | 8 => form (.fmax f.m f.d f.a f.b)
  | 9 => form (.fminnum f.m f.d f.a f.b)
  | 10 => form (.fmaxnum f.m f.d f.a f.b)
  | 11 => check (f.b == 0) (.fabs f.m f.d f.a)
  | 12 => check (f.b == 0) (.fneg f.m f.d f.a)
  | 13 => form (.fcopysign f.m f.d f.a f.b)
  | 14 => form (.frnd f.m f.d f.a f.b)
  | 15 => check (f.b == 0) (.fclass f.m f.d f.a)
  | 16 => form (.fdot2 f.m f.d f.a f.b)
  | 17 => form (.fdot4 f.m f.d f.a f.b)
  | 18 => form (.fdiv f.m f.d f.a f.b)
  | 19 => form (.fscale f.m f.d f.a f.b)
  | 20 => check (f.b == 0) (.fgetexp f.m f.d f.a)
  | 21 => check (f.b == 0) (.fgetman f.m f.d f.a)
  | _ => .illegalInstruction

/-- R83: the operations of major 0x07 by fn. -/
def decodeSfu (f : Rrr) : Decoded :=
  match f.fn.toNat with
  | 1 => check (f.b == 0) (.frcp f.m f.d f.a)
  | 2 => check (f.b == 0) (.frsq f.m f.d f.a)
  | 3 => check (f.b == 0) (.fsqrt f.m f.d f.a)
  | 4 => check (f.b == 0) (.flut f.m f.d f.a)
  | 5 => check (f.d == 0) (.atload f.m f.a f.b)
  | 6 => check (f.d == 0 && f.a == 0) (.atbind f.m f.b)
  | 7 => check (f.a == 0 && f.b == 0) (.atstat f.m f.d)
  | _ => .illegalInstruction

/-- R84: the operations of major 0x08 by fn. -/
def decodeXlane (f : Rrr) : Decoded :=
  match f.fn.toNat with
  | 1 => form (.shfli f.m f.d f.a f.b)
  | 2 => form (.shflu f.m f.d f.a f.b)
  | 3 => form (.shfld f.m f.d f.a f.b)
  | 4 => form (.shflx f.m f.d f.a f.b)
  | 5 => check (f.b == 0) (.voteall f.m f.d f.a)
  | 6 => check (f.b == 0) (.voteany f.m f.d f.a)
  | 7 => check (f.b == 0) (.ballot f.m f.d f.a)
  | 8 => check (f.b == 0) (.redadd f.m f.d f.a)
  | 9 => check (f.b == 0) (.redmin f.m f.d f.a)
  | 10 => check (f.b == 0) (.redmax f.m f.d f.a)
  | 11 => check (f.b == 0) (.redand f.m f.d f.a)
  | 12 => check (f.b == 0) (.redor f.m f.d f.a)
  | 13 => check (f.b == 0) (.redxor f.m f.d f.a)
  | 14 => check (f.b == 0) (.scanadd f.m f.d f.a)
  | 15 => check (f.b == 0) (.scanmax f.m f.d f.a)
  | 16 => check (f.b == 0) (.matchLanes f.m f.d f.a)
  | 17 => form (.bcast f.m f.d f.a f.b)
  | 18 => check (f.b == 0) (.splat f.m f.d f.a)
  | _ => .illegalInstruction

/-- R77: the operations of major 0x09 by fn. -/
def decodeUalu (f : Rrr) : Decoded :=
  match f.fn.toNat % 16 with
  | 1 => form (.ualuIadd f.m (f.fn.getLsbD 4) f.d f.a f.b)
  | 2 => form (.ualuIsub f.m (f.fn.getLsbD 4) f.d f.a f.b)
  | 3 => form (.ualuImul f.m (f.fn.getLsbD 4) f.d f.a f.b)
  | 4 => form (.ualuImin f.m (f.fn.getLsbD 4) f.d f.a f.b)
  | 5 => form (.ualuImax f.m (f.fn.getLsbD 4) f.d f.a f.b)
  | 6 => form (.ualuIminu f.m (f.fn.getLsbD 4) f.d f.a f.b)
  | 7 => form (.ualuImaxu f.m (f.fn.getLsbD 4) f.d f.a f.b)
  | 8 => form (.ualuAnd f.m (f.fn.getLsbD 4) f.d f.a f.b)
  | 9 => form (.ualuOr f.m (f.fn.getLsbD 4) f.d f.a f.b)
  | 10 => form (.ualuXor f.m (f.fn.getLsbD 4) f.d f.a f.b)
  | 11 => form (.ualuAndn f.m (f.fn.getLsbD 4) f.d f.a f.b)
  | 12 => form (.ualuShl f.m (f.fn.getLsbD 4) f.d f.a f.b)
  | 13 => form (.ualuShr f.m (f.fn.getLsbD 4) f.d f.a f.b)
  | 14 => form (.ualuSar f.m (f.fn.getLsbD 4) f.d f.a f.b)
  | 15 => check (f.a == 0) (.ualuMov f.m (f.fn.getLsbD 4) f.d f.b)
  | _ => .illegalInstruction

/-- R78: the operations of major 0x0A by fn. -/
def decodeUalui (f : Rri) : Decoded :=
  match f.fn.toNat with
  | 0 => form (.ualuiIaddi f.m f.d f.a f.imm)
  | 1 => form (.ualuiAndi f.m f.d f.a f.imm)
  | 2 => form (.ualuiOri f.m f.d f.a f.imm)
  | 3 => form (.ualuiXori f.m f.d f.a f.imm)
  | 4 => form (.ualuiShli f.m f.d f.a f.imm)
  | 5 => form (.ualuiShri f.m f.d f.a f.imm)
  | 6 => form (.ualuiSari f.m f.d f.a f.imm)
  | _ => form (.ualuiImuli f.m f.d f.a f.imm)

/-- R85: the operations of major 0x0B by fn. -/
def decodeMovw (f : Ri) : Decoded :=
  match f.fn.toNat with
  | 0 => form (.movl f.m f.d f.imm)
  | 1 => form (.movh f.m f.d f.imm)
  | 2 => form (.movlUniform f.m f.d f.imm)
  | _ => form (.movhUniform f.m f.d f.imm)

/-- R86: the operations of major 0x0C by fn. -/
def decodePred (f : Rrr) : Decoded :=
  match f.fn.toNat with
  | 1 => form (.pand f.m f.d f.a f.b)
  | 2 => form (.por f.m f.d f.a f.b)
  | 3 => form (.pxor f.m f.d f.a f.b)
  | 4 => check (f.b == 0) (.pnot f.m f.d f.a)
  | 5 => check (f.b == 0) (.pmov f.m f.d f.a)
  | 6 => form (.pandn f.m f.d f.a f.b)
  | 7 => check (f.b == 0) (.ptos f.m f.d f.a)
  | 8 => check (f.b == 0) (.pfroms f.m f.d f.a)
  | _ => .illegalInstruction

/-- R88: the operations of major 0x10 by fn. -/
def decodeCtrl (f : Rrr) : Decoded :=
  match f.fn.toNat with
  | 1 => check (f.d == 0 && f.b == 0) (.brx f.m f.a)
  | 2 => check (f.d == 0 && f.a == 0 && f.b == 0) (.ret f.m)
  | 3 => check (f.d == 0 && f.b == 0) (.wbase f.m f.a)
  | 4 => check (f.d == 0 && f.a == 0) (.wadj f.m f.b)
  | 5 => check (f.a == 0 && f.b == 0) (.jenr f.m f.d)
  | 6 => check (f.a == 0 && f.b == 0) (.jarv f.m f.d)
  | 7 => check (f.a == 0 && f.b == 0) (.jstk f.m f.d)
  | 8 => check (f.a == 0 && f.b == 0) (.jclr f.m f.d)
  | 9 => check (f.b == 0) (.jqry f.m f.d f.a)
  | 10 => check (f.d == 0 && f.a == 0 && f.b == 0) (.yield f.m)
  | 11 => check (f.d == 0 && f.a == 0 && f.b == 0) (.safept f.m)
  | 12 => check (f.d == 0 && f.a == 0 && f.b == 0) (.exit f.m)
  | 13 => check (f.d == 0 && f.a == 0 && f.b == 0) (.nop f.m)
  | 14 => check (f.d == 0 && f.a == 0 && f.b == 0) (.resume f.m)
  | 15 => check (f.d == 0 && f.a == 0) (.acbase f.m f.b)
  | _ => .illegalInstruction

/-- R233: the services are rows of their own, told apart by k. -/
def decodeSvc (f : Rrr) : Decoded :=
  match f.b.toNat with
  | 0 => check (f.d == 0 && f.a == 0) (.svcNull f.m)
  | 1 => check (f.d == 0 && f.a == 0) (.svcStack f.m)
  | 2 => check (f.d == 0 && f.a == 0) (.svcMap f.m)
  | 3 => check (f.d == 0 && f.a == 0) (.svcLog f.m)
  | _ => check (f.d == 0 && f.a == 0) (.svcUnprovided f.m f.b)

/-- R89: the operations of major 0x11 by fn. -/
def decodeSys (f : Rrr) : Decoded :=
  match f.fn.toNat with
  | 1 => form (.sread f.m f.d f.a f.b)
  | 2 => form (.swrite f.m f.d f.a f.b)
  | 3 => check (f.d == 0 && f.a == 0) (.trap f.m f.b)
  | 4 => decodeSvc f
  | 5 => check (f.d == 0 && f.a == 0) (.bkpt f.m f.b)
  | 6 => check (f.d == 0 && f.a == 0 && f.b == 0) (.tret f.m)
  | 7 => check (f.d == 0 && f.a == 0 && f.b == 0) (.tskip f.m)
  | 8 => check (f.d == 0 && f.a == 0 && f.b == 0) (.tkill f.m)
  | _ => .illegalInstruction

/-- R90, R91: the operations of major 0x1A by fn. -/
def decodeSync (f : Rrr) : Decoded :=
  match f.fn.toNat with
  | 1 => check (f.d == 0 && f.a == 0) (.fence f.m f.b)
  | 2 => check (f.d == 0 && f.a == 0 && f.b == 0) (.bar f.m)
  | 3 => check (f.d == 0 && f.a == 0 && f.b == 0) (.cbar f.m)
  | 4 => check (f.d == 0) (.bcinit f.m f.a f.b)
  | 5 => check (f.d == 0) (.bcexp f.m f.a f.b)
  | 6 => check (f.d == 0 && f.b == 0) (.bcwait f.m f.a)
  | 7 => check (f.d == 0 && f.b == 0) (.tginit f.m f.a)
  | 8 => check (f.b == 0) (.tgacq f.m f.d f.a)
  | 9 => form (.tgcmt f.m f.d f.a f.b)
  | 10 => check (f.b == 0) (.tgwait f.m f.d f.a)
  | 11 => check (f.d == 0 && f.b == 0) (.tgrel f.m f.a)
  | 12 => check (f.d == 0 && f.a == 0) (.evsig f.m f.b)
  | 13 => check (f.d == 0) (.evwait f.m f.a f.b)
  | 14 => check (f.d == 0 && f.b == 0) (.twait f.m f.a)
  | _ => .illegalInstruction

/-- R90: the operations of major 0x1B by fn. -/
def decodeEng (f : Rrr) : Decoded :=
  match f.fn.toNat with
  | 1 => check (f.b == 0) (.cpy f.m f.d f.a)
  | 2 => check (f.b == 0) (.gath f.m f.d f.a)
  | 3 => check (f.b == 0) (.scat f.m f.d f.a)
  | 4 => check (f.b == 0) (.coll f.m f.d f.a)
  | 5 => check (f.b == 0) (.bankop f.m f.d f.a)
  | 6 => check (f.b == 0) (.bankred f.m f.d f.a)
  | 7 => form (.pfetch f.m f.d f.a f.b)
  | 8 => form (.cflush f.m f.d f.a f.b)
  | 9 => form (.cinv f.m f.d f.a f.b)
  | 10 => form (.engst f.m f.d f.a f.b)
  | _ => .illegalInstruction

/-- R90: the operations of major 0x1C by fn. -/
def decodeTask (f : Rrr) : Decoded :=
  match f.fn.toNat with
  | 1 => check (f.b == 0) (.task f.m f.d f.a)
  | 2 => form (.tsucc f.m f.d f.a f.b)
  | 3 => check (f.a == 0) (.tstat f.m f.d f.b)
  | 4 => check (f.b == 0) (.ctdecl f.m f.d f.a)
  | 5 => form (.ctpost f.m f.d f.a f.b)
  | 6 => form (.ctget f.m f.d f.a f.b)
  | 7 => check (f.b == 0) (.ctstat f.m f.d f.a)
  | _ => .illegalInstruction

/-- R253: the status reads are rows of their own, told apart by b. -/
def decodeBstat (f : Rrr) : Decoded :=
  match f.b.toNat with
  | 0 => form (.bstatSlot f.m f.d f.a)
  | 1 => form (.bstatQueue f.m f.d f.a)
  | 2 => check (f.a == 0) (.bstatError f.m f.d)
  | 3 => check (f.a == 0) (.bstatDrain f.m f.d)
  | _ => .illegalOperand

/-- R90: the operations of major 0x1D by fn. -/
def decodeMma (f : Rrr) : Decoded :=
  match f.fn.toNat with
  | 1 => check (f.b == 0) (.tdset f.m f.d f.a)
  | 2 => check (f.d == 0) (.bload f.m f.a f.b)
  | 3 => form (.scpush f.m f.d f.a f.b)
  | 4 => form (.mma f.m f.d f.a f.b)
  | 5 => decodeBstat f
  | _ => .illegalInstruction

/-- R90: the operations of major 0x1E by fn. -/
def decodeAcc (f : Rrr) : Decoded :=
  match f.fn.toNat with
  | 1 => check (f.a == 0 && f.b == 0) (.aczero f.m f.d)
  | 2 => form (.acld f.m f.d f.a f.b)
  | 3 => check (f.b == 0) (.acst f.m f.d f.a)
  | 4 => form (.acadd f.m f.d f.a f.b)
  | 5 => form (.acmul f.m f.d f.a f.b)
  | 6 => check (f.b == 0) (.acovf f.m f.d f.a)
  | 7 => check (f.b == 0) (.acmov f.m f.d f.a)
  | _ => .illegalInstruction

/-- R73: the fate of a word; S has no effect on it (R68). -/
def decode (w : Word) : Decoded :=
  match (w.extractLsb' 26 5).toNat with
  | 0x00 => decodeIalu (rrr w)
  | 0x01 => decodeIalui (rri w)
  | 0x02 => let f := rrr w; if 9 < f.fn.toNat then .illegalInstruction else form (.icmp f.m f.fn f.d f.a f.b)
  | 0x03 => decodeAddr (rrr w)
  | 0x04 => decodeFalu (rrr w)
  | 0x05 => let f := rrr w; if 7 < f.fn.toNat then .illegalInstruction else form (.fcmp f.m f.fn f.d f.a f.b)
  | 0x06 => decodeCvt (rrr w)
  | 0x07 => decodeSfu (rrr w)
  | 0x08 => decodeXlane (rrr w)
  | 0x09 => decodeUalu (rrr w)
  | 0x0A => decodeUalui (rri w)
  | 0x0B => decodeMovw (ri w)
  | 0x0C => decodePred (rrr w)
  | 0x0D => let f := rrr w; form (.sel f.m (f.fn.getLsbD 4) (f.fn.setWidth 4) f.d f.a f.b)
  | 0x0E => let f := rrr w; form (.bra f.m (f.fn.getLsbD 4) (f.fn.setWidth 4) (w.setWidth 21))
  | 0x0F => let f := rrr w; form (.call f.m f.fn (w.setWidth 21))
  | 0x10 => decodeCtrl (rrr w)
  | 0x11 => decodeSys (rrr w)
  | 0x12 => let f := rrr w; form (.ldg f.m f.fn f.d f.a f.b)
  | 0x13 => let f := rrr w; form (.stg f.m f.fn f.d f.a f.b)
  | 0x14 => let f := rrr w; form (.ldp f.m f.fn f.d f.a f.b)
  | 0x15 => let f := rrr w; form (.stp f.m f.fn f.d f.a f.b)
  | 0x16 => let f := rrr w; form (.ldu f.m f.fn f.d f.a f.b)
  | 0x17 => let f := rrr w; form (.stu f.m f.fn f.d f.a f.b)
  | 0x18 => let f := rrr w; form (.atom f.m (f.fn.getLsbD 4) (f.fn.setWidth 4) f.d f.a f.b)
  | 0x19 => let f := rrr w; form (.atomp f.m (f.fn.getLsbD 4) (f.fn.setWidth 4) f.d f.a f.b)
  | 0x1A => decodeSync (rrr w)
  | 0x1B => decodeEng (rrr w)
  | 0x1C => decodeTask (rrr w)
  | 0x1D => decodeMma (rrr w)
  | 0x1E => decodeAcc (rrr w)
  | _ => .illegalInstruction

/-! The trellis format (R344). -/

/-- The fields of the trellis format (R344). -/
structure TrellisFields where
  op : BitVec 6
  d : BitVec 4
  a : BitVec 4
  b : BitVec 4
  imm : BitVec 14

/-- Reads the fields of R344. -/
def trellisFields (w : Word) : TrellisFields :=
  { op := w.extractLsb' 26 6, d := w.extractLsb' 22 4, a := w.extractLsb' 18 4, b := w.extractLsb' 14 4,
    imm := w.extractLsb' 0 14 }

/-- R344: the fate of a word a script context fetches. -/
def decodeScript (w : Word) : Decoded :=
  let f := trellisFields w
  match f.op.toNat with
  | 0x01 => check (f.b == 0 && f.imm == 0) (.kmov f.d f.a)
  | 0x02 => if f.b == 0 then check (f.a == 0) (.kmovi f.d f.imm) else if f.b == 1 then check (f.a == 0) (.kmoviSh f.d f.imm) else .illegalOperand
  | 0x03 => form (.kadd f.d f.a f.b f.imm)
  | 0x04 => check (f.imm == 0) (.ksub f.d f.a f.b)
  | 0x05 => check (f.imm == 0) (.kand f.d f.a f.b)
  | 0x06 => check (f.imm == 0) (.kor f.d f.a f.b)
  | 0x07 => check (f.b == 0) (.kld f.d f.a f.imm)
  | 0x08 => check (f.b == 0) (.kst f.d f.a f.imm)
  | 0x09 => check (f.d == 0) (.kbeq f.a f.b f.imm)
  | 0x0A => check (f.d == 0) (.kbne f.a f.b f.imm)
  | 0x0B => check (f.d == 0) (.kblt f.a f.b f.imm)
  | 0x0C => check (f.d == 0 && f.a == 0 && f.b == 0) (.kjmp f.imm)
  | 0x0D => check (f.a == 0 && f.b == 0 && f.imm == 0) (.ktime f.d)
  | 0x0E => check (f.d == 0 && f.b == 0) (.ksleep f.a f.imm)
  | 0x0F => check (f.d == 0 && f.a == 0 && f.b == 0) (.khalt f.imm)
  | 0x10 => check (f.d == 0 && f.a == 0 && f.b == 0 && f.imm == 0) (.knop)
  | 0x20 => check (f.imm == 0) (.creq f.d f.a f.b)
  | 0x21 => form (.cwait f.d f.a f.b f.imm)
  | 0x22 => check (f.b == 0 && f.imm == 0) (.crel f.d f.a)
  | 0x23 => check (f.d == 0 && f.imm == 0) (.ctol f.a f.b)
  | 0x24 => check (f.b == 0) (.cstat f.d f.a f.imm)
  | 0x25 => check (f.b == 0 && f.imm == 0) (.cpathRoute f.d f.a)
  | 0x30 => check (f.d == 0 && f.b == 0) (.ewait f.a f.imm)
  | 0x31 => check (f.d == 0 && f.a == 0 && f.b == 0) (.esig f.imm)
  | _ => .illegalInstruction

/-! Encoding, from the same tables. -/

/-- A word of RRR or MEM (R69). -/
def wordRrr (m : Bool) (major fn : BitVec 5) (d a b : BitVec 7) : Word :=
  (BitVec.ofBool m ++ major ++ fn ++ d ++ a ++ b : BitVec (1 + 5 + 5 + 7 + 7 + 7))

/-- A word of RRI (R69). -/
def wordRri (m : Bool) (major : BitVec 5) (fn : BitVec 3) (d a : BitVec 7) (imm : BitVec 9) : Word :=
  (BitVec.ofBool m ++ major ++ fn ++ d ++ a ++ imm : BitVec (1 + 5 + 3 + 7 + 7 + 9))

/-- A word of RI (R69). -/
def wordRi (m : Bool) (major : BitVec 5) (fn : BitVec 2) (d : BitVec 7) (imm : BitVec 17) : Word :=
  (BitVec.ofBool m ++ major ++ fn ++ d ++ imm : BitVec (1 + 5 + 2 + 7 + 17))

/-- A word of P (R69). -/
def wordP (m : Bool) (major : BitVec 5) (n : Bool) (p : BitVec 4) (d a b : BitVec 7) : Word :=
  (BitVec.ofBool m ++ major ++ BitVec.ofBool n ++ p ++ d ++ a ++ b : BitVec (1 + 5 + 1 + 4 + 7 + 7 + 7))

/-- A word of BR (R69). -/
def wordBr (m : Bool) (major : BitVec 5) (n : Bool) (p : BitVec 4) (off : BitVec 21) : Word :=
  (BitVec.ofBool m ++ major ++ BitVec.ofBool n ++ p ++ off : BitVec (1 + 5 + 1 + 4 + 21))

/-- A word of J (R69). -/
def wordJ (m : Bool) (major wsh : BitVec 5) (off : BitVec 21) : Word :=
  (BitVec.ofBool m ++ major ++ wsh ++ off : BitVec (1 + 5 + 5 + 21))

/-- The mode field of CVT (R82). -/
def cvtMode (elem : BitVec 3) (dyn sat : Bool) (rnd : BitVec 2) : BitVec 7 :=
  (elem ++ BitVec.ofBool dyn ++ BitVec.ofBool sat ++ rnd : BitVec (3 + 1 + 1 + 2))

/-- The fn field of UALU (R77). -/
def ualuFn (vc : Bool) (op : BitVec 4) : BitVec 5 := (BitVec.ofBool vc ++ op : BitVec (1 + 4))

/-- The fn field of ATOM and ATOMP (R94). -/
def atomFn (r : Bool) (op : BitVec 4) : BitVec 5 := (BitVec.ofBool r ++ op : BitVec (1 + 4))

/-- The fn field of ALEA (R80). -/
def aleaFn (x : BitVec 2) : BitVec 5 := (1#3 ++ x : BitVec (3 + 2))

/-- A word of the trellis format (R344). -/
def wordK (op : BitVec 6) (d a b : BitVec 4) (imm : BitVec 14) : Word :=
  (op ++ d ++ a ++ b ++ imm : BitVec (6 + 4 + 4 + 4 + 14))

/-- The word of a core instruction (R69, R75 to R94); none for a step that has no core word. The FREE forms have the
words of CTDECL and BLOAD. -/
def encode : Instr → Option Word
  | .iadd m d a b => some (wordRrr m 0x00 1 d a b)
  | .isub m d a b => some (wordRrr m 0x00 2 d a b)
  | .imul m d a b => some (wordRrr m 0x00 3 d a b)
  | .imulh m d a b => some (wordRrr m 0x00 4 d a b)
  | .imulhu m d a b => some (wordRrr m 0x00 5 d a b)
  | .imad m d a b => some (wordRrr m 0x00 6 d a b)
  | .imin m d a b => some (wordRrr m 0x00 7 d a b)
  | .imax m d a b => some (wordRrr m 0x00 8 d a b)
  | .iminu m d a b => some (wordRrr m 0x00 9 d a b)
  | .imaxu m d a b => some (wordRrr m 0x00 10 d a b)
  | .iabs m d a => some (wordRrr m 0x00 11 d a 0)
  | .ineg m d a => some (wordRrr m 0x00 12 d a 0)
  | .and m d a b => some (wordRrr m 0x00 13 d a b)
  | .or m d a b => some (wordRrr m 0x00 14 d a b)
  | .xor m d a b => some (wordRrr m 0x00 15 d a b)
  | .andn m d a b => some (wordRrr m 0x00 16 d a b)
  | .shl m d a b => some (wordRrr m 0x00 17 d a b)
  | .shr m d a b => some (wordRrr m 0x00 18 d a b)
  | .sar m d a b => some (wordRrr m 0x00 19 d a b)
  | .rotl m d a b => some (wordRrr m 0x00 20 d a b)
  | .popc m d a => some (wordRrr m 0x00 21 d a 0)
  | .clz m d a => some (wordRrr m 0x00 22 d a 0)
  | .brev m d a => some (wordRrr m 0x00 23 d a 0)
  | .bfx m d a b => some (wordRrr m 0x00 24 d a b)
  | .bfxs m d a b => some (wordRrr m 0x00 25 d a b)
  | .bfi m d a b => some (wordRrr m 0x00 26 d a b)
  | .iadds m d a b => some (wordRrr m 0x00 27 d a b)
  | .isubs m d a b => some (wordRrr m 0x00 28 d a b)
  | .mov m d a => some (wordRrr m 0x00 29 d a 0)
  | .retag m d a k => some (wordRrr m 0x00 30 d a k)
  | .ualuIadd m vc d a b => some (wordRrr m 0x09 (ualuFn vc 1) d a b)
  | .ualuIsub m vc d a b => some (wordRrr m 0x09 (ualuFn vc 2) d a b)
  | .ualuImul m vc d a b => some (wordRrr m 0x09 (ualuFn vc 3) d a b)
  | .ualuImin m vc d a b => some (wordRrr m 0x09 (ualuFn vc 4) d a b)
  | .ualuImax m vc d a b => some (wordRrr m 0x09 (ualuFn vc 5) d a b)
  | .ualuIminu m vc d a b => some (wordRrr m 0x09 (ualuFn vc 6) d a b)
  | .ualuImaxu m vc d a b => some (wordRrr m 0x09 (ualuFn vc 7) d a b)
  | .ualuAnd m vc d a b => some (wordRrr m 0x09 (ualuFn vc 8) d a b)
  | .ualuOr m vc d a b => some (wordRrr m 0x09 (ualuFn vc 9) d a b)
  | .ualuXor m vc d a b => some (wordRrr m 0x09 (ualuFn vc 10) d a b)
  | .ualuAndn m vc d a b => some (wordRrr m 0x09 (ualuFn vc 11) d a b)
  | .ualuShl m vc d a b => some (wordRrr m 0x09 (ualuFn vc 12) d a b)
  | .ualuShr m vc d a b => some (wordRrr m 0x09 (ualuFn vc 13) d a b)
  | .ualuSar m vc d a b => some (wordRrr m 0x09 (ualuFn vc 14) d a b)
  | .ualuMov m vc d b => some (wordRrr m 0x09 (ualuFn vc 15) d 0 b)
  | .iaddi m d a imm => some (wordRri m 0x01 0 d a imm)
  | .andi m d a imm => some (wordRri m 0x01 1 d a imm)
  | .ori m d a imm => some (wordRri m 0x01 2 d a imm)
  | .xori m d a imm => some (wordRri m 0x01 3 d a imm)
  | .shli m d a imm => some (wordRri m 0x01 4 d a imm)
  | .shri m d a imm => some (wordRri m 0x01 5 d a imm)
  | .sari m d a imm => some (wordRri m 0x01 6 d a imm)
  | .imuli m d a imm => some (wordRri m 0x01 7 d a imm)
  | .ualuiIaddi m d a imm => some (wordRri m 0x0A 0 d a imm)
  | .ualuiAndi m d a imm => some (wordRri m 0x0A 1 d a imm)
  | .ualuiOri m d a imm => some (wordRri m 0x0A 2 d a imm)
  | .ualuiXori m d a imm => some (wordRri m 0x0A 3 d a imm)
  | .ualuiShli m d a imm => some (wordRri m 0x0A 4 d a imm)
  | .ualuiShri m d a imm => some (wordRri m 0x0A 5 d a imm)
  | .ualuiSari m d a imm => some (wordRri m 0x0A 6 d a imm)
  | .ualuiImuli m d a imm => some (wordRri m 0x0A 7 d a imm)
  | .movl m d imm => some (wordRi m 0x0B 0 d imm)
  | .movh m d imm => some (wordRi m 0x0B 1 d imm)
  | .movlUniform m d imm => some (wordRi m 0x0B 2 d imm)
  | .movhUniform m d imm => some (wordRi m 0x0B 3 d imm)
  | .icmp m c d a b => some (wordRrr m 0x02 c d a b)
  | .aadd m d a b => some (wordRrr m 0x03 1 d a b)
  | .aaddx m d a b => some (wordRrr m 0x03 2 d a b)
  | .asub m d a b => some (wordRrr m 0x03 3 d a b)
  | .alea m x d a b => some (wordRrr m 0x03 (aleaFn x) d a b)
  | .acmpeq m d a b => some (wordRrr m 0x03 8 d a b)
  | .acmpltu m d a b => some (wordRrr m 0x03 9 d a b)
  | .afroms m d a => some (wordRrr m 0x03 10 d a 0)
  | .fadd m d a b => some (wordRrr m 0x04 1 d a b)
  | .fsub m d a b => some (wordRrr m 0x04 2 d a b)
  | .fmul m d a b => some (wordRrr m 0x04 3 d a b)
  | .ffma m d a b => some (wordRrr m 0x04 4 d a b)
  | .ffms m d a b => some (wordRrr m 0x04 5 d a b)
  | .fnma m d a b => some (wordRrr m 0x04 6 d a b)
  | .fmin m d a b => some (wordRrr m 0x04 7 d a b)
  | .fmax m d a b => some (wordRrr m 0x04 8 d a b)
  | .fminnum m d a b => some (wordRrr m 0x04 9 d a b)
  | .fmaxnum m d a b => some (wordRrr m 0x04 10 d a b)
  | .fabs m d a => some (wordRrr m 0x04 11 d a 0)
  | .fneg m d a => some (wordRrr m 0x04 12 d a 0)
  | .fcopysign m d a b => some (wordRrr m 0x04 13 d a b)
  | .frnd m d a k => some (wordRrr m 0x04 14 d a k)
  | .fclass m d a => some (wordRrr m 0x04 15 d a 0)
  | .fdot2 m d a b => some (wordRrr m 0x04 16 d a b)
  | .fdot4 m d a b => some (wordRrr m 0x04 17 d a b)
  | .fdiv m d a b => some (wordRrr m 0x04 18 d a b)
  | .fscale m d a b => some (wordRrr m 0x04 19 d a b)
  | .fgetexp m d a => some (wordRrr m 0x04 20 d a 0)
  | .fgetman m d a => some (wordRrr m 0x04 21 d a 0)
  | .fcmp m c d a b => some (wordRrr m 0x05 c d a b)
  | .cvt m t d a elem dyn sat rnd => some (wordRrr m 0x06 t d a (cvtMode elem dyn sat rnd))
  | .frcp m d a => some (wordRrr m 0x07 1 d a 0)
  | .frsq m d a => some (wordRrr m 0x07 2 d a 0)
  | .fsqrt m d a => some (wordRrr m 0x07 3 d a 0)
  | .flut m d a => some (wordRrr m 0x07 4 d a 0)
  | .atload m a k => some (wordRrr m 0x07 5 0 a k)
  | .atbind m k => some (wordRrr m 0x07 6 0 0 k)
  | .atstat m d => some (wordRrr m 0x07 7 d 0 0)
  | .shfli m d a b => some (wordRrr m 0x08 1 d a b)
  | .shflu m d a k => some (wordRrr m 0x08 2 d a k)
  | .shfld m d a k => some (wordRrr m 0x08 3 d a k)
  | .shflx m d a k => some (wordRrr m 0x08 4 d a k)
  | .voteall m d a => some (wordRrr m 0x08 5 d a 0)
  | .voteany m d a => some (wordRrr m 0x08 6 d a 0)
  | .ballot m d a => some (wordRrr m 0x08 7 d a 0)
  | .redadd m d a => some (wordRrr m 0x08 8 d a 0)
  | .redmin m d a => some (wordRrr m 0x08 9 d a 0)
  | .redmax m d a => some (wordRrr m 0x08 10 d a 0)
  | .redand m d a => some (wordRrr m 0x08 11 d a 0)
  | .redor m d a => some (wordRrr m 0x08 12 d a 0)
  | .redxor m d a => some (wordRrr m 0x08 13 d a 0)
  | .scanadd m d a => some (wordRrr m 0x08 14 d a 0)
  | .scanmax m d a => some (wordRrr m 0x08 15 d a 0)
  | .matchLanes m d a => some (wordRrr m 0x08 16 d a 0)
  | .bcast m d a k => some (wordRrr m 0x08 17 d a k)
  | .splat m d a => some (wordRrr m 0x08 18 d a 0)
  | .pand m d a b => some (wordRrr m 0x0C 1 d a b)
  | .por m d a b => some (wordRrr m 0x0C 2 d a b)
  | .pxor m d a b => some (wordRrr m 0x0C 3 d a b)
  | .pnot m d a => some (wordRrr m 0x0C 4 d a 0)
  | .pmov m d a => some (wordRrr m 0x0C 5 d a 0)
  | .pandn m d a b => some (wordRrr m 0x0C 6 d a b)
  | .ptos m d a => some (wordRrr m 0x0C 7 d a 0)
  | .pfroms m d a => some (wordRrr m 0x0C 8 d a 0)
  | .sel m n p d a b => some (wordP m 0x0D n p d a b)
  | .bra m n p off => some (wordBr m 0x0E n p off)
  | .call m wsh off => some (wordJ m 0x0F wsh off)
  | .brx m a => some (wordRrr m 0x10 1 0 a 0)
  | .ret m => some (wordRrr m 0x10 2 0 0 0)
  | .wbase m a => some (wordRrr m 0x10 3 0 a 0)
  | .wadj m k => some (wordRrr m 0x10 4 0 0 k)
  | .jenr m d => some (wordRrr m 0x10 5 d 0 0)
  | .jarv m d => some (wordRrr m 0x10 6 d 0 0)
  | .jstk m d => some (wordRrr m 0x10 7 d 0 0)
  | .jclr m d => some (wordRrr m 0x10 8 d 0 0)
  | .jqry m d a => some (wordRrr m 0x10 9 d a 0)
  | .yield m => some (wordRrr m 0x10 10 0 0 0)
  | .safept m => some (wordRrr m 0x10 11 0 0 0)
  | .exit m => some (wordRrr m 0x10 12 0 0 0)
  | .nop m => some (wordRrr m 0x10 13 0 0 0)
  | .resume m => some (wordRrr m 0x10 14 0 0 0)
  | .acbase m k => some (wordRrr m 0x10 15 0 0 k)
  | .sread m d cls b => some (wordRrr m 0x11 1 d cls b)
  | .swrite m cls a b => some (wordRrr m 0x11 2 cls a b)
  | .trap m k => some (wordRrr m 0x11 3 0 0 k)
  | .svcNull m => some (wordRrr m 0x11 4 0 0 0)
  | .svcStack m => some (wordRrr m 0x11 4 0 0 1)
  | .svcMap m => some (wordRrr m 0x11 4 0 0 2)
  | .svcLog m => some (wordRrr m 0x11 4 0 0 3)
  | .svcUnprovided m k => some (wordRrr m 0x11 4 0 0 k)
  | .bkpt m k => some (wordRrr m 0x11 5 0 0 k)
  | .tret m => some (wordRrr m 0x11 6 0 0 0)
  | .tskip m => some (wordRrr m 0x11 7 0 0 0)
  | .tkill m => some (wordRrr m 0x11 8 0 0 0)
  | .ldg m acc d a b => some (wordRrr m 0x12 acc d a b)
  | .stg m acc d a b => some (wordRrr m 0x13 acc d a b)
  | .ldp m acc d a b => some (wordRrr m 0x14 acc d a b)
  | .stp m acc d a b => some (wordRrr m 0x15 acc d a b)
  | .ldu m acc d a b => some (wordRrr m 0x16 acc d a b)
  | .stu m acc d a b => some (wordRrr m 0x17 acc d a b)
  | .atom m r op d a b => some (wordRrr m 0x18 (atomFn r op) d a b)
  | .atomp m r op d a b => some (wordRrr m 0x19 (atomFn r op) d a b)
  | .fence m k => some (wordRrr m 0x1A 1 0 0 k)
  | .bar m => some (wordRrr m 0x1A 2 0 0 0)
  | .cbar m => some (wordRrr m 0x1A 3 0 0 0)
  | .bcinit m a b => some (wordRrr m 0x1A 4 0 a b)
  | .bcexp m a b => some (wordRrr m 0x1A 5 0 a b)
  | .bcwait m a => some (wordRrr m 0x1A 6 0 a 0)
  | .tginit m a => some (wordRrr m 0x1A 7 0 a 0)
  | .tgacq m d a => some (wordRrr m 0x1A 8 d a 0)
  | .tgcmt m d a b => some (wordRrr m 0x1A 9 d a b)
  | .tgwait m d a => some (wordRrr m 0x1A 10 d a 0)
  | .tgrel m a => some (wordRrr m 0x1A 11 0 a 0)
  | .evsig m k => some (wordRrr m 0x1A 12 0 0 k)
  | .evwait m a k => some (wordRrr m 0x1A 13 0 a k)
  | .twait m a => some (wordRrr m 0x1A 14 0 a 0)
  | .cpy m d a => some (wordRrr m 0x1B 1 d a 0)
  | .gath m d a => some (wordRrr m 0x1B 2 d a 0)
  | .scat m d a => some (wordRrr m 0x1B 3 d a 0)
  | .coll m d a => some (wordRrr m 0x1B 4 d a 0)
  | .bankop m d a => some (wordRrr m 0x1B 5 d a 0)
  | .bankred m d a => some (wordRrr m 0x1B 6 d a 0)
  | .pfetch m lvl a b => some (wordRrr m 0x1B 7 lvl a b)
  | .cflush m d a b => some (wordRrr m 0x1B 8 d a b)
  | .cinv m d a b => some (wordRrr m 0x1B 9 d a b)
  | .engst m d a k => some (wordRrr m 0x1B 10 d a k)
  | .task m d a => some (wordRrr m 0x1C 1 d a 0)
  | .tsucc m d a b => some (wordRrr m 0x1C 2 d a b)
  | .tstat m d k => some (wordRrr m 0x1C 3 d 0 k)
  | .ctdecl m d a => some (wordRrr m 0x1C 4 d a 0)
  | .ctdeclFree m d a => some (wordRrr m 0x1C 4 d a 0)
  | .ctpost m d a b => some (wordRrr m 0x1C 5 d a b)
  | .ctget m d a b => some (wordRrr m 0x1C 6 d a b)
  | .ctstat m d a => some (wordRrr m 0x1C 7 d a 0)
  | .tdset m d a => some (wordRrr m 0x1D 1 d a 0)
  | .bload m a b => some (wordRrr m 0x1D 2 0 a b)
  | .bloadFree m a b => some (wordRrr m 0x1D 2 0 a b)
  | .scpush m d a b => some (wordRrr m 0x1D 3 d a b)
  | .mma m d a b => some (wordRrr m 0x1D 4 d a b)
  | .bstatSlot m d a => some (wordRrr m 0x1D 5 d a 0)
  | .bstatQueue m d a => some (wordRrr m 0x1D 5 d a 1)
  | .bstatError m d => some (wordRrr m 0x1D 5 d 0 2)
  | .bstatDrain m d => some (wordRrr m 0x1D 5 d 0 3)
  | .aczero m d => some (wordRrr m 0x1E 1 d 0 0)
  | .acld m d a b => some (wordRrr m 0x1E 2 d a b)
  | .acst m d a => some (wordRrr m 0x1E 3 d a 0)
  | .acadd m d a b => some (wordRrr m 0x1E 4 d a b)
  | .acmul m d a b => some (wordRrr m 0x1E 5 d a b)
  | .acovf m d a => some (wordRrr m 0x1E 6 d a 0)
  | .acmov m d a => some (wordRrr m 0x1E 7 d a 0)
  | _ => none

/-- The word of a trellis instruction (R344); none for any other step. The three CPATH rows share one word. -/
def encodeScript : Instr → Option Word
  | .kmov d a => some (wordK 1 d a 0 0)
  | .kmovi d imm => some (wordK 2 d 0 0 imm)
  | .kmoviSh d imm => some (wordK 2 d 0 1 imm)
  | .kadd d a b imm => some (wordK 3 d a b imm)
  | .ksub d a b => some (wordK 4 d a b 0)
  | .kand d a b => some (wordK 5 d a b 0)
  | .kor d a b => some (wordK 6 d a b 0)
  | .kld d a imm => some (wordK 7 d a 0 imm)
  | .kst d a imm => some (wordK 8 d a 0 imm)
  | .kbeq a b imm => some (wordK 9 0 a b imm)
  | .kbne a b imm => some (wordK 10 0 a b imm)
  | .kblt a b imm => some (wordK 11 0 a b imm)
  | .kjmp imm => some (wordK 12 0 0 0 imm)
  | .ktime d => some (wordK 13 d 0 0 0)
  | .ksleep a imm => some (wordK 14 0 a 0 imm)
  | .khalt imm => some (wordK 15 0 0 0 imm)
  | .knop => some (wordK 16 0 0 0 0)
  | .creq d a b => some (wordK 32 d a b 0)
  | .cwait d a b imm => some (wordK 33 d a b imm)
  | .crel d a => some (wordK 34 d a 0 0)
  | .ctol a b => some (wordK 35 0 a b 0)
  | .cstat d a imm => some (wordK 36 d a 0 imm)
  | .cpathRoute d a => some (wordK 37 d a 0 0)
  | .cpathRank d a => some (wordK 37 d a 0 0)
  | .cpathClear d a => some (wordK 37 d a 0 0)
  | .ewait a imm => some (wordK 48 0 a 0 imm)
  | .esig imm => some (wordK 49 0 0 0 imm)
  | _ => none

/-! Control-port messages (R384, R385). -/

/-- Reads the header of R384 and LEN bytes of payload; padding after them is ignored. -/
def CtlMsg.parse (bytes : List Byte) : CtlMsg :=
  let f (o n : Nat) := leNat ((bytes.drop o).take n)
  let len := f 2 2
  { mtype := f 0 2, len := len, seq := f 4 4, addr := f 8 8, tag := f 16 4, status := f 20 4, reserved := f 24 8,
    payload := (bytes.drop 32).take len }

/-- The step a control-port message is (R385, R389, R395), one name per row of the table of operations. -/
inductive MsgKind where
  | launch
  | read
  | write
  | tinval
  | terminate
  | debugAttach
  | debugDetach
  | debugHalt
  | debugResume
  | debugReadRegister
  | debugWriteRegister
  | mgmtThresholds
  | mgmtAgeingQuantum
  | mgmtParkDelay
  | mgmtSpdistCap
  | mgmtPowerLimit
  | mgmtReadCounters
  | mgmtRaiseSvn
  | mgmtReservedBase
  | attest
  | devrsp
  | bootdata
  | unknownMtype
  deriving DecidableEq, Repr

/-- R389: the bytes a DEBUG carries after its 8: the value for a register write, else none. A vector register is 128
bytes of bits followed by 32 tag bytes (DESIGN CHOICE, log 24). -/
def debugDataLen (payload : List Byte) : Nat :=
  let x := leNat (payload.take 8)
  if bitsOf x 0 8 == 5 then (if bitsOf x 32 8 == 0 then 160 else 4) else 0

/-- R389: the sub-operations of DEBUG. -/
def decodeDebug (msg : CtlMsg) : MsgKind :=
  let x := leNat (msg.payload.take 8)
  if msg.len != 8 + debugDataLen msg.payload || 2 ^ 40 ≤ x || 64 ≤ bitsOf x 16 8 then .unknownMtype
  else match bitsOf x 0 8 with
    | 0 => .debugAttach
    | 1 => .debugDetach
    | 2 => .debugHalt
    | 3 => .debugResume
    | 4 => .debugReadRegister
    | 5 => .debugWriteRegister
    | _ => .unknownMtype

/-- R395: the sub-operations of MGMT; an unlisted one, or a nonzero bit of [31:8], has no effect. -/
def decodeMgmt (msg : CtlMsg) : MsgKind :=
  let x := leNat (msg.payload.take 8)
  if msg.len != 8 || bitsOf x 8 24 != 0 then .unknownMtype
  else match bitsOf x 0 8 with
    | 1 => .mgmtThresholds
    | 2 => .mgmtAgeingQuantum
    | 3 => .mgmtParkDelay
    | 4 => .mgmtSpdistCap
    | 5 => .mgmtPowerLimit
    | 6 => .mgmtReadCounters
    | 7 => .mgmtRaiseSvn
    | 8 => .mgmtReservedBase
    | _ => .unknownMtype

/-- R385: the step a message is; an unlisted type, a nonzero reserved field or a bad LEN is UNKNOWN_MTYPE. -/
def decodeMessage (msg : CtlMsg) : MsgKind :=
  if msg.reserved != 0 then .unknownMtype
  else match msg.mtype with
    | 0x0001 => if msg.len == 128 then .launch else .unknownMtype
    | 0x0002 => if msg.len == 8 then .read else .unknownMtype
    | 0x0003 => if 1 ≤ msg.len && msg.len ≤ 4096 then .write else .unknownMtype
    | 0x0004 => if msg.len == 8 then .tinval else .unknownMtype
    | 0x0005 => if msg.len == 0 then .terminate else .unknownMtype
    | 0x0006 => decodeDebug msg
    | 0x0007 => decodeMgmt msg
    | 0x0008 => if 1 ≤ msg.len && msg.len ≤ 64 then .attest else .unknownMtype
    | 0x0009 => if msg.len ≤ 4096 then .devrsp else .unknownMtype
    | 0x000A => if 1 ≤ msg.len && msg.len ≤ 4096 then .bootdata else .unknownMtype
    | _ => .unknownMtype

/-! The reading of a word of the table of operations. -/

/-- What a 32-bit word of the table stands for: a core word if it is one, else a trellis word, else the illegal
instruction (DEDUCED, log 10: words of the two sets share bits). -/
def decodeTableWord (nbits w : Nat) : Option Instr :=
  if nbits != 32 then none
  else
    match decode (BitVec.ofNat 32 w), decodeScript (BitVec.ofNat 32 w) with
    | .ok i, _ => some i
    | _, .ok i => some i
    | .illegalInstruction, _ => some .illegalInstruction
    | .illegalOperand, _ => none

end Sys2Proof
end

