-- ==== Sys2Proof/Machine/Sync.lean ====
section
/-!
DEFINITION. Fences, barriers, byte-counting barriers, trugs, events and timed waits (R205 to R213), and the release of
the lanes that wait at them.
-/

namespace Sys2Proof.Machine

/-! ## Fence conditions (R205) -/

/-- Every scratchpad store and atomic of the lanes to the banks that `homes` picks is accepted. -/
def State.banksAccepted (s : State) (group : Nat) (mask : BitVec 32) (homes : Nat → Bool) : Bool :=
  !s.pend.any fun p => p.group == group && p.what.unaccepted && p.what.bank.any homes && (laneList mask).any p.actsFor

/-- Every PEER and CONTROL NODE store and remote atomic of the lanes is acknowledged (R287). -/
def State.remotesAcked (s : State) (group : Nat) (mask : BitVec 32) : Bool :=
  !s.fabric.remotes.any fun r => r.group == group && r.engine.isNone && r.writes && (r.lanes &&& mask) != 0

/-- The condition of a fence of a scope for the lanes of a mask (R205). -/
def State.fenceHolds (s : State) (g : Group) (mask : BitVec 32) (scope : Nat) : Bool :=
  g.maxLwct mask ≤ s.gtime && s.banksAccepted g.uid mask (fun team => 2 ≤ scope || team == g.team) &&
    (scope < 4 || s.remotesAcked g.uid mask)

def scopeTeam : Nat := 1
def scopeCluster : Nat := 2
def scopeChip : Nat := 3

/-- Lanes enter WAIT and keep their LPC at the waiting instruction (DEDUCED, log 23). -/
def State.enterWait (s : State) (x : Site) (good : BitVec 32) (w : Lane → Wait) : State :=
  s.modGroup x.g.uid fun g => g.onLanes good fun _ l => { l with state := .wait (w l), lpc := x.pc }

/-- A lane leaves WAIT for the next instruction (R206). -/
def Lane.release (l : Lane) : Lane := { l with state := .run, lpc := l.lpc + 4 }

/-- A lane whose wait satisfies a test. -/
def Lane.waits (l : Lane) (p : Wait → Bool) : Bool :=
  match l.state with
  | .wait w => p w
  | _ => false

/-- The lanes of a group whose waits satisfy a test. -/
def Group.waiting (g : Group) (p : Wait → Bool) : BitVec 32 := g.maskOf fun _ l => l.waits p

/-- Releases the lanes whose waits satisfy a test. -/
def Group.releaseWaits (g : Group) (p : Wait → Bool) : Group :=
  g.onLanes (g.waiting p) fun _ l => l.release

/-- FENCE (R205). -/
def execFence (m : Bool) (k : BitVec 7) (s : State) : Result :=
  Op.issue
    { m := m, kind := .plain, check := fun _ _ _ => none,
      effect := fun x good s' =>
        let (id, s1) := s'.newUid
        s1.enterWait x good fun _ => .fence k.toNat id }
    s

/-! ## Team and cluster barriers (R206) -/

/-- BAR (R206). -/
def execBar (m : Bool) (s : State) : Result :=
  Op.issue
    { m := m, kind := .safePoint, check := fun _ _ _ => none,
      effect := fun x good s' =>
        let (id, s1) := s'.newUid
        s1.enterWait x good fun _ => .bar id }
    s

/-- CBAR (R206). -/
def execCbar (m : Bool) (s : State) : Result :=
  Op.issue
    { m := m, kind := .safePoint, check := fun _ _ _ => none,
      effect := fun x good s' =>
        let (id, s1) := s'.newUid
        s1.enterWait x good fun _ => .cbar id }
    s

def Wait.isBar : Wait → Bool
  | .bar _ => true
  | _ => false

def Wait.isCbar : Wait → Bool
  | .cbar _ => true
  | _ => false

/-- A group has arrived: every lane not in DONE stands at the barrier, past its fence (R206); a frozen group holds the
barrier until it is resumed (R322; DESIGN CHOICE, log 75). -/
def State.arrived (s : State) (g : Group) (p : Wait → Bool) (scope : Nat) : Bool :=
  g.halted.isNone && (g.lanes.all fun l => l.isDone || l.waits p) && s.fenceHolds g (g.waiting p) scope

/-- The groups of some teams. -/
def State.groupsOf (s : State) (p : Nat → Bool) : List Group := s.groups.filter fun g => p g.team

/-- Every group of the teams that has a lane not in DONE has arrived, and one stands there. -/
def State.barrierComplete (s : State) (teams : Nat → Bool) (p : Wait → Bool) (scope : Nat) : Bool :=
  let gs := (s.groupsOf teams).filter fun g => !g.allDone
  gs.all (fun g => s.arrived g p scope) && gs.any fun g => g.waiting p != 0

/-- The uids of the teams of a team's cluster (R17). -/
def State.clusterTeams (s : State) (t : Team) : List Nat :=
  (s.teams.filter fun u => u.grid == t.grid && u.cluster == t.cluster).map (·.uid)

/-- Releases a barrier of some teams if its arrival is complete (R206). -/
def State.tryBarrier (s : State) (teams : Nat → Bool) (p : Wait → Bool) (scope : Nat) : State :=
  if s.barrierComplete teams p scope then
    { s with groups := s.groups.map fun g => if teams g.team then g.releaseWaits p else g }
  else s

/-! ## Byte-counting barriers (R207 to R209) -/

/-- The offset of a barrier word that a group may use (R208): on its own core, a multiple of 8, inside SCRATCH. -/
def barrierOffset (img : Image) (t : Team) (address : Nat) : Option Nat :=
  match ownOffset t address with
  | none => none
  | some off => if off % 8 = 0 ∧ off + 8 ≤ img.scratch then some off else none

/-- The faults of a byte-counting instruction (R208, R299). -/
def State.barrierFault (s : State) (x : Site) (a : Nat) (reads : Bool) : Option Cause :=
  let address := (x.g.u a).toNat
  match (s.team? x.g.team).bind fun t => (barrierOffset x.img t address).map fun off => (t, off) with
  | none => some (Cause.address address)
  | some (t, off) => if reads && (scratchDamaged t off 8).isSome then some (Cause.dataError address) else none

/-- Fields of a barrier word (R207). -/
def Team.expected (t : Team) (off : Nat) : Nat := leNat (t.bytes off 4)
def Team.arrivedBytes (t : Team) (off : Nat) : Nat := bitsOf (leNat (t.bytes (off + 4) 4)) 0 31
def Team.barrierErr (t : Team) (off : Nat) : Bool := bitsOf (leNat (t.bytes (off + 4) 4)) 31 1 == 1

/-- Writes a barrier word. -/
def Team.setBarrier (t : Team) (off expected arrived : Nat) (err : Bool) : Team :=
  t.write off (natLe 4 expected ++ natLe 4 (arrived % 2 ^ 31 + 2 ^ 31 * err.toNat))

/-- An engine's update: ARRIVED saturates, and an error sets ERR (R207, R209). -/
def Team.countBytes (t : Team) (off n : Nat) (err : Bool) : Team :=
  t.setBarrier off (t.expected off) (min (t.arrivedBytes off + n) (2 ^ 31 - 1)) (t.barrierErr off || err)

/-- The condition of BCWAIT (R208). -/
def Team.barrierMet (t : Team) (off : Nat) : Bool := t.expected off ≤ t.arrivedBytes off || t.barrierErr off

/-- Changes the barrier word that a uniform register names. -/
def State.onBarrier (s : State) (x : Site) (a : Nat) (f : Team → Nat → Team) : State :=
  s.modTeam x.g.team fun t =>
    match barrierOffset x.img t (x.g.u a).toNat with
    | none => t
    | some off => f t off

/-- BCINIT (R208). -/
def execBcinit (m : Bool) (a b : BitVec 7) (s : State) : Result :=
  Op.issue
    { m := m, kind := .plain, check := fun x _ l => operandFault x l { us := [a.toNat, b.toNat] } true,
      fault := fun x _ _ => s.barrierFault x a.toNat false,
      effect := fun x _ s' => s'.onBarrier x a.toNat fun t off => t.setBarrier off (x.g.u b.toNat).toNat 0 false }
    s

/-- BCEXP (R208). -/
def execBcexp (m : Bool) (a b : BitVec 7) (s : State) : Result :=
  Op.issue
    { m := m, kind := .plain, check := fun x _ l => operandFault x l { us := [a.toNat, b.toNat] } true,
      fault := fun x _ _ => s.barrierFault x a.toNat true,
      effect := fun x _ s' => s'.onBarrier x a.toNat fun t off =>
        t.setBarrier off ((t.expected off + (x.g.u b.toNat).toNat) % 2 ^ 32) (t.arrivedBytes off) (t.barrierErr off) }
    s

/-- BCWAIT (R208). -/
def execBcwait (m : Bool) (a : BitVec 7) (s : State) : Result :=
  Op.issue
    { m := m, kind := .safePoint, check := fun x _ l => operandFault x l { us := [a.toNat] } true,
      fault := fun x _ _ => s.barrierFault x a.toNat true,
      effect := fun x good s' => s'.enterWait x good fun _ => .bcwait ((x.g.u a.toNat).toNat % 2 ^ 21) }
    s

/-! ## Trugs (R210 to R212) -/

/-- A field of a descriptor. -/
def Team.field (t : Team) (off n : Nat) : Nat := leNat (t.bytes off n)

/-- The descriptor's slot count, slot size and consumers (R210). -/
def Team.trugSlots (t : Team) (off : Nat) : Nat := t.field (off + 5) 1 + 1
def Team.trugSize (t : Team) (off : Nat) : Nat := 2 ^ t.field (off + 4) 1
def Team.trugBase (t : Team) (off : Nat) : Nat := bitsOf (t.field off 4) 0 21
def Team.trugConsumers (t : Team) (off : Nat) : Nat := t.field (off + 6) 2
def Team.trugFree (t : Team) (off : Nat) : Nat := t.field (off + 8) 2
def Team.trugFilled (t : Team) (off : Nat) : Nat := t.field (off + 0xA) 2
def Team.trugHead (t : Team) (off : Nat) : Nat := t.field (off + 0xC) 1
def Team.trugTail (t : Team) (off m : Nat) : Nat := t.field (off + 0x10 + m) 1
def Team.trugSlot (t : Team) (off i : Nat) : Nat := t.field (off + 0x40 + 4 * i) 4

/-- Fields of a slot word: acquired, PEND and BYTES (R210). -/
def slotAcq (w : Nat) : Bool := bitsOf w 29 1 == 1
def slotPend (w : Nat) : Nat := bitsOf w 17 12
def slotBytes (w : Nat) : Nat := bitsOf w 0 17
def slotWord (acq : Bool) (pend bytes : Nat) : Nat := 2 ^ 29 * acq.toNat + 2 ^ 17 * (pend % 2 ^ 12) + bytes % 2 ^ 17

/-- Writes a field. -/
def Team.setField (t : Team) (off n v : Nat) : Team := t.write off (natLe n v)

def Team.setSlot (t : Team) (off i w : Nat) : Team := t.setField (off + 0x40 + 4 * i) 4 w

/-- TGINIT's update (R211). -/
def Team.trugInit (t : Team) (off : Nat) : Team :=
  let n := t.trugSlots off
  (((((t.setField (off + 8) 2 n).setField (off + 0xA) 2 0).setField (off + 0xC) 1 0).write (off + 0x10)
    (List.replicate 12 0))).write (off + 0x40) (List.replicate (4 * n) 0)

/-- TGACQ's update (R211): the slot acquired is HEAD. -/
def Team.trugAcquire (t : Team) (off : Nat) : Team :=
  let h := t.trugHead off
  ((t.setSlot off h (t.trugSlot off h % 2 ^ 29 + 2 ^ 29 + t.trugSlot off h / 2 ^ 30 * 2 ^ 30)).setField (off + 0xC) 1
    ((h + 1) % t.trugSlots off)).setField (off + 8) 2 (t.trugFree off - 1)

/-- Adds bytes to a slot; at the slot size it becomes filled (R211). -/
def Team.trugCount (t : Team) (off i n : Nat) : Team :=
  let w := t.trugSlot off i
  let b := slotBytes w + n
  if b = t.trugSize off then
    (t.setSlot off i (slotWord (slotAcq w) (t.trugConsumers off) b)).setField (off + 0xA) 2 (t.trugFilled off + 1)
  else t.setSlot off i (slotWord (slotAcq w) (slotPend w) b)

/-- Slot TAIL m is filled and member m has still to release it (R211). -/
def Team.trugReady (t : Team) (off m : Nat) : Bool :=
  let w := t.trugSlot off (t.trugTail off m)
  slotAcq w && slotBytes w == t.trugSize off && bitsOf (slotPend w) m 1 == 1

/-- TGREL's update (R211). -/
def Team.trugRelease (t : Team) (off m : Nat) : Team :=
  let i := t.trugTail off m
  let w := t.trugSlot off i
  let pend := slotPend w - 2 ^ m
  let t1 := t.setField (off + 0x10 + m) 1 ((i + 1) % t.trugSlots off)
  if pend = 0 then
    ((t1.setSlot off i 0).setField (off + 8) 2 (t.trugFree off + 1)).setField (off + 0xA) 2 (t.trugFilled off - 1)
  else t1.setSlot off i (slotWord (slotAcq w) pend (slotBytes w))

/-- The home and offset of a descriptor (R211); none for an address fault. -/
def State.trugPlace (s : State) (img : Image) (t : Team) (address : Nat) : Option (Team × Nat) :=
  if address % 64 ≠ 0 then none
  else
    match s.scratchPlace img t address 64 with
    | none => none
    | some (u, off) => if off + 64 + 4 * u.trugSlots off ≤ img.scratch then some (u, off) else none

/-- The damaged byte among the pieces of a descriptor that an instruction reads or writes in part (R299). -/
def trugDamaged (u : Team) (off : Nat) (pieces : List (Nat × Nat)) : Option Nat :=
  least (pieces.filterMap fun (o, n) => scratchDamaged u (off + o) n)

/-- What TGINIT refuses (R12, R211; DEDUCED, log 31). -/
def trugBad (img : Image) (u : Team) (off : Nat) : Bool :=
  let cmask := u.trugConsumers off
  let slotLog := u.field (off + 4) 1
  u.field off 4 % 128 != 0 || 2 ^ 21 ≤ u.field off 4 || slotLog < 7 || 16 < slotLog || u.field (off + 5) 1 = 0 ||
    cmask = 0 || 2 ^ (img.width * img.height) ≤ cmask ||
    img.scratch < u.trugBase off + u.trugSlots off * u.trugSize off ||
    (u.bytes (off + 0xD) 3).any (· != 0) || (u.bytes (off + 0x1C) 36).any (· != 0)

/-- The descriptor that a uniform register names: the issuing team, its home and the offset. -/
def State.trugNamed (s : State) (x : Site) (a : Nat) : Option (Team × Team × Nat) :=
  (s.team? x.g.team).bind fun t => (s.trugPlace x.img t (x.g.u a).toNat).map fun p => (t, p)

/-- The fault of a trug instruction: address, data error, then the operand checks of R211 by `bad`, given the home,
the offset and the issuing member. -/
def State.trugFault (s : State) (x : Site) (a : Nat) (pieces : Team → Nat → Nat → List (Nat × Nat))
    (bad : Team → Nat → Nat → Bool) : Option Cause :=
  let address := (x.g.u a).toNat
  match s.trugNamed x a with
  | none => some (Cause.address address)
  | some (t, u, off) =>
    match trugDamaged u off (pieces u off t.member) with
    | some b => some (Cause.dataError (address + (b - off)))
    | none => if bad u off t.member then some Cause.illegalOperand else none

/-- A trug instruction reaches its descriptor's bank: the lanes' earlier accesses to it have been accepted (R290). -/
def State.atTrug (s : State) (a : Nat) : State :=
  match s.site? with
  | none => s
  | some x =>
    match s.trugNamed x a with
    | none => s
    | some (_, u, _) => s.acceptEarlier x.g.uid x.mask u.uid

/-- Changes the descriptor that a uniform register names. -/
def State.onTrug (s : State) (x : Site) (a : Nat) (f : Team → Nat → Nat → Team) : State :=
  match s.trugNamed x a with
  | none => s
  | some (t, u, off) => s.modTeam u.uid fun u => f u off t.member

/-- TGINIT (R211). -/
def execTginit (m : Bool) (a : BitVec 7) (now : State) : Result :=
  let s := now.atTrug a.toNat
  Op.issue
    { m := m, kind := .plain, check := fun x _ l => operandFault x l { us := [a.toNat] } true,
      fault := fun x _ _ =>
        s.trugFault x a.toNat
          (fun u off _ => [(0, 0x10), (0x18, 0x28)] ++
            (if u.trugSlots off % 2 = 0 then [] else [(0x40 + 4 * (u.trugSlots off - 1), 4)]))
          fun u off _ => trugBad x.img u off,
      effect := fun x _ s' => s'.onTrug x a.toNat fun u off _ => u.trugInit off }
    s

/-- TGACQ (R211): a safe point; its lanes wait for a free slot. -/
def execTgacq (m : Bool) (d a : BitVec 7) (now : State) : Result :=
  let s := now.atTrug a.toNat
  Op.issue
    { m := m, kind := .safePoint, check := fun x _ l => operandFault x l { us := [d.toNat, a.toNat] } true,
      fault := fun x _ _ =>
        s.trugFault x a.toNat (fun u off _ => [(0, 0x10), (0x40 + 4 * u.trugHead off, 4)]) fun _ _ _ => false,
      effect := fun x good s' =>
        let (id, s1) := s'.newUid
        s1.enterWait x good fun _ => .tgacq (x.g.u a.toNat).toNat d.toNat id }
    s

/-- TGCMT (R211): a release; not issued until FENCE.CLUSTER's condition holds for its lanes, whatever they meet. -/
def execTgcmt (m : Bool) (d a b : BitVec 7) (now : State) : Result :=
  let free (x : Site) : Bool := now.fenceHolds x.g x.mask scopeCluster
  let s := if now.site?.any free then now.atTrug a.toNat else now
  Op.issue
    { m := m, kind := .plain, check := fun x _ l => operandFault x l { us := [d.toNat, a.toNat, b.toNat] } true,
      fault := fun x _ _ =>
        let i := (x.g.u d.toNat).toNat
        s.trugFault x a.toNat
          (fun u off _ => [(0, 0x10)] ++ (if i < u.trugSlots off then [(0x40 + 4 * i, 4)] else []))
          fun u off _ =>
            let w := u.trugSlot off i
            u.trugSlots off ≤ i || !(slotAcq w && slotBytes w < u.trugSize off) ||
              u.trugSize off < slotBytes w + (x.g.u b.toNat).toNat,
      wait := fun x => !s.fenceHolds x.g x.mask scopeCluster,
      effect := fun x _ s' => s'.onTrug x a.toNat fun u off _ =>
        u.trugCount off (x.g.u d.toNat).toNat (x.g.u b.toNat).toNat }
    s

/-- The pieces of a descriptor that its consumers read. -/
def consumerPieces (u : Team) (off m : Nat) : List (Nat × Nat) :=
  [(0, 0x10), (0x10 + m, 1), (0x40 + 4 * u.trugTail off m, 4)]

/-- TGWAIT (R211): a safe point; its lanes wait for the member's next filled slot. -/
def execTgwait (m : Bool) (d a : BitVec 7) (now : State) : Result :=
  let s := now.atTrug a.toNat
  Op.issue
    { m := m, kind := .safePoint, check := fun x _ l => operandFault x l { us := [d.toNat, a.toNat] } true,
      fault := fun x _ _ =>
        s.trugFault x a.toNat consumerPieces fun u off k => bitsOf (u.trugConsumers off) k 1 == 0,
      effect := fun x good s' =>
        let (id, s1) := s'.newUid
        s1.enterWait x good fun _ => .tgwait (x.g.u a.toNat).toNat d.toNat id }
    s

/-- TGREL (R211). -/
def execTgrel (m : Bool) (a : BitVec 7) (now : State) : Result :=
  let s := now.atTrug a.toNat
  Op.issue
    { m := m, kind := .plain, check := fun x _ l => operandFault x l { us := [a.toNat] } true,
      fault := fun x _ _ =>
        s.trugFault x a.toNat consumerPieces fun u off k =>
          bitsOf (u.trugConsumers off) k 1 == 0 || !u.trugReady off k,
      effect := fun x _ s' => s'.onTrug x a.toNat fun u off k => u.trugRelease off k }
    s

/-! ## Events and timed waits (R213) -/

/-- The script context whose counters a grid uses. -/
def State.sctx (s : State) (grid : Nat) : Nat := ((s.grid? grid).map (·.launch.sctx)).getD 0

/-- EVSIG (R213): not issued until FENCE.CHIP's condition holds for its lanes, nor by a speculative group (R377). -/
def execEvsig (m : Bool) (k : BitVec 7) (s : State) : Result :=
  Op.issue
    { m := m, kind := .plain, check := fun _ _ _ => none,
      wait := fun x => s.keepsBack x.g || !s.fenceHolds x.g x.mask scopeChip,
      effect := fun x _ s' =>
        { s' with ctxs := setAt (fun c => { c with k := tput c.k k.toNat (tget 0 c.k k.toNat + 1) })
                    (s'.sctx x.g.grid) s'.ctxs } }
    s

/-- The condition of EVWAIT and EWAIT: the counter has reached the value (R213, R348). -/
def reached (counter value : Word) : Bool := decide (0 ≤ (counter - value).toInt)

/-- EVWAIT (R213). -/
def execEvwait (m : Bool) (a k : BitVec 7) (s : State) : Result :=
  Op.issue
    { m := m, kind := .safePoint, check := fun x _ l => operandFault x l { us := [a.toNat] } true,
      effect := fun x good s' => s'.enterWait x good fun _ => .evwait k.toNat (x.g.u a.toNat) }
    s

/-- TWAIT (R213): not a safe point. -/
def execTwait (m : Bool) (a : BitVec 7) (s : State) : Result :=
  Op.issue
    { m := m, kind := .plain, check := fun x _ l => operandFault x l { us := [a.toNat, a.toNat + 1] } true,
      effect := fun x good s' => s'.enterWait x good fun _ => .twait (x.g.uPair a.toNat).toNat }
    s

/-! ## Copies into trugs (R212, R214, R217) -/

/-- A word of a descriptor. -/
def wd (ws : List Word) (i : Nat) : Nat := ((ws[i]?).getD 0).toNat

/-- A 64-bit field that starts at word `i`. -/
def wd64 (ws : List Word) (i : Nat) : Nat := wd ws i + 2 ^ 32 * wd ws (i + 1)

/-- A bit of word 0. -/
def flagOf (ws : List Word) (k : Nat) : Bool := bitsOf (wd ws 0) k 1 == 1

def cpySSP (ws : List Word) : Bool := flagOf ws 8
def cpyDSP (ws : List Word) : Bool := flagOf ws 9
def cpyDTRUG (ws : List Word) : Bool := flagOf ws 10
def cpyCBW (ws : List Word) : Bool := flagOf ws 11
def cpyMCAST (ws : List Word) : Bool := flagOf ws 12
/-- The descriptor of a copy's trug. -/
def State.opTrug (s : State) (op : EngOp) : Option (Team × Nat) :=
  match s.grid? op.grid, s.team? op.team with
  | some gr, some t => if cpyDTRUG op.words then s.trugPlace gr.image t (wd op.words 12) else none
  | _, _ => none

/-- A copy holds bytes for a slot that its trug has not yet free (R212). -/
def EngOp.wantsSlot (op : EngOp) : Bool :=
  op.kind == 1 && cpyDTRUG op.words && !op.data.isEmpty && op.trugSlot.isNone && op.run.isNone && !op.paused &&
    op.outcome.isNone

/-- A copy engine waits for a slot of a descriptor: it takes the next (R236). -/
def State.engineWaits (s : State) (u : Team) (off : Nat) : Bool :=
  s.cores.any fun c => c.ops.any fun o =>
    o.wantsSlot && (s.opTrug o).any fun (v, at_) => v.uid == u.uid && at_ == off

/-! ## Release of waiting lanes -/

/-- The group is on its core and not frozen, so that its waits are watched (R322). -/
def Group.watched (g : Group) : Bool := (g.sched == .resident || g.sched == .parked) && g.halted.isNone

/-- The trug waits of a group's lanes, once each: address, register, issue, and whether it is TGACQ. -/
def Group.trugWaits (g : Group) : List (Nat × Nat × Nat × Bool) :=
  g.lanes.foldl
    (fun acc l =>
      match l.state with
      | .wait (.tgacq a d id) => if acc.any fun (_, _, i, _) => i == id then acc else acc ++ [(a, d, id, true)]
      | .wait (.tgwait a d id) => if acc.any fun (_, _, i, _) => i == id then acc else acc ++ [(a, d, id, false)]
      | _ => acc) []

/-- The wait of one trug issue. -/
def Wait.isTrug (id : Nat) : Wait → Bool
  | .tgacq _ _ i => i == id
  | .tgwait _ _ i => i == id
  | _ => false

/-- Releases one trug wait if its condition holds (R211). -/
def State.tryTrug (s : State) (g : Group) (w : Nat × Nat × Nat × Bool) : State :=
  let (address, d, id, acquire) := w
  match s.grid? g.grid, s.team? g.team with
  | some gr, some t =>
    match s.trugPlace gr.image t address with
    | none => s
    | some (u, off) =>
      let free (v : Nat) (s : State) : State :=
        s.modGroup g.uid fun g => (g.setU d (BitVec.ofNat 32 v)).releaseWaits (Wait.isTrug id)
      if acquire then
        if 0 < u.trugFree off && !s.engineWaits u off then free (u.trugHead off) (s.modTeam u.uid fun u => u.trugAcquire off) else s
      else if u.trugReady off t.member then free (u.trugTail off t.member) s
      else s
  | _, _ => s

/-- The waits of a group that end by the state of its team's scratchpad and of its event counters (R208, R213). -/
def State.waitOver (s : State) (t : Team) (grid : Nat) : Wait → Bool
  | .bcwait off => t.barrierMet off
  | .evwait k value => reached (((s.ctxs[s.sctx grid]?).map fun c => tget 0 c.x k).getD 0) value
  | _ => false

/-- Releases the lanes of a group that wait no longer. -/
def State.settleGroup (s : State) (uid : Nat) : State :=
  match s.group? uid with
  | none => s
  | some g =>
    if !g.watched || (g.waiting fun _ => true) = 0 then s
    else
      match s.team? g.team with
      | none => s
      | some t =>
        let s1 := s.modGroup uid fun g => g.releaseWaits (s.waitOver t g.grid)
        let s2 := g.trugWaits.foldl (fun s w => s.tryTrug g w) s1
        let s3 := if g.waiting Wait.isBar = 0 then s2 else s2.tryBarrier (· == t.uid) Wait.isBar scopeTeam
        if g.waiting Wait.isCbar = 0 then s3
        else s3.tryBarrier (s3.clusterTeams t).contains Wait.isCbar scopeCluster

/-- Releases every lane whose wait is over. -/
def State.settleWaits (s : State) : State := (s.groups.map (·.uid)).foldl State.settleGroup s

/-- FENCE_RELEASE (R205): the lanes of one fence are released together. -/
def execFenceRelease (group wait : Nat) (s : State) : Result :=
  match s.group? group with
  | none => .next s
  | some g =>
    let mine (w : Wait) : Bool :=
      match w with
      | .fence _ id => id == wait
      | _ => false
    let scope := (g.lanes.filterMap fun l =>
      match l.state with
      | .wait (.fence k id) => if id = wait then some k else none
      | _ => none).headD 0
    if g.watched && g.waiting mine != 0 && s.fenceHolds g (g.waiting mine) scope then
      .next (s.modGroup group fun g => g.releaseWaits mine)
    else .next s

/-- TWAIT_RELEASE (R213): the lanes whose deadlines GTIME has reached return to RUN. -/
def execTwaitRelease (group : Nat) (s : State) : Result :=
  .next (s.modGroup group fun g =>
    if g.watched then g.releaseWaits fun w =>
      match w with
      | .twait deadline => deadline ≤ s.gtime
      | _ => false
    else g)

end Sys2Proof.Machine
end

