-- ==== Sys2Proof/Machine/Tasks.lean ====
section
/-!
DEFINITION. Task records, the pool and its rings (R58 to R61, R334), successor blocks (R63), TASK, TSUCC and TSTAT (R224
to R226), and the retirement of groups (R57).
-/

namespace Sys2Proof.Machine

/-! ## Records (R58, R59, R373) -/

/-- A record from its sixteen words. -/
def recordOf (ws : List Word) : Task :=
  let w (i : Nat) : Nat := ((ws[i]?).getD 0).toNat
  let head := w 0 + 2 ^ 32 * w 1
  { uid := 0, grid := 0, prio := bitsOf head 61 3, depth := bitsOf head 57 4, cut := bitsOf head 56 1 == 1,
    eclass := bitsOf head 54 2, entry := bitsOf head 0 48, argp := Word.pair ((ws[3]?).getD 0) ((ws[2]?).getD 0),
    tile := Word.pair ((ws[5]?).getD 0) ((ws[4]?).getD 0), succ := w 6 + 2 ^ 32 * w 7, args := ws.drop 8, vis := 0,
    since := 0, order := 0, gated := bitsOf head 56 1 == 1 }

/-- INLINE word 7 of a record with CUT = 1 (R373). -/
def Task.cutWord (t : Task) : Nat := ((t.args[7]?).getD 0).toNat
def Task.cutSlot (t : Task) : Nat := bitsOf t.cutWord 0 6
def Task.cutWant (t : Task) : Nat := bitsOf t.cutWord 16 16

/-- The slot, if the launch declared it (R227). -/
def State.slot? (s : State) (grid n : Nat) : Option CutSlot :=
  match s.cuts.find? (fun (k, _) => k == n) with
  | none => none
  | some (_, c) => if c.grid = grid then some c else none

/-- What a push refuses as an illegal operand (R59, R373): each condition with the words of the record that it is read
from. -/
def State.recordRules (s : State) (gr : Grid) (ws : List Word) : Rules :=
  let t := recordOf ws
  let code := gr.image.base + gr.image.codeOff
  [([1], bitsOf ((ws[1]?).getD 0).toNat 16 6 != 0), ([1], t.eclass == 3), ([0], t.entry % 4 != 0),
    ([0, 1], t.entry < code), ([0, 1], code + gr.image.codeSize ≤ t.entry), ([6], t.succ % 128 != 0),
    ([7], 2 ^ 48 ≤ t.succ), ([1, 15], t.cut && bitsOf t.cutWord 6 10 != 0),
    ([1, 15], t.cut && (s.slot? gr.uid t.cutSlot).isNone)]

/-- A push refuses the record (R59, R373). -/
def State.recordBad (s : State) (gr : Grid) (ws : List Word) : Bool := (s.recordRules gr ws).any (·.2)

/-! ## The pool and the rings (R59, R60, R334) -/

/-- Where a push that passes its checks goes. -/
inductive Room where
  | pool
  | ring
  | full
  | unmapped
  deriving DecidableEq, Repr

/-- The room a push of a grid finds. A page of the ring is asked for when the records held fill those mapped (DESIGN
CHOICE, log 19). -/
def State.roomFor (s : State) (gr : Grid) : Room :=
  if s.pool.length < Config.poolRecords then .pool
  else if gr.launch.ringCap ≤ gr.ring.length then .full
  else if gr.ring.length < gr.ringMapped then .ring
  else .unmapped

/-- Numbers a record and gives it its times. -/
def State.stampTask (s : State) (t : Task) : Task × State :=
  let (id, s1) := s.newUid
  ({ t with uid := id, since := s.gtime, order := id }, s1)

/-- Puts a record in the pool or in its grid's ring. -/
def State.enterPool (s : State) (room : Room) (t : Task) : State :=
  let (t, s1) := s.stampTask t
  match room with
  | .pool => { s1 with pool := s1.pool ++ [t] }
  | .ring => s1.modGrid t.grid fun gr => { gr with ring := gr.ring ++ [t] }
  | .full | .unmapped => s

/-- A record that the hardware keeps until there is room (R63, R379) enters now if it can. -/
def State.keepTask (s : State) (t : Task) (companion : Bool) (group : Nat) : State :=
  match s.grid? t.grid with
  | none => s
  | some gr =>
    match s.roomFor gr with
    | .pool => s.enterPool .pool t
    | .ring => s.enterPool .ring t
    | .full | .unmapped =>
      let (t, s1) := s.stampTask t
      { s1 with kept := s1.kept ++ [{ task := t, companion := companion, group := group }] }

/-- The depth of a group: its task's, or 0 for a root group (R59). -/
def Group.depth (g : Group) : Nat := (g.task.map (·.depth)).getD 0

/-- The greatest LWCT over the lanes not in DONE (R61). -/
def Group.visTime (g : Group) : Nat := g.maxLwct (g.maskOf fun _ l => !l.isDone)

/-! ## TASK (R224) -/

/-- The sixteen words of a descriptor, block or record held in uniform registers. -/
def Group.words16 (g : Group) (a : Nat) : List Word := (regsFrom a 16).map g.u

/-- A pushed record, with its grid, depth and visibility time (R59, R61). -/
def pushedTask (g : Group) (a : Nat) : Task :=
  { recordOf (g.words16 a) with grid := g.grid, depth := g.depth + 1, vis := g.visTime }

/-- The depth limit of a launch: its own, or the one firmware has set (R332). -/
def State.depthLimit (s : State) (gr : Grid) : Nat := s.fw.depthLimit.getD gr.launch.depthLim

/-- The status of a push that needs no room: DEPTH exceeded. -/
def State.tooDeep (s : State) (g : Group) : Bool := (s.grid? g.grid).any fun gr => s.depthLimit gr < g.depth + 1

/-- The room the group's push finds. -/
def State.pushRoom (s : State) (g : Group) : Room := ((s.grid? g.grid).map s.roomFor).getD .full

/-- TASK (R59, R224, R377). -/
def execTask (m : Bool) (d a : BitVec 7) (s : State) : Result :=
  let o : Operands := { us := d.toNat :: regsFrom a.toNat 16 }
  let rules (x : Site) : Rules :=
    ((s.grid? x.g.grid).map fun gr => s.recordRules gr (x.g.words16 a.toNat)).getD []
  let answered (x : Site) : Option Nat := x.g.push.join
  let waits (x : Site) : Bool := !s.tooDeep x.g && !x.g.speculative && s.pushRoom x.g == .unmapped &&
    (answered x).isNone
  Op.issue
    { m := m, kind := .plain,
      check := fun x _ l => blockFault x l a.toNat (rules x) (operandFault x l o true),
      hold := fun x _ =>
        waits x || s.undecided x.g ||
          (x.g.speculative && !s.tooDeep x.g && 16 ≤ (x.g.spec.map (·.held.length)).getD 0),
      onHold := fun x _ s' =>
        if waits x then
          (s'.modGrid x.g.grid fun gr => { gr with ringWait := true }).modGroup x.g.uid fun g =>
            { g with push := some none }
        else s',
      effect := fun x _ s' =>
        let t := pushedTask x.g a.toNat
        let status (n : Nat) (s : State) : State :=
          s.modGroup x.g.uid fun g => { g.setU d.toNat (BitVec.ofNat 32 n) with push := none }
        if s.tooDeep x.g then status 1 s'
        else if x.g.speculative then
          status 0 (s'.modGroup x.g.uid fun g =>
            { g with spec := g.spec.map fun sp => { sp with held := sp.held ++ [t] } })
        else
          match s.pushRoom x.g with
          | .pool => status 0 (s'.enterPool .pool t)
          | .ring => status 0 (s'.enterPool .ring t)
          | .full => status 2 s'
          | .unmapped => status ((answered x).getD 3) s' }
    s

/-! ## Successor blocks (R63, R64, R225) -/

/-- Bytes as every update with WCT at or below `t` leaves them (R281). -/
def Memory.bytesAt (mem : Memory) (t pa n : Nat) : List Byte :=
  let us := sortBy Update.before (mem.updates.filter (·.wct ≤ t))
  cgets (us.foldl Update.apply mem.cells) pa n

/-- Receives an update of an 8-byte count whose two words take one WCT. -/
def Memory.receiveCount (mem : Memory) (pa : Nat) (new : Nat) (writer : Writer) (source arrival : Nat) :
    Memory × Nat :=
  let mem := mem.reclaim pa 8
  let t := max (mem.wctFor pa writer source true arrival) (mem.wctFor (pa + 4) writer source true arrival)
  let part (k : Nat) : Update :=
    { word := pa + 4 * k, bytes := mapFrom (fun i b => (i, b)) 0 (natLe 4 (new / 2 ^ (32 * k))), wct := t,
      writer := writer, source := source, atomic := true,
      arrival := max (mem.receivedAt pa writer source true arrival) (mem.receivedAt (pa + 4) writer source true arrival) }
  (({ mem with updates := mem.updates ++ [part 0, part 1] } : Memory).rewrites t pa 8, t)

/-- The count of a successor block, after every update received (R286). -/
def Memory.count (mem : Memory) (pa : Nat) : Nat := (mem.latest pa).toNat + 2 ^ 32 * (mem.latest (pa + 4)).toNat

/-- Who released a companion: the grid, the group's team and index, and the team's LCID. -/
structure Releaser where
  grid : Nat
  group : Nat
  team : Nat
  index : Nat
  lcid : Nat

/-- The one fault record of a failed successor update (R63), with LANE 0, and TPC 0 of a companion's too (DESIGN CHOICE,
log 70). -/
def Releaser.record (r : Releaser) (c : Cause) : FaultRec :=
  { team := r.team, group := r.index, lane := 0, lcid := r.lcid, tcause := c.word false, tpc := 0,
    taddr := BitVec.ofNat 64 c.addr }

/-- Releases the companion of a block whose count came to 0 (R63): pushed, kept, or the end of its grid. -/
def State.releaseCompanion (s : State) (r : Releaser) (va pa wct : Nat) : State :=
  let ws := wordsOf (s.mem.bytesAt wct (pa + 64) 64)
  let t : Task := { recordOf ws with grid := r.grid, vis := wct }
  match s.grid? r.grid with
  | none => s
  | some gr =>
    if t.entry = 0 then s
    else if s.recordBad gr ws || s.depthLimit gr < t.depth then
      s.terminateWith r.grid [r.record { Cause.illegalOperand with addr := va }]
    else s.keepTask t true r.group

/-- Adds to the count of a block (R63, R225): below 0 it is left at 0 and an underflow is reported; a sum of 2^64 or
more is a free value (DESIGN CHOICE, log 28). Reserved bytes of the block are passed over (DESIGN CHOICE, log 88). A
count brought to 0 releases the companion. Answers the old count and the WCT. -/
def State.addCount (s : State) (r : Releaser) (va pa : Nat) (addend : Int) (writer : Writer) (arrival : Nat) :
    State × Nat × Nat :=
  let old := s.mem.count pa
  let sum := (old : Int) + addend
  let (n, s) := s.newFresh
  let new := if sum < 0 then 0 else if 2 ^ 64 ≤ sum then (Config.freeDWord n).toNat else sum.toNat
  let (mem, t) := s.mem.receiveCount pa new writer r.group arrival
  let s1 : State := { s with mem := mem }
  let s2 := if sum < 0 then s1.event 1 va [] else s1
  let s3 := if old ≠ 0 ∧ sum = 0 then s2.releaseCompanion r va pa t else s2
  (s3, old, t)

/-- What a successor update meets at its block: as an atomic, on a page of local HBM or bank memory (R63, R225), against
a table of range locks; a retirement decrement is no thread access and meets none (R200). -/
def State.meetBlock (s : State) (locks : List Lock) (core grid va : Nat) : Met :=
  match s.xlatG core grid va with
  | .ok p => if !p.home then .fault (Cause.address va) else s.meetWith locks core grid va 8 .rmw
  | _ => s.meetWith locks core grid va 8 .rmw

/-- The reserved bytes 8 to 63 of a block are not all 0, after every update received (R12, R63). -/
def Memory.blockReserved (mem : Memory) (pa : Nat) : Bool :=
  let us := sortBy Update.before (mem.updates.filter fun u => pa < u.word + 4 && u.word < pa + 64)
  (cgets (us.foldl Update.apply mem.cells) (pa + 8) 56).any (· != 0)

/-- TSUCC (R225): on a word of the launch, by the lowest active lane (R285). A block whose reserved bytes are not 0 is an
illegal operand (R12; DEDUCED, log 68). The old count it brings was left by updates that are then visible (R64). -/
def execTsucc (m : Bool) (d a b : BitVec 7) (s : State) : Result :=
  let va (x : Site) : Nat := (x.g.uPair a.toNat).toNat
  let meeting (x : Site) : Met := s.meetBlock (s.core (s.coreOf x.g.team)).locks (s.coreOf x.g.team) x.g.grid (va x)
  let reserved (x : Site) : Option Cause :=
    if ((meeting x).place?).any fun p => s.mem.blockReserved p.pa then some Cause.illegalOperand else none
  let us := [a.toNat, a.toNat + 1, b.toNat, d.toNat, d.toNat + 1]
  Op.issue
    { m := m, kind := .plain, check := fun x _ l => operandFault x l { us := us } true,
      fault := fun x _ _ =>
        if va x % 128 != 0 || 2 ^ 48 ≤ va x then some (Cause.address (va x)) else (meeting x).cause.or (reserved x),
      wait := fun x => s.keepsBack x.g,
      effect := fun x good s' =>
        match meeting x with
        | .fault _ => s'
        | .service _ => s'.holdForService x good (va x) [d.toNat, d.toNat + 1]
        | .place p =>
          let (top, s1) :=
            ((s'.cacheXlat (s.coreOf x.g.team) (s.rootOf x.g.grid) (va x)).reachHome p true 8).performEarlier x.g.uid
              (fun lane => lane.all good.getLsbD) p.pa 8
          let (arr, s2) := s1.arrival
          let t := s.team? x.g.team
          let r : Releaser :=
            { grid := x.g.grid, group := x.g.uid, team := (t.map (·.index)).getD 0, index := x.g.index,
              lcid := (t.map (·.lcid)).getD 0 }
          let (s3, old, wct) :=
            s2.addCount r (va x) p.pa (x.g.u b.toNat).toInt (s.writerOf x.g (lowestLane good) good) (max top arr)
          let s4 := s3.modGroup x.g.uid fun g => g.onLanes good fun _ l => l.raiseLwct wct
          s4.awaitFrom {} wct x.g.uid none [d.toNat, d.toNat + 1]
            (.value [{ reg := d.toNat, bits := BitVec.ofNat 32 old, tag := 0 },
                     { reg := d.toNat + 1, bits := BitVec.ofNat 32 (old / 2 ^ 32), tag := 0 }]) }
    s

/-- TSTAT (R226). -/
def execTstat (m : Bool) (d k : BitVec 7) (s : State) : Result :=
  (groupOp m [d.toNat] fun x _ g =>
    let gr := s.grid? x.g.grid
    let v : Nat := match k.toNat with
      | 0 => s.pool.length
      | 1 => (gr.map (·.ring.length)).getD 0
      | 2 => (gr.map (·.launch.ringCap)).getD 0
      | _ => x.g.depth + 16 * (gr.map s.depthLimit).getD 0
    g.setU d.toNat (BitVec.ofNat 32 v)).issue s

/-! ## Spill, ring pages and kept records (R59, R60, R63, R379) -/

/-- The oldest spilled record of all rings (R334). -/
def State.oldestSpilled (s : State) : Option Task :=
  (s.grids.filterMap fun g => g.ring.head?).foldl
    (fun best t => match best with
      | none => some t
      | some b => if t.order < b.order then some t else some b) none

/-- SPILL_REFILL (R60, R334): the grid's oldest spilled record, if it is the oldest of all, enters the pool. -/
def execSpillRefill (grid : Nat) (s : State) : Result :=
  match s.oldestSpilled with
  | none => .next s
  | some t =>
    if t.grid = grid ∧ s.pool.length < Config.poolRecords then
      .next { s.modGrid grid fun gr => { gr with ring := gr.ring.tail } with
              pool := s.pool ++ [{ t with since := s.gtime }] }
    else .next s

/-- RING_PAGE_MAPPED (R59, R224): firmware maps the ring's next page (DESIGN CHOICE, log 19), or cannot: the held pushes
return UNMAPPED. -/
def execRingPageMapped (grid : Nat) (ok : Bool) (s : State) : Result :=
  if !(s.grid? grid).any (·.ringWait) then .next s
  else
    let s1 := s.modGrid grid fun gr =>
      { gr with ringWait := false, ringMapped := if ok then min (gr.ringMapped + 1024) gr.launch.ringCap
                                                 else gr.ringMapped }
    .next { s1 with groups := s1.groups.map fun g =>
              if g.grid = grid ∧ g.push = some none then { g with push := if ok then none else some (some 3) } else g }

/-- Retries a kept record. One that spills takes its place among the spilled records at this retry (R334; DESIGN CHOICE,
log 101). -/
def State.retryKept (s : State) (k : Kept) : State :=
  match s.grid? k.task.grid with
  | none => s
  | some gr =>
    let drop (s : State) : State := { s with kept := s.kept.filter (·.task.uid != k.task.uid) }
    match s.roomFor gr with
    | .pool => drop (s.enterPool .pool k.task)
    | .ring => drop (s.enterPool .ring k.task)
    | .full => s
    | .unmapped => s.modGrid gr.uid fun gr => { gr with ringWait := true }

/-- COMPANION_RETRY (R63). -/
def execCompanionRetry (record : Nat) (s : State) : Result :=
  match s.kept.find? fun k => k.task.uid == record && k.companion with
  | none => .next s
  | some k => .next (s.retryKept k)

/-- HELD_RECORD_RETRY (R379): the first kept record of a committed group. -/
def execHeldRecordRetry (group : Nat) (s : State) : Result :=
  match s.kept.find? fun k => k.group == group && !k.companion with
  | none => .next s
  | some k => .next (s.retryKept k)

/-! ## Retirement (R57, R63) -/

/-- Every engine operation that a group issued has completed. -/
def State.opsDone (s : State) (group : Nat) : Bool := !s.cores.any fun c => c.ops.any (·.group == group)

/-- The lanes' writes are visible and acknowledged (R57). -/
def State.writesDone (s : State) (r : Retiring) : Bool :=
  r.lwct ≤ s.gtime && s.remotesAcked r.group (BitVec.allOnes 32)

/-- A group that is speculative, committing or doomed keeps its entry (R377, R379). -/
def Retiring.heldBack (r : Retiring) : Bool := r.spec.any fun sp => 0 < sp.level

/-- An entry's decrement may be made now: once, after the group's own and its engines' writes have their WCTs (R63;
DEDUCED, log 33). -/
def State.decrementDue (s : State) (r : Retiring) : Bool :=
  r.decrement.isNone && !r.heldBack && s.remotesAcked r.group (BitVec.allOnes 32) && s.opsDone r.group

/-- The outcome of an entry's decrement is known. -/
def State.settleDecrement (s : State) (group : Nat) (out : Option Nat) : State :=
  { s with retiring := s.retiring.map fun q => if q.group = group then { q with decrement := some out } else q }

/-- Who releases by a retirement decrement. -/
def State.releaser (s : State) (r : Retiring) : Releaser :=
  { grid := r.grid, group := r.group, team := ((s.team? r.team).map (·.index)).getD 0, index := r.index, lcid := r.lcid }

/-- A decrement that fails changes no count and ends the grid with one record (R63). -/
def State.failDecrement (s : State) (r : Retiring) (c : Cause) : State :=
  (s.settleDecrement r.group none).terminateWith r.grid [(s.releaser r).record { c with addr := r.succ }]

/-- SUCCESSOR_DECREMENT (R63): with a WCT greater than those of the group's writes. An entry without a successor block
settles at once. Damaged count bytes end the grid as a failure does (DESIGN CHOICE, log 69). -/
def execSuccessorDecrement (core group : Nat) (s : State) : Result :=
  match s.retiring.find? fun r => r.core == core && r.group == group with
  | none => .next s
  | some r =>
    if !s.decrementDue r then .next s
    else if r.succ = 0 then .next (s.settleDecrement group none)
    else
      match s.meetBlock [] r.core r.grid r.succ with
      | .fault c => .next (s.failDecrement r c)
      | .service _ => .next s
      | .place p =>
        let (arr, s1) := ((s.cacheXlat r.core (s.rootOf r.grid) r.succ).reachHome p true 8).arrival
        let who := s.releaser r
        let writer : Writer :=
          { cls := 1, chip := s.chipId, lcid := r.lcid, team := who.team, group := r.index, lane := 32 }
        let (s2, _, t) := s1.addCount who r.succ p.pa (-1) writer (max arr r.lwct)
        .next (s2.settleDecrement group (some t))

/-- Some slots become EMPTY: they have no owner and belong to no span, and keep TAG, SPK and BANDB of their last BLOAD
(R241). -/
def Core.releaseSlots (c : Core) (p : WSlot → Bool) : Core :=
  { c with slots := c.slots.map fun (n, w) => if p w then (n, { w with state := .empty, owner := 0, head := n }) else (n, w) }

/-- A team loses its spans (R241). Its scale packets stay in their queues: only TDSET and a save discard
them (R266; DEDUCED, log 82). -/
def Core.loseTeam (c : Core) (team : Nat) : Core := c.releaseSlots fun w => w.owner == team

/-- The scale packets of a team's groups are discarded, at its save (R263). -/
def Core.dropPackets (c : Core) (team : Nat) : Core := { c with packets := c.packets.filter (·.team != team) }

/-- Teams leave the part. -/
def State.removeTeams (s : State) (teams : List Nat) : State :=
  { s with teams := s.teams.filter fun u => !teams.contains u.uid,
           groups := s.groups.filter fun g => !teams.contains g.team,
           cores := s.cores.map fun c => teams.foldl Core.loseTeam c }

/-- A team with no group and no tracker entry left, whose matrix operations are done, is complete (R60, R261). The teams
of a cluster, whose members may still use its scratchpad, leave their cores together (DEDUCED, log 32). -/
def State.dropTeam (s : State) (team : Nat) : State :=
  match s.team? team with
  | none => s
  | some t =>
    let mates := s.clusterTeams t
    if (s.groups.any fun g => mates.contains g.team) || s.retiring.any (fun r => mates.contains r.team) ||
        (s.cores.any fun c => c.matrix.any fun o => mates.contains o.team) ||
        (s.grid? t.grid).any (·.terminating) then s
    else s.removeTeams mates

/-- TRACKER_ENTRY_FREE (R57). -/
def execTrackerEntryFree (core group : Nat) (s : State) : Result :=
  match s.retiring.find? fun r => r.core == core && r.group == group with
  | none => .next s
  | some r =>
    if r.decrement.isSome && s.writesDone r && s.opsDone group then
      .next (({ s with retiring := s.retiring.filter (·.group != group) } : State).dropTeam r.team)
    else .next s

end Sys2Proof.Machine
end

