-- ==== Sys2Proof/Machine/Engines.lean ====
section
/-!
DEFINITION. Engine operations at issue (R214 to R223, R292, R364): descriptors, their checks, range locks and handles;
prefetch and the status of operations.
-/

namespace Sys2Proof.Machine

/-! ## Descriptors -/

/-- R214: an address field that is out of its range: a global address with a bit above 47, or a scratchpad address
with a nonzero high word. -/
def badAddrField (ws : List Word) (i : Nat) (scratch : Bool) : Bool :=
  if scratch then wd ws (i + 1) != 0 else 2 ^ 48 ≤ wd64 ws i

/-- Each word from `i` to `j` must be 0. -/
def zeroRules (ws : List Word) (i j : Nat) : Rules :=
  (List.range (j + 1 - i)).map fun k => ([i + k], wd ws (i + k) != 0)

/-- The address field at word `i` is in its range (R214), whatever the flag of word 0 that says `scratch`, and then with
it. -/
def addrRules (ws : List Word) (i : Nat) (scratch : Bool) : Rules :=
  [([i + 1], 2 ^ 16 ≤ wd ws (i + 1)), ([0, i + 1], badAddrField ws i scratch)]

/-- Cluster members of a mask. -/
def membersOf (mask : Nat) : List Nat := (List.range 12).filter fun k => bitsOf mask k 1 == 1

/-! ### Copies (R217) -/

def cpyBytes (ws : List Word) : Nat := wd ws 6

/-- The checks of R217 that the descriptor alone decides, each with the words that it is read from. -/
def cpyRules (img : Image) (ws : List Word) : Rules :=
  [([0], bitsOf (wd ws 0) 0 8 != 1), ([0], 2 ^ 13 ≤ wd ws 0)] ++ addrRules ws 2 (cpySSP ws) ++
    addrRules ws 4 (cpyDSP ws) ++
    ([([9], 2 ^ 48 ≤ wd64 ws 8), ([6], cpyBytes ws < 16), ([6], 2 ^ 30 < cpyBytes ws),
      ([6], cpyBytes ws % 16 != 0)] : Rules) ++
    zeroRules ws 7 7 ++ zeroRules ws 13 15 ++
    ([([0, 8], !cpyCBW ws && wd ws 8 != 0), ([0, 9], !cpyCBW ws && wd ws 9 != 0), ([0], cpyMCAST ws && !cpyDSP ws),
      ([0, 11], cpyMCAST ws && 2 ^ (img.width * img.height) ≤ wd ws 11), ([0, 11], !cpyMCAST ws && wd ws 11 != 0),
      ([0], cpyDTRUG ws && !cpyDSP ws), ([0, 4], cpyDTRUG ws && wd ws 4 != 0),
      ([0, 5], cpyDTRUG ws && wd ws 5 != 0), ([0, 12], !cpyDTRUG ws && wd ws 12 != 0)] : Rules)

/-- R217 refuses the descriptor. -/
def cpyBad (img : Image) (ws : List Word) : Bool := (cpyRules img ws).any (·.2)

/-- A scratchpad destination under MCAST is an offset in every member (R217). -/
def anyMember (address : Nat) : Nat := 0xF0000000 + address % 2 ^ 28

/-- The first address of a descriptor that breaks its alignment or its space, in field order (R214, DEDUCED, log 34). -/
def firstBad (xs : List (Nat × Bool)) : Option Nat := (xs.find? fun (_, bad) => bad).map fun (a, _) => a

/-- The check of a barrier address: 0 for none (R208, DEDUCED, log 34). -/
def badBarrier (img : Image) (t : Team) (address : Nat) : Bool :=
  address != 0 && (barrierOffset img t address).isNone

/-- The address faults of a copy. -/
def State.cpyAddress (s : State) (img : Image) (t : Team) (ws : List Word) : Option Nat :=
  let n := cpyBytes ws
  let sa := wd64 ws 2
  let da := wd64 ws 4
  firstBad
    [(wd ws 1, badBarrier img t (wd ws 1)),
     (sa, sa % 16 != 0 || (cpySSP ws && (s.scratchPlace img t sa n).isNone)),
     (da, !cpyDTRUG ws && (da % 16 != 0 ||
        (cpyDSP ws && (s.scratchPlace img t (if cpyMCAST ws then anyMember da else da) n).isNone))),
     (wd64 ws 8, wd64 ws 8 % 8 != 0),
     (wd ws 12, cpyDTRUG ws && (s.trugPlace img t (wd ws 12)).isNone)]

/-- The checks of R217 against the trug. -/
def State.cpyTrugBad (s : State) (img : Image) (t : Team) (ws : List Word) : Bool :=
  cpyDTRUG ws &&
    match s.trugPlace img t (wd ws 12) with
    | none => false
    | some (u, off) =>
      cpyBytes ws % u.trugSize off != 0 || (cpyMCAST ws && wd ws 11 != u.trugConsumers off)

/-! ### Gathers and scatters (R219) -/

def gsCSP (ws : List Word) : Bool := flagOf ws 8
def gsTSP (ws : List Word) : Bool := flagOf ws 9
def gsIndex (ws : List Word) : Bool := flagOf ws 10
def gsSize (ws : List Word) : Nat := 2 ^ bitsOf (wd ws 0) 16 3
def gsBytes (ws : List Word) : Nat := wd ws 6 * wd ws 7 * wd ws 8 * gsSize ws

/-- The checks of R219, each with the words that it is read from. -/
def gsRules (kind : Nat) (ws : List Word) : Rules :=
  [([0], bitsOf (wd ws 0) 0 8 != kind), ([0], bitsOf (wd ws 0) 11 5 != 0), ([0], 2 ^ 19 ≤ wd ws 0),
    ([0], 16 < gsSize ws)] ++ addrRules ws 2 (gsCSP ws) ++ addrRules ws 4 (gsTSP ws) ++
    ([([6], wd ws 6 = 0), ([7], wd ws 7 = 0), ([8], wd ws 8 = 0), ([0, 6, 7, 8], 2 ^ 30 < gsBytes ws),
      ([13], 2 ^ 48 ≤ wd64 ws 12), ([0, 12], !gsIndex ws && wd ws 12 != 0),
      ([0, 13], !gsIndex ws && wd ws 13 != 0)] : Rules) ++ zeroRules ws 14 15

/-- R219 refuses the descriptor. -/
def gsBad (kind : Nat) (ws : List Word) : Bool := (gsRules kind ws).any (·.2)

def State.gsAddress (s : State) (img : Image) (t : Team) (ws : List Word) : Option Nat :=
  firstBad
    [(wd ws 1, badBarrier img t (wd ws 1)),
     (wd64 ws 2, gsCSP ws && (s.scratchPlace img t (wd64 ws 2) (gsBytes ws)).isNone),
     (wd64 ws 12, wd64 ws 12 % 4 != 0)]

/-- The address of strided element (j, i1, i2) of R219, exactly. -/
def gsStrided (ws : List Word) (j i1 i2 : Nat) : Int :=
  let st (k : Nat) : Int := ((ws[k]?).getD 0).toInt
  (wd64 ws 4 : Int) + j * st 11 + i1 * st 9 + i2 * st 10

/-- The lowest and highest byte of the strided side, given the least and greatest j. -/
def gsSpan (ws : List Word) (jlo jhi : Nat) : Nat × Nat :=
  let corners := [jlo, jhi].flatMap fun j => [0, wd ws 7 - 1].flatMap fun i1 => [0, wd ws 8 - 1].map fun i2 =>
    gsStrided ws j i1 i2
  ((corners.foldl min (gsStrided ws jlo 0 0)).toNat,
   (corners.foldl max (gsStrided ws jlo 0 0)).toNat + (gsSize ws - 1))

/-! ### Bank memory operations (R220, R221) -/

def bankSize (bf16 : Bool) : Nat := if bf16 then 2 else 4
def bopOp (ws : List Word) : Nat := bitsOf (wd ws 0) 8 2

/-- The checks of R220, each with the words that it is read from. -/
def bankopRules (ws : List Word) : Rules :=
  [([0], bitsOf (wd ws 0) 0 8 != 5), ([0], bopOp ws == 3), ([0], 2 ^ 11 ≤ wd ws 0), ([3], 2 ^ 48 ≤ wd64 ws 2),
    ([5], 2 ^ 48 ≤ wd64 ws 4), ([7], 2 ^ 48 ≤ wd64 ws 6), ([0, 4], bopOp ws == 2 && wd ws 4 != 0),
    ([0, 5], bopOp ws == 2 && wd ws 5 != 0), ([8], wd ws 8 = 0), ([8], 2 ^ 28 < wd ws 8),
    ([0, 9], bopOp ws == 1 && wd ws 9 != 0)] ++ zeroRules ws 10 15

/-- R220 refuses the descriptor. -/
def bankopBad (ws : List Word) : Bool := (bankopRules ws).any (·.2)

def bankopAddress (img : Image) (t : Team) (ws : List Word) : Option Nat :=
  let n := bankSize (flagOf ws 10)
  firstBad [(wd ws 1, badBarrier img t (wd ws 1)), (wd64 ws 2, wd64 ws 2 % n != 0), (wd64 ws 4, wd64 ws 4 % n != 0),
            (wd64 ws 6, wd64 ws 6 % n != 0)]

def bredFmt (ws : List Word) : Nat := bitsOf (wd ws 0) 10 2
def bredCount (ws : List Word) : Nat := wd ws 4

/-- The checks of R221, each with the words that it is read from. -/
def bankredRules (ws : List Word) : Rules :=
  [([0], bitsOf (wd ws 0) 0 8 != 6), ([0], bopOp ws == 3), ([0], bredFmt ws == 3), ([0], 2 ^ 12 ≤ wd ws 0),
    ([3], 2 ^ 48 ≤ wd64 ws 2), ([4], bredCount ws < 2), ([4], 8 < bredCount ws), ([7], 2 ^ 48 ≤ wd64 ws 6),
    ([8], wd ws 8 = 0), ([8], 2 ^ 28 < wd ws 8)] ++ zeroRules ws 5 5 ++ zeroRules ws 9 15

/-- R221 refuses the descriptor. -/
def bankredBad (ws : List Word) : Bool := (bankredRules ws).any (·.2)

def bankredAddress (img : Image) (t : Team) (ws : List Word) : Option Nat :=
  firstBad [(wd ws 1, badBarrier img t (wd ws 1)), (wd64 ws 2, wd64 ws 2 % 8 != 0),
            (wd64 ws 6, wd64 ws 6 % bankSize (bredFmt ws == 1) != 0)]

/-! ### Collectives and espalier maps (R222, R364) -/

/-- The fields of a collective, from the descriptor and the map. -/
structure Coll where
  ckind : Nat
  op : Nat
  fmt : Nat
  esp : Bool
  nmem : Nat
  rank : Nat
  root : Nat
  bytes : Nat
  chunk : Nat
  send : Nat
  recv : Nat
  deriving DecidableEq, Repr

def collOf (ws : List Word) (map : List Byte) : Coll :=
  let esp := flagOf ws 15
  { ckind := bitsOf (wd ws 0) 8 3, op := bitsOf (wd ws 0) 11 2, fmt := bitsOf (wd ws 0) 13 2, esp := esp,
    nmem := wd ws 4, rank := bitsOf (wd ws 5) 0 8, root := bitsOf (wd ws 5) 8 8, bytes := wd ws 10,
    chunk := if esp then fieldAt map 0x28 4 else wd ws 11,
    send := if esp then fieldAt map 0x18 8 else wd64 ws 6, recv := if esp then fieldAt map 0x20 8 else wd64 ws 8 }

/-- A chunk size out of range (R222, R364). -/
def badChunk (n : Nat) : Bool := n < 256 || 65536 < n || n % 256 != 0

/-- The checks of R222, each with the words that it is read from. -/
def collRules (ws : List Word) : Rules :=
  let c := collOf ws []
  [([0], bitsOf (wd ws 0) 0 8 != 4), ([0], 4 < c.ckind), ([0], c.op == 3), ([0], c.fmt == 3), ([0], 2 ^ 16 ≤ wd ws 0),
    ([3], 2 ^ 48 ≤ wd64 ws 2), ([4], c.nmem < 2), ([4], 256 < c.nmem), ([5], 2 ^ 16 ≤ wd ws 5),
    ([4, 5], c.nmem ≤ c.rank), ([4, 5], c.nmem ≤ c.root), ([7], 2 ^ 48 ≤ wd64 ws 6), ([9], 2 ^ 48 ≤ wd64 ws 8),
    ([13], 2 ^ 48 ≤ wd64 ws 12), ([0], c.esp && c.ckind != 0), ([0, 10], !c.esp && c.bytes % 256 != 0),
    ([0, 11], !c.esp && badChunk (wd ws 11))] ++ zeroRules ws 14 15 ++
    ([6, 7, 8, 9, 10, 11].map fun k => ([0, k], c.esp && wd ws k != 0)) ++
    ([12, 13].map fun k => ([0, k], !c.esp && wd ws k != 0))

/-- R222 refuses the descriptor. -/
def collBad (ws : List Word) : Bool := (collRules ws).any (·.2)

def collAddress (img : Image) (t : Team) (ws : List Word) : Option Nat :=
  firstBad [(wd ws 1, badBarrier img t (wd ws 1)), (wd64 ws 2, wd64 ws 2 % 64 != 0), (wd64 ws 6, wd64 ws 6 % 256 != 0),
            (wd64 ws 8, wd64 ws 8 % 256 != 0), (wd64 ws 12, wd64 ws 12 % 64 != 0)]

/-- Fields of a map (R364). -/
def mapExt (map : List Byte) (a : Nat) : Nat := fieldAt map (4 * a) 4
def mapNdim (map : List Byte) : Nat := fieldAt map 0x10 1
def mapSize (map : List Byte) : Nat := 2 ^ fieldAt map 0x11 1
def mapSsplit (map : List Byte) : Nat := fieldAt map 0x14 1
def mapDsplit (map : List Byte) : Nat := fieldAt map 0x16 1

/-- The axes of an order byte, fastest first. -/
def orderOf (b : Nat) : List Nat := [bitsOf b 0 2, bitsOf b 2 2, bitsOf b 4 2, bitsOf b 6 2]

def isPerm (o : List Nat) : Bool := (List.range 4).all o.contains

/-- The extents' product. -/
def mapElements (map : List Byte) : Nat := ((List.range 4).map (mapExt map)).foldl (· * ·) 1

/-- What a map is refused for (R364). -/
def mapBad (map : List Byte) (nmem : Nat) : Bool :=
  let axes := List.range 4
  let dims := mapNdim map
  (axes.any fun a => mapExt map a = 0 || 2 ^ 24 < mapExt map a || (dims ≤ a && mapExt map a != 1)) || dims < 2 ||
    4 < dims || 4 < fieldAt map 0x11 1 || fieldAt map 0x12 2 != nmem || dims ≤ mapSsplit map || dims ≤ mapDsplit map ||
    mapSsplit map == mapDsplit map || !isPerm (orderOf (fieldAt map 0x15 1)) || !isPerm (orderOf (fieldAt map 0x17 1)) ||
    2 ^ 48 ≤ fieldAt map 0x18 8 || 2 ^ 48 ≤ fieldAt map 0x20 8 || badChunk (fieldAt map 0x28 4) ||
    ((map.drop 0x2C).any (· != 0)) || mapExt map (mapSsplit map) % nmem != 0 || mapExt map (mapDsplit map) % nmem != 0 ||
    2 ^ 30 < mapElements map / nmem * mapSize map

/-- The addresses of a map that break their alignment. -/
def mapAddress (map : List Byte) : Option Nat :=
  firstBad [(fieldAt map 0x18 8, fieldAt map 0x18 8 % 256 != 0), (fieldAt map 0x20 8, fieldAt map 0x20 8 % 256 != 0)]

/-- The bytes a rank reads and writes (R361, R365). -/
def collSpans (c : Coll) (map : List Byte) : Nat × Nat :=
  if c.esp then
    let n := mapElements map / c.nmem * mapSize map
    (n, n)
  else
    match c.ckind with
    | 0 => (c.nmem * c.bytes, c.nmem * c.bytes)
    | 1 => (c.bytes, c.nmem * c.bytes)
    | 2 => (c.nmem * c.bytes, c.bytes)
    | 3 => (c.bytes, c.bytes)
    | _ => (if c.rank = c.root then c.bytes else 0, c.bytes)

/-! ## Range locks (R214, R292) -/

/-- A span that an operation touches: write, scratchpad, lowest byte, length. -/
structure Span where
  write : Bool
  scratch : Bool
  low : Nat
  len : Nat
  deriving DecidableEq, Repr

/-- One entry for each kind and space touched, over all the spans of that kind and space (R292). -/
def locksOf (matrix : Bool) (owner : Nat) (spans : List Span) : List Lock :=
  [(false, false), (false, true), (true, false), (true, true)].filterMap fun (w, sp) =>
    let mine := spans.filter fun k => k.write == w && k.scratch == sp && 0 < k.len
    match mine with
    | [] => none
    | k :: rest =>
      some { write := w, scratch := sp, low := rest.foldl (fun a q => min a q.low) k.low,
             high := rest.foldl (fun a q => max a (q.low + q.len - 1)) (k.low + k.len - 1), matrix := matrix,
             owner := owner }

/-- The slots a copy into a trug will take from HEAD on, as a span of the issuing core's own scratchpad, if it is a
consumer (R217, DEDUCED, log 35). -/
def State.trugSpan (s : State) (img : Image) (t : Team) (ws : List Word) : List Span :=
  match s.trugPlace img t (wd ws 12) with
  | none => []
  | some (u, off) =>
    let n := u.trugSlots off
    let size := u.trugSize off
    let k := cpyBytes ws / size
    let h := u.trugHead off
    if bitsOf (u.trugConsumers off) t.member 1 = 0 then []
    else if h + k ≤ n then [⟨true, true, anyMember (u.trugBase off + h * size), k * size⟩]
    else [⟨true, true, anyMember (u.trugBase off), n * size⟩]

/-- The spans of a copy (R217, R292). -/
def State.cpySpans (s : State) (img : Image) (t : Team) (ws : List Word) : List Span :=
  let n := cpyBytes ws
  let scr (a : Nat) : Nat := normScratch t.member a
  let src : Span := ⟨false, cpySSP ws, if cpySSP ws then scr (wd64 ws 2) else wd64 ws 2, n⟩
  src ::
    (if cpyDTRUG ws then s.trugSpan img t ws
     else if cpyMCAST ws then
       (if bitsOf (wd ws 11) t.member 1 = 1 then [⟨true, true, anyMember (wd64 ws 4), n⟩] else [])
     else [⟨true, cpyDSP ws, if cpyDSP ws then scr (wd64 ws 4) else wd64 ws 4, n⟩])

/-- The bytes from an address to its 512-byte boundary. -/
def toBoundary (a : Nat) : Nat := 512 - a % 512

/-- What reading a list at issue comes to: its bytes, as far as it can be read; the next piece to ask of another chip or
of the node; or a piece on its way. -/
inductive ListRead where
  | bytes (bs : List Byte)
  | ask (got : List Byte) (p : Place) (va n : Nat)
  | awaited

/-- The bytes of a read. -/
def ListRead.got : ListRead → List Byte
  | .bytes bs => bs
  | .ask bs _ _ _ => bs
  | .awaited => []

/-- A read that keeps its instruction from issuing. -/
def ListRead.holds : ListRead → Bool
  | .bytes _ => false
  | _ => true

/-- Reads on from `acc`, `left` bytes more, in pieces of a 512-byte block. -/
def State.readRun (s : State) (core grid va : Nat) : Nat → Nat → List Byte → ListRead
  | 0, _, acc => .bytes acc
  | k + 1, left, acc =>
    let a := va + acc.length
    let n := min left (toBoundary a)
    if left = 0 then .bytes acc
    else
      match s.xlatG core grid a with
      | .ok p =>
        if !p.home then .ask acc p a n
        else if s.gtime < s.mem.ingressUntil p.pa n then .awaited
        else s.readRun core grid va k (left - n) (acc ++ s.peek p.pa n)
      | _ => .bytes acc

/-- What the group's held instruction at `pc` has read from `va` on. -/
def Group.heldAt (g : Group) (pc : Addr) (va : Nat) : Option HeldRead :=
  g.held.filter fun h => h.pc == pc && h.va == va

/-- Reads a list that decides the spans of an operation, as it stands at issue (R214; DEDUCED, log 36). The instruction
is held while pieces of it come from another chip or the node. -/
def State.readList (s : State) (x : Site) (va n : Nat) : ListRead :=
  match x.g.heldAt x.pc va with
  | none => s.readRun (s.coreOf x.g.team) x.g.grid va (n / 512 + 2) n []
  | some h =>
    if h.request.isSome then .awaited
    else if h.refused != 0 then .bytes h.bytes
    else s.readRun (s.coreOf x.g.team) x.g.grid va (n / 512 + 2) (n - h.bytes.length) h.bytes

/-- Asks for a piece of what a held instruction reads from `va` on. -/
def State.askHeld (s : State) (x : Site) (va : Nat) (got : List Byte) (p : Place) (a n : Nat) : State :=
  let (id, s1) := s.request (remoteTo x p pkRead a n [] 0)
  s1.modGroup x.g.uid fun g =>
    { g with held := some { pc := x.pc, va := va, request := some id, refused := 0, bytes := got } }

/-- The issue of an instruction that may be held for what it reads: once it is not held, that is dropped. -/
def Op.issueHeld (o : Op) (s : State) : Result :=
  match o.issue s with
  | .next t => .next (t.modGroup s.cur fun g => if g.blocked then g else { g with held := none })
  | r => r

/-- 32-bit indices of a list. -/
def indicesOf (bs : List Byte) : List Nat := (wordsOf bs).map (·.toNat)

/-- The spans of a gather or scatter (R219, R292). -/
def gsSpans (t : Team) (kind : Nat) (ws : List Word) (list : List Byte) : List Span :=
  let js := if gsIndex ws then indicesOf list else [0, wd ws 6 - 1]
  let scr (sp : Bool) (a : Nat) : Nat := if sp then normScratch t.member a else a
  let cont : Span := ⟨kind == 2, gsCSP ws, scr (gsCSP ws) (wd64 ws 2), gsBytes ws⟩
  let strided : List Span :=
    match js with
    | [] => []
    | j :: rest =>
      let (lo, hi) := gsSpan ws (rest.foldl min j) (rest.foldl max j)
      [⟨kind == 3, gsTSP ws, scr (gsTSP ws) lo, hi + 1 - lo⟩]
  cont :: strided ++ (if gsIndex ws then [⟨false, false, wd64 ws 12, 4 * wd ws 6⟩] else [])

def bankopSpans (ws : List Word) : List Span :=
  let n := wd ws 8 * bankSize (flagOf ws 10)
  [⟨false, false, wd64 ws 2, n⟩, ⟨true, false, wd64 ws 6, n⟩] ++
    (if bopOp ws = 2 then [] else [⟨false, false, wd64 ws 4, n⟩])

/-- The source addresses of a list of 8-byte words. -/
def sourcesOf : List Byte → Nat → List Nat
  | _, 0 => []
  | bs, n + 1 => leNat (bs.take 8) :: sourcesOf (bs.drop 8) n

/-- The spans of a reduction over the sources of its list (R221, R292). -/
def bankredSpans (ws : List Word) (bs : List Byte) : List Span :=
  let n := wd ws 8 * bankSize (bredFmt ws == 1)
  [⟨false, false, wd64 ws 2, 8 * bredCount ws⟩, ⟨true, false, wd64 ws 6, n⟩] ++
    (sourcesOf bs (bs.length / 8)).map fun a => ⟨false, false, a, n⟩

def collLocks (ws : List Word) (map : List Byte) : List Span :=
  let c := collOf ws map
  let (r, w) := collSpans c map
  [⟨false, false, c.send, r⟩, ⟨true, false, c.recv, w⟩]

/-! ## Issue (R214, R215) -/

/-- The next handle not in use, from `h` (R214, R333). -/
def pickHandle (used : List Nat) : Nat → Nat → Nat
  | 0, h => h
  | n + 1, h => if used.contains h then pickHandle used n (h % 65535 + 1) else h

/-- A new operation. -/
def EngOp.new (x : Site) (t : Team) (writer : Writer) (handle kind : Nat) (ws : List Word) : EngOp :=
  { handle := handle, kind := kind, group := x.g.uid, team := t.uid, grid := x.g.grid, member := t.member,
    writer := writer, words := ws, begun := false, waiting := kind == 1 && cpyCBW ws, bound := none, paused := false,
    progress := 0, lastWct := 0, run := none, list := [], map := [], reading := none, data := [], number := 0,
    peers := [], parts := [], work := none, lease := x.g.leaseovr, trugSlot := none, version := 0, pred := false, silent := false,
    outcome := none }

/-- Starts an operation: its locks, its handle in S[d] (R214). -/
def State.startOp (s : State) (x : Site) (d kind : Nat) (ws : List Word) (spans : List Span) (f : EngOp → EngOp) :
    State :=
  match s.team? x.g.team with
  | none => s
  | some t =>
    let core := t.core.getD 0
    let c := s.core core
    let h := pickHandle (c.ops.map (·.handle)) (c.ops.length + 1) c.nextHandle
    let op := f (EngOp.new x t (s.writer x.g 32) h kind ws)
    let s1 := s.modCore core fun c =>
      { c with ops := c.ops ++ [op], nextHandle := h % 65535 + 1, locks := c.locks ++ locksOf false h spans }
    let s2 := s1.modTeam t.uid fun t => { t with ended := t.ended.filter (· != h), stale := t.stale.filter (· != h) }
    s2.modGroup x.g.uid fun g => g.setU d (BitVec.ofNat 32 h)

/-- Whether the core lacks free entries for the spans (R214, R292). -/
def State.lockFull (s : State) (core : Nat) (spans : List Span) : Bool :=
  let need := (locksOf false 0 spans).length
  0 < need && 64 < (s.core core).locks.length + need

/-- An ENG operation with a 64-byte descriptor: the illegal operands that the registers decide, the address faults, the
illegal operands that memory decides, the list that the spans rest on (address and bytes), and the spans. -/
def descOp (m : Bool) (now : State) (d a kind : Nat) (bad : Site → List Word → Rules)
    (addr : Site → Team → List Word → Option Nat) (bad2 : Site → Team → List Word → Bool)
    (list : List Word → Nat × Nat) (spans : Site → Team → List Word → List Byte → List Span) : Op :=
  let o : Operands := { us := d :: regsFrom a 16 }
  let read (x : Site) : ListRead := now.readList x (list (x.g.words16 a)).1 (list (x.g.words16 a)).2
  let spansOf (x : Site) : List Span :=
    ((now.team? x.g.team).map fun t => spans x t (x.g.words16 a) (read x).got).getD []
  { m := m, kind := .plain,
    check := fun x _ l => blockFault x l a (bad x (x.g.words16 a)) (operandFault x l o true),
    fault := fun x _ _ =>
      match now.team? x.g.team with
      | none => some Cause.illegalOperand
      | some t =>
        match addr x t (x.g.words16 a) with
        | some b => some (Cause.address b)
        | none => if bad2 x t (x.g.words16 a) then some Cause.illegalOperand else none,
    wait := fun x => now.keepsBack x.g,
    hold := fun x _ => (read x).holds || now.lockFull (now.coreOf x.g.team) (spansOf x),
    onHold := fun x _ s =>
      match read x with
      | .ask got p va n => s.askHeld x (list (x.g.words16 a)).1 got p va n
      | _ => s,
    effect := fun x _ s => s.startOp x d kind (x.g.words16 a) (spansOf x) id }

/-- No list. -/
def noList (_ : List Word) : Nat × Nat := (0, 0)

/-- The index list of a gather or scatter (R219). -/
def gsList (ws : List Word) : Nat × Nat := if gsIndex ws then (wd64 ws 12, 4 * wd ws 6) else (0, 0)

/-- CPY (R217). -/
def execCpy (m : Bool) (d a : BitVec 7) (s : State) : Result :=
  (descOp m s d.toNat a.toNat 1 (fun x ws => cpyRules x.img ws) (fun x t ws => s.cpyAddress x.img t ws)
    (fun x t ws => s.cpyTrugBad x.img t ws) noList fun x t ws _ => s.cpySpans x.img t ws).issueHeld s

/-- GATH (R219). -/
def execGath (m : Bool) (d a : BitVec 7) (s : State) : Result :=
  (descOp m s d.toNat a.toNat 2 (fun _ ws => gsRules 2 ws) (fun x t ws => s.gsAddress x.img t ws) (fun _ _ _ => false)
    gsList fun _ t ws bs => gsSpans t 2 ws bs).issueHeld s

/-- SCAT (R219). -/
def execScat (m : Bool) (d a : BitVec 7) (s : State) : Result :=
  (descOp m s d.toNat a.toNat 3 (fun _ ws => gsRules 3 ws) (fun x t ws => s.gsAddress x.img t ws) (fun _ _ _ => false)
    gsList fun _ t ws bs => gsSpans t 3 ws bs).issueHeld s

/-- BANKOP (R220). -/
def execBankop (m : Bool) (d a : BitVec 7) (s : State) : Result :=
  (descOp m s d.toNat a.toNat 5 (fun _ ws => bankopRules ws) (fun x t ws => bankopAddress x.img t ws)
    (fun _ _ _ => false) noList fun _ _ ws _ => bankopSpans ws).issueHeld s

/-- BANKRED (R221). -/
def execBankred (m : Bool) (d a : BitVec 7) (s : State) : Result :=
  (descOp m s d.toNat a.toNat 6 (fun _ ws => bankredRules ws) (fun x t ws => bankredAddress x.img t ws)
    (fun _ _ _ => false) (fun ws => (wd64 ws 2, 8 * bredCount ws)) fun _ _ ws bs => bankredSpans ws bs).issueHeld s

/-- What the read of an espalier map comes to (R364): none needed, its bytes, a fault, a serviceable page, a read on
another chip or the node, or still on its way. -/
inductive MapRead where
  | unused
  | bytes (bs : List Byte)
  | fault (c : Cause)
  | service
  | ask (p : Place)
  | awaited

/-- Reads the map of a collective, as a lease-class-0 load (R364), once the group's own stores to it are visible (R282)
and the ingress atomic cache has written it back (R359). -/
def State.readMap (s : State) (pc : Addr) (g : Group) (ws : List Word) : MapRead :=
  let va := wd64 ws 12
  if !flagOf ws 15 then .unused
  else
    match g.heldAt pc va with
    | some h =>
      if h.request.isSome then .awaited
      else if h.refused != 0 then .fault ⟨h.refused, if h.refused = 0x03 then 2 else 0, va, false⟩
      else .bytes h.bytes
    | none =>
      match s.meet g.grid (s.coreOf g.team) va 64 .load with
      | .fault c => .fault c
      | .service _ => .service
      | .place p =>
        if !p.home then .ask p
        else if s.gtime < max (s.ownAfter g (BitVec.allOnes 32) p.pa 64) (s.mem.ingressUntil p.pa 64) then .awaited
        else .bytes (s.peek p.pa 64)

/-- The bytes of a map that was read. -/
def MapRead.got : MapRead → List Byte
  | .bytes bs => bs
  | _ => []

/-- COLL (R222, R360, R364): numbered on its MEMBERS address in issue order; the map is read before it issues. -/
def execColl (m : Bool) (d a : BitVec 7) (s : State) : Result :=
  let o : Operands := { us := d.toNat :: regsFrom a.toNat 16 }
  let ws (x : Site) : List Word := x.g.words16 a.toNat
  let map (x : Site) : MapRead := s.readMap x.pc x.g (ws x)
  let spans (x : Site) : List Span := collLocks (ws x) (map x).got
  Op.issueHeld
    { m := m, kind := .plain, check := fun x _ l => blockFault x l a.toNat (collRules (ws x)) (operandFault x l o true),
      fault := fun x _ _ =>
        match (s.team? x.g.team).bind fun t => collAddress x.img t (ws x) with
        | some b => some (Cause.address b)
        | none =>
          match map x with
          | .fault c => some c
          | .bytes bs =>
            if mapBad bs (wd (ws x) 4) then some Cause.illegalOperand else (mapAddress bs).map Cause.address
          | _ => none,
      wait := fun x => s.keepsBack x.g,
      hold := fun x _ =>
        s.lockFull (s.coreOf x.g.team) (spans x) ||
          (match map x with
           | .ask _ => true
           | .awaited => true
           | _ => false),
      onHold := fun x _ s' =>
        match map x with
        | .ask p => s'.askHeld x (wd64 (ws x) 12) [] p (wd64 (ws x) 12) 64
        | _ => s',
      effect := fun x good s' =>
        match map x with
        | .service => s'.holdForService x good (wd64 (ws x) 12)
        | _ =>
          let key := wd64 (ws x) 2
          let n := tget 0 (((s.grid? x.g.grid).map (·.colls)).getD []) key
          (s'.modGrid x.g.grid fun gr => { gr with colls := tput gr.colls key (n + 1) }).startOp x d.toNat 4 (ws x)
            (spans x) fun op => { op with number := n, map := (map x).got } }
    s

/-! ## Prefetch, cache maintenance and status (R216, R223) -/

/-- Fills the lines of the superblock at `va` into the L1, with the lease of a load, or into its home slice (R223); a
range that does not translate or is not of this part is skipped. Where a write-back or an update on its way is to come
first (R279, R359), the superblock is filled after it. -/
def State.prefetch (s : State) (g : Group) (core : Nat) (l1 : Bool) (va : Nat) : State :=
  match s.xlatG core g.grid va with
  | .ok p =>
    if p.home && p.readable then
      let pa := blockOf p.pa * 512
      let lease := leaseClass p g.leaseovr
      let s1 := (s.cacheXlat core (s.rootOf g.grid) va).reachHome p false 512
      if s1.gtime < s1.fillAfter core lease l1 pa then
        s1.awaitAt { va := va } g.uid none [] (.fill core pa lease l1) s1.clock.tick
      else s1.fillBlock core lease l1 pa
    else s
  | _ => s

/-- PFETCH (R223): fills as much of the range as an L1 holds, or the last-level cache (DESIGN CHOICE, log 37). -/
def execPfetch (m : Bool) (lvl a b : BitVec 7) (s : State) : Result :=
  let us := [a.toNat, a.toNat + 1, b.toNat]
  Op.issue
    { m := m, kind := .plain, check := fun x _ l => operandFault x l { us := us } true,
      wait := fun x => s.keepsBack x.g,
      effect := fun x _ s' =>
        let va := (x.g.uPair a.toNat).toNat
        let n := (x.g.u b.toNat).toNat
        let most := if lvl = 0 then l1Blocks else 2 ^ 20
        if n = 0 then s'
        else
          (List.range (min most ((va + n - 1) / 512 + 1 - va / 512))).foldl
            (fun s k =>
              let at512 := (va / 512 + k) * 512
              if 2 ^ 48 ≤ at512 then s else s.prefetch x.g (s.coreOf x.g.team) (lvl = 0) at512) s' }
    s

/-- An operation on a range that takes its address from a pair and its byte count from a register (R223). -/
def rangeOp (m : Bool) (now : State) (kind d a b : Nat) : Op :=
  { m := m, kind := .plain, check := fun x _ l => operandFault x l { us := [a, a + 1, b, d] } true,
    wait := fun x => now.keepsBack x.g,
    effect := fun x _ s => s.startOp x d kind [x.g.u a, x.g.u (a + 1), x.g.u b] [] id }

/-- CFLUSH (R223). -/
def execCflush (m : Bool) (d a b : BitVec 7) (s : State) : Result :=
  (rangeOp m s 8 d.toNat a.toNat b.toNat).issue s

/-- CINV (R223). -/
def execCinv (m : Bool) (d a b : BitVec 7) (s : State) : Result :=
  (rangeOp m s 9 d.toNat a.toNat b.toNat).issue s

/-- The code of a STATE (R216). -/
def OpState.code : OpState → Nat
  | .pending => 0
  | .ok => 1
  | .translation => 2
  | .permission => 3
  | .dataErr => 4
  | .circuitLost => 5
  | .unreachable => 6
  | .staleGen => 7
  | .aperture => 8
  | .address => 9

/-- What ENGST returns for a handle (R216); `stale` are the handles of the team whose operations completed before it was
saved (R333). -/
def Core.engStatus (c : Core) (stale : List Nat) (handle k : Nat) : Nat :=
  if handle = 0 ∨ 2 ^ 16 ≤ handle ∨ stale.contains handle then (if k = 0 then 15 else 0)
  else
    match c.ops.find? fun o => o.handle == handle && !o.silent with
    | some _ => 0
    | none =>
      match c.done.find? (·.handle == handle) with
      | none => if k = 0 then 15 else 0
      | some st =>
        match k with
        | 0 => st.state.code + 2 ^ 8 * st.pred.toNat + 2 ^ 16 * (st.version % 2 ^ 16)
        | 1 => st.address % 2 ^ 32
        | _ => st.address / 2 ^ 32

/-- ENGST (R216). -/
def execEngst (m : Bool) (d a k : BitVec 7) (s : State) : Result :=
  Op.issue
    { m := m, kind := .plain, check := fun x _ l => operandFault x l { us := [d.toNat, a.toNat] } true,
      effect := fun x _ s' =>
        let stale := ((s.team? x.g.team).map (·.stale)).getD []
        let v := (s.core (s.coreOf x.g.team)).engStatus stale (x.g.u a.toNat).toNat k.toNat
        s'.await x.g.uid none [d.toNat] (.value [{ reg := d.toNat, bits := BitVec.ofNat 32 v, tag := 0 }]) }
    s

end Sys2Proof.Machine
end

