-- ==== Sys2Proof/Machine/EngineRun.lean ====
section
/-!
DEFINITION. Engine operations at work (R209, R212, R215 to R223, R294, R295, R342, R360 to R365, R369): the runs they
read and write, what they count, and how they end. One run of an operation is on its way at a time (DESIGN CHOICE, log 38).
-/

namespace Sys2Proof.Machine

/-! ## Finding and changing operations -/

def State.op? (s : State) (core handle : Nat) : Option EngOp := (s.core core).ops.find? (·.handle == handle)

def State.modOp (s : State) (core handle : Nat) (f : EngOp → EngOp) : State :=
  s.modCore core fun c => { c with ops := c.ops.map fun o => if o.handle = handle then f o else o }

/-- Ends an operation with an error, once what it has written is visible (R215). -/
def State.failOp (s : State) (core handle : Nat) (st : OpState) (addr : Nat) : State :=
  s.modOp core handle fun o =>
    { o with outcome := some (st, addr), waiting := false, reading := none, data := [], work := none }

/-- A write of an operation's run was not delivered: the run is not counted (R209). -/
def EngOp.loseRun (o : EngOp) (id : Nat) : EngOp := if o.run.any (·.remote.contains id) then { o with run := none } else o

/-- Operations of one group begin in issue order; a waiting copy or CTGET holds none back (R215). -/
def mayBegin (ops : List EngOp) (op : EngOp) : Bool :=
  match ops with
  | [] => true
  | o :: rest =>
    if o.handle = op.handle then true
    else (o.group != op.group || o.begun || o.waiting || o.outcome.isSome) && mayBegin rest op

/-! ## Reading (R215, R294) -/

/-- What an engine's read or translation meets. -/
inductive Fetched where
  | bytes (bs : List Byte)
  | fail (st : OpState) (addr : Nat)
  | later
  | ask (p : Place)

/-- The peer chip of the circuit a copy is bound to (R342). -/
def State.boundPeer (s : State) (op : EngOp) : Option Nat := (op.bound.bind fun p => s.fabric.ports[p]?).map (·.peer)

/-- Translates for an engine and checks aperture, permission and reach (R216, R271, R342); `bank` for an operation on
bank memory alone (R220, R221). -/
def State.engPlaceIn (s : State) (bank : Bool) (op : EngOp) (va : Nat) (write : Bool) : Place ⊕ Fetched :=
  if 2 ^ 48 ≤ va then .inr (.fail .address va)
  else
    match s.xlatG (s.coreOf op.team) op.grid va with
    | .fault _ => .inr (.fail .translation va)
    | .service _ => .inr .later
    | .ok p =>
      if bank && p.aper != 3 then .inr (.fail .aperture va)
      else if (permSub p (!write) write false).isSome then .inr (.fail .permission va)
      else if p.aper = 1 then
        match s.boundPeer op with
        | some chip => if chip = p.chip then .inl p else .inr (.fail .aperture va)
        | none => if s.fabric.reaches p.chip then .inl p else .inr (.fail .unreachable va)
      else .inl p

/-- Translates for an engine that any aperture serves. -/
def State.engPlace (s : State) (op : EngOp) (va : Nat) (write : Bool) : Place ⊕ Fetched :=
  s.engPlaceIn false op va write

/-- Reads `n` bytes of global memory that lie within one page. -/
def State.engRead (s : State) (op : EngOp) (va n : Nat) : Fetched :=
  match s.engPlace op va false with
  | .inr f => f
  | .inl p =>
    if !p.home then .ask p
    else if s.gtime < s.mem.ingressUntil p.pa n then .later
    else
      match s.mem.damagedByte p.pa n with
      | some b => .fail .dataErr (va + (b - p.pa))
      | none => .bytes (s.peek p.pa n)

/-- The scratchpad place an engine names (R197). -/
def State.engScratch (s : State) (op : EngOp) (address n : Nat) : Option (Team × Nat) :=
  match s.grid? op.grid, s.team? op.team with
  | some gr, some t => if 2 ^ 32 ≤ address then none else s.scratchPlace gr.image t address n
  | _, _ => none

/-- Reads scratchpad. -/
def State.engReadScratch (s : State) (op : EngOp) (address n : Nat) : Fetched :=
  match s.engScratch op address n with
  | none => .fail .address address
  | some (u, off) =>
    match scratchDamaged u off n with
    | some b => .fail .dataErr (address + (b - off))
    | none => .bytes (u.bytes off n)

/-- Asks another chip or the node for bytes; a bound copy asks over its circuit (R342). -/
def State.engAsk (s : State) (core : Nat) (op : EngOp) (p : Place) (va n : Nat) : State :=
  let (id, s1) := s.request
    { id := 0, node := p.aper == 2, chip := p.chip, kind := pkRead, address := p.pa, len := n, data := [],
      group := op.group, lanes := 0, pc := 0, va := va, writer := op.writer, op := 0, r := false, sent := 0, queued := false,
      engine := some (core, op.handle), port := if p.aper = 1 then op.bound else none, e2e := none }
  s1.modOp core op.handle fun o => { o with reading := some id }

/-! ## Writing (R209, R215, R294, R295) -/

/-- A piece of an operation: scratchpad, address, bytes available at it before a 512-byte boundary or the end. -/
structure Piece where
  scratch : Bool
  addr : Nat
  len : Nat

/-- Notes a written run; `n` bytes are done. -/
def EngOp.wrote (op : EngOp) (n wct : Nat) (remote : List Nat) : EngOp :=
  { op with progress := op.progress + n, data := op.data.drop n, lastWct := max op.lastWct wct,
            run := some { bytes := n, wct := wct, remote := remote, banks := [] } }

/-- Stores of an engine operation to this part: its WCTs rise from one write to the next (R219, R280). -/
def State.engStore (s : State) (op : EngOp) (pa : Nat) (bs : List Byte) (alu : Bool) : State × Nat :=
  let (arr, s1) := s.arrival
  let (mem, t) := s1.mem.receive pa bs op.writer op.named alu (max arr op.lastWct)
  ({ s1 with mem := mem }, t)

/-- Writes bytes of global memory within one page. -/
def State.engWrite (s : State) (core : Nat) (op : EngOp) (va : Nat) (bs : List Byte) : State :=
  match s.engPlace op va true with
  | .inr (.fail st a) => s.failOp core op.handle st a
  | .inr _ => s
  | .inl p =>
    if p.home then
      match s.mem.mergedByte p.pa bs.length with
      | some b => s.failOp core op.handle .dataErr (va + (b - p.pa))
      | none =>
        let (s1, t) := s.engStore op p.pa bs false
        s1.modOp core op.handle fun o => o.wrote bs.length t []
    else
      let (id, s1) := s.request
        { id := 0, node := p.aper == 2, chip := p.chip, kind := pkWrite, address := p.pa, len := bs.length, data := bs,
          group := op.group, lanes := 0, pc := 0, va := va, writer := op.writer, op := 0, r := false, sent := 0, queued := false,
          engine := some (core, op.handle), port := if p.aper = 1 then op.bound else none, e2e := none }
      s1.modOp core op.handle fun o => o.wrote bs.length 0 [id]

/-- Writes bytes of scratchpad: the bank of each member accepts them in its own time, after a free delay (R209, R291;
DESIGN CHOICE, log 6). -/
def State.engWriteScratch (s : State) (core : Nat) (op : EngOp) (places : List (Option (Team × Nat))) (addr : Nat)
    (bs : List Byte) : State :=
  if places.any (·.isNone) then s.failOp core op.handle .address addr
  else
    let banks := mapFrom (fun k (u, off) =>
      { due := s.gtime + Config.latency (s.clock.fresh + k), team := u.uid, offset := off, address := addr,
        bytes := bs : BankWrite }) 0 (places.filterMap id)
    let s1 : State := { s with clock := { s.clock with fresh := s.clock.fresh + banks.length } }
    s1.modOp core op.handle fun o =>
      let o := o.wrote bs.length 0 []
      { o with run := o.run.map fun r => { r with banks := banks } }

/-- A run's write that its bank accepts now. -/
def State.bankReady (s : State) (op : EngOp) : Option BankWrite :=
  op.run.bind fun r => r.banks.find? (·.due ≤ s.gtime)

/-- A bank accepts an engine's write; where the write would have to merge with damaged bytes the operation ends (R291,
R299), and what was not accepted of the run is not delivered. -/
def State.bankTake (s : State) (core : Nat) (op : EngOp) (w : BankWrite) : State :=
  let left (n : Option Nat) : State := s.modOp core op.handle fun o =>
    { o with run := o.run.map fun r => { r with banks := r.banks.erase w, bytes := n.getD r.bytes } }
  match (s.team? w.team).bind fun t => scratchMerged t w.offset w.bytes.length with
  | some b => (left (some 0)).failOp core op.handle .dataErr (w.address + (b - w.offset))
  | none => (left none).modTeam w.team fun t => t.write w.offset w.bytes

/-! ## Counting (R209, R212) -/

/-- The scratchpad address of an offset in a member. -/
def memberAddr (m off : Nat) : Nat := m * 2 ^ 28 + off

/-- A run is visible: its WCTs are reached, its remote writes acknowledged and its scratchpad writes accepted (R209,
R291, R295). -/
def State.runVisible (s : State) (r : EngRun) : Bool := r.wct ≤ s.gtime && r.remote.isEmpty && r.banks.isEmpty

/-- The offset of the operation's barrier word, if it names one. -/
def State.opBarrier (s : State) (op : EngOp) : Option Nat :=
  match s.grid? op.grid, s.team? op.team with
  | some gr, some t =>
    if 7 ≤ op.kind || wd op.words 1 = 0 then none else barrierOffset gr.image t (wd op.words 1)
  | _, _ => none

/-- The damaged byte that counting a run would meet in the barrier word or in the trug's descriptor (R299). -/
def State.countDamage (s : State) (op : EngOp) (n : Nat) (err : Bool) : Option Nat :=
  let word : Option Nat :=
    match s.opBarrier op, s.team? op.team with
    | some off, some t =>
      if n = 0 && !err then none else (scratchDamaged t off 8).map fun b => memberAddr t.member b
    | _, _ => none
  if word.isSome || op.kind != 1 || n = 0 then word
  else
    match s.opTrug op, op.trugSlot with
    | some (u, off), some i => (trugDamaged u off [(0, 16), (64 + 4 * i, 4)]).map fun b => memberAddr u.member b
    | _, _ => none

/-- Adds a visible run to the barrier and the trug, and an error to the barrier (R209, R212). -/
def State.countRun (s : State) (op : EngOp) (n : Nat) (err : Bool) : State :=
  let s1 := match s.opBarrier op with
    | none => s
    | some off => s.modTeam op.team fun t => t.countBytes off n err
  if op.kind != 1 || n = 0 then s1
  else
    match s1.opTrug op, op.trugSlot with
    | some (u, off), some i => s1.modTeam u.uid fun t => t.trugCount off i n
    | _, _ => s1

/-! ## Copies, gathers and scatters (R217, R219) -/

/-- Bytes an operation moves in all. -/
def EngOp.total (op : EngOp) : Nat :=
  match op.kind with
  | 1 => cpyBytes op.words
  | 2 | 3 => gsBytes op.words
  | 4 =>
    let c := collOf op.words op.map
    (collSpans c op.map).2
  | 5 => wd op.words 8 * bankSize (flagOf op.words 10)
  | 6 => wd op.words 8 * bankSize (bredFmt op.words == 1)
  | 8 | 9 => wd op.words 2
  | _ => 0

/-- The list an operation reads first: address and bytes. -/
def EngOp.listSpan (op : EngOp) : Nat × Nat :=
  match op.kind with
  | 2 | 3 => if gsIndex op.words then (wd64 op.words 12, 4 * wd op.words 6) else (0, 0)
  | 4 => (wd64 op.words 2, 2 * wd op.words 4)
  | 6 => (wd64 op.words 2, 8 * bredCount op.words)
  | _ => (0, 0)

/-- A contiguous side at the present progress. -/
def EngOp.contiguous (op : EngOp) (scratch : Bool) (base : Nat) : Piece :=
  ⟨scratch, base + op.progress, min (op.total - op.progress) (toBoundary (base + op.progress))⟩

/-- The strided side of a gather or scatter at the present progress; none for a misaligned element, with its address. -/
def EngOp.strided (op : EngOp) : Piece ⊕ Nat :=
  let ws := op.words
  let size := gsSize ws
  let e := op.progress / size
  let i0 := e % wd ws 6
  let j := if gsIndex ws then leNat ((op.list.drop (4 * i0)).take 4) else i0
  let a := gsStrided ws j (e / wd ws 6 % wd ws 7) (e / wd ws 6 / wd ws 7)
  if a < 0 ∨ a % (min size 4 : Nat) ≠ 0 then .inr (a % 2 ^ 48).toNat
  else
    let at0 := a.toNat + op.progress % size
    .inl ⟨gsTSP ws, at0, min (size - op.progress % size) (toBoundary at0)⟩

/-- R219: the contiguous side's elements are aligned too. -/
def EngOp.contiguousGs (op : EngOp) : Piece ⊕ Nat :=
  let base := wd64 op.words 2
  if base % min (gsSize op.words) 4 ≠ 0 then .inr (base + op.progress)
  else .inl (op.contiguous (gsCSP op.words) base)

/-- Where a transfer reads. -/
def EngOp.source (op : EngOp) : Piece ⊕ Nat :=
  match op.kind with
  | 1 => .inl (op.contiguous (cpySSP op.words) (wd64 op.words 2))
  | 2 => op.strided
  | _ => op.contiguousGs

/-- Where a transfer writes, other than into a trug. -/
def EngOp.destination (op : EngOp) : Piece ⊕ Nat :=
  match op.kind with
  | 1 => .inl (op.contiguous (cpyDSP op.words) (wd64 op.words 4))
  | 2 => op.contiguousGs
  | _ => op.strided

/-- A trug's slot for the bytes at the present progress: already acquired, acquired now, or none free (R212). -/
def State.slotFor (s : State) (core : Nat) (op : EngOp) (u : Team) (off : Nat) : Option (Nat × State) :=
  match op.trugSlot with
  | some i => some (i, s)
  | none =>
    if u.trugFree off = 0 then none
    else
      let i := u.trugHead off
      some (i, (s.modTeam u.uid fun t => t.trugAcquire off).modOp core op.handle fun o => { o with trugSlot := some i })

/-- Writes fetched bytes of a transfer. -/
def State.xferWrite (s : State) (core : Nat) (op : EngOp) : State :=
  if cpyDTRUG op.words && op.kind == 1 then
    match s.opTrug op with
    | none => s.failOp core op.handle .address (wd op.words 12)
    | some (u, off) =>
      match trugDamaged u off [(0, 16), (64 + 4 * op.trugSlot.getD (u.trugHead off), 4)] with
      | some b => s.failOp core op.handle .dataErr (memberAddr u.member b)
      | none =>
        match s.slotFor core op u off with
        | none => s
        | some (i, s1) =>
          let size := u.trugSize off
          let at0 := u.trugBase off + i * size + op.progress % size
          let bs := op.data.take (size - op.progress % size)
          s1.engWriteScratch core { op with trugSlot := some i }
            ((membersOf (u.trugConsumers off)).map fun m => s.engScratch op (memberAddr m at0) bs.length) at0 bs
  else
    match op.destination with
    | .inr a => s.failOp core op.handle .address a
    | .inl p =>
      let bs := op.data.take p.len
      if !p.scratch then s.engWrite core op p.addr bs
      else if op.kind == 1 && cpyMCAST op.words then
        s.engWriteScratch core op
          ((membersOf (wd op.words 11)).map fun m => s.engScratch op (memberAddr m (p.addr % 2 ^ 28)) bs.length)
          p.addr bs
      else s.engWriteScratch core op [s.engScratch op p.addr bs.length] p.addr bs

/-- One step of a transfer: read a run, at most to the 512-byte boundaries of both sides and of the operation, and write
it (R209, R215). -/
def State.xferStep (s : State) (core : Nat) (op : EngOp) : State :=
  if !op.data.isEmpty then s.xferWrite core op
  else
    match op.source, (if op.kind == 1 && cpyDTRUG op.words then .inl ⟨true, 0, 512⟩ else op.destination) with
    | .inr a, _ => s.failOp core op.handle .address a
    | _, .inr a => s.failOp core op.handle .address a
    | .inl src, .inl dst =>
      let n := min (min src.len dst.len) (512 - op.progress % 512)
      let got := if src.scratch then s.engReadScratch op src.addr n else s.engRead op src.addr n
      match got with
      | .fail st a => s.failOp core op.handle st a
      | .later => s
      | .ask p => s.engAsk core op p src.addr n
      | .bytes bs =>
        (s.modOp core op.handle fun o => { o with data := bs }).xferWrite core { op with data := bs }

/-- Reads the next bytes of an operation's list. -/
def State.listStep (s : State) (core : Nat) (op : EngOp) : State :=
  let (base, need) := op.listSpan
  let va := base + op.list.length
  let n := min (need - op.list.length) (toBoundary va)
  match s.engRead op va n with
  | .fail st a => s.failOp core op.handle st a
  | .later => s
  | .ask p => s.engAsk core op p va n
  | .bytes bs => s.modOp core op.handle fun o => { o with list := o.list ++ bs }

/-! ## Bank memory operations (R220, R221) -/

/-- The element formats. -/
def elemFmt (bf16 : Bool) : Fmt := if bf16 then fBF16 else fF32

/-- One element of BANKOP (R220): one rounding; NaN operands in the order x, y, α. R119 gives the quieted operand, and an
F32 α is not of the format of a BF16 result: it is converted as R122 converts a NaN (DESIGN CHOICE, log 86). -/
def bankopElem (op : Nat) (bf16 : Bool) (alpha x y : Nat) : Nat :=
  let f := elemFmt bf16
  let alphaNan : Nat := (if bf16 then convNan fF32 fBF16 alpha else (fF32.quiet alpha, 0)).1
  let product := (fF32.value alpha).mul (f.value x)
  match op with
  | 0 =>
    match f.nanOf [x, y] with
    | some (r, _) => r
    | none => if fF32.isNan alpha then alphaNan else (f.settle rne (product.add rne (f.value y))).1
  | 1 => (f.minmax true x y).1
  | _ =>
    match f.nanOf [x] with
    | some (r, _) => r
    | none => if fF32.isNan alpha then alphaNan else (f.settle rne product).1

/-- One step of a reduction of R221 and R362: 0 SUM, 1 MAX, 2 MIN over F32, BF16 or I32. -/
def reduceElem (op fmt u v : Nat) : Nat :=
  if fmt = 2 then
    let a := BitVec.ofNat 32 u
    let b := BitVec.ofNat 32 v
    (match op with
     | 0 => a + b
     | 1 => intGreater a b
     | _ => intLesser a b).toNat
  else
    let f := elemFmt (fmt == 1)
    match op with
    | 0 => (f.add rne u v).1
    | 1 => (f.minmax true u v).1
    | _ => (f.minmax false u v).1

/-- Elements of `n` bytes. -/
def elemsOf (n : Nat) : Nat → List Byte → List Nat
  | 0, _ => []
  | k + 1, bs => if bs.isEmpty then [] else leNat (bs.take n) :: elemsOf n k (bs.drop n)

/-- Reads a piece of an operand, which must lie in bank memory. -/
def State.bankRead (s : State) (op : EngOp) (va n : Nat) : Fetched :=
  match s.engPlaceIn true op va false with
  | .inl _ => s.engRead op va n
  | .inr f => f

/-- Reads pieces at the same progress of several operands. -/
def State.bankReads (s : State) (op : EngOp) (n : Nat) : List Nat → List (List Byte) ⊕ Fetched
  | [] => .inl []
  | a :: rest =>
    match s.bankRead op a n with
    | .bytes bs =>
      match s.bankReads op n rest with
      | .inl more => .inl (bs :: more)
      | .inr f => .inr f
    | f => .inr f

/-- The operands of a bank operation, its result's address and its element size. -/
def EngOp.bankOperands (op : EngOp) : List Nat × Nat × Nat :=
  let ws := op.words
  if op.kind = 5 then
    (if bopOp ws = 2 then [wd64 ws 2] else [wd64 ws 2, wd64 ws 4], wd64 ws 6, bankSize (flagOf ws 10))
  else (sourcesOf op.list (bredCount ws), wd64 ws 6, bankSize (bredFmt ws == 1))

/-- One element of a bank operation from its operands' elements (R220, R221). -/
def EngOp.bankElem (op : EngOp) (xs : List Nat) : Nat :=
  let ws := op.words
  if op.kind = 5 then bankopElem (bopOp ws) (flagOf ws 10) (wd ws 9) (xs.headD 0) ((xs[1]?).getD 0)
  else
    match xs with
    | [] => 0
    | x :: rest => rest.foldl (reduceElem (bopOp ws) (bredFmt ws)) x

/-- One run of a bank operation. -/
def State.bankStep (s : State) (core : Nat) (op : EngOp) : State :=
  let (srcs, z, size) := op.bankOperands
  match srcs.find? fun a => a % size != 0 || 2 ^ 48 ≤ a with
  | some a => s.failOp core op.handle .address a
  | none =>
    let at0 := srcs.map (· + op.progress)
    let zat := z + op.progress
    let n := (at0.foldl (fun n a => min n (toBoundary a)) (min (op.total - op.progress) (toBoundary zat))) / size * size
    match s.bankReads op n at0 with
    | .inr (.fail st a) => s.failOp core op.handle st a
    | .inr _ => s
    | .inl bss =>
      let cols := bss.map (elemsOf size 512)
      let out := (List.range (n / size)).map fun i => op.bankElem (cols.map fun c => c.getD i 0)
      let bs := (out.map (natLe size)).flatten
      match s.engPlaceIn true op zat true with
      | .inr (.fail st a) => s.failOp core op.handle st a
      | .inr _ => s
      | .inl p =>
        match s.mem.mergedByte p.pa n with
        | some b => s.failOp core op.handle .dataErr (zat + (b - p.pa))
        | none =>
          let (s1, t) := s.engStore op p.pa bs true
          s1.modOp core op.handle fun o => o.wrote n t []

/-! ## Cache maintenance (R223): CFLUSH writes dirty lines back, CINV drops L1 superblocks -/

/-- The lines of a superblock that `n` bytes touch. -/
def linesIn (block pa n : Nat) : BitVec 4 :=
  (List.range 4).foldl (fun m k =>
    let a := 512 * block + 128 * k
    if pa < a + 128 ∧ a < pa + n then m ||| BitVec.ofNat 4 (2 ^ k) else m) 0

/-- The next piece of CFLUSH or CINV, up to the end of a 64 KiB page. -/
def State.rangeStep (s : State) (core : Nat) (op : EngOp) : State :=
  let va := wd64 op.words 0 + op.progress
  let n := min (op.total - op.progress) (2 ^ 16 - va % 2 ^ 16)
  if 2 ^ 48 ≤ va then s.failOp core op.handle .translation va
  else
    match s.xlatG core op.grid va with
    | .fault _ => s.failOp core op.handle .translation va
    | .service _ => s
    | .ok p =>
      let touches (block : Nat) : Bool := p.pa < 512 * block + 512 && 512 * block < p.pa + n
      let s1 : State :=
        if !p.home then s
        else if op.kind = 9 then
          s.modCore core fun c => { c with l1 := c.l1.filter fun b => !touches b.block }
        else
          let clean (b : SliceBlock) : SliceBlock :=
            if touches b.block then { b with dirty := b.dirty &&& ~~~linesIn b.block p.pa n } else b
          let mem := (s.mem.llc.filter fun b => touches b.block).foldl
            (fun mem b => mem.writeBack b.block (b.dirty &&& linesIn b.block p.pa n)) s.mem
          { s with mem := { mem with llc := mem.llc.map clean } }
      s1.modOp core op.handle fun o => o.wrote n 0 []

/-! ## Collectives (R360 to R365) -/

/-- The length of the stream from rank `p` to rank `q` (R361, R365). -/
def streamLen (c : Coll) (map : List Byte) (p : Nat) : Nat :=
  if c.esp then mapElements map / c.nmem / c.nmem * mapSize map
  else if c.ckind = 4 then (if p = c.root then c.bytes else 0)
  else c.bytes

/-- The chunks of a stream (R363). -/
def chunkCount (c : Coll) (map : List Byte) (p : Nat) : Nat := (streamLen c map p + c.chunk - 1) / c.chunk

/-- The length of chunk `k` of a stream. -/
def chunkLen (c : Coll) (map : List Byte) (p k : Nat) : Nat := min c.chunk (streamLen c map p - k * c.chunk)

/-- The digits of a mixed-radix number, by axis, fastest first. -/
def digitsOf (ext : Nat → Nat) : List Nat → Nat → List (Nat × Nat)
  | [], _ => []
  | a :: rest, e => (a, e % ext a) :: digitsOf ext rest (e / ext a)

/-- The mixed-radix number of a coordinate. -/
def radixOf (ext coord : Nat → Nat) : List Nat → Nat
  | [] => 0
  | a :: rest => coord a + ext a * radixOf ext coord rest

/-- The coordinate of element `e` of the stream from rank `p` to rank `q`, in ascending source offset: digits local to
`p` on the source split axis and to `q` on the destination split axis (R365). -/
def espCoord (map : List Byte) (nmem e : Nat) : Nat → Nat :=
  let ext (a : Nat) : Nat :=
    if a = mapSsplit map ∨ a = mapDsplit map then mapExt map a / nmem else mapExt map a
  let ds := digitsOf ext (orderOf (fieldAt map 0x15 1)) e
  fun a => ((ds.find? fun (b, _) => b == a).map fun (_, d) => d).getD 0

/-- The local source offset, in elements, of element `e` bound for rank `q` (R365). -/
def espSource (map : List Byte) (nmem q e : Nat) : Nat :=
  let md := mapExt map (mapDsplit map) / nmem
  let x := espCoord map nmem e
  radixOf (fun a => if a = mapSsplit map then mapExt map a / nmem else mapExt map a)
    (fun a => if a = mapDsplit map then x a + q * md else x a) (orderOf (fieldAt map 0x15 1))

/-- The local destination offset, in elements, of element `e` that comes from rank `p` (R365). -/
def espDest (map : List Byte) (nmem p e : Nat) : Nat :=
  let ms := mapExt map (mapSsplit map) / nmem
  let x := espCoord map nmem e
  radixOf (fun a => if a = mapDsplit map then mapExt map a / nmem else mapExt map a)
    (fun a => if a = mapSsplit map then x a + p * ms else x a) (orderOf (fieldAt map 0x17 1))

/-- Where byte `b` of the stream to rank `q` is read, and how many bytes lie on from there. -/
def sendPiece (c : Coll) (map : List Byte) (q b left : Nat) : Nat × Nat :=
  let a :=
    if c.esp then c.send + espSource map c.nmem q (b / mapSize map) * mapSize map + b % mapSize map
    else if c.ckind = 0 ∨ c.ckind = 2 then c.send + q * c.bytes + b
    else c.send + b
  (a, min (if c.esp then mapSize map - b % mapSize map else left) (toBoundary a))

/-- Where byte `b` of the stream from rank `p` is written, and how many bytes lie on from there. -/
def recvPiece (c : Coll) (map : List Byte) (p b left : Nat) : Nat × Nat :=
  let a :=
    if c.esp then c.recv + espDest map c.nmem p (b / mapSize map) * mapSize map + b % mapSize map
    else if c.ckind = 0 ∨ c.ckind = 1 then c.recv + p * c.bytes + b
    else c.recv + b
  (a, min (if c.esp then mapSize map - b % mapSize map else left) (toBoundary a))

/-- R361: the kinds that reduce. -/
def Coll.reduces (c : Coll) : Bool := c.ckind == 2 || c.ckind == 3

/-- What a member tells its peers of its operation (R360): what must agree. -/
def collFields (c : Coll) (map : List Byte) : List Nat :=
  [c.ckind, c.op, c.fmt, c.esp.toNat, c.nmem, c.root, c.bytes, c.chunk] ++ map.map (·.toNat)

/-- The member table (R222). -/
def memberIds (op : EngOp) : List Nat := (elemsOf 2 256 op.list)

/-- A message of this member. -/
def EngOp.collMsg (op : EngOp) (kind chunk : Nat) (fields : List Nat) (data : List Byte) : CollMsg :=
  { members := wd64 op.words 2, number := op.number, rank := bitsOf (wd op.words 5) 0 8, kind := kind, fields := fields,
    chunk := chunk, data := data }

/-- Sends a message to a rank. -/
def State.collSend (s : State) (op : EngOp) (rank : Nat) (msg : CollMsg) : State :=
  s.sendColl (((memberIds op)[rank]?).getD 0) msg

def modPeer (rank : Nat) (f : CollPeer → CollPeer) (ps : List CollPeer) : List CollPeer :=
  ps.map fun p => if p.rank = rank then f p else p

/-- A chunk is acknowledged. -/
def CollPeer.ack (chunk : Nat) (p : CollPeer) : CollPeer :=
  if p.acked.contains chunk then p else { p with acked := chunk :: p.acked }

/-- Acknowledges a chunk to the rank it came from. -/
def State.collAck (s : State) (core : Nat) (op : EngOp) (rank chunk : Nat) : State :=
  if rank = bitsOf (wd op.words 5) 0 8 then
    s.modOp core op.handle fun o => { o with peers := modPeer rank (·.ack chunk) o.peers }
  else s.collSend op rank (op.collMsg 2 chunk [] [])

/-- A contribution has come: a reduction acknowledges it now, the others once it is written (R363). -/
def State.collHold (s : State) (core : Nat) (op : EngOp) (rank chunk : Nat) (data : List Byte) : State :=
  if op.peers.any fun p => p.rank == rank && p.got.contains chunk then s
  else
    let s1 := s.modOp core op.handle fun o =>
      { o with parts := o.parts ++ [((rank, chunk), data)],
               peers := modPeer rank (fun p => { p with got := chunk :: p.got }) o.peers }
    if (collOf op.words op.map).reduces then s1.collAck core op rank chunk else s1

/-- One message for an operation (R360, R363). -/
def State.collHear (s : State) (core : Nat) (op : EngOp) (msg : CollMsg) : State :=
  match msg.kind with
  | 0 =>
    let s1 := s.modOp core op.handle fun o =>
      { o with peers := modPeer msg.rank (fun p => { p with fields := some msg.fields }) o.peers }
    if msg.fields == collFields (collOf op.words op.map) op.map then s1 else s1.failOp core op.handle .unreachable 0
  | 1 => s.collHold core op msg.rank msg.chunk msg.data
  | 2 =>
    s.modOp core op.handle fun o => { o with peers := modPeer msg.rank (·.ack msg.chunk) o.peers }
  | _ => s.failOp core op.handle .unreachable 0

/-- A message belongs to an operation that knows its members; a member is heard of once, so that its next launch's message
is not taken for it (R360). -/
def EngOp.hears (op : EngOp) (msg : CollMsg) : Bool :=
  op.kind == 4 && wd64 op.words 2 == msg.members && op.number == msg.number && !op.peers.isEmpty && op.outcome.isNone &&
    (msg.kind != 0 || op.peers.any fun p => p.rank == msg.rank && p.fields.isNone)

/-- A message of a peer has come. That of a member's operation which matches none of this chip's yet is kept, one that is
late for an operation that has ended here is not, and nor is a chunk or an acknowledgement for one (R360; DESIGN CHOICE, log
61). -/
def State.collTake (s : State) (msg : CollMsg) : State :=
  let hit := (mapFrom (fun i (c : Core) => (c.ops.filter (·.hears msg)).map fun o => (i, o)) 0 s.cores).flatten
  let key := (msg.members, msg.number, msg.rank)
  match hit with
  | (core, op) :: _ => s.collHear core op msg
  | [] =>
    if msg.kind != 0 then s
    else if s.fabric.collOwed.contains key then
      { s with fabric := { s.fabric with collOwed := s.fabric.collOwed.erase key } }
    else { s with fabric := { s.fabric with collIn := s.fabric.collIn ++ [msg] } }

/-- A collective ends here: the messages of the members that it has not heard of are late (R360). -/
def State.collLeave (s : State) (op : EngOp) : State :=
  let c := collOf op.words op.map
  let heard (r : Nat) : Bool := op.peers.any fun p => p.rank == r && p.fields.isSome
  let late (m : CollMsg) : Bool := m.members == wd64 op.words 2 && m.number == op.number && !heard m.rank
  let owed := (List.range c.nmem).filter fun r =>
    r != c.rank && !heard r && !s.fabric.collIn.any fun m => late m && m.rank == r
  if op.kind != 4 then s
  else
    { s with fabric := { s.fabric with
        collIn := s.fabric.collIn.filter fun m => !late m,
        collOwed := s.fabric.collOwed ++ owed.map fun r => (wd64 op.words 2, op.number, r) } }

/-- COLL_CHUNK_RECEIVE (R363). -/
def execCollChunkReceive (msg : CollMsg) (s : State) : Result := .next (s.collTake msg)

/-- Takes up the messages kept for an operation. -/
def State.collDrain (s : State) (core handle : Nat) : State :=
  s.fabric.collIn.foldl
    (fun s msg =>
      match s.op? core handle with
      | none => s
      | some op =>
        if op.hears msg then
          { s.collHear core op msg with fabric := { (s.collHear core op msg).fabric with
              collIn := (s.collHear core op msg).fabric.collIn.erase msg } }
        else s) s

/-- The member table is read: it is checked, the peers are told, and messages that came early are taken up (R360). -/
def State.collStart (s : State) (core : Nat) (op : EngOp) : State :=
  let c := collOf op.words op.map
  let ids := memberIds op
  if (ids[c.rank]?) != some s.chipId || ids.any (4096 ≤ ·) then s.failOp core op.handle .unreachable 0
  else
    let fields := collFields c op.map
    let peers := (List.range c.nmem).map fun r =>
      { rank := r, fields := if r = c.rank then some fields else none, got := [], sent := 0, acked := [] : CollPeer }
    let s1 := s.modOp core op.handle fun o => { o with peers := peers }
    ((peers.filter (·.rank != c.rank)).foldl (fun s p => s.collSend op p.rank (op.collMsg 0 0 fields [])) s1).collDrain
      core op.handle

/-- The next chunk of a reduction of which every contribution is there. -/
def EngOp.reducible (op : EngOp) (c : Coll) : Option Nat :=
  (op.parts.find? fun ((_, k), _) =>
    (op.parts.filter fun ((_, k'), _) => k' == k).length == c.nmem).map fun ((_, k), _) => k

/-- The elementwise tree of R362 over the ranks' contributions to a chunk. -/
def EngOp.reduced (op : EngOp) (c : Coll) (k : Nat) : List Byte :=
  let size := bankSize (c.fmt == 1)
  let rows := (List.range c.nmem).map fun r =>
    elemsOf size 65536 (((op.parts.find? fun (key, _) => key == (r, k)).map fun (_, bs) => bs).getD [])
  let n := (rows.headD []).length
  ((List.range n).map fun i =>
    natLe size (((treeReduce (fun u v => (reduceElem c.op c.fmt u v, 0)) 8
      ((rows.map fun row => row[i]?) ++ List.replicate (256 - c.nmem) none)).1).getD 0)).flatten

/-- Chooses the next work of a collective: a chunk to write, or a chunk to read for a peer that has issued its own. -/
def EngOp.nextWork (op : EngOp) (c : Coll) : Option (CollWork × List Byte) :=
  let ready : Option (CollWork × List Byte) :=
    if c.reduces then (op.reducible c).map fun k => (.write c.rank k, op.reduced c k)
    else op.parts.head?.map fun ((r, k), bs) => (.write r k, bs)
  match ready with
  | some w => some w
  | none =>
    (op.peers.find? fun p => p.fields.isSome && p.sent < chunkCount c op.map c.rank).map fun p =>
      (.send p.rank p.sent, [])

/-- Goes on with a chunk being read for a peer; when it is whole it is sent, or held as the rank's own (R360, R369). -/
def State.collRead (s : State) (core : Nat) (op : EngOp) (c : Coll) (q k : Nat) : State :=
  let len := chunkLen c op.map c.rank k
  if op.data.length < len then
    let (a, n) := sendPiece c op.map q (k * c.chunk + op.data.length) (len - op.data.length)
    match s.engRead op a n with
    | .fail st a => s.failOp core op.handle st a
    | .later => s
    | .ask p => s.engAsk core op p a n
    | .bytes bs => s.modOp core op.handle fun o => { o with data := o.data ++ bs }
  else
    let chip := ((memberIds op)[q]?).getD 0
    if q != c.rank && !s.fabric.collPath chip then s.failOp core op.handle .unreachable 0
    else
      let s1 := s.modOp core op.handle fun o =>
        { o with data := [], work := none, peers := modPeer q (fun p => { p with sent := p.sent + 1 }) o.peers }
      if q = c.rank then s1.collHold core { op with peers := op.peers } q k op.data
      else s1.collSend op q (op.collMsg 1 k [] op.data)

/-- Goes on with a chunk being written; when it is whole its sender is told (R363). -/
def State.collWrite (s : State) (core : Nat) (op : EngOp) (c : Coll) (p k : Nat) : State :=
  if op.data.isEmpty then
    let s1 := s.modOp core op.handle fun o => { o with work := none }
    if c.reduces then s1 else s1.collAck core op p k
  else
    let len := chunkLen c op.map p k
    let (a, n) := recvPiece c op.map p (k * c.chunk + (len - op.data.length)) op.data.length
    s.engWrite core op a (op.data.take n)

/-- One step of a collective. -/
def State.collStep (s : State) (core : Nat) (op : EngOp) : State :=
  let c := collOf op.words op.map
  if op.peers.isEmpty then s.collStart core op
  else
    match op.work with
    | some (.send q k) => s.collRead core op c q k
    | some (.write p k) => s.collWrite core op c p k
    | none =>
      match op.nextWork c with
      | none => s
      | some (w, bs) =>
        s.modOp core op.handle fun o =>
          { o with work := some w, data := bs,
                   parts := match w with
                     | .write p k => o.parts.filter fun (key, _) => if c.reduces then key.2 != k else key != (p, k)
                     | .send _ _ => o.parts }

/-- Every chunk this member sends is acknowledged (R363). -/
def EngOp.collAcked (op : EngOp) : Bool :=
  let c := collOf op.words op.map
  !op.peers.isEmpty && op.work.isNone && op.peers.all fun p => p.acked.length == chunkCount c op.map c.rank

/-! ## The events -/

/-- The operation has no more to do. -/
def EngOp.exhausted (op : EngOp) : Bool :=
  op.outcome.isSome ||
    (op.begun && op.list.length == op.listSpan.2 && op.total ≤ op.progress && (op.kind != 4 || op.collAcked) &&
      op.kind < 10)

/-- One step of an operation that has no run on its way. -/
def State.opStep (s : State) (core : Nat) (op : EngOp) : State :=
  if op.list.length < op.listSpan.2 then s.listStep core op
  else
    match op.kind with
    | 1 | 2 | 3 => s.xferStep core op
    | 4 => s.collStep core op
    | 5 | 6 => s.bankStep core op
    | 8 | 9 => s.rangeStep core op
    | _ => s

/-- The destination lies in the team's own scratchpad or the operation is paused there at a 512-byte boundary
(R324). -/
def EngOp.atPause (op : EngOp) : Bool :=
  op.paused && op.run.isNone && op.reading.isNone && op.progress % 512 == 0

/-- A run that is visible, and not the operation's last, is counted (R209); an operation that meets damaged bytes in
doing so ends (R299). -/
def State.countVisible (s : State) (core : Nat) (op : EngOp) (n : Nat) : State :=
  match s.countDamage op n false with
  | some a => (s.modOp core op.handle fun o => { o with run := none }).failOp core op.handle .dataErr a
  | none =>
    let slotDone (o : EngOp) : Bool :=
      match s.opTrug o with
      | none => true
      | some (u, off) => o.progress % u.trugSize off == 0
    (s.countRun op n false).modOp core op.handle fun o =>
      { o with run := none, trugSlot := if slotDone o then none else o.trugSlot }

/-- The pieces of global memory that an operation's next step reads or writes: the address, its bytes and whether it is
written. -/
def EngOp.touches (op : EngOp) : List (Nat × Nat × Bool) :=
  let piece (write : Bool) : Piece ⊕ Nat → List (Nat × Nat × Bool)
    | .inl p => if p.scratch then [] else [(p.addr, p.len, write)]
    | .inr _ => []
  let (base, need) := op.listSpan
  if op.list.length < need then
    [(base + op.list.length, min (need - op.list.length) (toBoundary (base + op.list.length)), false)]
  else
    match op.kind with
    | 1 | 2 | 3 => piece false op.source ++ (if op.kind == 1 && cpyDTRUG op.words then [] else piece true op.destination)
    | 4 =>
      let c := collOf op.words op.map
      match op.work with
      | some (.send q k) =>
        let (a, n) := sendPiece c op.map q (k * c.chunk + op.data.length) (chunkLen c op.map c.rank k - op.data.length)
        [(a, n, false)]
      | some (.write p k) =>
        let (a, n) := recvPiece c op.map p (k * c.chunk + (chunkLen c op.map p k - op.data.length)) op.data.length
        [(a, n, true)]
      | none => []
    | 5 | 6 => op.bankOperands.1.map (fun a => (a + op.progress, 1, false)) ++ [(op.bankOperands.2.1 + op.progress, 1, true)]
    | 8 | 9 => [(wd64 op.words 0 + op.progress, 0, false)]
    | _ => []

/-- The translations of an operation's step are cached on its core, and the home slices hold the lines, which the ingress
atomic cache owns no more (R273, R275, R359). -/
def State.opCache (s : State) (core : Nat) (op : EngOp) : State :=
  op.touches.foldl
    (fun s (va, n, write) =>
      match s.xlatG core op.grid va with
      | .ok p =>
        let s1 := (s.cacheXlat core (s.rootOf op.grid) va).reachHome p write n
        if p.home && n != 0 && s.mem.ingressUntil p.pa n ≤ s.gtime then { s1 with mem := s1.mem.reclaim p.pa n } else s1
      | _ => s) s

/-- The operation begins, if those before it let it, or goes on. -/
def State.opGo (s : State) (core : Nat) (op : EngOp) : State :=
  if op.begun then (s.opStep core op).opCache core op
  else if mayBegin (s.core core).ops op then s.modOp core op.handle fun o => { o with begun := true }
  else s

/-- ENGINE_RUN_DELIVERED (R209, R212, R291): a bank accepts a write; a visible run that is not the last is counted; then
the operation reads and writes its next. The last run of a collective stays uncounted until it completes, while its
chunks are still sent (R215, R363). -/
def execEngineRunDelivered (core handle : Nat) (s : State) : Result :=
  match s.op? core handle with
  | none => .next s
  | some op =>
    match s.bankReady op with
    | some w => .next (s.bankTake core op w)
    | none =>
      if op.waiting || op.reading.isSome || op.exhausted || op.atPause || 10 < op.kind then .next s
      else
        match op.run with
        | some r =>
          if !s.runVisible r then .next s
          else if op.kind = 4 ∧ op.total ≤ op.progress then .next (s.opGo core op)
          else .next (s.countVisible core op r.bytes)
        | none => .next (s.opGo core op)

/-- The status kept of an operation. -/
def EngOp.status (op : EngOp) : OpStatus :=
  let (st, a) := op.outcome.getD (.ok, 0)
  { handle := op.handle, team := op.team, state := st, address := a, version := op.version, pred := op.pred }

/-- Settles an operation in one step: the last run is counted, an error is set, locks are released and the status is
recorded (R209, R215, R216). -/
def State.finishOp (s : State) (core : Nat) (op : EngOp) : State :=
  let n := (op.run.map (·.bytes)).getD 0
  let (st, s1) :=
    match s.countDamage op n op.outcome.isSome with
    | some a => (if op.outcome.isSome then op.status else { op.status with state := .dataErr, address := a }, s)
    | none => (op.status, s.countRun op n op.outcome.isSome)
  let s1 : State := match op.bound with
    | some p => { s1 with fabric := s1.fabric.touch p s1.gtime }
    | none => s1
  ((s1.collLeave op).modCore core fun c =>
    { c with ops := c.ops.filter (·.handle != op.handle),
             locks := c.locks.filter fun k => k.matrix || k.owner != op.handle,
             done := if op.silent then c.done else (st :: c.done.filter (·.handle != op.handle)).take 256 }).modTeam
    op.team fun t => { t with ended := op.named :: t.ended }

/-- An operation may complete: it is exhausted and what it wrote is visible. -/
def State.mayComplete (s : State) (op : EngOp) : Bool :=
  op.exhausted && op.reading.isNone && op.run.all s.runVisible

/-- ENGINE_COMPLETION (R215). -/
def execEngineCompletion (core handle : Nat) (s : State) : Result :=
  match s.op? core handle with
  | none => .next s
  | some op => if s.mayComplete op then .next (s.finishOp core op) else .next s

/-! ## Circuit-live barriers (R218, R342) -/

/-- A word of a waiting copy's barrier: peer, port, state and generation (R341). -/
structure LiveWord where
  peer : Nat
  port : Nat
  state : Nat
  gen : Nat

def liveWord (x : Nat) : LiveWord :=
  { peer := bitsOf x 0 12, port := bitsOf x 16 5, state := bitsOf x 24 8, gen := bitsOf x 32 32 }

/-- A generation after another, as serial numbers (R218). -/
def laterGen (g base : Nat) : Int := (BitVec.ofNat 32 g - BitVec.ofNat 32 base).toInt

/-- The circuit of a port stands: its word may lag behind its state (R341). -/
def Fabric.circuitUp (f : Fabric) (port : Nat) : Bool :=
  match f.ports[port]? with
  | none => false
  | some p => p.state == .live || p.state == .doze || p.state == .nap || p.state == .draining

/-- Where `n` bytes at `a` begin in each 64 KiB page. -/
def pageStarts (a n : Nat) : List Nat :=
  a :: (List.range ((a + n - 1) / 65536 - a / 65536)).map fun k => 65536 * (a / 65536 + k + 1)

/-- Where the global sides of a copy begin in each page, and the translations there (R342). -/
def State.sidePages (s : State) (op : EngOp) : List (Nat × Xlat) :=
  let side (scratch : Bool) (a : Nat) : List Nat := if scratch then [] else pageStarts a (cpyBytes op.words)
  (side (cpySSP op.words) (wd64 op.words 2) ++ side (cpyDSP op.words || cpyDTRUG op.words) (wd64 op.words 4)).map
    fun a => (a, s.xlatG (s.coreOf op.team) op.grid a)

/-- The parts of a copy's sides that lie on PEER pages: address and PCHIP. -/
def State.peerSides (s : State) (op : EngOp) : List (Nat × Nat) :=
  (s.sidePages op).filterMap fun (a, t) =>
    match t with
    | .ok p => if p.aper = 1 then some (a, p.chip) else none
    | _ => none

/-- The pages of a copy's sides that firmware is to map (R272). -/
def State.sideWaits (s : State) (op : EngOp) : List Nat :=
  (s.sidePages op).filterMap fun (a, t) =>
    match t with
    | .service _ => some a
    | _ => none

/-- A waiting copy reads that its circuit is LIVE at its generation (R218). -/
def State.circuitOpen (s : State) (core : Nat) (op : EngOp) : Bool :=
  op.kind == 1 && op.waiting &&
    (match s.xlatG core op.grid (wd64 op.words 8) with
     | .ok p =>
       let w := liveWord (s.peekNat p.pa 8)
       p.home && p.readable && laterGen w.gen (wd op.words 10) == 0 && w.state == 4
     | _ => false)

/-- CIRCUIT_BARRIER_MATCH (R218, R342): a waiting copy reads its word; it starts, bound where a side is on a PEER page,
or ends, or goes on waiting, also for firmware to map a page of a side (R272). -/
def execCircuitBarrierMatch (core handle : Nat) (s : State) : Result :=
  match s.op? core handle with
  | none => .next s
  | some op =>
    if op.kind != 1 || !op.waiting || op.outcome.isSome then .next s
    else
      let va := wd64 op.words 8
      match s.xlatG core op.grid va with
      | .service _ => .next s
      | .fault _ => .next (s.failOp core handle .translation va)
      | .ok p =>
        if !p.home then .next (s.failOp core handle .aperture va)
        else if !p.readable then .next (s.failOp core handle .permission va)
        else if (s.mem.damagedByte p.pa 8).isSome then .next (s.failOp core handle .dataErr va)
        else
          let w := liveWord (s.peekNat p.pa 8)
          let d := laterGen w.gen (wd op.words 10)
          if 0 < d then .next (s.failOp core handle .staleGen 0)
          else if d = 0 ∧ w.state = 4 then
            let sides := s.peerSides op
            match sides.find? fun (_, chip) => chip != w.peer with
            | some (a, _) => .next (s.failOp core handle .aperture a)
            | none =>
              if !(s.sideWaits op).isEmpty then .next s
              else if !sides.isEmpty && !s.fabric.circuitUp w.port then .next (s.failOp core handle .circuitLost 0)
              else .next (s.modOp core handle fun o =>
                { o with waiting := false, bound := if sides.isEmpty then none else some w.port })
          else .next s

end Sys2Proof.Machine
end

