-- ==== Sys2Proof/Machine/Ports.lean ====
section
/-!
DEFINITION. Optical ports and electrical links: barrier words (R341), the port states and their bounds (R337 to R340),
what a lost circuit leaves (R340, R358), lanes and retrains (R354, R355), links (R357), ranks (R350).
-/

namespace Sys2Proof.Machine

/-! ## Barrier words (R337, R341) -/

/-- The state codes of R337. -/
def PortState.code : PortState → Nat
  | .dark => 0
  | .requested => 1
  | .locking => 2
  | .trained => 3
  | .live => 4
  | .doze => 5
  | .nap => 6
  | .draining => 7
  | .fault => 8

/-- The barrier word a port would write now (R341). -/
def Port.word (p : Port) (n : Nat) : Nat :=
  2 ^ 32 * p.generation.toNat + 2 ^ 24 * p.state.code + 2 ^ 16 * n + p.peer % 2 ^ 12

def State.port (s : State) (n : Nat) : Port := (s.fabric.ports[n]?).getD Port.reset

def State.modPort (s : State) (n : Nat) (f : Port → Port) : State :=
  { s with fabric := { s.fabric with ports := setAt f n s.fabric.ports } }

def State.modChannel (s : State) (c : Nat) (f : Channel → Channel) : State :=
  { s with fabric := s.fabric.modChannel c f }

/-- The port writes its word, with a WCT above that of its previous write, once a CREQ has named its address (R341). -/
def State.writeWord (s : State) (n : Nat) : State :=
  let p := s.port n
  match p.barrier with
  | none => s
  | some pa =>
    let (arr, s1) := (s.atHome true true pa 8).arrival
    let (mem, t) := s1.mem.receive pa (natLe 8 (p.word n)) (Writer.port s.chipId n) 0 false (max arr p.lastWct)
    ({ s1 with mem := mem } : State).modPort n fun p => { p with lastWct := t }

/-- A change of state: the port writes its word (R337, R341). -/
def State.enterPort (s : State) (n : Nat) (st : PortState) : State :=
  (s.modPort n fun p => { p with state := st, since := s.gtime, idle := s.gtime }).writeWord n

/-- Tells the broker: 0 a request, 1 a release, 2 a fault (R338, R340, R358). -/
def State.tellBroker (s : State) (n code : Nat) : State :=
  { s with fabric := { s.fabric with broker := s.fabric.broker ++ [(n, code)] } }

/-- A number of free length, in ns (DESIGN CHOICE, log 6). -/
def State.freeDelay (s : State) : Nat × State :=
  let (n, s) := s.newFresh
  (Config.latency n, s)

/-! ## What a lost path leaves (R340, R353, R358) -/

/-- The copies bound to a port end with CIRCUITLOST, those that a saved team keeps among them (R218, R324, R342). -/
def State.endBound (s : State) (n : Nat) : State :=
  let lost (o : EngOp) : Bool := o.bound == some n && o.outcome.isNone
  let s1 := (List.range s.cores.length).foldl
    (fun s i => ((s.core i).ops.filter lost).foldl (fun s o => s.failOp i o.handle .circuitLost 0) s) s
  let kept (o : EngOp) : EngOp := if lost o then { o with outcome := some (.circuitLost, 0), waiting := false } else o
  { s1 with teams := s1.teams.map fun t => { t with context := { t.context with ops := t.context.ops.map kept } } }

/-- The packets of which a channel's retry buffer holds flits, as copy data or not, first first. -/
def Channel.kept (ch : Channel) (copy : Bool) : List (List Byte) :=
  (ch.retry.filter (·.copy == copy)).foldl (fun ps r => if ps.contains r.whole then ps else ps ++ [r.whole]) []

/-- The packets of which a channel's buffers hold flits, sent and unacknowledged or still to be sent. -/
def Channel.packets (ch : Channel) (copy : Bool) : List (List Byte) :=
  (ch.waiting.filter (·.copy == copy)).foldl (fun ps w => if ps.contains w.whole then ps else ps ++ [w.whole])
    (ch.kept copy)

/-- The copies' packets whose flits stand in a circuit's retry buffer are reported as undelivered, this chip's writes and
the data that it returns to a peer's copy alike; the requests the circuit carried for its copies are given up (R340,
R358). -/
def State.dropCarried (s : State) (n : Nat) : State :=
  let lost := (((s.port n).channel.kept true).map viewPacket).filter (·.type != pkData)
  let s1 := lost.foldl (fun s v => s.undeliveredAt v.addr v.dst) s
  (s1.fabric.remotes.filter fun r => r.port == some n).foldl
    (fun s r =>
      let s2 := { s with fabric := s.fabric.settled r.id }
      match r.engine with
      | none => s2
      | some (core, h) => s2.modOp core h fun o => { o.loseRun r.id with reading := none }) s1

/-- The packet that tells a source that a packet of its met NONE (R353). -/
def undeliverable (v : PacketView) : List Byte :=
  packetBytes pkUndeliverable v.r v.aop v.dst v.src v.e2e 0 v.addr v.rtag []

/-- A collective's message that a lost path interrupted: it is sent again whole, and where a chunk has no path its
operation ends with STATE 6 (R360, R367). -/
def State.interrupted (s : State) (id : Nat) : State :=
  match s.fabric.collSent.find? (·.id == id) with
  | none => s
  | some m =>
    let again (sent : Bool) : State :=
      { s with fabric := { s.fabric with
          collSent := s.fabric.collSent.map fun q => if q.id = id then { q with sent := sent } else q } }
    if m.msg.kind != 1 || s.fabric.collPath m.chip then (again false).flushColl
    else
      (List.range s.cores.length).foldl
        (fun s i =>
          ((s.core i).ops.filter fun o =>
              o.kind == 4 && wd64 o.words 2 == m.msg.members && o.number == m.msg.number && o.outcome.isNone).foldl
            (fun s o => s.failOp i o.handle .unreachable 0) s) s

/-- A packet of this chip met no route, by its destination, end-to-end number and tag: a write is reported and no longer
counts, a read or atomic is sent again when a route exists (R353), and so is a response that this chip recorded (DESIGN
CHOICE, log 93); a collective's message is sent again whole or ends its operation (R360), if no packet that it was last
sent in is older. -/
def State.meetNone (s : State) (chip e2e tag : Nat) : State :=
  match s.fabric.remotes.find? fun r => !r.node && r.chip == chip && r.e2e == some e2e with
  | some r =>
    if r.kind = pkWrite then
      let s1 := s.undelivered r
      let s2 := { s1 with fabric := s1.fabric.settled r.id }
      match r.engine with
      | none => s2
      | some (core, h) => (s2.modOp core h fun o => o.loseRun r.id).failOp core h .unreachable r.va
    else
      { s with fabric := { s.fabric with remotes := s.fabric.remotes.map fun q =>
          if q.id = r.id then { q with queued := true } else q } }
  | none =>
    match s.fabric.responses.find? fun p => p.chip == chip && (viewPacket p.packet).e2e == e2e with
    | some p => { s with fabric := { s.fabric with stranded := s.fabric.stranded ++ [(chip, p.packet)] } }
    | none =>
      if s.fabric.collSent.any fun m => m.id == tag && m.chip == chip && m.e2e ≤ e2e then s.interrupted tag else s

/-- Routes a packet from an input channel: it is queued on its output; where it meets NONE its source is told, or this
chip acts if it is the source (R350, R353). An UNDELIVERABLE that meets NONE itself goes no further (DESIGN CHOICE, log
93). -/
def State.routePacket (s : State) (input : Nat) (bs : List Byte) : State :=
  let v := viewPacket bs
  let out := s.fabric.route v.dst input
  if out != 62 && s.fabric.carries out then { s with fabric := s.fabric.enqueue out s.gtime false bs }
  else if v.type = pkUndeliverable then s
  else if v.src = s.chipId then s.meetNone v.dst v.e2e v.rtag
  else { s with fabric := s.fabric.inject v.src s.gtime (undeliverable v) }

/-- A packet that a lost path held is sent again by this chip's own table, one that it forwards too (R340, R358; DEDUCED,
log 43). -/
def State.resend (s : State) (bs : List Byte) : State := s.routePacket 63 bs

/-- A packet of a collective's message from this chip. -/
def State.ownChunk (s : State) (bs : List Byte) : Bool :=
  let v := viewPacket bs
  v.type == pkData && v.src == s.chipId

/-- Empties a channel's buffers; its packets and its collectives' messages are sent again. -/
def State.resendAll (s : State) (c : Nat) : State :=
  match s.fabric.channel? c with
  | none => s
  | some ch =>
    let s1 := s.modChannel c fun ch => { ch with retry := [], waiting := [], partials := [], retrain := none, replayDue := false }
    let s2 := ((ch.packets false).filter fun bs => !s.ownChunk bs).foldl State.resend s1
    (nubNat (((ch.packets true ++ ch.packets false).filter s.ownChunk).map fun bs => (viewPacket bs).rtag)).foldl
      State.interrupted s2

/-- Steps 2 to 4 of R358, also at the end of a drain (R340). -/
def State.loseCircuit (s : State) (n : Nat) : State := ((s.endBound n).dropCarried n).resendAll n

/-- Entry to FAULT (R358). -/
def State.portFault (s : State) (n : Nat) : State :=
  (((s.enterPort n .fault).loseCircuit n).tellBroker n 2).event 4 n []

/-- Entry to DRAINING (R340). -/
def State.startDrain (s : State) (n : Nat) : State :=
  let (d, s1) := s.freeDelay
  (s1.modPort n fun p => { p with due := s.gtime + d }).enterPort n .draining

/-- The port sleeps. -/
def PortState.asleep (st : PortState) : Bool := st == .doze || st == .nap

/-- The circuit stands. -/
def PortState.up (st : PortState) : Bool := st == .live || st.asleep

/-! ## Circuits from outside (R337, R338) -/

/-- CIRCUIT_GRANT (R338): SETUP saturates (R347). -/
def execCircuitGrant (port peerPort setup : Nat) (s : State) : Result :=
  let p := s.port port
  if p.state == .requested && p.granted.isNone then
    .next (s.modPort port fun p =>
      { p with granted := some s.gtime, peerPort := peerPort % 2 ^ 8, setup := min setup (2 ^ 16 - 1) })
  else .next s

/-- BROKER_REFUSAL (R338, R347). -/
def execBrokerRefusal (port code : Nat) (s : State) : Result :=
  let p := s.port port
  if p.state == .requested && p.granted.isNone then
    .next ((s.modPort port fun p => { p with refusal := code % 2 ^ 8 }).enterPort port .dark)
  else .next s

/-- LIGHT_DETECTED (R337). -/
def execLightDetected (port : Nat) (s : State) : Result :=
  let p := s.port port
  if p.state == .requested && p.granted.isSome then .next (s.enterPort port .locking) else .next s

/-- LIGHT_TIMEOUT (R337): no light within 10 µs of the grant. -/
def execLightTimeout (port : Nat) (s : State) : Result :=
  let p := s.port port
  if p.state == .requested && p.granted.any (fun t => t + 10000 < s.gtime) then .next (s.portFault port) else .next s

/-- LOCK_ACHIEVED (R337): every lane is in the working set again (R355). -/
def execLockAchieved (port : Nat) (s : State) : Result :=
  if (s.port port).state == .locking then
    .next ((s.modPort port fun p =>
      { p with trained := false, channel := { p.channel with working := 0xFFFF } }).enterPort port .trained)
  else .next s

/-- LOCK_TIMEOUT (R337). -/
def execLockTimeout (port : Nat) (s : State) : Result :=
  let p := s.port port
  if p.state == .locking && p.since + 30000 < s.gtime then .next (s.portFault port) else .next s

/-- A channel after training: sequence numbers, credits and buffers begin afresh, and the ranks are exchanged (R337,
R350). -/
def Channel.retrained (ch : Channel) (rank : Nat) : Channel :=
  { Channel.reset with rank := ch.rank, peerRank := some rank, working := ch.working, retries := ch.retries }

/-- Reports a channel's rank to the other end (R350). -/
def State.reportRank (s : State) (c : Nat) : State :=
  { s with fabric := { s.fabric with rankOut :=
      s.fabric.rankOut ++ [(c, ((s.fabric.channel? c).map (·.rank)).getD 0)] } }

/-- TRAINING_DONE (R337): the LIVE handshake of 1 µs begins. -/
def execTrainingDone (port rank : Nat) (s : State) : Result :=
  let p := s.port port
  if p.state == .trained && !p.trained then
    .next ((s.modPort port fun p =>
      { p with trained := true, due := s.gtime + 1000, channel := p.channel.retrained rank }).reportRank port)
  else .next s

/-- TRAINING_TIMEOUT (R337). -/
def execTrainingTimeout (port : Nat) (s : State) : Result :=
  let p := s.port port
  if p.state == .trained && !p.trained && p.since + 6000 < s.gtime then .next (s.portFault port) else .next s

/-- LIVE_HANDSHAKE_DONE (R337): the generation rises by 1. -/
def execLiveHandshakeDone (port : Nat) (s : State) : Result :=
  let p := s.port port
  if p.state == .trained && p.trained && p.due ≤ s.gtime then
    .next ((s.modPort port fun p => { p with generation := p.generation + 1, degrades := 0 }).enterPort port .live)
  else .next s

/-! ## Sleep (R339) -/

/-- A copy that runs over a port (R342). -/
def State.carriesCopy (s : State) (n : Nat) : Bool := s.cores.any fun c => c.ops.any fun o => o.bound == some n

/-- The time a sleeping state takes to leave (R337, R339). -/
def PortState.exitTime : PortState → Nat
  | .doze => 400
  | .nap => 25000
  | _ => 0

/-- PORT_DOZE (R339). -/
def execPortDoze (port : Nat) (s : State) : Result :=
  let p := s.port port
  if p.state == .live && 400 ≤ p.tol && p.idle + 2000 ≤ s.gtime && p.channel.waiting.isEmpty &&
      p.channel.retry.isEmpty && p.channel.retrain.isNone && !s.carriesCopy port then
    .next (s.enterPort port .doze)
  else .next s

/-- PORT_NAP (R339). -/
def execPortNap (port : Nat) (s : State) : Result :=
  let p := s.port port
  if p.state == .doze && 25000 ≤ p.tol && p.since + 100000 ≤ s.gtime then .next (s.enterPort port .nap) else .next s

/-- A copy that waits on the port's barrier word for the port's generation (R339). -/
def State.awaitsPort (s : State) (n : Nat) : Bool :=
  let p := s.port n
  s.cores.any fun c => c.ops.any fun o =>
    o.kind == 1 && o.waiting && o.outcome.isNone && wd o.words 10 == p.generation.toNat &&
      (match s.xlatG (s.coreOf o.team) o.grid (wd64 o.words 8) with
       | .ok q => p.barrier == some q.pa
       | _ => false)

/-- A sleeping port has a reason of its own to wake: traffic, a waiting copy, or a TOL below the exit time (R339). -/
def State.mustWake (s : State) (n : Nat) : Bool :=
  let p := s.port n
  p.state.asleep && (!p.channel.waiting.isEmpty || p.tol < p.state.exitTime || s.awaitsPort n)

/-- An electrical link goes down (R357). -/
def State.linkDown (s : State) (k : Nat) : State :=
  (({ s with fabric := { s.fabric with links := setAt (fun l => { l with up := false }) k s.fabric.links } } :
    State).resendAll (32 + k)).event 4 (32 + k) []

/-- The working lanes that remain. -/
def Channel.left (ch : Channel) (lanes : BitVec 16) : BitVec 16 := ch.working &&& ~~~lanes

/-- A channel retrains over the lanes that remain, from now if it does not yet (R355). -/
def Channel.fail (ch : Channel) (lanes : BitVec 16) (now : Nat) : Channel :=
  { ch with working := ch.left lanes, lost := 0, retrain := some (ch.retrain.getD now) }

/-- A retrain marker, which tells the other end the lanes that this end can use (R336, R355; DESIGN CHOICE, log 83). -/
def Fabric.putMarker (f : Fabric) (c now : Nat) : Fabric :=
  match f.channel? c with
  | none => f
  | some ch => ((f.wakePeer c now).touch c now).put c (flitBytes (natLe 2 ch.working.toNat) 0 ch.received 4 0 0)

/-- Lanes of a path fail: with lanes left it retrains, which counts once in DEGRADES, and the other end is told, also of
lanes that fail during the retrain; with none left a port enters FAULT and a link goes down (R355, R357, R358). -/
def State.loseLanes (s : State) (channel : Nat) (lanes : BitVec 16) : State :=
  match s.fabric.channel? channel with
  | none => s
  | some ch =>
    let counted : State := if lanes = 0 then s else { s with fw := { s.fw with laneDegrades := s.fw.laneDegrades + 1 } }
    let s1 := counted.modChannel channel fun ch => ch.fail lanes s.gtime
    if ch.left lanes = 0 then
      if channel < 32 then s1.portFault channel else s1.linkDown (channel - 32)
    else if ch.retrain.isSome then
      if ch.working &&& lanes = 0 then s1 else { s1 with fabric := s1.fabric.putMarker channel s.gtime }
    else
      let s2 := s1.modPort channel fun p => { p with degrades := min (p.degrades + 1) (2 ^ 16 - 1) }
      { s2 with fabric := s2.fabric.putMarker channel s.gtime }

/-- PORT_WAKE (R339), for a reason of the port's own or the peer's request; the peer is woken before anything is sent,
and the stripe starts afresh (R354). Lanes that failed during the sleep are found now (R367). -/
def execPortWake (port : Nat) (s : State) : Result :=
  let p := s.port port
  if p.state.asleep then
    let s1 := s.enterPort port .live
    let s2 : State := ({ s1 with fabric := { s1.fabric with wakeOut := s1.fabric.wakeOut ++ [port] } } : State).modChannel
      port fun ch => { ch with stripe := 0 }
    let s3 := if p.channel.lost = 0 then s2 else s2.loseLanes port p.channel.lost
    .next { s3 with fabric := (s3.fabric.flushOwed port).pump port s.gtime 256 }
  else .next s

/-! ## Release (R340) -/

/-- DRAIN_END (R340). -/
def execDrainEnd (port : Nat) (s : State) : Result :=
  let p := s.port port
  if p.state == .draining && p.due ≤ s.gtime then
    .next (((s.loseCircuit port).enterPort port .dark).tellBroker port 1)
  else .next s

/-- DRAIN_TIMEOUT (R337). -/
def execDrainTimeout (port : Nat) (s : State) : Result :=
  let p := s.port port
  if p.state == .draining && p.since + 2000 < s.gtime then .next (s.portFault port) else .next s

/-- PEER_RELEASE (R340): of a port that has been granted its circuit. -/
def execPeerRelease (port : Nat) (s : State) : Result :=
  let p := s.port port
  if p.state.up then .next (s.startDrain port)
  else if p.state == .locking || p.state == .trained || (p.state == .requested && p.granted.isSome) then
    .next ((s.enterPort port .dark).tellBroker port 1)
  else .next s

/-- PEER_FAULT (R358): of a port that has been granted its circuit. -/
def execPeerFault (port : Nat) (s : State) : Result :=
  let p := s.port port
  match p.state with
  | .dark | .fault => .next s
  | .requested => if p.granted.isSome then .next (s.portFault port) else .next s
  | _ => .next (s.portFault port)

/-- LIGHT_LOSS (R358): of a port that has light. -/
def execLightLoss (port : Nat) (s : State) : Result :=
  match (s.port port).state with
  | .dark | .requested | .fault => .next s
  | _ => .next (s.portFault port)

/-- UCIE_FAILURE (R335, R358). -/
def execUcieFailure (port : Nat) (s : State) : Result :=
  if (s.port port).state == .fault || 32 ≤ port then .next s else .next (s.portFault port)

/-! ## Lanes, retrains and links (R354, R355, R357) -/

/-- LANE_FAILURE (R355, R357, R358, R367): in TRAINED the lanes stay out of the lane map, a sleeping port finds them at
its wake, and a LIVE or DRAINING port or a link retrains. -/
def execLaneFailure (channel : Nat) (lanes : BitVec 16) (s : State) : Result :=
  match s.fabric.channel? channel with
  | none => .next s
  | some ch =>
    if ch.working &&& lanes = 0 then .next s
    else if channel < 32 then
      match (s.port channel).state with
      | .doze | .nap => .next (s.modChannel channel fun ch => { ch with lost := ch.lost ||| lanes })
      | .live | .draining => .next (s.loseLanes channel lanes)
      | .trained =>
        let s1 := s.modChannel channel fun ch => { ch with working := ch.left lanes }
        if ch.left lanes = 0 then .next (s1.portFault channel) else .next s1
      | _ => .next s
    else if (s.fabric.links[channel - 32]?).any (·.up) then .next (s.loseLanes channel lanes)
    else .next s

/-- The free count that this end reports for a virtual channel: its buffer less the flits of packets not yet whole and of
those not yet delivered or forwarded (R355). -/
def Fabric.freeCount (f : Fabric) (c vc : Nat) : Nat :=
  let parts := (((f.channel? c).map (·.partials)).getD []).filter fun (k, _) => k % 2 == vc
  let whole := f.arrived.filter fun (c', _, bs) => c' == c && packetVc (viewPacket bs).type == vc
  255 - (parts.map fun (_, bs) => flitsOf bs).sum - (whole.map fun (_, _, bs) => flitsOf bs).sum

/-- A stored flit with the ACK of now. -/
def reAck (ack : Nat) (flit : List Byte) : List Byte :=
  let body := flit.take 58 ++ natLe 2 ack ++ (flit.drop 60).take 2
  body ++ natLe 2 (crc16 body)

/-- Replays from the first unacknowledged flit; a peer that may sleep is woken first (R339, R355, R356). -/
def Fabric.replay (f : Fabric) (c now : Nat) : Fabric :=
  match f.channel? c with
  | none => f
  | some ch =>
    let f1 := if ch.retry.isEmpty then f else (f.wakePeer c now).touch c now
    (ch.retry.foldl (fun f r => f.put c (reAck ch.received r.flit)) f1).modChannel c fun ch =>
      { ch with ackTime := now, replayDue := false }

def State.replay (s : State) (c : Nat) : State := { s with fabric := s.fabric.replay c s.gtime }

/-- RETRAIN_END (R354, R355, R370): the stripe restarts and credit returns for VC 0 and VC 1 go first; the replay follows
once the other end's have come, with its ACK. -/
def execRetrainEnd (channel : Nat) (s : State) : Result :=
  match s.fabric.channel? channel with
  | none => .next s
  | some ch =>
    if ch.retrain.isNone then .next s
    else
      let s1 := s.modChannel channel fun ch =>
        { ch with retrain := none, stripe := 0, resync := (true, true), replayDue := !ch.retry.isEmpty, owed := (0, 0),
                  ackTime := s.gtime }
      .next { s1 with fabric :=
        (s1.fabric.putCredit channel 0 (s.fabric.freeCount channel 0)).putCredit channel 1 (s.fabric.freeCount channel 1) }

/-- RETRAIN_TIMEOUT (R357, R358): a port enters FAULT, a link goes down. -/
def execRetrainTimeout (channel : Nat) (s : State) : Result :=
  if (s.fabric.channel? channel).any fun ch => ch.retrain.any fun t => t + 50000 < s.gtime then
    .next (if channel < 32 then s.portFault channel else s.linkDown (channel - 32))
  else .next s

/-- ELINK_DOWN (R357). -/
def execElinkDown (link : Nat) (s : State) : Result :=
  if (s.fabric.links[link]?).any (·.up) then .next (s.linkDown link) else .next s

/-- ELECTRICAL_LINK_TRAINED (R350, R357). -/
def execElectricalLinkTrained (link rank : Nat) (s : State) : Result :=
  if (s.fabric.links[link]?).any (fun l => !l.up) then
    let train (l : ELink) : ELink := { up := true, channel := { l.channel.retrained rank with working := 0xFFFF } }
    let links := setAt train link s.fabric.links
    .next (({ s with fabric := { s.fabric with links := links } } : State).reportRank (32 + link))
  else .next s

/-- RANK_REPORT (R350): packets that waited for the ranks to agree go. -/
def execRankReport (channel rank : Nat) (s : State) : Result :=
  let s1 := s.modChannel channel fun ch => { ch with peerRank := some rank }
  .next { s1 with fabric := s1.fabric.pump channel s.gtime 256 }

end Sys2Proof.Machine
end

