-- ==== Sys2Proof/Machine/Scripts.lean ====
section
/-!
DEFINITION. The trellis processor: script contexts (R343), scalar instructions (R345), script faults (R346), circuit
instructions (R340, R347), the route table (R350, R351) and events (R348).
-/

namespace Sys2Proof.Machine

/-! ## Contexts (R343, R344) -/

def State.ctx (s : State) (n : Nat) : Ctx := (s.ctxs[n]?).getD Ctx.reset

def State.modCtx (s : State) (n : Nat) (f : Ctx → Ctx) : State := { s with ctxs := setAt f n s.ctxs }

/-- Register ki; k0 reads 0 (R343). -/
def Ctx.reg (c : Ctx) (i : BitVec 4) : DWord := if i = 0 then 0 else tget 0 c.regs i.toNat

/-- A write to k0 is discarded (R343). -/
def Ctx.setReg (c : Ctx) (i : BitVec 4) (x : DWord) : Ctx :=
  if i = 0 then c else { c with regs := tput c.regs i.toNat x }

/-- The context goes on to the next word. -/
def Ctx.advance (c : Ctx) : Ctx := { c with pc := c.pc + 4 }

/-- A result and the next word. -/
def Ctx.result (c : Ctx) (d : BitVec 4) (x : DWord) : Ctx := (c.setReg d x).advance

/-- SExt(imm14, 64) (R345). -/
def imm14 (i : BitVec 14) : DWord := i.signExtend 64

/-- A branch (R345). -/
def Ctx.branch (c : Ctx) (i : BitVec 14) : Ctx := { c with pc := c.pc + 4 * i.signExtend 48 }

/-- The context may execute: it runs, and no wait holds it; a KST's wait ends at its WCT (R345). -/
def Ctx.ready (c : Ctx) (now : Nat) : Bool :=
  c.running && (match c.wait with
    | none => true
    | some (.store wct) => wct ≤ now
    | _ => false)

/-- A script fault halts the context, with its registers and PC as they stood, and is posted (R346, R387). -/
def State.scriptFault (s : State) (n : Nat) (c : Cause) : State :=
  let pc := (s.ctx n).pc
  (s.modCtx n fun k => { k with running := false, wait := none }).post mtScriptFault n 0 0
    (natLe 8 pc.toNat ++ natLe 4 (c.word false).toNat ++ natLe 4 0 ++ natLe 8 c.addr)

/-- One instruction of the chosen context. -/
def scriptStep (s : State) (f : Nat → Ctx → State → State) : Result :=
  let n := s.curCtx
  if (s.ctx n).ready s.gtime then
    .next (f n (s.ctx n) (s.modCtx n fun c => { c with wait := none }))
  else .next s

/-- An instruction that changes its context only. -/
def ctxStep (s : State) (f : Ctx → Ctx) : Result := scriptStep s fun n _ s => s.modCtx n f

/-- Translates an address for a context (R343). -/
def State.xlatCtx (s : State) (c : Ctx) (va : Nat) : Xlat :=
  s.xlat none c.troot c.grid (((s.grid? c.grid).map (·.launch.bankmem)).getD 0) va

/-! ## Scalar instructions (R345) -/

/-- KMOV. -/
def execKmov (d a : BitVec 4) (s : State) : Result := ctxStep s fun c => c.result d (c.reg a)

/-- KMOVI. -/
def execKmovi (d : BitVec 4) (imm : BitVec 14) (s : State) : Result := ctxStep s fun c => c.result d (imm14 imm)

/-- KMOVI.SH. -/
def execKmoviSh (d : BitVec 4) (imm : BitVec 14) (s : State) : Result :=
  ctxStep s fun c => c.result d (c.reg d * 2 ^ 14 + imm.setWidth 64)

/-- KADD. -/
def execKadd (d a b : BitVec 4) (imm : BitVec 14) (s : State) : Result :=
  ctxStep s fun c => c.result d (c.reg a + c.reg b + imm14 imm)

/-- KSUB. -/
def execKsub (d a b : BitVec 4) (s : State) : Result := ctxStep s fun c => c.result d (c.reg a - c.reg b)

/-- KAND. -/
def execKand (d a b : BitVec 4) (s : State) : Result := ctxStep s fun c => c.result d (c.reg a &&& c.reg b)

/-- KOR. -/
def execKor (d a b : BitVec 4) (s : State) : Result := ctxStep s fun c => c.result d (c.reg a ||| c.reg b)

/-- The address of KLD and KST. -/
def Ctx.address (c : Ctx) (a : BitVec 4) (imm : BitVec 14) : Nat := (c.reg a + imm14 imm).toNat % 2 ^ 48

/-- What a script's access meets: the fault of R345, in the order of R195. -/
def State.meetCtx (s : State) (c : Ctx) (va : Nat) (write : Bool) : Met :=
  if va % 8 != 0 then .fault (Cause.address va)
  else
    match s.xlatCtx c va with
    | .fault sub => .fault (Cause.translation sub va)
    | .service e => .service e
    | .ok p =>
      if !p.home then .fault (Cause.address va)
      else
        match permSub p (!write) write false with
        | some sub => .fault (Cause.permission sub va)
        | none =>
          match (if write then s.mem.mergedByte p.pa 8 else s.mem.damagedByte p.pa 8) with
          | some b => .fault (Cause.dataError (va + (b - p.pa)))
          | none => .place p

/-- An access of a script: its fault halts it, and a serviceable page makes it wait (R272). -/
def scriptAccess (s : State) (a : BitVec 4) (imm : BitVec 14) (write : Bool)
    (f : Nat → Ctx → Nat → Place → State → State) : Result :=
  scriptStep s fun n c s =>
    let va := c.address a imm
    match s.meetCtx c va write with
    | .fault k => s.scriptFault n k
    | .service _ => s.modCtx n fun c => { c with wait := some (.page va false) }
    | .place p => f n c va p s

/-- KLD: a lease-class-0 load; it waits for the write-back of a line that the ingress atomic cache owns (R359). -/
def execKld (d a : BitVec 4) (imm : BitVec 14) (s : State) : Result :=
  scriptAccess s a imm false fun n _ _ p s =>
    let t := s.mem.ingressUntil p.pa 8
    if s.gtime < t then s.modCtx n fun c => { c with wait := some (.store t) }
    else
      let s1 : State := { s with mem := s.mem.reclaim p.pa 8 }
      (s1.reachHome p false 8).modCtx n fun c => c.result d (BitVec.ofNat 64 (s1.peekNat p.pa 8))

/-- KST: the next instruction waits for the store's WCT. -/
def execKst (d a : BitVec 4) (imm : BitVec 14) (s : State) : Result :=
  scriptAccess s a imm true fun n c _ p s =>
    let (s1, t) := (s.reachHome p true 8).storeAs p.pa (natLe 8 (c.reg d).toNat) (Writer.script s.chipId n) n
    s1.modCtx n fun c => { c.advance with wait := some (.store t) }

/-- KBEQ. -/
def execKbeq (a b : BitVec 4) (imm : BitVec 14) (s : State) : Result :=
  ctxStep s fun c => if c.reg a = c.reg b then c.branch imm else c.advance

/-- KBNE. -/
def execKbne (a b : BitVec 4) (imm : BitVec 14) (s : State) : Result :=
  ctxStep s fun c => if c.reg a ≠ c.reg b then c.branch imm else c.advance

/-- KBLT: signed. -/
def execKblt (a b : BitVec 4) (imm : BitVec 14) (s : State) : Result :=
  ctxStep s fun c => if (c.reg a).toInt < (c.reg b).toInt then c.branch imm else c.advance

/-- KJMP. -/
def execKjmp (imm : BitVec 14) (s : State) : Result := ctxStep s fun c => c.branch imm

/-- KTIME. -/
def execKtime (d : BitVec 4) (s : State) : Result := ctxStep s fun c => c.result d (BitVec.ofNat 64 s.gtime)

/-- KSLEEP: waits at the instruction until KSLEEP_EXPIRY. -/
def execKsleep (a : BitVec 4) (imm : BitVec 14) (s : State) : Result :=
  ctxStep s fun c => { c with wait := some (.sleep (s.gtime + (c.reg a).toNat + imm.toNat)) }

/-- KSLEEP_EXPIRY. -/
def execKsleepExpiry (ctx : Nat) (s : State) : Result :=
  match (s.ctx ctx).wait with
  | some (.sleep t) =>
    if t ≤ s.gtime then .next (s.modCtx ctx fun c => { c.advance with wait := none }) else .next s
  | _ => .next s

/-- KHALT: halts and posts SCRIPTHALT (R387). -/
def execKhalt (imm : BitVec 14) (s : State) : Result :=
  scriptStep s fun n _ s =>
    (s.modCtx n fun c => { c with running := false }).post mtScriptHalt n 0 imm.toNat []

/-- KNOP. -/
def execKnop (s : State) : Result := ctxStep s Ctx.advance

/-! ## Circuit instructions (R340, R347) -/

/-- The port named by K[a][4:0]; none where K[a][63:5] is not 0. -/
def Ctx.port? (c : Ctx) (a : BitVec 4) : Option Nat := if (c.reg a).toNat < 32 then some (c.reg a).toNat else none

/-- A circuit instruction on the port that K[a] names. -/
def portStep (s : State) (a : BitVec 4) (f : Nat → Ctx → Nat → State → State) : Result :=
  scriptStep s fun n c s =>
    match c.port? a with
    | none => s.scriptFault n Cause.illegalOperand
    | some p => f n c p s

/-- The place of a barrier word, if the address is a multiple of 8 on a writable page of this part (R347). -/
def State.barrierPlace (s : State) (c : Ctx) (va : Nat) : Option Place :=
  if va % 8 != 0 || 2 ^ 48 ≤ va then none
  else
    match s.xlatCtx c va with
    | .ok p => if p.home && p.writable then some p else none
    | _ => none

/-- The barrier address lies on a serviceable page, so that the CREQ waits for firmware (R272). -/
def State.barrierAsks (s : State) (c : Ctx) (va : Nat) : Bool :=
  va % 8 == 0 && va < 2 ^ 48 && (match s.xlatCtx c va with | .service _ => true | _ => false)

/-- CREQ (R347). -/
def execCreq (d a b : BitVec 4) (s : State) : Result :=
  scriptStep s fun n c s =>
    let k := (c.reg a).toNat
    let port := bitsOf k 16 5
    let peer := bitsOf k 0 12
    if k != peer + 2 ^ 16 * port then s.scriptFault n Cause.illegalOperand
    else
      let answer (x : DWord) (s : State) : State := s.modCtx n fun c => c.result d x
      if (s.port port).state != .dark then answer 1 s
      else if s.barrierAsks c (c.reg b).toNat then
        s.modCtx n fun c => { c with wait := some (.barrier d.toNat (c.reg b).toNat) }
      else
        match s.barrierPlace c (c.reg b).toNat with
        | none => answer 2 s
        | some p =>
          if peer = s.chipId then answer 3 s
          else
            answer 0 (((s.modPort port fun q =>
              { q with peer := peer, barrier := some p.pa, granted := none }).enterPort port .requested).tellBroker port 0)

/-- What CWAIT waits for besides its deadline. -/
def cwaitMet (p : Port) (state : Nat) : Bool := p.state.code == state || p.state == .dark || p.state == .fault

/-- The deadline of a CWAIT has passed; 0 is none. -/
def cwaitLate (deadline now : Nat) : Bool := deadline != 0 && deadline ≤ now

/-- A CWAIT ends: K[d] receives the word that the port would write at that moment (R347). -/
def State.endCwait (s : State) (n d port : Nat) : State :=
  s.modCtx n fun c => { c.result (BitVec.ofNat 4 d) (BitVec.ofNat 64 ((s.port port).word port)) with wait := none }

/-- CWAIT (R347). -/
def execCwait (d a b : BitVec 4) (imm : BitVec 14) (s : State) : Result :=
  portStep s a fun n c p s =>
    if imm.toNat = 0 ∨ 8 < imm.toNat then s.scriptFault n Cause.illegalOperand
    else if cwaitMet (s.port p) imm.toNat || cwaitLate (c.reg b).toNat s.gtime then s.endCwait n d.toNat p
    else s.modCtx n fun c => { c with wait := some (.cwait d.toNat p imm.toNat (c.reg b).toNat) }

/-- CWAIT_TIMEOUT (R347). -/
def execCwaitTimeout (ctx : Nat) (s : State) : Result :=
  match (s.ctx ctx).wait with
  | some (.cwait d port _ deadline) =>
    if cwaitLate deadline s.gtime then .next (s.endCwait ctx d port) else .next s
  | _ => .next s

/-- CREL (R340, R347). -/
def execCrel (d a : BitVec 4) (s : State) : Result :=
  portStep s a fun n _ p s =>
    let answer (x : DWord) (s : State) : State := s.modCtx n fun c => c.result d x
    match (s.port p).state with
    | .dark => answer 1 s
    | .draining => answer 2 s
    | .live | .doze | .nap => answer 0 (s.startDrain p)
    | .locking | .trained => answer 0 ((s.enterPort p .dark).tellBroker p 1)
    | .requested | .fault => answer 0 (s.enterPort p .dark)

/-- CTOL (R339, R347). -/
def execCtol (a b : BitVec 4) (s : State) : Result :=
  portStep s a fun n c p s =>
    if 1048575 < (c.reg b).toNat then s.scriptFault n Cause.illegalOperand
    else (s.modPort p fun q => { q with tol := (c.reg b).toNat }).modCtx n Ctx.advance

/-- The link status of CSTAT (R347). -/
def Port.linkStatus (p : Port) : Nat :=
  2 ^ 48 * p.setup + 2 ^ 32 * p.degrades + 2 ^ 16 * p.channel.working.toNat + 2 ^ 8 * p.peerPort + p.channel.rank

/-- CSTAT (R347). -/
def execCstat (d a : BitVec 4) (imm : BitVec 14) (s : State) : Result :=
  portStep s a fun n _ p s =>
    let answer (x : Nat) : State := s.modCtx n fun c => c.result d (BitVec.ofNat 64 x)
    match imm.toNat with
    | 0 => answer ((s.port p).word p)
    | 1 => answer (s.port p).linkStatus
    | 2 => answer (s.port p).refusal
    | _ => s.scriptFault n Cause.illegalOperand

/-! ## The route table (R350, R351) -/

/-- A channel of this part has a rank. -/
def isChannel (c : Nat) : Bool := c < 36

def Fabric.rank (f : Fabric) (c : Nat) : Nat := ((f.channel? c).map (·.rank)).getD 0

/-- The rank order of an entry (R351). -/
def Fabric.rises (f : Fabric) (input out : Nat) : Bool := input == 63 || out == 62 || f.rank input < f.rank out

/-- A CPATH request (R351): the status, and the table and ranks after it. -/
def State.cpath (s : State) (x : Nat) : Nat × State :=
  let input := bitsOf x 12 6
  let out := bitsOf x 18 6
  let dest := bitsOf x 0 12
  let f := s.fabric
  if bitsOf x 32 30 != 0 then (2, s)
  else
    match bitsOf x 62 2 with
    | 0 =>
      if !(isChannel out || out == 62) || !(isChannel input || input == 63) then (2, s)
      else if !f.rises input out then (1, s)
      else
        let key := 64 * dest + input
        (0, { s with fabric := { f with routes := if out = 62 then tdel f.routes key else tput f.routes key out } })
    | 1 =>
      if !isChannel input then (2, s)
      else
        let s1 := s.modChannel input fun ch => { ch with rank := bitsOf x 24 8 }
        if f.routes.all fun (key, o) => s1.fabric.rises (key % 64) o then
          let s2 := s1.reportRank input
          (0, { s2 with fabric := s2.fabric.pump input s.gtime 256 })
        else (1, s)
    | 2 => (0, { s with fabric := { f with routes := [] } })
    | _ => (2, s)

/-- CPATH, whichever request K[a] holds (R351). -/
def cpathStep (d a : BitVec 4) (s : State) : Result :=
  scriptStep s fun n c s =>
    let (st, s1) := s.cpath (c.reg a).toNat
    s1.modCtx n fun c => c.result d (BitVec.ofNat 64 st)

/-- CPATH with OPC ROUTE (R351). -/
def execCpathRoute (d a : BitVec 4) (s : State) : Result := cpathStep d a s

/-- CPATH with OPC RANK (R351). -/
def execCpathRank (d a : BitVec 4) (s : State) : Result := cpathStep d a s

/-- CPATH with OPC CLEAR (R351). -/
def execCpathClear (d a : BitVec 4) (s : State) : Result := cpathStep d a s

/-! ## Events (R348) -/

/-- EWAIT (R348). -/
def execEwait (a : BitVec 4) (imm : BitVec 14) (s : State) : Result :=
  scriptStep s fun n c s =>
    if 64 ≤ imm.toNat then s.scriptFault n Cause.illegalOperand
    else if reached (tget 0 c.k imm.toNat) (c.reg a).lo then s.modCtx n Ctx.advance
    else s.modCtx n fun c => { c with wait := some (.ewait imm.toNat (c.reg a).lo) }

/-- ESIG (R348): every earlier KST of the context is visible already (R345). -/
def execEsig (imm : BitVec 14) (s : State) : Result :=
  scriptStep s fun n _ s =>
    if 64 ≤ imm.toNat then s.scriptFault n Cause.illegalOperand
    else s.modCtx n fun c => { c.advance with x := tput c.x imm.toNat (tget 0 c.x imm.toNat + 1) }

/-- Ends a context's wait whose condition holds: a CWAIT by its port's state, an EWAIT by its counter (R347, R348). -/
def State.settleCtx (s : State) (n : Nat) : State :=
  match (s.ctx n).wait with
  | some (.cwait d port state _) => if cwaitMet (s.port port) state then s.endCwait n d port else s
  | some (.ewait k value) =>
    if reached (tget 0 (s.ctx n).k k) value then s.modCtx n fun c => { c.advance with wait := none } else s
  | _ => s

/-- Every context's wait. -/
def State.settleCtxs (s : State) : State := (List.range 4).foldl State.settleCtx s

/-! ## Fetching (R343, R344) -/

/-- What a context fetches. -/
inductive ScriptWord where
  | word (w : Word)
  | fault (c : Cause)
  | page (va : Nat)
  /-- The ingress atomic cache writes the line back first (R359). -/
  | later (until_ : Nat)

/-- The fetch of a context's next word (R343). -/
def State.scriptFetch (s : State) (c : Ctx) : ScriptWord :=
  let va := c.pc.toNat
  match s.xlatCtx c va with
  | .fault sub => .fault { Cause.translation sub va with fetch := true }
  | .service _ => .page va
  | .ok p =>
    if p.aper != 0 || !p.readable then .fault { Cause.permission 0 va with fetch := true }
    else
      match s.mem.damagedByte p.pa 4 with
      | some _ => .fault { Cause.dataError va with fetch := true }
      | none =>
        let t := s.mem.ingressUntil p.pa 4
        if s.gtime < t then .later t else .word (BitVec.ofNat 32 (s.peekNat p.pa 4))

/-- SCRIPT_ILLEGAL_WORD (R343, R344, R346): the fetch fails, or the word has a reserved op or an unused field that is not
0. -/
def execScriptIllegalWord (ctx : Nat) (s : State) : Result :=
  if !(s.ctx ctx).ready s.gtime then .next s
  else
    match s.scriptFetch (s.ctx ctx) with
    | .fault c => .next (s.scriptFault ctx c)
    | .page _ | .later _ => .next s
    | .word w =>
      match decodeScript w with
      | .ok _ => .next s
      | .illegalInstruction => .next (s.scriptFault ctx Cause.illegalInstruction)
      | .illegalOperand => .next (s.scriptFault ctx Cause.illegalOperand)

end Sys2Proof.Machine
end

