-- ==== Sys2Proof/Machine/Launch.lean ====
section
/-!
DEFINITION. Launches: the record (R305, R306), the image (R103 to R108), acceptance (R307, R368), completion (R308) and
the end of a termination (R309); the form of the messages that the node sends (R384, R385, R391).
-/

namespace Sys2Proof.Machine

/-! ## Messages of the node (R384, R385, R391) -/

/-- Status codes (R385). -/
def stOk : Nat := 0
def stQueueFull : Nat := 1
def stIllegalOp : Nat := 2
def stRange : Nat := 3
def stTranslation : Nat := 4
def stPermission : Nat := 5
def stIsaVersion : Nat := 6
def stFeature : Nat := 7
def stImage : Nat := 8
def stScriptBusy : Nat := 9
def stDataErr : Nat := 10
def stNotFound : Nat := 11
def stBootFail : Nat := 12
def stNotReady : Nat := 13

/-- A message is one of a kind, with all the bytes it announces (R384, R385). -/
def isKind (msg : CtlMsg) (kind : MsgKind) : Bool := decodeMessage msg == kind && msg.payload.length == msg.len

/-- The MTYPE in which a request of the node is answered (R385; DESIGN CHOICE, log 47). -/
def replyType (mtype : Nat) : Nat :=
  match mtype with
  | 2 => mtReadRsp
  | 6 => mtDebugRsp
  | 7 => mtMgmtRsp
  | _ => mtAck

/-- What a message meets that is not ATTEST and not BOOTDATA: before readiness STATUS 13, or 12 after a failed check, and
no other effect (R391); where it is malformed STATUS 2 and no other effect (R385). -/
def State.serve (s : State) (msg : CtlMsg) (kind : MsgKind) (f : State → State) : Result :=
  match s.boot.phase with
  | .ready => if isKind msg kind then .next (f s) else .next (s.reply msg mtAck stIllegalOp [])
  | .failed => .next (s.reply msg (replyType msg.mtype) stBootFail [])
  | _ => .next (s.reply msg (replyType msg.mtype) stNotReady [])

/-- The MTYPE of the STATUS 2 that a malformed message draws: its own reply's where only the payload of a MGMT or DEBUG
is at fault (R389, R395), else ACK (R385; DESIGN CHOICE, log 47). -/
def malformedReply (msg : CtlMsg) : Nat :=
  if msg.reserved = 0 ∧ msg.mtype = 7 ∧ msg.len = 8 then mtMgmtRsp
  else if msg.reserved = 0 ∧ msg.mtype = 6 ∧ msg.len = 8 + debugDataLen msg.payload then mtDebugRsp
  else mtAck

/-- UNKNOWN_MTYPE (R385): an unlisted MTYPE, a nonzero reserved field or a bad LEN. ATTEST and BOOTDATA are heard before
readiness too (R391). -/
def execUnknownMtype (msg : CtlMsg) (s : State) : Result :=
  if msg.mtype = 8 ∨ msg.mtype = 10 then .next (s.reply msg mtAck stIllegalOp [])
  else s.serve msg .unknownMtype fun s => s.reply msg (malformedReply msg) stIllegalOp []

/-! ## The launch record (R306) -/

/-- A launch record's fields. -/
def launchOf (bs : List Byte) : Launch :=
  let f (o n : Nat) : Nat := fieldAt bs o n
  { queue := f 0x02 1, prio := bitsOf (f 0x03 1) 0 3, script := bitsOf (f 0x03 1) 3 1 == 1,
    eclass := bitsOf (f 0x03 1) 4 2, ltag := f 0x04 4, image := f 0x08 8, troot := f 0x10 8, gridX := f 0x18 2,
    gridY := f 0x1A 2, bankmem := f 0x1C 4, depthLim := f 0x20 1, stkTasks := f 0x22 2, tslice := f 0x24 4,
    ringCap := f 0x28 4, stkLane := f 0x2C 4, stkBase := f 0x30 8, stkInit := f 0x38 4, sctx := f 0x3C 1,
    scriptAddr := f 0x40 8 }

/-- A nonzero reserved field or a reserved value of a defined one (R307 step 1). -/
def recordReserved (bs : List Byte) : Bool :=
  fieldAt bs 0x00 2 != 1 || bitsOf (fieldAt bs 0x03 1) 6 2 != 0 || bitsOf (fieldAt bs 0x03 1) 4 2 == 3 ||
    fieldAt bs 0x21 1 != 0 || fieldAt bs 0x3D 3 != 0 || fieldAt bs 0x48 56 != 0

/-- RINGCAP's values (R306). -/
def ringCapOk (n : Nat) : Bool := n == 0 || (List.range 15).any fun k => n == 2 ^ (10 + k)

/-- A virtual address of a record: 48 bits, aligned. -/
def Launch.badVa (a align : Nat) : Bool := a % align != 0 || 2 ^ 48 ≤ a

/-- A field outside its range (R306, R307 step 1); `top` is the base of firmware-reserved memory. -/
def Launch.outOfRange (l : Launch) (top : Nat) : Bool :=
  7 < l.queue || Launch.badVa l.image 65536 || l.troot % 4096 != 0 || top ≤ l.troot || l.gridX == 0 ||
    l.gridY == 0 || 1048576 < l.gridX * l.gridY || l.bankmem % 131072 != 0 || 134217728 < l.bankmem ||
    15 < l.depthLim || 1000000 < l.tslice || !ringCapOk l.ringCap || l.stkLane % 65536 != 0 ||
    16777216 < l.stkLane || Launch.badVa l.stkBase 65536 || (l.stkLane == 0 && l.stkBase != 0) ||
    l.stkInit % 65536 != 0 || l.stkLane < l.stkInit || 3 < l.sctx || Launch.badVa l.scriptAddr 4 ||
    (!l.script && l.scriptAddr != 0)

/-- A refused launch (R307, R387): it answers the LAUNCH message and carries LTAG and the cause. -/
def State.refuseLaunch (s : State) (seq ltag status : Nat) : State :=
  s.send (outMsg mtLaunchRefused seq 0 ltag status (recordPayload 0 []))

/-- The queue of a launch. -/
def State.queueOf (s : State) (q : Nat) : List Queued := (s.queues[q]?).getD []

/-- A record arrives (R305, R307 step 1). -/
def State.takeRecord (s : State) (seq : Nat) (bs : List Byte) : State :=
  let l := launchOf bs
  if recordReserved bs then s.refuseLaunch seq l.ltag stIllegalOp
  else if l.outOfRange (Config.reservedBase s.fw.reservedGiB) then s.refuseLaunch seq l.ltag stRange
  else if 64 ≤ (s.queueOf l.queue).length then s.refuseLaunch seq l.ltag stQueueFull
  else { s with queues := setAt (fun q => q ++ [{ launch := l, seq := seq, waiting := none }]) l.queue s.queues }

/-- LAUNCH (R305, R386). -/
def execLaunch (msg : CtlMsg) (s : State) : Result :=
  s.serve msg .launch fun s => s.takeRecord msg.seq msg.payload

/-! ## The image (R103 to R108) -/

/-- What the launch unit's read of an image byte meets: its physical address, a refusal, or a serviceable page. -/
inductive ImagePage where
  | page (pa : Nat)
  | refuse (status : Nat)
  | service (va : Nat)
  deriving DecidableEq, Repr

/-- Translates an image byte through TROOT (R107): only readable pages of local HBM hold images. -/
def State.imagePage (s : State) (l : Launch) (va : Nat) : ImagePage :=
  if 2 ^ 48 ≤ va then .refuse stTranslation
  else
    match s.xlat none l.troot 0 l.bankmem va with
    | .fault _ => .refuse stTranslation
    | .service _ => .service va
    | .ok p => if p.aper != 0 || !p.readable then .refuse stPermission else .page p.pa

/-- At most 64 KiB of the image at an address; none where a byte of it cannot be read. -/
def State.imageBytes (s : State) (l : Launch) (va n : Nat) : Option (List Byte) :=
  let k := min n (65536 - va % 65536)
  match s.imagePage l va with
  | .page pa =>
    if k = n then some (s.peek pa n)
    else
      match s.imagePage l (va + k) with
      | .page pa2 => some (s.peek pa k ++ s.peek pa2 (n - k))
      | _ => none
  | _ => none

/-- The serviceable page that a read of some bytes of an image waits for (R272). -/
def State.imageWaits (s : State) (l : Launch) (va n : Nat) : Option Nat :=
  [va, va + n - 1].findSome? fun a =>
    match s.imagePage l a with
    | .service v => some v
    | _ => none

/-- The header's fields (R104), by offset and bytes. -/
abbrev Header := List Byte

def Header.f (h : Header) (o n : Nat) : Nat := fieldAt h o n
def Header.codeOff (h : Header) : Nat := h.f 0x30 4
def Header.codeSize (h : Header) : Nat := h.f 0x34 4
def Header.codeEnd (h : Header) : Nat := h.codeOff + h.codeSize
def Header.tabOff (h : Header) : Nat := h.f 0x38 4
def Header.tabEntries (h : Header) : Nat := h.f 0x3C 4
def Header.tabEnd (h : Header) : Nat := h.tabOff + 128 * h.tabEntries
def Header.dataOff (h : Header) : Nat := h.f 0x40 4
def Header.dataSize (h : Header) : Nat := h.f 0x44 4
def Header.major (h : Header) : Nat := h.f 0x05 1
def Header.minor (h : Header) : Nat := h.f 0x04 1
def Header.width (h : Header) : Nat := bitsOf (h.f 0x1B 1) 0 4
def Header.height (h : Header) : Nat := bitsOf (h.f 0x1B 1) 4 4
/-- Va and Ca (R36, R40). -/
def Header.va (h : Header) : Nat := (h.f 0x18 2 + 15) / 16 * 16
def Header.ca (h : Header) : Nat := (h.f 0x20 2 + 7) / 8 * 8
/-- Save region i: offset and length in bytes (R104). -/
def Header.region (h : Header) (i : Nat) : Nat × Nat :=
  (128 * h.f (0x48 + 4 * i) 2, 128 * h.f (0x4A + 4 * i) 2)

/-- Check 1 of R107. -/
def Header.magicBad (h : Header) : Bool := h.f 0 4 != 0x4B4D554C || h.f 6 2 != 128

/-- Check 2 of R107: the version (R5). Major 0, of which R5 says nothing, is refused (DESIGN CHOICE, log 77). -/
def Header.versionBad (h : Header) : Bool := !(h.major == 2 || (h.major == 3 && h.minor == 0))

/-- A required bit that the device does not have. -/
def requiredBad (req have_ : Nat) : Bool := (BitVec.ofNat 32 req &&& ~~~(BitVec.ofNat 32 have_)) != 0

/-- Check 2 of R107: the feature words (R10). -/
def Header.featureBad (h : Header) : Bool :=
  requiredBad (h.f 0x08 4) (Config.feat 0).toNat || requiredBad (h.f 0x0C 4) (Config.feat 1).toNat ||
    requiredBad (h.f 0x10 4) ((Config.feat 3).toNat % 2 ^ 8) || h.f 0x14 4 != 0

/-- Check 3 of R107: ranges of R104, and what R108 asks of an ISA 2 image. DATASIZE without a data section is out of
range (DEDUCED, log 78). -/
def Header.rangeBad (h : Header) : Bool :=
  h.f 0x18 2 == 0 || 512 < h.f 0x18 2 || h.f 0x1A 1 == 0 || 32 < h.f 0x1A 1 || h.width == 0 || 8 < h.width ||
    h.height == 0 || 4 < h.height || 12 < h.width * h.height || h.f 0x1C 4 % 128 != 0 || 1572864 < h.f 0x1C 4 ||
    256 < h.f 0x20 2 || 8 < h.f 0x22 1 || 65536 < h.f 0x24 4 || h.codeSize % 4 != 0 ||
    (h.tabEntries == 0 && h.tabOff != 0) || (h.dataOff == 0 && h.dataSize != 0) ||
    ((List.range 8).any fun i => h.f 0x22 1 ≤ i && h.f (0x48 + 4 * i) 4 != 0) ||
    (h.major == 2 && (h.tabOff != 0 || h.tabEntries != 0 || h.f 0x0C 4 != 0))

/-- Check 4 of R107, of a safe-point table entry. -/
def entryReserved (e : List Byte) : Bool :=
  bitsOf (fieldAt e 4 2) 1 15 != 0 || fieldAt e 6 2 != 0 || bitsOf (fieldAt e 0x58 2) 15 1 != 0 ||
    fieldAt e 0x5B 1 != 0 || fieldAt e 0x74 12 != 0

/-- Check 4 of R107, of the header. -/
def Header.reserved (h : Header) : Bool := h.f 0x23 1 != 0 || h.f 0x68 24 != 0

/-- Where the image ends (R107 check 5). -/
def Header.end_ (h : Header) : Nat :=
  max 128 (max h.codeEnd (max (if h.tabEntries = 0 then 0 else h.tabEnd)
    (if h.dataOff = 0 then 0 else h.dataOff + h.dataSize)))

/-- Check 5 of R107: order, alignment and overlap (R103), and the end of the extent. -/
def Header.partsBad (h : Header) (base : Nat) : Bool :=
  let afterTab := if h.tabEntries = 0 then h.codeEnd else h.tabEnd
  h.codeOff < 128 || h.codeOff % 128 != 0 || (h.tabEntries != 0 && (h.tabOff % 128 != 0 || h.tabOff < h.codeEnd)) ||
    (h.dataOff != 0 && (h.dataOff % 128 != 0 || h.dataOff < afterTab)) || 2 ^ 48 < base + h.end_

/-- An offset inside the code section, on a word. -/
def Header.inCode (h : Header) (o : Nat) : Bool := o % 4 == 0 && h.codeOff ≤ o && o < h.codeEnd

/-- A safe-point table entry (R106). -/
def safePointOf (e : List Byte) : SafePoint :=
  { pcoff := fieldAt e 0 4, stub := if bitsOf (fieldAt e 4 2) 0 1 = 1 then some (fieldAt e 0x70 4) else none,
    vlive := BitVec.ofNat 512 (fieldAt e 0x08 64), ulive := BitVec.ofNat 128 (fieldAt e 0x48 16),
    plive := BitVec.ofNat 16 (fieldAt e 0x58 2), jlive := BitVec.ofNat 8 (fieldAt e 0x5A 1),
    tlive := BitVec.ofNat 32 (fieldAt e 0x5C 4), alive := BitVec.ofNat 128 (fieldAt e 0x60 16) }

/-- Check 6 of R107: ENTRY, HANDLER and the stub offsets; one that is not 0 without HASSTUB is refused here (DEDUCED,
log 78). -/
def Header.offsetsBad (h : Header) (es : List (List Byte)) : Bool :=
  !h.inCode (h.f 0x28 4) || (h.f 0x2C 4 != 0 && !h.inCode (h.f 0x2C 4)) ||
    es.any fun e =>
      if bitsOf (fieldAt e 4 2) 0 1 = 1 then !h.inCode (fieldAt e 0x70 4) else fieldAt e 0x70 4 != 0

/-- Check 7 of R107: the table ascends, inside the code section. -/
def Header.tableBad (h : Header) : List Nat → Bool
  | [] => false
  | [p] => !(h.codeOff ≤ p && p < h.codeEnd)
  | p :: q :: rest => !(h.codeOff ≤ p && p < h.codeEnd) || q ≤ p || h.tableBad (q :: rest)

/-- Check 8 of R107: live bits beyond the allocation. -/
def Header.liveBad (h : Header) (e : List Byte) : Bool :=
  fieldAt e 0x08 64 / 2 ^ h.va != 0 || fieldAt e 0x60 16 / 2 ^ h.ca != 0

/-- Check 9 of R107: the save regions (R105). -/
def Header.regionsBad (h : Header) : Bool :=
  let rs := (List.range (h.f 0x22 1)).map h.region
  rs.any (fun (o, n) => n == 0 || h.f 0x1C 4 < o + n) ||
    (List.range rs.length).any fun i =>
      let a := rs.getD i (0, 0)
      (rs.drop (i + 1)).any fun b => a.1 < b.1 + b.2 && b.1 < a.1 + a.2

/-- The image as the launch unit keeps it. -/
def Header.image (h : Header) (base : Nat) (es : List (List Byte)) : Image :=
  { base := base, isa2 := h.major == 2, va := h.va, teamGroups := h.f 0x1A 1, width := h.width, height := h.height,
    scratch := h.f 0x1C 4, ca := h.ca, saveRegions := (List.range (h.f 0x22 1)).map h.region, spdist := h.f 0x24 4,
    entry := h.f 0x28 4, handler := h.f 0x2C 4, codeOff := h.codeOff, codeSize := h.codeSize,
    safePoints := es.map safePointOf }

/-- What checking an image answers. -/
inductive ImageCheck where
  | ok (img : Image)
  | refuse (status : Nat)
  | service (va : Nat)
  deriving DecidableEq, Repr

/-- The first page of an image's extent that cannot be read. -/
def State.imageHole (s : State) (l : Launch) (base size : Nat) : Option ImagePage :=
  ((List.range ((size + 65535) / 65536)).map fun k => s.imagePage l (base + 65536 * k)).find? fun p =>
    match p with
    | .page _ => false
    | _ => true

/-- Damage in what the launch unit reads (R299; DEDUCED, log 48). -/
def State.imageDamaged (s : State) (l : Launch) (va n : Nat) : Bool :=
  match s.imagePage l va with
  | .page pa => (s.mem.damagedByte pa n).isSome
  | _ => false

/-- Checks 6 to 9 of R107, once every byte of the image is translated. -/
def Header.finish (h : Header) (base : Nat) (es : List (List Byte)) : ImageCheck :=
  if h.offsetsBad es || h.tableBad (es.map fun e => fieldAt e 0 4) || es.any h.liveBad || h.regionsBad then
    .refuse stImage
  else .ok (h.image base es)

/-- Checks 4 and 5 of R107, and those after them, given that no serviceable page holds up the safe-point table. Entries
that cannot be read are passed over in check 4; check 5 names the failure (DESIGN CHOICE, log 79). Damaged entries are
checked as they stand in check 4, and refused with DATAERR after check 5 (DEDUCED, log 48). -/
def State.checkParts (s : State) (l : Launch) (h : Header) (entryVas : List Nat) : ImageCheck :=
  let es := entryVas.filterMap fun va => s.imageBytes l va 128
  if h.reserved || es.any entryReserved then .refuse stIllegalOp
  else if h.partsBad l.image then .refuse stImage
  else
    match s.imageHole l l.image h.end_ with
    | some (.refuse st) => .refuse st
    | some (.service va) => .service va
    | _ => if entryVas.any fun va => s.imageDamaged l va 128 then .refuse stDataErr else h.finish l.image es

/-- Where the entries of the safe-point table lie. -/
def Header.entryVas (h : Header) (base : Nat) : List Nat :=
  (List.range h.tabEntries).map fun k => base + h.tabOff + 128 * k

/-- The checks of R107 in their order, on a header that was read; a table entry on a serviceable page is waited for, once
no check that can be made without it has failed. -/
def State.checkHeader (s : State) (l : Launch) (h : Header) : ImageCheck :=
  if h.magicBad then .refuse stImage
  else if h.versionBad then .refuse stIsaVersion
  else if h.featureBad then .refuse stFeature
  else if h.rangeBad then .refuse stImage
  else
    let entryVas := h.entryVas l.image
    let reserved := h.reserved || (entryVas.filterMap fun va => s.imageBytes l va 128).any entryReserved
    match entryVas.findSome? fun va => s.imageWaits l va 128 with
    | some va => if reserved then .refuse stIllegalOp else .service va
    | none => s.checkParts l h entryVas

/-- Reads and checks the image of a launch (R107). -/
def State.checkImage (s : State) (l : Launch) : ImageCheck :=
  match s.imagePage l l.image with
  | .refuse st => .refuse st
  | .service va => .service va
  | .page pa =>
    if (s.mem.damagedByte pa 128).isSome then .refuse stDataErr
    else s.checkHeader l (s.peek pa 128)

/-! ## Acceptance (R296, R307, R368) -/

/-- Units of 128 KiB that launches past step 3 of R307 hold (R296). -/
def State.carveUnits (s : State) : Nat := (s.grids.map fun g => g.launch.bankmem / 131072).sum

/-- A carve-out has room (R296). -/
def State.carveFits (s : State) (l : Launch) : Bool := s.carveUnits + l.bankmem / 131072 ≤ 2048

/-- An unplaced team (R311, R316). The teams of a cluster have consecutive numbers, row by row (DEDUCED, log 49). -/
def newTeam (uid grid index cluster member x y prio since : Nat) : Team :=
  { uid := uid, grid := grid, index := index, x := x, y := y, core := none, cluster := cluster, member := member,
    lcid := 0, sched := .candidate, accwin := 0, accnext := none, scratch := [], scratchDamage := [], acc := [], accDamage := [],
    overflow := [], matrixError := none, prio := prio, since := since, admitted := 0, slice := 0, requests := [],
    saveDue := 0, target := none, context := { core := 0, locks := [], ops := [], done := [] },
    ended := [], stale := [] }

/-- The teams of a launch. -/
def launchTeams (l : Launch) (img : Image) (uid grid since : Nat) : List Team :=
  let n := img.width * img.height
  (List.range (l.gridX * l.gridY)).map fun k =>
    newTeam (uid + k) grid k (k / n) (k % n) (k % l.gridX) (k / l.gridX) l.prio since

/-- The grid of an accepted launch. -/
def newGrid (uid : Nat) (l : Launch) (img : Image) : Grid :=
  { uid := uid, launch := l, image := img, terminating := false, ring := [], ringMapped := 0, ringWait := false,
    nrec := 0, records := [], colls := [] }

/-- Drops the bytes of a launch's bank memory, which then read 0 (R296). -/
def State.clearBank (s : State) (grid : Nat) : State :=
  let low := Config.bankBase + grid * Config.bankSpan
  let inside (a : Nat) : Bool := low ≤ a && a < low + Config.bankSpan
  { s with mem := { s.mem with cells := s.mem.cells.filter (fun (a, _) => !inside a),
                               lg := s.mem.lg.filter (fun (b, _) => !inside (512 * b)), carved := tdel s.mem.carved grid,
                               updates := s.mem.updates.filter (fun u => !inside u.word),
                               badLines := s.mem.badLines.filter (fun (l, _) => !inside (128 * l)),
                               heals := s.mem.heals.filter (fun h => !inside h.low) } }

/-- A script context starts (R343, R368), with its event counters cleared (R213). -/
def startedCtx (l : Launch) (grid : Nat) : Ctx :=
  { running := true, wait := none, pc := BitVec.ofNat 48 l.scriptAddr, regs := [], troot := l.troot, grid := grid,
    k := [], x := [] }

/-- Steps 3 (once there is room) and 4 of R307. -/
def State.acceptLaunch (s : State) (q : Queued) (img : Image) : State :=
  let l := q.launch
  let s := { s with queues := setAt List.tail l.queue s.queues }
  if l.script && (s.ctx l.sctx).running then s.refuseLaunch q.seq l.ltag stScriptBusy
  else
    let (grid, s1) := s.newUid
    let n := l.gridX * l.gridY
    let s2 := s1.clearBank grid
    let s3 := if l.script then s2.modCtx l.sctx fun _ => startedCtx l grid else s2
    { s3 with clock := { s3.clock with uid := s3.clock.uid + n }, grids := s3.grids ++ [newGrid grid l img],
              teams := s3.teams ++ launchTeams l img s3.clock.uid grid s3.gtime : State }.placeCarve grid

/-- A queue may take its head: the grid of its previous record has completed (R305). -/
def State.queueFree (s : State) (q : Nat) : Bool := !s.grids.any fun g => g.launch.queue == q

/-- The head of a queue is refused. -/
def State.refuseHead (s : State) (q : Queued) (status : Nat) : State :=
  ({ s with queues := setAt List.tail q.launch.queue s.queues } : State).refuseLaunch q.seq q.launch.ltag status

/-- LAUNCH_QUEUE_HEAD (R307): the image is checked; the launch is accepted, or waits for bank-memory room. -/
def execLaunchQueueHead (queue : Nat) (s : State) : Result :=
  match s.queueOf queue with
  | [] => .next s
  | q :: _ =>
    if !s.queueFree queue || q.waiting.isSome then .next s
    else
      match s.checkImage q.launch with
      | .refuse st => .next (s.refuseHead q st)
      | .service _ => .next s
      | .ok img =>
        if s.carveFits q.launch then .next (s.acceptLaunch q img)
        else .next { s with queues := setAt (fun qs => match qs with
                       | [] => []
                       | h :: rest => { h with waiting := some img } :: rest) queue s.queues }

/-- CARVEOUT_WAIT_END (R296, R307 step 3). -/
def execCarveoutWaitEnd (queue : Nat) (s : State) : Result :=
  match s.queueOf queue with
  | [] => .next s
  | q :: _ =>
    match q.waiting with
    | none => .next s
    | some img => if s.carveFits q.launch then .next (s.acceptLaunch q img) else .next s

/-! ## The end of a grid (R308, R309) -/

/-- Engine or matrix operations of a grid are under way. -/
def State.gridBusy (s : State) (grid : Nat) : Bool :=
  s.cores.any fun c => c.ops.any (·.grid == grid) || c.matrix.any (·.grid == grid)

/-- A grid leaves: its cutting slots and its carve-out are freed, and messages for collectives that it did not issue are
dropped (R360; DESIGN CHOICE, log 61). -/
def State.dropGrid (s : State) (grid : Nat) : State :=
  let s1 := s.clearBank grid
  let colls := ((s.grid? grid).map (·.colls)).getD []
  let never (m : CollMsg) : Bool := colls.any fun (members, n) => m.members == members && n ≤ m.number
  { s1 with grids := s1.grids.filter (·.uid != grid), cuts := s1.cuts.filter fun (_, c) => c.grid != grid,
            fabric := { s1.fabric with collIn := s1.fabric.collIn.filter fun m => !never m } }

/-- Every team and task of the grid is complete, and none of its records is left (R308). -/
def State.gridDone (s : State) (g : Grid) : Bool :=
  !g.terminating && g.ring.isEmpty && !(s.teams.any (·.grid == g.uid)) && !(s.pool.any (·.grid == g.uid)) &&
    !(s.kept.any (·.task.grid == g.uid)) && !s.gridBusy g.uid

/-- GRID_COMPLETION (R308, R387). -/
def execGridCompletion (grid : Nat) (s : State) : Result :=
  match s.grid? grid with
  | none => .next s
  | some g =>
    if s.gridDone g then
      .next ((s.post mtGridComplete 0 g.launch.ltag 0 (recordPayload g.nrec g.records)).dropGrid grid)
    else .next s

/-- GRID_TERMINATION_DONE (R309 step 4, R387). -/
def execGridTerminationDone (grid : Nat) (s : State) : Result :=
  match s.grid? grid with
  | none => .next s
  | some g =>
    if g.terminating && !s.gridBusy grid then
      let s1 := s.removeTeams ((s.teams.filter (·.grid == grid)).map (·.uid))
      .next ((s1.post mtGridTerminated 0 g.launch.ltag 0 (recordPayload g.nrec g.records)).dropGrid grid)
    else .next s

end Sys2Proof.Machine
end

