-- ==== Sys2Proof/Machine/Plane.lean ====
section
/-!
DEFINITION. The packet plane: flits that arrive (R336, R355, R356), packets delivered or forwarded (R349, R350, R353),
remote memory and ingress atomics (R287, R302, R359), and the answers to this part's own requests.
-/

namespace Sys2Proof.Machine

/-! ## Answers to requests (R287, R288, R353) -/

/-- What ends a request: its data, or a refusal. -/
inductive Answer where
  | data (bs : List Byte)
  | refused (c : Nat → Cause)

/-- Results that a request would have brought. -/
def Awaited.isFor (id : Nat) : Awaited → Bool
  | .answer k _ _ => k == id
  | .oldValue k _ _ => k == id
  | _ => false

/-- The lane's place among the lanes of a request. -/
def lanePlace (lanes : BitVec 32) (i : Nat) : Nat := ((laneList lanes).filter (· < i)).length

/-- Data comes for the results that a request was to bring. -/
def State.fillAwaited (s : State) (r : Remote) (bs : List Byte) : State :=
  { s with pend := s.pend.map fun p =>
      match p.what with
      | .answer id acc d => if id = r.id then { p with what := .value (loadWrites acc d bs) } else p
      | .oldValue id d tag =>
        if id = r.id then
          let old := BitVec.ofNat 32 (fieldAt bs (4 * lanePlace r.lanes (p.lane.getD 0)) 4)
          { p with what := .value [{ reg := d, bits := old, tag := tag }] }
        else p
      | _ => p }

/-- An espalier map or a table line that was asked for is there, or is refused with a CAUSE other than 0 (R167, R364). -/
def State.fillReads (s : State) (id code : Nat) (bs : List Byte) : State :=
  let line (b : ActBank) : ActBank :=
    match b.load with
    | none => b
    | some t =>
      if t.waiting.contains id then
        { b with load := some { t with
            waiting := t.waiting.filter (· != id),
            asked := t.asked.map fun (k, n, old) => if k = id then (k, n, some (code, bs)) else (k, n, old) } }
      else b
  { s with
    groups := s.groups.map fun g =>
      { g with held := g.held.map fun h =>
          if h.request = some id then { h with request := none, refused := code, bytes := h.bytes ++ bs } else h },
    cores := s.cores.map fun c => { c with banks := c.banks.map line } }

/-- The answer to an engine operation's request (R215, R295). -/
def State.engAnswer (s : State) (core handle : Nat) (r : Remote) (a : Answer) : State :=
  match a with
  | .refused c =>
    let st : OpState := if (c 0).code = 0x0D then .dataErr else .translation
    (s.modOp core handle fun o => o.loseRun r.id).failOp core handle st r.va
  | .data bs =>
    s.modOp core handle fun o =>
      if r.writes then { o with run := o.run.map fun k => { k with remote := k.remote.filter (· != r.id) } }
      else if o.list.length < o.listSpan.2 then { o with reading := none, list := o.list ++ bs }
      else { o with reading := none, data := o.data ++ bs }

/-- A request is answered. -/
def State.settle (s : State) (r : Remote) (a : Answer) : State :=
  let s1 : State := { s with fabric := s.fabric.settled r.id }
  match r.engine with
  | some (core, handle) => s1.engAnswer core handle r a
  | none =>
    match a with
    | .data bs => (s1.fillAwaited r bs).fillReads r.id 0 bs
    | .refused c =>
      let special := s.groups.any (fun g => g.held.any fun h => h.request == some r.id) ||
        s.cores.any fun c => c.banks.any fun b => b.load.any fun t => t.waiting.contains r.id
      if special then s1.fillReads r.id (c 0).code []
      else (s1.dropPends (·.what.isFor r.id)).raiseLate r.group r.lanes r.pc (c r.va)

/-- The request of a number is answered. -/
def State.answer (s : State) (id : Nat) (node : Bool) (a : Answer) : State :=
  match s.fabric.remotes.find? fun r => r.id == id && r.node == node with
  | none => s
  | some r => s.settle r a

/-! ## Remote memory (R353, R359) -/

/-- The code by which a response reports damaged bytes (DESIGN CHOICE, log 30). -/
def aopDamaged : Nat := 14

/-- Sends a response: over the circuit that the request of a bound copy came by (R342; DEDUCED, log 84), else by the
route table. -/
def Fabric.sendResponse (f : Fabric) (now : Nat) (r : Response) : Fabric :=
  match r.via with
  | some v => f.enqueue v.channel now v.copy r.packet
  | none => f.inject r.chip now r.packet

/-- Sends a response to a packet's source and records it (R353). -/
def State.respond (s : State) (r : Response) : State :=
  let mine := s.fabric.responses.filter (·.chip == r.chip)
  let kept :=
    if mine.length < 4096 then s.fabric.responses
    else match mine with
      | [] => s.fabric.responses
      | old :: _ => s.fabric.responses.erase old
  let f : Fabric := { s.fabric with responses := kept ++ [r] }
  { s with fabric := f.sendResponse s.gtime r }

/-- The response to a packet. -/
def State.responseTo (s : State) (v : PacketView) (via : Option Via) (type aop : Nat) (data : List Byte) :
    Response × State :=
  let (e, f) := s.fabric.nextE2e v.src
  ({ chip := v.src, e2e := v.e2e, via := via,
     packet := packetBytes type false aop s.chipId v.src e data.length v.addr v.rtag data }, { s with fabric := f })

/-- Builds and sends a response. -/
def State.answerPacket (s : State) (v : PacketView) (via : Option Via) (type aop : Nat) (data : List Byte) : State :=
  let (r, s1) := s.responseTo v via type aop data
  s1.respond r

/-- Builds a response that is sent once GTIME has reached a WCT (R287). -/
def State.answerAt (s : State) (wct : Nat) (v : PacketView) (via : Option Via) (data : List Byte) : State :=
  let (r, s1) := s.responseTo v via pkAck 0 data
  { s1 with fabric := { s1.fabric with acks := s1.fabric.acks ++ [{ wct := wct, response := r }] } }

/-- The bytes lie in this part's local HBM below the reserved range (R271). -/
def State.targetOk (s : State) (addr n : Nat) : Bool := addr + n ≤ Config.reservedBase s.fw.reservedGiB

/-- The issuer of a peer's request as a writer (R285), from its tag; an operand before the last of an ATOMIC without R is a
lower lane's (DESIGN CHOICE, log 89). -/
def Writer.peer (v : PacketView) (before : Nat) : Writer :=
  ⟨1, v.src, bitsOf v.rtag 56 7, bitsOf v.rtag 35 21, bitsOf v.rtag 30 5, bitsOf v.rtag 24 6 - before, 0⟩

/-- READ (R281, R359). -/
def State.deliverRead (s : State) (v : PacketView) (via : Option Via) : State :=
  if !s.targetOk v.addr v.len then s.answerPacket v via pkReadRsp aopRefused []
  else if (s.mem.damagedByte v.addr v.len).isSome then s.answerPacket v via pkReadRsp aopDamaged []
  else
    let s1 := ({ s with mem := s.mem.reclaim v.addr v.len } : State).atHome true false v.addr v.len
    s1.answerPacket v via pkReadRsp 0 (s1.peek v.addr v.len)

/-- WRITE (R287, R359): it is acknowledged once it is visible. -/
def State.deliverWrite (s : State) (v : PacketView) (via : Option Via) : State :=
  if !s.targetOk v.addr v.data.length then s.answerPacket v via pkAck aopRefused []
  else if (s.mem.mergedByte v.addr v.data.length).isSome then s.answerPacket v via pkAck aopDamaged []
  else
    let (s1, t) := (s.atHome true true v.addr v.data.length).storeAs v.addr v.data (Writer.peer v 0) 0
    s1.answerAt t v via []

/-- The ingress atomic cache holds a line: it is granted now, the oldest grant making room (R359). -/
def Memory.ownLine (mem : Memory) (line : Nat) (w : Writer) (now arrival : Nat) : Memory × IngressLine :=
  match mem.ingress.find? (·.line == line) with
  | some l => (mem, l)
  | none =>
    let t := ((List.range 32).map fun k => mem.wctFor (128 * line + 4 * k) w 0 true arrival).foldl max 0
    let l : IngressLine := { line := line, granted := now, wct := t, last := [] }
    let kept := if mem.ingress.length < 1024 then mem.ingress else mem.ingress.tail
    let u : Update :=
      { word := 128 * line, bytes := [], wct := t, writer := w, source := 0, atomic := true, arrival := arrival }
    ({ mem with ingress := kept ++ [l], updates := mem.updates ++ [u] }, l)

/-- One update of the cache (R359 step 2): its WCT exceeds the last one on the word. -/
def Memory.ingressUpdate (mem : Memory) (line word : Nat) (new : Word) (w : Writer) (now : Nat) : Memory × Nat :=
  match mem.ingress.find? (·.line == line) with
  | none => (mem, 0)
  | some l =>
    let t := max now (tget l.wct l.last word) + 1
    let u : Update :=
      { word := word, bytes := mapFrom (fun i b => (i, b)) 0 (natLe 4 new.toNat), wct := t, writer := w, source := 0,
        atomic := true, arrival := now }
    ({ mem with updates := mem.updates ++ [u],
                ingress := mem.ingress.map fun l => if l.line = line then { l with last := tput l.last word t } else l }, t)

/-- The operands of an ATOMIC, lane by lane in ascending order (R302; DESIGN CHOICE, log 30). -/
def atomicOperands (v : PacketView) : List (Nat × Word × Word) :=
  let size := if v.aop = 13 then 8 else 4
  (List.range (v.data.length / size)).map fun k =>
    (k, BitVec.ofNat 32 (fieldAt v.data (size * k) 4),
      if v.aop = 13 then BitVec.ofNat 32 (fieldAt v.data (size * k + 4) 4) else 0)

/-- ATOMIC (R286, R302, R359): its result returns in its ACK, once its updates are visible (R287). -/
def State.deliverAtomic (s : State) (v : PacketView) (via : Option Via) : State :=
  if !s.targetOk v.addr 4 || v.addr % 4 != 0 then s.answerPacket v via pkAck aopRefused []
  else if (s.mem.damagedByte v.addr 4).isSome then s.answerPacket v via pkAck aopDamaged []
  else
    let line := v.addr / 128
    let (arr, s1) := (s.atHome true true v.addr 4).arrival
    let (mem, _) := s1.mem.ownLine line (Writer.peer v 0) s.gtime arr
    let vs := atomicOperands v
    let (mem, t, olds) :=
      if v.r then
        let (rs, new) := applyAtom v.aop true (mem.latest v.addr) vs
        let (mem, t) := mem.ingressUpdate line v.addr new (Writer.peer v 0) s.gtime
        (mem, t, rs)
      else
        vs.foldl
          (fun (mem, top, rs) (k, x, y) =>
            let old := mem.latest v.addr
            let (mem, t) := mem.ingressUpdate line v.addr (atomNew v.aop old x y) (Writer.peer v (vs.length - 1 - k)) s.gtime
            (mem, max top t, rs ++ [(k, old)]))
          (mem, 0, [])
    ({ s1 with mem := mem } : State).answerAt t v via ((olds.map fun (_, w) => natLe 4 w.toNat).flatten)

/-- What a response's AOP says (DESIGN CHOICE, log 30). -/
def responseAnswer (v : PacketView) : Answer :=
  if v.aop = aopRefused then .refused (Cause.translation 2)
  else if v.aop = aopDamaged then .refused Cause.dataError
  else .data v.data

/-- The circuit that the response to a request goes back over: a bound copy's WRITE came as copy data and is acknowledged
there, the data of its READ returns as copy flits (R342; DEDUCED, log 84). -/
def viaOf (channel : Nat) (copy : Bool) (v : PacketView) : Option Via :=
  if copy then some { channel := channel, copy := false }
  else if v.type = pkRead ∧ rtagCopy ≤ v.rtag then some { channel := channel, copy := true }
  else none

/-- A piece of a member's message has come; a message that is whole is taken once (R360; DESIGN CHOICE, log 61). -/
def State.deliverData (s : State) (v : PacketView) : State :=
  let f := s.fabric
  if f.collSeen.contains (v.src, v.rtag) then s
  else
    let mine (p : CollPart) : Bool := p.chip == v.src && p.id == v.rtag
    let old := (f.collParts.find? mine).getD { chip := v.src, id := v.rtag, total := fieldAt v.data 0 4, pieces := [] }
    let pieces :=
      if old.pieces.any (fun (k, _) => k == v.addr) then old.pieces
      else sortBy (fun a b => a.1 < b.1) (old.pieces ++ [(v.addr, v.data.drop 4)])
    let new : CollPart := { old with pieces := pieces }
    let bytes := (new.pieces.map fun (_, bs) => bs).flatten
    let others := f.collParts.filter fun p => !mine p
    if bytes.length < new.total then { s with fabric := { f with collParts := others ++ [new] } }
    else
      ({ s with fabric := { f with collParts := others,
                                   collSeen := f.collSeen.drop (f.collSeen.length - 4095) ++ [(v.src, v.rtag)] } } :
        State).collTake (CollMsg.ofBytes bytes)

/-- Delivers a packet for this part (R350, R353): a request already performed is answered again, not performed again. -/
def State.deliverPacket (s : State) (channel : Nat) (copy : Bool) (v : PacketView) : State :=
  match v.type with
  | 3 | 4 =>
    match s.fabric.remotes.find? (·.tagged v.src v.rtag) with
    | none => s
    | some r => s.settle r (responseAnswer v)
  | 5 => s.deliverData v
  | 6 => s.meetNone v.src v.e2e v.rtag
  | 0 | 1 | 2 =>
    match s.fabric.responses.find? fun r => r.chip == v.src && r.e2e == v.e2e with
    | some r => { s with fabric := s.fabric.sendResponse s.gtime r }
    | none =>
      if s.fabric.acks.any fun a => a.response.chip == v.src && a.response.e2e == v.e2e then s
      else
        let via := viaOf channel copy v
        match v.type with
        | 0 => s.deliverRead v via
        | 1 => s.deliverWrite v via
        | _ => s.deliverAtomic v via
  | _ => s

/-- A READ waits for the write-back of a line that the ingress atomic cache owns (R359). -/
def State.awaitsIngress (s : State) (v : PacketView) : Bool :=
  v.dst == s.chipId && v.type == pkRead && s.gtime < s.mem.ingressUntil v.addr v.len

/-- PACKET_RECEIVE (R350): the first packet that has arrived in its virtual channel is delivered or forwarded, and its
credits go back; a response waits for no request (R351). -/
def execPacketReceive (channel : Nat) (packet : List Byte) (s : State) : Result :=
  let vc (bs : List Byte) : Nat := packetVc (viewPacket bs).type
  match s.fabric.arrived.find? fun (_, _, bs) => vc bs == vc packet with
  | none => .next s
  | some (c, copy, bs) =>
    let v := viewPacket bs
    if c = channel ∧ bs = packet ∧ s.awaitsIngress v = false then
      let f : Fabric := { s.fabric with arrived := s.fabric.arrived.erase (c, copy, bs) }
      let s1 : State := { s with fabric := f.release c bs }
      .next (if v.dst = s.chipId then s1.deliverPacket channel copy v else s1.routePacket channel bs)
    else .next s

/-- Acknowledges the peers' writes and atomics that are visible (R287). -/
def State.flushAcks (s : State) : State :=
  s.fabric.acks.foldl
    (fun s a =>
      if a.wct ≤ s.gtime then
        ({ s with fabric := { s.fabric with acks := s.fabric.acks.erase a } } : State).respond a.response
      else s) s

/-- INGRESS_WRITEBACK (R359 step 3): 2 µs after the grant. -/
def execIngressWriteback (line : Nat) (s : State) : Result :=
  if s.mem.ingress.any fun l => l.line == line && l.granted + 2000 ≤ s.gtime then
    .next { s with mem := { s.mem with ingress := s.mem.ingress.filter (·.line != line) } }
  else .next s

/-! ## Flits (R336, R355, R356) -/

/-- The parts of a flit (R336). -/
structure FlitView where
  payload : List Byte
  seq : Nat
  ack : Nat
  kind : Nat
  vc : Nat
  credit : Nat
  good : Bool
  deriving DecidableEq, Repr

/-- Reads a flit; it is good if its CRC holds and no reserved value stands in it. -/
def viewFlit (bs : List Byte) : FlitView :=
  let k := fieldAt bs 60 1
  { payload := bs.take 56, seq := fieldAt bs 56 2, ack := fieldAt bs 58 2, kind := bitsOf k 4 4, vc := bitsOf k 2 2,
    credit := fieldAt bs 61 1,
    good := bs.length == 64 && fieldAt bs 62 2 == crc16 (bs.take 62) && bitsOf k 4 4 ≤ 4 && bitsOf k 2 2 ≤ 1 &&
      bitsOf k 0 2 == 0 }

/-- An ACK covers a flit's SEQ. -/
def covers16 (ack seq : Nat) : Bool := decide (0 ≤ (BitVec.ofNat 16 ack - BitVec.ofNat 16 seq).toInt)

/-- An ACK frees the flits it covers (R356). -/
def Channel.takeAck (ch : Channel) (ack now : Nat) : Channel :=
  let left := ch.retry.filter fun r => !covers16 ack (fieldAt r.flit 56 2)
  { ch with retry := left, ackTime := if left.length < ch.retry.length then now else ch.ackTime }

/-- Unacknowledged flits of a virtual channel, which a replay sends again. -/
def Channel.unacked (ch : Channel) (vc : Nat) : Nat :=
  (ch.retry.filter fun r => packetVc (viewPacket r.whole).type == vc).length

/-- Credits come back; after a retrain the first credit return of a virtual channel sets the count, of which the flits
that are replayed take theirs (R355, R370). -/
def Channel.takeCredit (ch : Channel) (v : FlitView) : Channel :=
  let pending := if v.vc = 0 then ch.resync.1 else ch.resync.2
  if v.kind = 3 ∧ pending = true then
    { ch.setCredit v.vc (v.credit - ch.unacked v.vc) with
      resync := if v.vc = 0 then (false, ch.resync.2) else (ch.resync.1, false) }
  else ch.setCredit v.vc (ch.credit v.vc + v.credit)

/-- The packet that a flit's payload completes, and what is left of its virtual channel's buffer (R349). -/
def Channel.gather (ch : Channel) (v : FlitView) : Channel × Option (List Byte) :=
  let key := v.vc + if v.kind = 2 then 2 else 0
  let have_ := tget [] ch.partials key ++ v.payload
  let whole := packetSize have_ ≤ have_.length
  ({ ch with partials := if whole then tdel ch.partials key else tput ch.partials key have_ },
   if whole then some (have_.take (packetSize have_)) else none)

/-- An idle flit that repeats the ACK (R336). -/
def Fabric.putIdle (f : Fabric) (c : Nat) : Fabric :=
  match f.channel? c with
  | none => f
  | some ch => f.put c (flitBytes [] 0 ch.received 0 0 0)

/-- The payload of a flit that comes in order is taken, and acknowledged by an idle flit (R336, R356). -/
def Fabric.takePayload (f : Fabric) (c now : Nat) (v : FlitView) : Fabric :=
  match f.channel? c with
  | none => f
  | some ch =>
    let (ch1, whole) := { ch with received := v.seq }.gather v
    let f1 := (f.modChannel c fun _ => ch1).touch c now
    { f1 with arrived := f1.arrived ++ (whole.map fun bs => (c, v.kind == 2, bs)).toList }.putIdle c

/-- A flit with a SEQ that is not the next is discarded without effect (R356, R370). -/
def Channel.skips (ch : Channel) (v : FlitView) : Bool :=
  (v.kind == 1 || v.kind == 2) && v.seq != (ch.received + 1) % 2 ^ 16

/-- A replay that waited for both credit returns of a retrain exit is made (R355, R370). -/
def Fabric.replayIfDue (f : Fabric) (c now : Nat) : Fabric :=
  if (f.channel? c).any fun ch => ch.replayDue && ch.resync == (false, false) then f.replay c now else f

/-- A flit that is heard while its path does not retrain: its ACK, its credits and its payload are taken, or it is
discarded and the ACK repeated. -/
def Fabric.takeFlit (f : Fabric) (c now : Nat) (ch : Channel) (v : FlitView) : Fabric :=
  if !v.good || ch.skips v then f.putIdle c
  else
    let f1 := (f.modChannel c fun ch => (ch.takeAck v.ack now).takeCredit v).replayIfDue c now
    (if v.kind = 1 ∨ v.kind = 2 then f1.takePayload c now v else f1).pump c now 256

/-- FLIT_RECEIVE (R336, R354 to R356, R370). A retrain marker stops this end too, over the lanes that both can use. -/
def execFlitReceive (channel : Nat) (flit : List Byte) (s : State) : Result :=
  let v := viewFlit flit
  match s.fabric.channel? channel with
  | none => .next s
  | some ch =>
    if !s.fabric.hears channel then .next s
    else if v.good && v.kind == 4 then
      let s1 : State := { s with fabric := s.fabric.touch channel s.gtime }
      .next (s1.loseLanes channel (ch.left (BitVec.ofNat 16 (fieldAt v.payload 0 2))))
    else if ch.retrain.isSome then .next s
    else .next { s with fabric := s.fabric.takeFlit channel s.gtime ch v }

/-- RETRY_TIMEOUT (R340, R356, R357): 2 µs without a new ACK, also while the port drains. -/
def execRetryTimeout (channel : Nat) (s : State) : Result :=
  match s.fabric.channel? channel with
  | none => .next s
  | some ch =>
    if s.fabric.hears channel && ch.retrain.isNone && !ch.retry.isEmpty && ch.ackTime + 2000 ≤ s.gtime then
      let s1 := s.replay channel
      .next { s1.modChannel channel (fun ch => { ch with retries := ch.retries + 1 }) with
              fw := { s1.fw with linkRetries := s1.fw.linkRetries + 1 } }
    else .next s

end Sys2Proof.Machine
end

