-- ==== Sys2Proof/Machine/System.lean ====
section
/-!
DEFINITION. Special registers (R47, R230, R231), traps, services and breakpoints (R232 to R234), the ends of a handler
(R235).
-/

namespace Sys2Proof.Machine

/-! ## Special registers (R47) -/

/-- The registers of 64 bits: GTIME, LWCT, TPC and TADDR. -/
def isWideSpecial (idx : Nat) : Bool := idx == 0x08 || idx == 0x0A || idx == 0x2A || idx == 0x2C

/-- What a special register of a lane of a group reads as. -/
def State.special (s : State) (g : Group) (img : Image) (i : Nat) (l : Lane) (idx : Nat) : Nat :=
  let t := s.team? g.team
  let team (f : Team → Nat) : Nat := (t.map f).getD 0
  match idx with
  | 0x00 => i
  | 0x01 => g.index
  | 0x02 => team (·.index)
  | 0x03 => team (·.member) + 2 ^ 4 * img.width + 2 ^ 8 * img.height
  | 0x04 => team (·.x) + 2 ^ 16 * team (·.y)
  | 0x05 => team (·.lcid)
  | 0x06 => s.chipId
  | 0x08 => s.gtime
  | 0x0A => l.lwct
  | 0x10 => (Config.feat 0).toNat
  | 0x11 => (Config.feat 1).toNat
  | 0x12 => (Config.feat 2).toNat
  | 0x13 => (Config.feat 3).toNat
  | 0x14 => Config.isaver.toNat
  | 0x18 => g.fpmode.toNat
  | 0x19 => l.fpflags.toNat
  | 0x1A => g.pprom.toNat
  | 0x1B => g.fairtime
  | 0x1C => g.spcount
  | 0x1D => g.leaseovr.toNat
  | 0x1E => l.window
  | 0x1F => team (·.accwin)
  | 0x20 => g.atbank
  | 0x28 => l.tcause.toNat
  | 0x2A => l.tpc.toNat
  | 0x2C => l.taddr.toNat
  | _ => 0

/-- SREAD (R230). -/
def execSread (m : Bool) (d cls b : BitVec 7) (s : State) : Result :=
  let wide := isWideSpecial b.toNat
  let regs := if wide then [d.toNat, d.toNat + 1] else [d.toNat]
  let value (x : Site) (i : Nat) (l : Lane) : DWord := BitVec.ofNat 64 (s.special x.g x.img i l b.toNat)
  if cls = 0 then
    (laneOp m { vs := regs } (fun _ _ => true) fun x i l =>
      if wide then l.putWide d.toNat (value x i l) else l.put d.toNat (value x i l).lo tagUI32).issue s
  else
    (groupOp m regs fun x _ g =>
      let v : DWord := match x.g.lanes with
        | [] => 0
        | l :: _ => value x 0 l
      if wide then g.setUPair d.toNat v else g.setU d.toNat v.lo).issue s

/-- A value that an RW register does not take: a reserved bit, or out of range (R24, R115, R116, R278). -/
def badSpecial (idx : Nat) (w : Word) : Bool :=
  match idx with
  | 0x18 => 4 ≤ w.toNat
  | 0x19 => 32 ≤ w.toNat
  | 0x1A => 2 ≤ w.toNat
  | 0x1B => w.toNat < 16 || 4096 < w.toNat
  | 0x1D => 8 ≤ w.toNat
  | _ => true

/-- Writes an RW group register. -/
def Group.setSpecial (g : Group) (idx : Nat) (w : Word) : Group :=
  match idx with
  | 0x18 => { g with fpmode := w.setWidth 2 }
  | 0x1A => { g with pprom := w.getLsbD 0 }
  | 0x1B => { g with fairtime := w.toNat }
  | 0x1D => { g with leaseovr := w.setWidth 3 }
  | _ => g

/-- The operands of SWRITE's source. -/
def swriteOperands (cls a : BitVec 7) : Operands := if cls = 0 then { vs := [a.toNat] } else { us := [a.toNat] }

/-- The tag check of SWRITE's source (R231). -/
def swriteTags (cls a : BitVec 7) (l : Lane) : Bool := cls != 0 || isInt (l.get a.toNat).tag

/-- SWRITE's value for a lane. -/
def swriteSource (cls a : BitVec 7) (x : Site) (l : Lane) : Word :=
  if cls = 0 then (l.get a.toNat).bits else x.g.u a.toNat

/-- The value of a group write: that of the lowest active lane that passes the checks of R192 (R231). -/
def swriteValue (cls a : BitVec 7) (x : Site) : Word :=
  let ok := x.g.maskOf fun i l =>
    x.mask.getLsbD i && (operandFault x l (swriteOperands cls a) (swriteTags cls a l)).isNone
  match laneList ok with
  | [] => 0
  | i :: _ => ((x.g.lane? i).map (swriteSource cls a x)).getD 0

/-- SWRITE (R231): FPFLAGS in each lane, a group register once. -/
def execSwrite (m : Bool) (cls a b : BitVec 7) (s : State) : Result :=
  let ok (x : Site) (l : Lane) : Option Cause := operandFault x l (swriteOperands cls a) (swriteTags cls a l)
  if b = 0x19 then
    Op.issue
      { m := m, kind := .plain,
        check := fun x _ l =>
          valueFault x l (swriteOperands cls a) (badSpecial b.toNat (swriteSource cls a x l)) (ok x l),
        effect := fun x good s => s.modGroup x.g.uid fun g => g.onLanes good fun _ l =>
          { l with fpflags := (swriteSource cls a x l).setWidth 5 } }
      s
  else
    Op.issue
      { m := m, kind := .plain,
        check := fun x _ l =>
          match ok x l with
          | some c => some c
          | none => if badSpecial b.toNat (swriteValue cls a x) then some Cause.illegalOperand else none,
        effect := fun x _ s => s.modGroup x.g.uid fun g => g.setSpecial b.toNat (swriteValue cls a x) }
      s

/-! ## Traps and services (R232, R233, R310) -/

/-- TRAP (R232). -/
def execTrap (m : Bool) (k : BitVec 7) (s : State) : Result :=
  Op.issue
    { m := m, kind := .plain, check := fun _ _ _ => none, fault := fun _ _ _ => some (Cause.softwareTrap k.toNat),
      effect := fun _ _ s => s }
    s

/-- Firmware has answered the SVC at an address (R233). -/
def Group.answered (g : Group) (pc : Addr) (tick : Nat) : Bool := g.service.any fun (a, due) => a == pc && due ≤ tick

/-- A service (R233): s124 to s127 are its operands; it issues once firmware has answered, after a free time (DESIGN
CHOICE, log 18), and `f` gives the status and what firmware did. A speculative group does not issue it (R377). -/
def svcOp (m : Bool) (now : State) (f : Site → State → Word × State) : Op :=
  { m := m, kind := .plain, check := fun x _ l => operandFault x l { us := [124, 125, 126, 127] } true,
    wait := fun x => now.keepsBack x.g,
    hold := fun x _ => !x.g.answered x.pc now.clock.tick,
    onHold := fun x _ s =>
      if now.keepsBack x.g || x.g.service.any fun (a, _) => a == x.pc then s
      else
        let (n, s1) := s.newFresh
        s1.modGroup x.g.uid fun g => { g with service := some (x.pc, s.clock.tick + Config.latency n) },
    effect := fun x _ s =>
      let (status, s) := f x s
      s.modGroup x.g.uid fun g => { g.setU 124 status with service := none } }

/-- SVC 0 (R233). -/
def execSvcNull (m : Bool) (s : State) : Result := (svcOp m s fun _ s => (0, s)).issue s

/-- The entry that a walk for an address stops at for want of a page, with the page size a leaf there has (R268); none
at level 1, where no leaf may stand. -/
def State.missingEntry (s : State) (va : Nat) : List (Nat × Nat × Nat × Nat) → Nat → Option (Nat × Nat)
  | [], _ => none
  | (low, count, size, level) :: rest, table =>
    let entryAt := table + 8 * (va / 2 ^ low % count)
    let e := s.peekNat entryAt 8
    if bitsOf e 0 1 = 0 then (if level = 1 then none else some (entryAt, size))
    else if bitsOf e 1 1 = 1 then none
    else s.missingEntry va rest (bitsOf e 8 44 * 2 ^ 8)

/-- A leaf of local HBM that firmware writes: readable, writable where asked, at a page of its own choice below the
reserved range (DESIGN CHOICE, log 18). -/
def firmwareLeaf (write : Bool) (size top choice : Nat) : Nat :=
  let pa := choice % (top / size) * size
  1 + 2 + 4 + (if write then 8 else 0) + pa

/-- Drops the cached translations of a virtual range (R273, R389). -/
def State.dropXlat (s : State) (low len : Nat) : State :=
  { s with mem := { s.mem with tlb := s.mem.tlb.filter fun t => !(t.base < low + len && low < t.base + t.size) } }

/-- Firmware writes a table entry of local memory at once. -/
def State.writeEntry (s : State) (entryAt e : Nat) : State :=
  { s with mem := { s.mem with cells := cputs s.mem.cells entryAt (natLe 8 e) } }

/-- Firmware backs a page of a stack, if no page does (R233, R310); none where the walk for it stops for another reason
(DESIGN CHOICE, log 18). -/
def State.backPage (s : State) (core grid va : Nat) : Option State :=
  match s.xlatG core grid va with
  | .ok p => if p.readable && p.writable then some s else none
  | _ =>
    (s.missingEntry va walkLevels (s.rootOf grid)).map fun (entryAt, size) =>
      let (n, s1) := s.newFresh
      (s1.writeEntry entryAt (firmwareLeaf true size (Config.reservedBase s.fw.reservedGiB)
        (Config.serviceAnswer n).toNat)).dropXlat (va / size * size) size

/-- The pages by which the stacks of a group's lanes grow to `limit` bytes (R310). -/
def stackPages (l : Launch) (g : Group) (limit : Nat) : List Nat :=
  ((List.range 32).map fun i =>
    (List.range ((limit - g.stackLimit) / 65536)).map fun k =>
      l.stkBase + (32 * g.stackSlot + i) * l.stkLane + g.stackLimit + 65536 * k).flatten

/-- SVC 1 (R233, R310): status 1 past STKLANE or where firmware has no memory (DESIGN CHOICE, log 18); else the pages are
backed and the limit rises. -/
def execSvcStack (m : Bool) (s : State) : Result :=
  (svcOp m s fun x s =>
    let limit := x.g.stackLimit + (x.g.u 125).toNat
    let (n, s1) := s.newFresh
    match s.grid? x.g.grid with
    | none => (1, s1)
    | some gr =>
      let backed : Option State :=
        (stackPages gr.launch x.g limit).foldl
          (fun (o : Option State) va => o.bind fun s => s.backPage (s.coreOf x.g.team) x.g.grid va) (some s1)
      if gr.launch.stkLane < limit || Config.freeBit n then (1, s1)
      else
        match backed with
        | none => (1, s1)
        | some s2 => (0, s2.modGroup x.g.uid fun g => { g with stackLimit := limit })).issue s

/-- SVC 2 (R233): firmware maps a page where the walk ends, or refuses (DESIGN CHOICE, log 18). -/
def execSvcMap (m : Bool) (s : State) : Result :=
  (svcOp m s fun x s =>
    let va := (x.g.uPair 125).toNat
    let write := (x.g.u 127).toNat == 1
    let root := ((s.grid? x.g.grid).map (·.launch.troot)).getD 0
    let (n, s1) := s.newFresh
    if 2 ^ 48 ≤ va || 2 ≤ (x.g.u 127).toNat || Config.freeBit n then (1, s1)
    else
      match s.missingEntry va walkLevels root with
      | some (entryAt, size) =>
        (0, (s1.writeEntry entryAt (firmwareLeaf write size (Config.reservedBase s.fw.reservedGiB)
          (Config.serviceAnswer n).toNat)).dropXlat (va / size * size) size)
      | none =>
        match s.xlatG (s.coreOf x.g.team) x.g.grid va with
        | .ok p => if p.readable && (p.writable || !write) then (0, s1) else (1, s1)
        | _ => (1, s1)).issue s

/-- SVC 3 (R233): LOGWORD to the control node, under the launch's LTAG. -/
def execSvcLog (m : Bool) (s : State) : Result :=
  (svcOp m s fun x s =>
    (0, s.post mtLogWord 0 (((s.grid? x.g.grid).map (·.launch.ltag)).getD 0) 0 (natLe 4 (x.g.u 125).toNat))).issue s

/-- SVC 4 to 127 (R233): not provided. -/
def execSvcUnprovided (m : Bool) (_k : BitVec 7) (s : State) : Result :=
  (svcOp m s fun _ s => (0xFFFFFFFF, s)).issue s

/-- Reports a breakpoint to the attached debugger (R234); no message carries it (DESIGN CHOICE, log 76). -/
def State.reportBreak (s : State) (g : Group) (tag : Nat) : State :=
  { s with breaks := s.breaks ++ [(((s.team? g.team).map (·.lcid)).getD 0, g.place.getD 0, tag)] }

/-- BKPT (R234): halts the group while a debugger is attached, and reports its tag; else acts as NOP. -/
def execBkpt (m : Bool) (k : BitVec 7) (s : State) : Result :=
  Op.issue
    { m := m, kind := .plain, check := fun _ _ _ => none,
      effect := fun x _ s =>
        if s.fw.debugger then
          (s.modGroup x.g.uid fun g => { g with halted := some (some k.toNat) }).reportBreak x.g k.toNat
        else s }
    s

/-! ## The ends of a handler (R235) -/

/-- R235: issued by a lane outside its handler. -/
def handlerCheck (_ : Site) (_ : Nat) (l : Lane) : Option Cause :=
  if l.handler then none else some Cause.illegalOperand

/-- TRET (R235): the faulting instruction executes again. -/
def execTret (m : Bool) (s : State) : Result :=
  Op.issue
    { m := m, kind := .plain, check := handlerCheck,
      effect := fun x good s => s.modGroup x.g.uid fun g => g.onLanes good fun _ l =>
        l.leaveHandler (l.tpc.setWidth 48) }
    s

/-- TSKIP (R235): the faulting instruction is skipped. -/
def execTskip (m : Bool) (s : State) : Result :=
  Op.issue
    { m := m, kind := .plain, check := handlerCheck,
      effect := fun x good s => s.modGroup x.g.uid fun g => g.onLanes good fun _ l =>
        l.leaveHandler (l.tpc.setWidth 48 + 4) }
    s

/-- The fault records of the lanes of a mask (R387). -/
def State.laneRecords (s : State) (g : Group) (mask : BitVec 32) : List FaultRec :=
  match s.team? g.team with
  | none => []
  | some t => (mapFrom (fun i l => if mask.getLsbD i then [faultRec t g.index i l] else []) 0 g.lanes).flatten

/-- TKILL (R235): the lanes enter DONE as at EXIT, and their fault records are posted. -/
def execTkill (m : Bool) (s : State) : Result :=
  Op.issue
    { m := m, kind := .plain, check := handlerCheck, hold := fun x good => s.exitStalls x.g good,
      effect := fun x good s =>
        ((s.addRecords x.g.grid (s.laneRecords x.g good)).modGroup x.g.uid fun g => g.finishLanes good).retire x.g.uid }
    s

end Sys2Proof.Machine
end

