-- ==== Sys2Proof/Machine/PortCtl.lean ====
section
/-!
DEFINITION. The node's messages once the part is ready: memory and translations, termination, the debugger, firmware's
settings, and the answers of the node's own devices (R386, R388 to R390, R395). LAUNCH stands in Machine/Launch.lean.
-/

namespace Sys2Proof.Machine

/-! ## Memory (R386) -/

/-- The refusal of an address range: STATUS 3 past local HBM, STATUS 5 in firmware-reserved memory. -/
def State.rangeStatus (s : State) (addr n : Nat) : Nat :=
  if Config.hbmTop < addr + n then stRange
  else if Config.reservedBase s.fw.reservedGiB < addr + n then stPermission
  else stOk

/-- READ (R281, R386). -/
def State.nodeRead (s : State) (msg : CtlMsg) : State :=
  let n := leNat msg.payload
  if n < 8 || 4096 < n then s.reply msg mtReadRsp stRange []
  else
    let st := s.rangeStatus msg.addr n
    if st != stOk then s.reply msg mtReadRsp st []
    else if (s.mem.damagedByte msg.addr n).isSome then s.reply msg mtReadRsp stDataErr []
    else
      let s1 := ({ s with mem := s.mem.reclaim msg.addr n } : State).atHome true false msg.addr n
      s1.reply msg mtReadRsp stOk (s.peek msg.addr n)

def execRead (msg : CtlMsg) (s : State) : Result := s.serve msg .read fun s => s.nodeRead msg

/-- WRITE (R285, R386): stores of class 3, acknowledged once GTIME has reached their WCTs. -/
def State.nodeWrite (s : State) (msg : CtlMsg) : State :=
  let n := msg.payload.length
  let st := s.rangeStatus msg.addr n
  if st != stOk then s.reply msg mtAck st []
  else if (s.mem.mergedByte msg.addr n).isSome then s.reply msg mtAck stDataErr []
  else
    let (s1, t) := (s.atHome true true msg.addr n).storeAs msg.addr msg.payload (Writer.control s.chipId) 0
    { s1 with busy := some { due := t, low := 0, len := 0, pends := [], remotes := [], held := [], reply := replyMsg msg mtAck stOk [] } }

def execWrite (msg : CtlMsg) (s : State) : Result := s.serve msg .write fun s => s.nodeWrite msg

/-! ## Translations (R273, R389) -/

/-- A virtual address lies in a range. -/
def inRange (low len va : Nat) : Bool := low ≤ va && va < low + len

/-- A load or a prefetch on its way that was translated through a range. -/
def Pend.through (low len : Nat) (p : Pend) : Bool :=
  match p.what with
  | .load va _ _ _ _ _ => inRange low len va
  | .fill .. => inRange low len p.va
  | _ => false

/-- Loads and prefetches on their way that were translated through a range. -/
def State.loadsThrough (s : State) (low len : Nat) : List Nat := (s.pend.filter (·.through low len)).map (·.id)

/-- Requests on their way that were translated through a range. -/
def State.remotesThrough (s : State) (low len : Nat) : List Nat :=
  (s.fabric.remotes.filter fun r => inRange low len r.va).map (·.id)

/-- The lanes held for firmware service on a range, by group and number (R300). -/
def State.heldOn (s : State) (low len : Nat) : List (Nat × Nat) :=
  (s.groups.map fun g =>
    (mapFrom (fun i (l : Lane) => if l.service.any (inRange low len) then [(g.uid, i)] else []) 0 g.lanes).flatten).flatten

/-- A lane's held access has neither issued again nor faulted. -/
def State.stillHeld (s : State) (group lane : Nat) : Bool :=
  (s.group? group).any fun g => (g.lane? lane).any fun l => l.service.isSome || l.redo.isSome

/-- TINVAL (R273, R389): the entries of the range go now; it is complete when the accesses under way are performed. -/
def State.invalidate (s : State) (msg : CtlMsg) : State :=
  let n := leNat msg.payload
  if msg.addr % 65536 != 0 || n % 65536 != 0 || n < 65536 || 2 ^ 48 < msg.addr + n then s.reply msg mtAck stRange []
  else
    let s1 := s.dropXlat msg.addr n
    { s1 with busy := some { due := (s.mem.updates.map (·.wct)).foldl max s.gtime, low := msg.addr, len := n,
                             pends := s.loadsThrough msg.addr n,
                             remotes := s.remotesThrough msg.addr n, held := s.heldOn msg.addr n,
                             reply := replyMsg msg mtAck stOk [] } }

def execTinval (msg : CtlMsg) (s : State) : Result := s.serve msg .tinval fun s => s.invalidate msg

/-- A held access that has issued again is waited for as those that were under way are, until it is performed (R273,
R300). -/
def State.follow (s : State) (b : BusyMsg) : BusyMsg :=
  let gone := b.held.filter fun (g, i) => !s.stillHeld g i
  let mine (group : Nat) (lanes : BitVec 32) : Bool := gone.any fun (g, i) => g == group && lanes.getLsbD i
  { b with
    held := b.held.filter fun (g, i) => s.stillHeld g i,
    pends := b.pends ++ (s.pend.filter fun p => p.through b.low b.len && mine p.group p.lanes).map (·.id),
    remotes := b.remotes ++ (s.fabric.remotes.filter fun r => inRange b.low b.len r.va && mine r.group r.lanes).map (·.id),
    due := ((s.mem.updates.filter fun u => mine u.source u.writer.lanes).map (·.wct)).foldl max b.due }

/-- The message under way is complete (R386). -/
def State.busyDone (s : State) (b : BusyMsg) : Bool :=
  b.due ≤ s.gtime && (b.pends.all fun id => !s.pend.any (·.id == id)) &&
    (b.remotes.all fun id => !s.fabric.remotes.any (·.id == id)) && b.held.all fun (g, i) => !s.stillHeld g i

/-- A message that is complete is answered. -/
def State.settleBusy (s : State) : State :=
  match s.busy with
  | none => s
  | some b =>
    let now := s.follow b
    if s.busyDone now then ({ s with busy := none } : State).send b.reply else { s with busy := some now }

/-! ## TERMINATE (R309, R386) -/

/-- The queued records of an LTAG go, each with its completion. -/
def State.dropQueued (s : State) (ltag : Nat) : State :=
  let gone := (s.queues.map fun q => q.filter (·.launch.ltag == ltag)).flatten
  let s1 : State := { s with queues := s.queues.map fun q => q.filter fun e => !(e.launch.ltag == ltag) }
  gone.foldl (fun s _ => s.post mtGridTerminated 0 ltag 0 (recordPayload 0 [])) s1

/-- The running grids of an LTAG begin their termination. -/
def State.terminateTag (s : State) (ltag : Nat) : State :=
  ((s.grids.filter (·.launch.ltag == ltag)).map (·.uid)).foldl State.terminate s

/-- TERMINATE (R386). -/
def State.terminateAll (s : State) (msg : CtlMsg) : State :=
  let named := s.grids.any (·.launch.ltag == msg.tag) || s.queues.any fun q => q.any (·.launch.ltag == msg.tag)
  if named then ((s.dropQueued msg.tag).terminateTag msg.tag).reply msg mtAck stOk []
  else s.reply msg mtAck stNotFound []

def execTerminate (msg : CtlMsg) (s : State) : Result := s.serve msg .terminate fun s => s.terminateAll msg

/-! ## The debugger (R234, R322, R389) -/

/-- The fields of a DEBUG payload (R389). -/
def CtlMsg.dbg (msg : CtlMsg) (lo w : Nat) : Nat := bitsOf (leNat (msg.payload.take 8)) lo w

/-- The group a DEBUG names: on the core of that LCID, in that group place. -/
def State.dbgGroup (s : State) (msg : CtlMsg) : Option Group :=
  s.groups.find? fun g =>
    g.place == some (CtlMsg.dbg msg 16 8) &&
      ((s.team? g.team).bind (·.core)).any fun c => (s.core c).lcid == CtlMsg.dbg msg 8 8

/-- The group a DEBUG names, if it is halted. -/
def State.dbgHalted (s : State) (msg : CtlMsg) : Option Group := (s.dbgGroup msg).filter (·.halted.isSome)

/-- A group goes on exactly where it stood. -/
def Group.goOn (g : Group) : Group := { g with halted := none }

/-- DEBUG 0: attach. -/
def execDebugAttach (msg : CtlMsg) (s : State) : Result :=
  s.serve msg .debugAttach fun s =>
    ({ s with fw := { s.fw with debugger := true } } : State).reply msg mtDebugRsp stOk []

/-- DEBUG 1: detach; every halted group resumes. -/
def execDebugDetach (msg : CtlMsg) (s : State) : Result :=
  s.serve msg .debugDetach fun s =>
    ({ s with fw := { s.fw with debugger := false }, groups := s.groups.map (·.goOn) } : State).reply msg mtDebugRsp stOk []

/-- DEBUG 2: the group freezes at once. -/
def State.debugHalt (s : State) (msg : CtlMsg) : State :=
  match s.dbgGroup msg with
  | none => s.reply msg mtDebugRsp stNotFound []
  | some g =>
    (s.modGroup g.uid fun g => { g with halted := if g.halted.isSome then g.halted else some none }).reply msg mtDebugRsp
      stOk []

def execDebugHalt (msg : CtlMsg) (s : State) : Result := s.serve msg .debugHalt fun s => s.debugHalt msg

/-- DEBUG 3: the group goes on. -/
def State.debugResume (s : State) (msg : CtlMsg) : State :=
  match s.dbgHalted msg with
  | none => s.reply msg mtDebugRsp stNotFound []
  | some g => (s.modGroup g.uid (·.goOn)).reply msg mtDebugRsp stOk []

def execDebugResume (msg : CtlMsg) (s : State) : Result := s.serve msg .debugResume fun s => s.debugResume msg

/-- A register of a halted group as bytes: a vector register's lanes, then their tags; a uniform register; a special
register as the first lane reads it. None for a register the group does not have (DESIGN CHOICE, log 24). -/
def State.dbgRead (s : State) (g : Group) (img : Image) (cls idx : Nat) : Option (List Byte) :=
  match cls with
  | 0 =>
    if g.lanes.any fun l => img.va ≤ l.window + idx || 128 ≤ idx then none
    else some ((g.lanes.map fun l => natLe 4 (l.get idx).bits.toNat).flatten ++
      g.lanes.map fun l => BitVec.ofNat 8 (l.get idx).tag.toNat)
  | 1 => if 128 ≤ idx then none else some (natLe 4 (g.u idx).toNat)
  | 2 =>
    match specialReg idx, g.lanes with
    | some (_, w, _), l :: _ => some (natLe (w / 8) (s.special g img 0 l idx))
    | _, _ => none
  | _ => none

/-- Writes a register of a halted group; none for a register the group does not have or a value it does not take
(DESIGN CHOICE, log 24). -/
def Group.dbgWrite (g : Group) (img : Image) (cls idx : Nat) (data : List Byte) : Option Group :=
  let w := BitVec.ofNat 32 (leNat (data.take 4))
  match cls with
  | 0 =>
    if (g.lanes.any fun l => img.va ≤ l.window + idx || 128 ≤ idx) || (data.drop 128).any (16 ≤ ·.toNat) then none
    else some { g with lanes := mapFrom (fun i l =>
      l.put idx (BitVec.ofNat 32 (fieldAt data (4 * i) 4)) (BitVec.ofNat 5 (fieldAt data (128 + i) 1))) 0 g.lanes }
  | 1 => if 128 ≤ idx then none else some (g.setU idx w)
  | 2 =>
    if badSpecial idx w then none
    else if idx = 0x19 then some { g with lanes := g.lanes.map fun l => { l with fpflags := w.setWidth 5 } }
    else some (g.setSpecial idx w)
  | _ => none

/-- A DEBUG's register class and index, and the group with its image. -/
def State.dbgImage (s : State) (g : Group) : Option Image := (s.grid? g.grid).map fun gr => g.image gr.image

/-- DEBUG 4: reads a register. -/
def State.debugRead (s : State) (msg : CtlMsg) : State :=
  match s.dbgHalted msg with
  | none => s.reply msg mtDebugRsp stNotFound []
  | some g =>
    if 2 < CtlMsg.dbg msg 32 8 then s.reply msg mtDebugRsp stIllegalOp []
    else
      match (s.dbgImage g).bind fun img => s.dbgRead g img (CtlMsg.dbg msg 32 8) (CtlMsg.dbg msg 24 8) with
      | none => s.reply msg mtDebugRsp stRange []
      | some bs => s.reply msg mtDebugRsp stOk bs

def execDebugReadRegister (msg : CtlMsg) (s : State) : Result :=
  s.serve msg .debugReadRegister fun s => s.debugRead msg

/-- DEBUG 5: writes a register. -/
def State.debugWrite (s : State) (msg : CtlMsg) : State :=
  match s.dbgHalted msg with
  | none => s.reply msg mtDebugRsp stNotFound []
  | some g =>
    if 2 < CtlMsg.dbg msg 32 8 then s.reply msg mtDebugRsp stIllegalOp []
    else
      match (s.dbgImage g).bind fun img =>
          g.dbgWrite img (CtlMsg.dbg msg 32 8) (CtlMsg.dbg msg 24 8) (msg.payload.drop 8) with
      | none => s.reply msg mtDebugRsp stRange []
      | some g' => (s.modGroup g.uid fun _ => g').reply msg mtDebugRsp stOk []

def execDebugWriteRegister (msg : CtlMsg) (s : State) : Result :=
  s.serve msg .debugWriteRegister fun s => s.debugWrite msg

/-! ## Management (R328, R395) -/

/-- VALUE of a MGMT payload. -/
def CtlMsg.mgmtValue (msg : CtlMsg) : Nat := bitsOf (leNat (msg.payload.take 8)) 32 32

/-- Takes a value, or leaves the earlier one in force (R395). -/
def State.setting (s : State) (msg : CtlMsg) (ok : Bool) (f : Firmware → Firmware) : State :=
  if ok then ({ s with fw := f s.fw } : State).reply msg mtMgmtRsp stOk [] else s.reply msg mtMgmtRsp stRange []

/-- The thresholds' ranges and order (R328). -/
def thresholdsOk (p m t : Nat) : Bool :=
  60 ≤ p && p ≤ 100 && 70 ≤ m && m ≤ 104 && 80 ≤ t && t ≤ 104 && p ≤ m && m ≤ t

/-- MGMT 1 (R328, R395). -/
def execMgmtThresholds (msg : CtlMsg) (s : State) : Result :=
  s.serve msg .mgmtThresholds fun s =>
    let v := CtlMsg.mgmtValue msg
    let p := bitsOf v 0 8
    let m := bitsOf v 8 8
    let t := bitsOf v 16 8
    if bitsOf v 24 8 != 0 then s.reply msg mtMgmtRsp stIllegalOp []
    else s.setting msg (thresholdsOk p m t) fun fw => { fw with placement := p, migration := m, throttle := t }

/-- MGMT 2 (R332, R395), in microseconds. -/
def execMgmtAgeingQuantum (msg : CtlMsg) (s : State) : Result :=
  s.serve msg .mgmtAgeingQuantum fun s =>
    let v := CtlMsg.mgmtValue msg
    s.setting msg (10 ≤ v && v ≤ 10000) fun fw => { fw with quantum := 1000 * v }

/-- MGMT 3 (R317, R395), in nanoseconds. -/
def execMgmtParkDelay (msg : CtlMsg) (s : State) : Result :=
  s.serve msg .mgmtParkDelay fun s =>
    let v := CtlMsg.mgmtValue msg
    s.setting msg (v ≤ 1000000) fun fw => { fw with parkDelay := v }

/-- MGMT 4 (R49, R395). -/
def execMgmtSpdistCap (msg : CtlMsg) (s : State) : Result :=
  s.serve msg .mgmtSpdistCap fun s =>
    let v := CtlMsg.mgmtValue msg
    s.setting msg (1 ≤ v && v ≤ 1048576) fun fw => { fw with spdistCap := v }

/-- MGMT 5 (R395, R396), in watts. -/
def execMgmtPowerLimit (msg : CtlMsg) (s : State) : Result :=
  s.serve msg .mgmtPowerLimit fun s =>
    let v := CtlMsg.mgmtValue msg
    s.setting msg (600 ≤ v && v ≤ 1800) fun fw => { fw with powerLimit := v }

/-- A counter that firmware reports (R395): energy is one count for each class of R58, with free values (DESIGN CHOICE,
log 6). -/
def State.counters (s : State) (n which : Nat) : List Nat :=
  match which with
  | 0 => [s.fw.eccCorrections]
  | 1 => [s.fw.linkRetries]
  | 2 => [s.fw.laneDegrades]
  | _ => [(Config.energy n 0).toNat, (Config.energy n 1).toNat, (Config.energy n 2).toNat]

/-- MGMT 6 (R395). -/
def execMgmtReadCounters (msg : CtlMsg) (s : State) : Result :=
  s.serve msg .mgmtReadCounters fun s =>
    let v := CtlMsg.mgmtValue msg
    if 3 < v then s.reply msg mtMgmtRsp stRange []
    else
      let (n, s1) := s.newFresh
      s1.reply msg mtMgmtRsp stOk ((s.counters n v).map (natLe 8)).flatten

/-- MGMT 7 (R392, R395): from the current minimum to the version that runs. -/
def execMgmtRaiseSvn (msg : CtlMsg) (s : State) : Result :=
  s.serve msg .mgmtRaiseSvn fun s =>
    let v := CtlMsg.mgmtValue msg
    if s.boot.svnMin ≤ v && v ≤ s.boot.svnRun then
      ({ s with boot := { s.boot with svnMin := v } } : State).reply msg mtMgmtRsp stOk []
    else s.reply msg mtMgmtRsp stRange []

/-- MGMT 8 (R395, R400). -/
def execMgmtReservedBase (msg : CtlMsg) (s : State) : Result :=
  s.serve msg .mgmtReservedBase fun s =>
    if CtlMsg.mgmtValue msg != 0 then s.reply msg mtMgmtRsp stRange []
    else s.reply msg mtMgmtRsp stOk (natLe 8 (Config.reservedBase s.fw.reservedGiB))

/-! ## Devices of the node (R390) -/

/-- The request of the node's devices that a DEVRSP answers: it names it by TAG, and a read's answer carries the bytes
that were asked for. -/
def State.devRequest (s : State) (msg : CtlMsg) : Option Remote :=
  s.fabric.remotes.find? fun r =>
    r.node && !r.queued && r.id % 2 ^ 32 == msg.tag && (r.writes || r.len == msg.payload.length)

/-- DEVRSP (R287, R390): the data of a DEVREAD, or a DEVWRITE's acknowledgement. It draws no reply. -/
def State.takeDevrsp (s : State) (msg : CtlMsg) : State :=
  match s.devRequest msg with
  | none => s
  | some r => s.answer r.id true (.data msg.payload)

def execDevrsp (msg : CtlMsg) (s : State) : Result := s.serve msg .devrsp fun s => s.takeDevrsp msg

/-- DEVRSP_TIMEOUT (R388, R390): 100 ms without a DEVRSP. -/
def execDevrspTimeout (req : Nat) (s : State) : Result :=
  match s.fabric.remotes.find? fun r => r.id == req && r.node && !r.queued with
  | none => .next s
  | some r =>
    if s.gtime < r.sent + 100000000 then .next s
    else if r.writes then .next ((s.undelivered r).answer req true (.data []))
    else .next (s.answer req true (.refused Cause.dataError))

end Sys2Proof.Machine
end

