-- ==== Sys2Proof/Machine/Boot.lean ====
section
/-!
DEFINITION. Boot (R391, R392, R398, R400), the measurement log (R393) and attestation (R394).
-/

namespace Sys2Proof.Machine

/-! ## The measurement log (R393) -/

/-- Recording an entry: M becomes SHA-512 of M and the digest. -/
def Boot.record (b : Boot) (kind index : Nat) (digest : List Byte) : Boot :=
  { b with log := b.log ++ [{ kind := kind, index := index, digest := digest }],
           measure := sha512 (b.measure ++ digest) }

/-- An entry as bytes. -/
def LogEntry.bytes (e : LogEntry) : List Byte := natLe 4 e.kind ++ natLe 4 e.index ++ e.digest

/-- M after some entries, from 64 zero bytes. -/
def measureOf (es : List LogEntry) : List Byte :=
  es.foldl (fun m e => sha512 (m ++ e.digest)) (List.replicate 64 0)

/-! ## The start of a boot (R391 steps 1 and 2) -/

/-- Everything but what a boot keeps: every SRAM is clear and GTIME is 0. HBM, the inputs to come, what was sent and the
model's own counts stand. -/
def State.cleared (s : State) : State :=
  { State.reset with
    clock := { State.reset.clock with uid := s.clock.uid, fresh := s.clock.fresh }, inputs := s.inputs,
    outbox := s.outbox, breaks := s.breaks, chipId := s.chipId,
    boot := { State.reset.boot with log := s.boot.log, measure := s.boot.measure, svnMin := s.boot.svnMin },
    fw := { Firmware.reset with reservedGiB := s.fw.reservedGiB },
    mem := { State.reset.mem with cells := s.mem.cells.filter fun (a, _) => a < Config.hbmTop,
                                  damage := s.mem.damage } }

/-- The boot ROM records its own digest, and asks for the bundle. -/
def State.beginBoot (s : State) : State :=
  ({ s with boot := { s.boot.record 1 0 (sha512 Config.romImage) with phase := .bundle, buffer := [] } } : State).post mtBootReq 0
    0 0 []

/-- POWER_GOOD (R391): the log and M begin afresh, and HBM holds nothing the spec names (DESIGN CHOICE, log 2). -/
def execPowerGood (s : State) : Result :=
  let s1 := s.cleared
  .next ({ s1 with
           boot := { s1.boot with log := [], measure := List.replicate 64 0 },
           fw := Firmware.reset, mem := State.reset.mem } : State).beginBoot

/-- BOARD_RESET (R391, R393, R400): a new boot; the log, HBM and the size of firmware-reserved memory stand until the
next power-good. -/
def execBoardReset (s : State) : Result := .next s.cleared.beginBoot

/-! ## The bundle (R392, R398) -/

/-- The greatest image of a bundle, and the header before it. -/
def maxBundle : Nat := 16777216
def bundleHeader : Nat := 320

/-- The bytes of a bundle so far; none where one is missing. -/
def bundleBytes (buffer : List (Nat × Byte)) (n : Nat) : Option (List Byte) :=
  let bs := (buffer.filter (·.1 < n)).map (·.2)
  if bs.length = n then some bs else none

/-- The checks of R392 on a header and its image; `svnMin` is the fused minimum. -/
def bundleOk (svnMin : Nat) (header image : List Byte) : Bool :=
  let key := (header.drop 0x10).take 133
  let sig := (header.drop 0xA0).take 132
  fieldAt header 0 4 == 0x46425746 && fieldAt header 8 4 ≤ 63 && svnMin ≤ fieldAt header 8 4 &&
    sha512 key == Config.vendorKeyDigest && fieldAt header 0x95 11 == 0 && fieldAt header 0x124 28 == 0 &&
    ecdsaVerify key sig (sha512 (header.take 0xA0 ++ image))

/-- The bundle is loaded into firmware-reserved memory (R391 step 4): from the base of the least range that R400 allows
(DESIGN CHOICE, log 85). -/
def Memory.loadBundle (mem : Memory) (bundle : List Byte) : Memory :=
  let placed := mapFrom (fun k b => (Config.reservedBase 8 + k, b)) 0 bundle
  { mem with cells := placed.foldl (fun cells (a, b) => cput cells a b) mem.cells }

/-- BUNDLE_CHECK and the load (R391 steps 3 and 4, R392, R398), as soon as the bundle is whole. A length out of range
fails at once. -/
def State.checkBundle (s : State) : State :=
  match bundleBytes s.boot.buffer bundleHeader with
  | none => s
  | some header =>
    let n := fieldAt header 0x0C 4
    let failed : State := { s with boot := { s.boot with phase := .failed, buffer := [] } }
    if n % 64 != 0 || maxBundle < n then failed
    else
      match bundleBytes s.boot.buffer (bundleHeader + n) with
      | none => s
      | some whole =>
        if bundleOk s.boot.svnMin header (whole.drop bundleHeader) then
          { s with boot := { s.boot.record 2 0 (sha512 whole) with
                             phase := .firmware, buffer := [], svnRun := fieldAt header 8 4 },
                   mem := s.mem.loadBundle whole }
        else failed

/-- Bundle bytes at an offset. -/
def State.takeBundle (s : State) (msg : CtlMsg) : State :=
  let placed := (mapFrom (fun i b => (msg.addr + i, b)) 0 msg.payload).filter (·.1 < bundleHeader + maxBundle)
  ({ s with boot := { s.boot with buffer := tputs s.boot.buffer placed } } : State).checkBundle

/-- BOOTDATA (R391): without effect unless the boot ROM is taking the bundle. It draws no reply. -/
def execBootdata (msg : CtlMsg) (s : State) : Result :=
  if !isKind msg .bootdata then .next (s.reply msg mtAck stIllegalOp [])
  else
    match s.boot.phase with
    | .bundle => .next (s.takeBundle msg)
    | _ => .next s

/-- FIRMWARE_READY (R391 step 4, R393, R398, R400): firmware records its configuration blocks and reports readiness with
an ACK of SEQ 0. It sets the size of its memory at a boot from power-good. -/
def execFirmwareReady (reservedGiB : Nat) (blocks : List (List Byte)) (s : State) : Result :=
  match s.boot.phase with
  | .firmware =>
    if reservedGiB < 8 || 64 < reservedGiB then .next s
    else
      let again := (s.boot.log.filter (·.kind == 1)).length ≠ 1
      let logged := (mapFrom (fun i bs => (i, bs)) 0 blocks).foldl
        (fun (b : Boot) (i, bs) => b.record 3 i (sha512 bs)) s.boot
      let gib := if again then s.fw.reservedGiB else reservedGiB
      .next (({ s with boot := { logged with phase := .ready }, fw := { s.fw with reservedGiB := gib } } : State).send
        (outMsg mtAck 0 0 0 stOk []))
  | _ => .next s

/-! ## Attestation (R394) -/

/-- Entries that one QUOTE carries: LEN is at most 4,096 bytes. -/
def quoteEntries : Nat := 52

/-- A list in pieces of at most `n`; at least one piece. -/
def logPieces {α : Type} (n : Nat) : Nat → List α → List (List α)
  | 0, xs => [xs]
  | fuel + 1, xs => if xs.length ≤ n then [xs] else xs.take n :: logPieces n fuel (xs.drop n)

/-- The signed part of a quote over the entries `before ++ es`. -/
def quoteHead (s : State) (nonce : List Byte) (before es : List LogEntry) : List Byte :=
  natLe 2 1 ++ natLe 2 s.chipId ++ natLe 4 es.length ++ (nonce ++ List.replicate (64 - nonce.length) 0) ++
    measureOf (before ++ es) ++ natLe 4 Config.isaver.toNat ++
    (natLe 4 (Config.feat 0).toNat ++ natLe 4 (Config.feat 1).toNat ++ natLe 4 (Config.feat 2).toNat ++
      natLe 4 (Config.feat 3).toNat) ++ natLe 8 s.gtime

/-- One QUOTE's payload: the quote, its signature and its entries. -/
def quotePayload (s : State) (nonce : List Byte) (before es : List LogEntry) : List Byte :=
  let head := quoteHead s nonce before es
  head ++ ecdsaSign (sha512 head) ++ (es.map LogEntry.bytes).flatten

/-- The QUOTE messages of a log, piece by piece. -/
def quotes (s : State) (nonce : List Byte) : List LogEntry → List (List LogEntry) → List (List Byte)
  | _, [] => []
  | before, es :: rest => quotePayload s nonce before es :: quotes s nonce (before ++ es) rest

/-- ATTEST (R394): in the boot ROM too (R391). -/
def execAttest (msg : CtlMsg) (s : State) : Result :=
  if !isKind msg .attest then .next (s.reply msg mtAck stIllegalOp [])
  else
    .next ((quotes s msg.payload [] (logPieces quoteEntries s.boot.log.length s.boot.log)).foldl
      (fun s bs => s.reply msg mtQuote stOk bs) s)

end Sys2Proof.Machine
end

