-- ==== Sys2Proof/Machine/Control.lean ====
section
/-!
DEFINITION. Control instructions (R180 to R189): branches, calls, windows, rejoin masks, safe points, leaving.
-/

namespace Sys2Proof.Machine

/-! ## Branches and calls (R180 to R184) -/

/-- A target of formats BR and J (R71). -/
def branchTarget (pc : Addr) (off : BitVec 21) : Addr := pc + 4 * off.signExtend 48

/-- BRA (R180). -/
def execBra (m n : Bool) (p : BitVec 4) (off : BitVec 21) (s : State) : Result :=
  (laneOp m {} (fun _ _ => true)
    fun x _ l => if l.pred p.toNat != n then { l with lpc := branchTarget x.pc off } else l).issue s

/-- CALL (R181): the window moves, v0 and v1 of the new window hold the return offset and the old base. -/
def execCall (m : Bool) (wsh : BitVec 5) (off : BitVec 21) (s : State) : Result :=
  Op.issue
    { m := m, kind := .plain,
      check := fun x _ l =>
        if x.img.va ≤ l.window + 8 * wsh.toNat then some Cause.windowBounds
        else operandFault x { l with window := l.window + 8 * wsh.toNat } { vs := [0, 1] } true,
      effect := fun x good s => s.modGroup x.g.uid fun g => g.onLanes good fun _ l =>
        let l' := { l with window := l.window + 8 * wsh.toNat, lpc := branchTarget x.pc off }
        (l'.put 0 ((x.pc + 4).setWidth 32) tagUI32).put 1 (BitVec.ofNat 32 l.window) tagUI32 }
    s

/-- A window base that R38 refuses: not a multiple of 8, or not below Va. -/
def badWindow (x : Site) (w : Nat) : Bool := w % 8 != 0 || x.img.va ≤ w

/-- The checks of an instruction that takes a window base from register `r`, in the order of R65 (DEDUCED, log 25). -/
def windowCheck (x : Site) (l : Lane) (vs : List Nat) (r : Nat) : Option Cause :=
  if outOfBounds x l { vs := vs } then some Cause.registerBounds
  else if !isPending x l { vs := [r] } && badWindow x (l.get r).bits.toNat then some Cause.windowBounds
  else operandFault x l { vs := vs } (vs.all fun v => isInt (l.get v).tag)

/-- RET (R182). -/
def execRet (m : Bool) (s : State) : Result :=
  Op.issue
    { m := m, kind := .plain, check := fun x _ l => windowCheck x l [0, 1] 1,
      effect := fun x good s => s.modGroup x.g.uid fun g => g.onLanes good fun _ l =>
        { l with window := (l.get 1).bits.toNat,
                 lpc := (x.pc.extractLsb' 32 16 ++ (l.get 0).bits.extractLsb' 2 30 ++ (0 : BitVec 2)
                   : BitVec (16 + 30 + 2)) } }
    s

/-- BRX (R183). -/
def execBrx (m : Bool) (a : BitVec 7) (s : State) : Result :=
  (laneOp m { vs := [a.toNat, a.toNat + 1] } (fun _ l => isWide l a.toNat)
    fun _ _ l => { l with lpc := ((l.pair a.toNat).extractLsb' 2 46 ++ (0 : BitVec 2) : BitVec (46 + 2)) }).issue s

/-- WBASE (R184). -/
def execWbase (m : Bool) (a : BitVec 7) (s : State) : Result :=
  Op.issue
    { m := m, kind := .plain, check := fun x _ l => windowCheck x l [a.toNat] a.toNat,
      effect := fun x good s => s.modGroup x.g.uid fun g => g.onLanes good fun _ l =>
        { l with window := (l.get a.toNat).bits.toNat } }
    s

/-- WADJ (R184): m is 8 times the signed field. -/
def execWadj (m : Bool) (k : BitVec 7) (s : State) : Result :=
  let w (l : Lane) : Int := l.window + 8 * k.toInt
  Op.issue
    { m := m, kind := .plain,
      check := fun x _ l => if w l < 0 || badWindow x (w l).toNat then some Cause.windowBounds else none,
      effect := fun x good s => s.modGroup x.g.uid fun g => g.onLanes good fun _ l => { l with window := (w l).toNat } }
    s

/-! ## Rejoin masks (R28 to R30, R185) -/

/-- JENR (R28). -/
def execJenr (m : Bool) (d : BitVec 7) (s : State) : Result :=
  (groupOp m [] fun _ good g => g.changeJ d.toNat fun jm => ⟨jm.enrol ||| good, jm.arrived⟩).issue s

/-- The lanes of a mask that are enrolled on register `j`. -/
def Group.enrolled (g : Group) (j : Nat) (mask : BitVec 32) : BitVec 32 :=
  mask &&& ((g.jmasks[j]?).map (·.enrol)).getD 0

/-- JARV (R28): the enrolled lanes park at it; the others go on. -/
def execJarv (m : Bool) (d : BitVec 7) (s : State) : Result :=
  Op.issue
    { m := m, kind := .safePoint, check := fun _ _ _ => none,
      effect := fun x good s => s.modGroup x.g.uid fun g =>
        let parked := g.enrolled d.toNat good
        (g.onLanes parked fun _ l => { l with state := .join d.toNat, lpc := x.pc }).changeJ d.toNat
          fun jm => ⟨jm.enrol, jm.arrived ||| parked⟩ }
    s

/-- JSTK (R28). -/
def execJstk (m : Bool) (d : BitVec 7) (s : State) : Result :=
  (groupOp m [] fun _ good g => g.changeJ d.toNat fun jm => ⟨jm.enrol &&& ~~~good, jm.arrived &&& ~~~good⟩).issue s

/-- Releases every lane in JOIN on register `j` and clears it (R28). -/
def Group.clearJ (g : Group) (j : Nat) : Group :=
  { g with
    lanes := g.lanes.map fun l => if l.state == .join j then { l with state := .run, lpc := l.lpc + 4 } else l,
    jmasks := setAt (fun _ => ⟨0, 0⟩) j g.jmasks }

/-- JCLR (R28). -/
def execJclr (m : Bool) (d : BitVec 7) (s : State) : Result := (groupOp m [] fun _ _ g => g.clearJ d.toNat).issue s

/-- JQRY (R185). -/
def execJqry (m : Bool) (d a : BitVec 7) (s : State) : Result :=
  (laneOp m { vs := [d.toNat, d.toNat + 1] } (fun _ _ => true) fun x _ l =>
    let jm := (x.g.jmasks[a.toNat]?).getD ⟨0, 0⟩
    (l.put d.toNat jm.enrol tagUI32).put (d.toNat + 1) jm.arrived tagUI32).issue s

/-! ## Safe points and leaving (R26, R54, R56, R186 to R189) -/

/-- The rotation a YIELD begins, judged after its lanes have advanced (R26). -/
def Group.yieldRotation (g : Group) (pc : Addr) : Option Rotation :=
  (g.leastAbove (pc + 4)).map fun b => { base := b, left := g.fairtime }

/-- YIELD (R26, R186). -/
def execYield (m : Bool) (s : State) : Result :=
  Op.issue
    { m := m, kind := .yield, check := fun _ _ _ => none,
      effect := fun x _ s => s.modGroup x.g.uid fun g => { g with rotation := g.yieldRotation x.pc } }
    s

/-- SAFEPT (R186). -/
def execSafept (m : Bool) (s : State) : Result :=
  Op.issue { m := m, kind := .safePoint, check := fun _ _ _ => none, effect := fun _ _ s => s } s

/-- EXIT (R56, R187): the last one stalls while the core's retirement tracker is full. -/
def execExit (m : Bool) (s : State) : Result :=
  Op.issue
    { m := m, kind := .exit, check := fun _ _ _ => none, hold := fun x good => s.exitStalls x.g good,
      effect := fun x good s => (s.modGroup x.g.uid fun g => g.finishLanes good).retire x.g.uid }
    s

/-- NOP (R188). -/
def execNop (m : Bool) (s : State) : Result :=
  Op.issue { m := m, kind := .plain, check := fun _ _ _ => none, effect := fun _ _ s => s } s

/-- RESUME (R54, R188): its lanes go back as the segment it ends is over (`Group.endStub`), so that the stub's loads are
complete before (R67). -/
def execResume (m : Bool) (s : State) : Result :=
  Op.issue
    { m := m, kind := .resume, check := fun _ _ _ => none,
      effect := fun x good s => s.modGroup x.g.uid fun g => g.onLanes good fun _ l => { l with leaving := true } }
    s

/-- ACBASE (R40, R189): m is 8 times the field. The window moves as the cycle ends (`Team.newCycle`), so that another
group's instruction of this cycle uses the old one. -/
def execAcbase (m : Bool) (k : BitVec 7) (s : State) : Result :=
  Op.issue
    { m := m, kind := .plain,
      check := fun x _ _ => if x.img.ca ≤ 8 * k.toNat then some Cause.windowBounds else none,
      effect := fun x _ s => s.modTeam x.g.team fun t => { t with accnext := some (8 * k.toNat) } }
    s

end Sys2Proof.Machine
end

