-- ==== Sys2Proof/Machine/Cuttings.lean ====
section
/-!
DEFINITION. Cutting slots (R227 to R229, R371 to R383): declaring, posting, fetching, predictions, resolution, commits
and squashes.
-/

namespace Sys2Proof.Machine

/-! ## The slot store (R371) -/

/-- Changes a declared slot. -/
def State.modSlot (s : State) (n : Nat) (f : CutSlot → CutSlot) : State := { s with cuts := tmap s.cuts n f }

/-- The physical address of a byte of STORE. -/
def CutSlot.addr (c : CutSlot) (off : Nat) : Nat := if off < c.split then c.store + off else c.store2 + (off - c.split)

/-- The tile areas. -/
def CutSlot.v1 (_ : CutSlot) : Nat := 128
def CutSlot.v2 (c : CutSlot) : Nat := 128 + c.bytes
def CutSlot.spec (c : CutSlot) : Nat := 128 + 2 * c.bytes

/-- Every WCT. -/
def Memory.latestBytes (mem : Memory) (pa n : Nat) : List Byte :=
  mem.bytesAt ((mem.updates.map (·.wct)).foldl max 0) pa n

/-- Bytes of STORE, after every update received (R286). -/
def State.slotRead (s : State) (c : CutSlot) (off n : Nat) : List Byte :=
  let k := min n (c.split - off)
  s.mem.latestBytes (c.addr off) k ++ (if k < n then s.mem.latestBytes (c.addr (off + k)) (n - k) else [])

/-- Writes bytes of STORE, each word with a WCT above every earlier one; answers the greatest (R280, R371). -/
def State.slotWrite (s : State) (c : CutSlot) (off : Nat) (bs : List Byte) (writer : Writer) : State × Nat :=
  let k := min bs.length (c.split - off)
  let put (s : State) (pa : Nat) (bs : List Byte) : State × Nat :=
    let (arr, s1) := s.arrival
    let (mem, t) := s1.mem.receive pa bs writer 0 true arr
    ({ s1 with mem := mem }, t)
  let (s1, t1) := put s (c.addr off) (bs.take k)
  if k < bs.length then
    let (s2, t2) := put s1 (c.addr (off + k)) (bs.drop k)
    (s2, max t1 t2)
  else (s1, t1)

/-- The header (R371). -/
def CutSlot.header (c : CutSlot) : List Byte :=
  natLe 8 c.version ++ natLe 2 c.specVer ++ natLe 1 c.specLevel ++ natLe 1 c.result ++ natLe 4 c.maxErr.toNat ++
    natLe 8 c.resVer ++ natLe 4 c.commits ++ natLe 4 c.squashes

/-- One header write of a slot. -/
def State.writeHeader (s : State) (n : Nat) (writer : Writer) : State × Nat :=
  match s.cuts.find? fun (k, _) => k == n with
  | none => (s, 0)
  | some (_, c) => s.slotWrite c 0 c.header writer

/-! ## Predictions and comparison (R372, R378) -/

/-- FNEG of an F32 pattern. -/
def f32Neg (x : Nat) : Nat := x ^^^ 2 ^ 31

/-- One element of a prediction (R372). -/
def predictElem (mode v1 v2 : Nat) : Nat :=
  match mode with
  | 0 => v1
  | 1 => (fF32.fma rne false false 0x40000000 v1 (f32Neg v2)).1
  | _ =>
    let d := (fF32.add rne v1 (f32Neg v2)).1
    (fF32.fma rne false false 0x3F000000 d v1).1

/-- The prediction from V1 and V2 as they stand. -/
def predict (mode : Nat) (v1 v2 : List Byte) : List Byte :=
  (((elemsOf 4 4096 v1).zip (elemsOf 4 4096 v2)).map fun (a, b) => natLe 4 (predictElem mode a b)).flatten

/-- The least VERSION a mode predicts from (R372). -/
def minVersion (mode : Nat) : Nat := if mode = 0 then 1 else 2

/-- The magnitude of a number. -/
def Num.abs : Num → Num
  | .fin _ m e => .fin false m e
  | .inf _ => .inf false
  | .nan => .nan

/-- The resolution's comparison (R378): ok, and e. -/
def compareTiles (tolAbs tolRel : Nat) : List (Nat × Nat) → Bool × Num
  | [] => (true, .fin false 0 0)
  | (p, r) :: rest =>
    let (ok, e) := compareTiles tolAbs tolRel rest
    let top (x : Num) : Num := if e.cmp x = .lt then x else e
    if fF32.isNan p || fF32.isNan r then (false, .inf false)
    else if p = r then (ok, e)
    else if fF32.isInf p || fF32.isInf r then (false, .inf false)
    else
      let diff := ((fF32.value p).add rne (fF32.value r).neg).abs
      let bound := (fF32.value tolAbs).add rne ((fF32.value tolRel).mul (fF32.value r).abs)
      (ok && bound.cmp diff != .lt, top diff)

/-- Whether a prediction stands against the real tile, and MAXERR. -/
def judge (c : CutSlot) (p r : List Byte) : Bool × Word :=
  let (ok, e) := compareTiles c.tolabs.toNat c.tolrel.toNat ((elemsOf 4 4096 p).zip (elemsOf 4 4096 r))
  (ok, BitVec.ofNat 32 (fF32.ofNum 2 e).1)

/-! ## Groups grown from a slot (R375, R380) -/

/-- The groups on cuttings and the retired groups whose entries are held, by uid. -/
def State.specs (s : State) : List (Nat × Spec) :=
  (s.groups.filterMap fun g => g.spec.map fun sp => (g.uid, sp)) ++
    (s.retiring.filterMap fun r => r.spec.map fun sp => (r.group, sp))

/-- Changes what the hardware holds for a group. -/
def State.modSpec (s : State) (uid : Nat) (f : Spec → Option Spec) : State :=
  { s with groups := s.groups.map fun g => if g.uid = uid then { g with spec := g.spec.bind f } else g,
           retiring := s.retiring.map fun r => if r.group = uid then { r with spec := r.spec.bind f } else r }

def State.specOf (s : State) (uid : Nat) : Option Spec := (s.specs.find? fun (u, _) => u == uid).map fun (_, sp) => sp

/-- Speculative, and neither committing nor being squashed. -/
def Spec.live (sp : Spec) : Bool := 0 < sp.level && sp.committing.isNone && sp.doomed.isNone

/-- The groups that consumed versions posted by one of a list of groups, level after level (R380). -/
def State.grownFrom (s : State) : Nat → List Nat → List Nat
  | 0, us => us
  | n + 1, us =>
    let more := (s.specs.filter fun (u, sp) => sp.live && !us.contains u && sp.producer.any us.contains).map fun (u, _) => u
    if more.isEmpty then us else s.grownFrom n (us ++ more)

/-- Every group that grew from those of a list, however long the chain (R375, R380): no chain is longer than the groups
are many. -/
def State.closure (s : State) (us : List Nat) : List Nat := s.grownFrom s.specs.length us

/-! ## Squashing (R380, R383) -/

/-- Groups of a list, from the highest level down and the latest first. -/
def State.byLevel (s : State) (us : List Nat) : List Nat :=
  let level (u : Nat) : Nat := ((s.specOf u).map (·.level)).getD 0
  sortBy (fun a b => level b < level a || (level a == level b && b < a)) us

/-- Withdraws the speculative versions that the groups posted: SPEC is cleared to zeros (DEDUCED, log 80), and one header
write for each slot clears SPECVER and SPECLVL alone (R380, R383). -/
def State.withdraw (s : State) (us : List Nat) (writer : Writer) : State :=
  s.cuts.foldl
    (fun s (n, c) =>
      if 0 < c.specLevel && us.contains c.specBy then
        let s1 := (s.slotWrite c c.spec (List.replicate c.bytes 0) writer).1
        ((s1.modSlot n fun c => { c with specVer := 0, specLevel := 0, specBy := 0 }).writeHeader n writer).1
      else s) s

/-- Speculative lines have been freed: a group that lacked room for its store tries it again (R377). -/
def State.roomAgain (s : State) : State := { s with groups := s.groups.map fun g => { g with noRoom := false } }

/-- Squashes those of a closed list of groups that are not committing: what they hold is discarded now, their teams once
their operations have completed (R379, R380). The count goes to slot `n`, whose header the caller writes. -/
def State.squash (s : State) (all : List Nat) (n : Nat) (writer : Writer) : State :=
  let us := all.filter fun u => (s.specOf u).any (·.live)
  let s1 := (s.byLevel us).foldl
    (fun s u => s.modSpec u fun sp => some { sp with lines := [], held := [], doomed := some s.gtime }) s
  let s2 := s1.withdraw all writer
  let s3 := s2.modSlot n fun c => { c with squashes := min (c.squashes + us.length) (2 ^ 32 - 1) }
  s3.roomAgain

/-- When the headers that a step has written, those that it changed, have all been written (R371). -/
def State.headersDone (before s : State) : Nat :=
  let done (c : CutSlot) : Nat :=
    ((s.mem.updates.filter fun u => (List.range 8).any fun k => u.word == c.addr (4 * k)).map (·.wct)).foldl max 0
  ((s.cuts.filter fun (n, c) => !before.cuts.any fun (m, b) => m == n && b.header == c.header).map
    fun (_, c) => done c).foldl max s.gtime

/-- The groups that a step has squashed return their records with one visibility time: the resolution's, when the step's
header writes have finished (R380, R383; 21_cuttings_notes.md, "The run", 8). -/
def State.timeSquash (before s : State) : State :=
  let new := s.specs.filter fun (u, sp) => sp.doomed.isSome && !(before.specOf u).any (·.doomed.isSome)
  new.foldl (fun t (u, _) => t.modSpec u fun sp => some { sp with doomed := some (before.headersDone s) }) s

/-- The operations a group has issued have completed (R380). -/
def State.idle (s : State) (uid : Nat) : Bool :=
  s.opsDone uid && !s.cores.any fun c => c.matrix.any (·.group == uid)

/-- Puts a squashed group's record back in the pool, gated again (R380), past the pool's capacity if it is full (DESIGN
CHOICE, log 102). -/
def State.repool (s : State) (t : Option Task) (time : Nat) : State :=
  match t with
  | none => s
  | some t => { s with pool := s.pool ++ [{ t with vis := time, since := time, gated := t.cut }] }

/-- A group squashed in the same step at a higher level is still to be discarded (R383). -/
def State.higherDoomed (s : State) (uid : Nat) : Bool :=
  (s.specOf uid).any fun sp => s.specs.any fun (_, q) => q.doomed == sp.doomed && sp.level < q.level

/-- Discards a squashed group whose operations have completed, with its team and what the team holds on its core; those
of one step go from the highest level down (R241, R380, R383). -/
def State.reap (s : State) (uid : Nat) : State :=
  match (s.specOf uid).bind (·.doomed) with
  | none => s
  | some time =>
    if !s.idle uid || s.higherDoomed uid then s
    else
      let team := ((s.group? uid).map (·.team)).getD (((s.retiring.find? (·.group == uid)).map (·.team)).getD 0)
      let task := ((s.group? uid).bind (·.task)).orElse fun _ => (s.retiring.find? (·.group == uid)).bind (·.task)
      ({ s.removeTeams [team] with
          retiring := s.retiring.filter (·.group != uid), pend := s.pend.filter (·.group != uid),
          fabric := { s.fabric with remotes := s.fabric.remotes.filter fun r =>
            r.group != uid || r.engine.isSome } } : State).repool task time

/-- Discards every squashed group that can be. -/
def State.reapAll (s : State) : State := (s.byLevel (s.specs.map fun (u, _) => u)).foldl State.reap s

/-! ## Gates (R374) -/

/-- The slot's real version matches WANT or lies beyond it (R374 condition 1). -/
def CutSlot.covers (c : CutSlot) (want : Nat) : Bool :=
  decide (0 ≤ (BitVec.ofNat 16 c.version - BitVec.ofNat 16 want).toInt)

/-- A speculative start for WANT exists at level 3 or below (R374 condition 2, R375). -/
def CutSlot.startable (c : CutSlot) (want : Nat) : Bool :=
  want == (c.version + 1) % 2 ^ 16 &&
    ((0 < c.specLevel && c.specVer == want && c.specLevel ≤ 2) || minVersion c.mode ≤ c.version)

/-- A record whose slot's real version has come is gated no longer, and ages from now. -/
def State.ungate (s : State) : State :=
  { s with pool := s.pool.map fun t =>
      if t.gated && (s.slot? t.grid t.cutSlot).any (·.covers t.cutWant) then { t with gated := false, since := s.gtime }
      else t }

/-- The record may start on a cutting now (R374 condition 2). -/
def State.mayCutNow (s : State) (t : Task) : Bool :=
  (s.slot? t.grid t.cutSlot).any fun c => t.vis + c.waitNs ≤ s.gtime && c.startable t.cutWant

/-- CUTTING_WAIT_EXPIRY (R374): the record may be dispatched on a cutting, and ages from now. -/
def execCuttingWaitExpiry (record : Nat) (s : State) : Result :=
  .next { s with pool := s.pool.map fun t =>
            if t.uid = record ∧ t.gated = true ∧ s.mayCutNow t = true then { t with gated := false, since := s.gtime }
            else t }

/-! ## Declaring and freeing (R227, R381) -/

/-- The bytes of STORE. -/
def storeBytes3 (bytes : Nat) : Nat := 3 * bytes + 128

/-- A tolerance: F32, finite, sign 0. -/
def badTolerance (w : Nat) : Bool := 2 ^ 31 ≤ w || fF32.isNan w || fF32.isInf w

/-- The illegal operands of a declaration (R227), each with the words that it is read from. The words that a free wants
zero besides are judged with the FREE bit (bit 31 of word 0), which says which of the two the block is. -/
def declRules (ws : List Word) : Rules :=
  [([0], wd ws 0 != 0), ([0, 1], wd ws 1 < 16), ([0, 1], 16384 < wd ws 1), ([0, 1], wd ws 1 % 16 != 0),
    ([0, 2], 2 < wd ws 2), ([0, 3], badTolerance (wd ws 3)), ([0, 4], badTolerance (wd ws 4)),
    ([0, 6], 2 ^ 48 ≤ wd64 ws 5)] ++ zeroRules ws 8 15

/-- A declaration's words are refused (R227). -/
def declBad (ws : List Word) : Bool := (declRules ws).any (·.2)

/-- The illegal operands of a free (R227), each with the words that it is read from. -/
def freeRules (ws : List Word) : Rules :=
  ([0], bitsOf (wd ws 0) 6 25 != 0) :: (zeroRules ws 1 7).map (fun (rs, bad) => (0 :: rs, bad)) ++ zeroRules ws 8 15

/-- A free's words are refused (R227). -/
def freeBad (ws : List Word) : Bool := (freeRules ws).any (·.2)

/-- The place of STORE: the physical address of its first byte, and of the part on its second page (R227). -/
def State.storePlace (s : State) (core grid va n : Nat) : (Nat × Nat × Nat) ⊕ (Cause ⊕ Nat) :=
  let one (va : Nat) : Nat ⊕ (Cause ⊕ Nat) :=
    match s.xlatG core grid va with
    | .fault sub => .inr (.inl (Cause.translation sub va))
    | .service _ => .inr (.inr va)
    | .ok p =>
      if p.aper != 3 then .inr (.inl (Cause.address va))
      else if !p.readable then .inr (.inl (Cause.permission 0 va))
      else .inl p.pa
  if va % 512 ≠ 0 then .inr (.inl (Cause.address va))
  else
    let k := min n (2 ^ 16 - va % 2 ^ 16)
    match one va with
    | .inr e => .inr e
    | .inl pa =>
      if k < n then
        match one (va + k) with
        | .inr e => .inr e
        | .inl pa2 =>
          match one (va + n - 1) with
          | .inr e => .inr e
          | .inl _ => .inl (pa, k, pa2)
      else
        match one (va + n - 1) with
        | .inr e => .inr e
        | .inl _ => .inl (pa, n, 0)

/-- The slot that a declaration takes: the lowest that is not declared (R227; DESIGN CHOICE, log 87). -/
def State.freeSlot (s : State) : Option Nat := (List.range 64).find? fun n => !s.cuts.any fun (k, _) => k == n

/-- A slot as declared. -/
def declaredSlot (grid : Nat) (ws : List Word) (place : Nat × Nat × Nat) : CutSlot :=
  { grid := grid, bytes := wd ws 1, mode := wd ws 2, tolabs := (ws[3]?).getD 0, tolrel := (ws[4]?).getD 0,
    store := place.1, split := place.2.1, store2 := place.2.2, waitNs := wd ws 7, version := 0, specVer := 0,
    specLevel := 0, specBy := 0, result := 0, maxErr := 0, resVer := 0, commits := 0, squashes := 0,
    foretold := false, resolving := 0 }

/-- CTDECL, to declare (R227). -/
def declareOp (m : Bool) (d a : BitVec 7) (s : State) : Op :=
  let ws (x : Site) : List Word := x.g.words16 a.toNat
  let place (x : Site) : (Nat × Nat × Nat) ⊕ (Cause ⊕ Nat) :=
    s.storePlace (s.coreOf x.g.team) x.g.grid (wd64 (ws x) 5) (storeBytes3 (wd (ws x) 1))
  { m := m, kind := .plain,
    check := fun x _ l =>
      blockFault x l a.toNat (declRules (ws x)) (operandFault x l { us := d.toNat :: regsFrom a.toNat 16 } true),
    fault := fun x _ _ =>
      match place x with
      | .inr (.inl c) => some c
      | _ => none,
    effect := fun x good s' =>
      match place x with
      | .inr (.inl _) => s'
      | .inr (.inr va) => s'.holdForService x good va
      | .inl p =>
        match s.freeSlot with
        | none => s'.modGroup x.g.uid fun g => g.setU d.toNat 0xFFFFFFFF
        | some n =>
          let c := declaredSlot x.g.grid (ws x) p
          let (s1, _) := (s'.cacheXlat (s.coreOf x.g.team) (s.rootOf x.g.grid) (wd64 (ws x) 5)).slotWrite c 0
            (List.replicate (storeBytes3 c.bytes) 0) (s.writer x.g 32)
          ({ s1 with cuts := tput s1.cuts n c } : State).modGroup x.g.uid fun g =>
            g.setU d.toNat (BitVec.ofNat 32 n) }

/-- CTDECL with FREE = 1 (R227, R381): the groups grown from the slot are squashed first. -/
def undeclareOp (m : Bool) (d a : BitVec 7) (s : State) : Op :=
  let ws (x : Site) : List Word := x.g.words16 a.toNat
  { m := m, kind := .plain,
    check := fun x _ l =>
      blockFault x l a.toNat (freeRules (ws x)) (operandFault x l { us := d.toNat :: regsFrom a.toNat 16 } true),
    effect := fun x _ s' =>
      let n := bitsOf (wd (ws x) 0) 0 6
      match s.slot? x.g.grid n with
      | none => s'.modGroup x.g.uid fun g => g.setU d.toNat 0xFFFFFFFF
      | some _ =>
        let us := s.closure ((s.specs.filter fun (_, sp) => sp.live && sp.slot == n).map fun (u, _) => u)
        let s1 := s'.timeSquash (s'.squash us n (s.writer x.g 32))
        ({ s1 with cuts := tdel s1.cuts n } : State).modGroup x.g.uid fun g => g.setU d.toNat 0 }

/-- A bit of a uniform register of the chosen group, as its next issue reads it. -/
def State.curBit (s : State) (r k : Nat) : Bool := (s.group? s.cur).any fun g => (g.seen.u r).getLsbD k

/-- CTDECL (R227), as its FREE bit says. A speculative group's declares or frees at once (R377; DESIGN CHOICE, log 103). -/
def execCtdecl (m : Bool) (d a : BitVec 7) (s : State) : Result :=
  if s.curBit a.toNat 31 then (undeclareOp m d a s).issue s else (declareOp m d a s).issue s

/-- CTDECL with FREE = 1 (R227). -/
def execCtdeclFree (m : Bool) (d a : BitVec 7) (s : State) : Result :=
  if s.curBit a.toNat 31 then (undeclareOp m d a s).issue s else (declareOp m d a s).issue s

/-! ## CTPOST, CTGET and CTSTAT at issue (R228, R229, R375) -/

/-- An engine operation on a slot (R228): `pad` is the lowest bit of S[a] above SLOT that must be 0, and its bits. -/
def cutOp (m : Bool) (now : State) (kind d a b : Nat) (reserved : Nat → Bool) (write : Bool) : Op :=
  let slot (x : Site) : Option CutSlot := now.slot? x.g.grid (bitsOf (x.g.u a).toNat 0 6)
  let addr (x : Site) : Nat := (x.g.u b).toNat
  let spans (x : Site) : List Span :=
    match now.team? x.g.team, slot x with
    | some t, some c => [⟨write, true, normScratch t.member (addr x), c.bytes⟩]
    | _, _ => []
  { m := m, kind := .plain,
    check := fun x _ l =>
      valueFault x l { us := [a] } (reserved (x.g.u a).toNat || (slot x).isNone)
        (operandFault x l { us := [d, a, b] } true),
    fault := fun x _ _ =>
      match now.team? x.g.team, slot x with
      | some t, some c =>
        match ownOffset t (addr x) with
        | some off => if off % 16 = 0 ∧ off + c.bytes ≤ x.img.scratch then none else some (Cause.address (addr x))
        | none => some (Cause.address (addr x))
      | _, _ => some Cause.illegalOperand,
    hold := fun x _ => now.lockFull (now.coreOf x.g.team) (spans x),
    effect := fun x _ s => s.startOp x d kind [x.g.u a, x.g.u b] (spans x) id }

/-- CTPOST (R228). -/
def execCtpost (m : Bool) (d a b : BitVec 7) (s : State) : Result :=
  (cutOp m s 11 d.toNat a.toNat b.toNat (fun w => bitsOf w 6 26 != 0) false).issue s

/-- CTGET (R228). -/
def execCtget (m : Bool) (d a b : BitVec 7) (s : State) : Result :=
  (cutOp m s 12 d.toNat a.toNat b.toNat (fun w => bitsOf w 6 10 != 0) true).issue s

/-- The snapshot of CTSTAT (R229). -/
def slotStatus (now : Nat) (c : Option CutSlot) : Nat :=
  match c with
  | none => 0
  | some c =>
    c.version % 2 ^ 16 + 2 ^ 16 * c.mode + 2 ^ 18 * c.specLevel + 2 ^ 21 + 2 ^ 22 * (decide (now < c.resolving)).toNat

/-- CTSTAT (R229). -/
def execCtstat (m : Bool) (d a : BitVec 7) (s : State) : Result :=
  Op.issue
    { m := m, kind := .plain,
      check := fun x _ l =>
        valueFault x l { us := [a.toNat] } (bitsOf (x.g.u a.toNat).toNat 6 26 != 0)
          (operandFault x l { us := [d.toNat, a.toNat] } true),
      effect := fun x _ s' => s'.modGroup x.g.uid fun g =>
        g.setU d.toNat (BitVec.ofNat 32 (slotStatus s.gtime (s.slot? x.g.grid (x.g.u a.toNat).toNat))) }
    s

/-! ## CTGET at the slot (R375) -/

/-- The slot number and WANT of an operation. -/
def EngOp.cutSlot (op : EngOp) : Nat := bitsOf (wd op.words 0) 0 6
def EngOp.cutWant (op : EngOp) : Nat := bitsOf (wd op.words 0) 16 16

/-- What a CTGET receives: a tile with its level and the group that posted it; nothing yet; or nothing ever. -/
inductive Cut where
  | tile (bs : List Byte) (level : Nat) (producer : Option Nat)
  | wait
  | stale

/-- CtGet (R375). A version that is not the latest, the one before it or the next is waited for if it lies ahead, and
is stale if it lies behind (DEDUCED, log 40). -/
def State.ctGet (s : State) (c : CutSlot) (want : Nat) (onCutting waiting : Bool) : Cut :=
  let v := c.version
  if v % 2 ^ 16 = want then .tile (s.slotRead c c.v1 c.bytes) 0 none
  else if 2 ≤ v ∧ (v - 1) % 2 ^ 16 = want then .tile (s.slotRead c c.v2 c.bytes) 0 none
  else if want = (v + 1) % 2 ^ 16 ∧ onCutting ∧ !waiting then
    if 0 < c.specLevel ∧ c.specVer = want ∧ c.specLevel ≤ 2 then
      .tile (s.slotRead c c.spec c.bytes) (c.specLevel + 1) (some c.specBy)
    else if minVersion c.mode ≤ v then
      .tile (predict c.mode (s.slotRead c c.v1 c.bytes) (s.slotRead c c.v2 c.bytes)) 1 none
    else .wait
  else if 0 < (BitVec.ofNat 16 v - BitVec.ofNat 16 want).toInt then .stale
  else .wait

/-- A group on a cutting for a slot and version (R375). -/
def State.onCutting (s : State) (uid slot want : Nat) : Bool :=
  (s.specOf uid).any fun sp => sp.slot == slot && sp.want == want

/-- Records what a delivery makes of the group: its level, and from what it grew (R375). -/
def Spec.grow (level : Nat) (producer : Option Nat) (sp : Spec) : Spec :=
  { sp with level := level, producer := producer.orElse fun _ => sp.producer,
            predicted := sp.predicted || producer.isNone }

/-- Delivers a tile into the issuing core's scratchpad and sets the group's level (R228, R375). -/
def State.deliver (s : State) (core : Nat) (op : EngOp) (bs : List Byte) (level : Nat) (producer : Option Nat) : State :=
  let s1 := s.modOp core op.handle fun o =>
    { o with begun := true, waiting := false, version := op.cutWant, pred := level != 0, outcome := some (.ok, 0) }
  let s2 := s1.engWriteScratch core op [s.engScratch op (wd op.words 1) bs.length] (wd op.words 1) bs
  if level = 0 then s2
  else
    let s3 := s2.modSpec op.group fun sp => some (sp.grow level producer)
    if producer.isNone then s3.modSlot op.cutSlot fun c => { c with foretold := true } else s3

/-- The group of an operation is being squashed. -/
def State.doomedOp (s : State) (op : EngOp) : Bool := (s.specOf op.group).any (·.doomed.isSome)

/-- CTGET_TURN (R375). A slot freed meanwhile delivers nothing, nor does the operation of a squashed group
(DEDUCED, log 41). -/
def execCtgetTurn (core handle : Nat) (s : State) : Result :=
  match s.op? core handle with
  | none => .next s
  | some op =>
    if op.kind != 12 || op.paused || op.outcome.isSome || !(op.waiting || mayBegin (s.core core).ops op) then .next s
    else
      match s.slot? op.grid op.cutSlot with
      | none => .next (s.failOp core handle .staleGen 0)
      | some c =>
        if s.doomedOp op then .next (s.failOp core handle .staleGen 0)
        else
          let ended := (s.grid? op.grid).any (·.terminating)
          match s.ctGet c op.cutWant (s.onCutting op.group op.cutSlot op.cutWant) op.waiting with
          | .tile bs level producer => .next (s.deliver core op bs level producer)
          | .wait =>
            if ended then .next (s.failOp core handle .staleGen 0)
            else .next (s.modOp core handle fun o => { o with waiting := true, version := op.cutWant })
          | .stale => .next (s.modOp core handle fun o =>
              { o with waiting := false, version := op.cutWant, outcome := some (.staleGen, 0) })

/-! ## Commits and resolution (R376, R378, R379) -/

/-- The writer of a lane of a group or of a retired group. -/
def State.specWriter (s : State) (uid lane : Nat) : Writer :=
  match s.group? uid with
  | some g => s.writer g lane
  | none =>
    match s.retiring.find? (·.group == uid) with
    | none => { cls := 1, chip := s.chipId, lcid := 0, team := 0, group := 0, lane := lane }
    | some r =>
      { cls := 1, chip := s.chipId, lcid := r.lcid, team := ((s.team? r.team).map (·.index)).getD 0, group := r.index,
        lane := lane }

/-- A load on its way is performed no earlier than the stores of its lanes to those bytes become visible (R282). -/
def State.loadBehind (s : State) (p : Pend) : Pend :=
  match p.what, s.group? p.group with
  | .load va pa acc d lease after, some g =>
    let t := max after (s.ownAfter g p.lanes pa (accBytes acc))
    { p with due := max p.due (2 * t), what := .load va pa acc d lease t }
  | _, _ => p

/-- R379 step 1: a group's speculative bytes go home as stores of the lanes that wrote them, which the
lanes' loads of those bytes follow (R282). -/
def State.beginCommit (s : State) (uid : Nat) : State :=
  match s.specOf uid with
  | none => s
  | some sp =>
    if !sp.live then s
    else
      let ws := sp.lines.map fun (a, b, lane) => (lane, a, [b])
      let (arr, s1) := s.arrivals
      let (mem, ts) := s1.mem.receiveLanes uid (s.specWriter uid) arr ws
      let top := (ts.map fun (_, t) => t).foldl max 0
      let s2 := ({ s1 with mem := mem } : State).raiseLwcts uid ts
      let s3 : State := { s2 with retiring := s2.retiring.map fun r =>
        if r.group = uid then { r with lwct := max r.lwct top } else r }
      let s4 := (s3.modSpec uid fun sp => some { sp with lines := [], committing := some (max top s.gtime) }).roomAgain
      { s4 with pend := s4.pend.map fun p => if p.group = uid then s4.loadBehind p else p }

/-- The groups grown directly from a prediction for a version (R378). -/
def State.predicted (s : State) (n want : Nat) : List Nat :=
  (s.specs.filter fun (_, sp) => sp.live && sp.predicted && sp.slot == n && sp.want == want).map
    fun (u, _) => u

/-- Adds the commits of groups, and of those that grew from them, to a slot's COMMITS, each once (R378; of a group that
consumed a committing group's version after the resolution DEDUCED, log 81). -/
def State.countCommits (s : State) (n : Nat) (us : List Nat) : State :=
  let new := (s.closure us).filter fun u => (s.specOf u).any fun sp => !sp.counted
  (new.foldl (fun s u => s.modSpec u fun sp => some { sp with counted := true }) s).modSlot n fun c =>
    { c with commits := min (c.commits + new.length) (2 ^ 32 - 1) }

/-- R376 step 2: resolves the prediction for the next version against the tile that becomes it. The header is written
by the caller. -/
def State.resolve (s : State) (n : Nat) (c : CutSlot) (tile : List Byte) (writer : Writer) : State :=
  if !c.foretold then s
  else
    let next := c.version + 1
    let us := s.predicted n (next % 2 ^ 16)
    let p := predict c.mode (s.slotRead c c.v1 c.bytes) (s.slotRead c c.v2 c.bytes)
    let (ok, err) := judge c p tile
    let s1 := s.modSlot n fun c => { c with foretold := false, result := if ok then 1 else 2, maxErr := err, resVer := next }
    if ok then us.foldl State.beginCommit (s1.countCommits n us) else s1.squash (s.closure us) n writer

/-- R376 step 3: V2 ← V1, V1 ← the tile, VERSION rises; then the header is written, up to whose WCT a resolution is
under way (R376, DEDUCED, log 39). Answers the greatest WCT. -/
def State.installTile (s : State) (n : Nat) (tile : List Byte) (writer : Writer) (resolved : Bool) : State × Nat :=
  match s.cuts.find? fun (k, _) => k == n with
  | none => (s, 0)
  | some (_, c) =>
    let (s1, t1) := s.slotWrite c c.v2 (s.slotRead c c.v1 c.bytes) writer
    let (s2, t2) := s1.slotWrite c c.v1 tile writer
    let (s3, t3) := (s2.modSlot n fun c => { c with version := (c.version + 1) % 2 ^ 64 }).writeHeader n writer
    let s4 := if resolved then s3.modSlot n fun c => { c with resolving := t3 } else s3
    (s4.ungate, max t1 (max t2 t3))

/-- A real post (R376, R381). -/
def State.realPost (s : State) (n : Nat) (c : CutSlot) (tile : List Byte) (writer : Writer) : State × Nat :=
  let s1 := if 0 < c.specLevel then s.squash (s.closure [c.specBy]) n writer else s
  let (s2, t) := (s1.resolve n c tile writer).installTile n tile writer c.foretold
  (s.timeSquash s2, t)

/-- A speculative post at level L (R376). -/
def State.specPost (s : State) (n : Nat) (c : CutSlot) (level uid : Nat) (tile : List Byte) (writer : Writer) :
    State × Nat :=
  let (s1, t1) := s.slotWrite c c.spec tile writer
  let (s2, t2) := (s1.modSlot n fun c =>
    { c with specVer := (c.version + 1) % 2 ^ 16, specLevel := level, specBy := uid }).writeHeader n writer
  (s2, max t1 t2)

/-- The level of a group. -/
def State.levelOf (s : State) (uid : Nat) : Nat := ((s.specOf uid).map (·.level)).getD 0

/-- CTPOST_TURN (R376): a real post, or a speculative one, which waits while another version is pending. -/
def execCtpostTurn (core handle : Nat) (s : State) : Result :=
  match s.op? core handle with
  | none => .next s
  | some op =>
    if op.kind != 11 || op.outcome.isSome || !mayBegin (s.core core).ops op then .next s
    else
      let settle (s : State) (t : Nat) (v : Nat) : State := s.modOp core handle fun o =>
        { o with begun := true, version := v % 2 ^ 16, outcome := some (.ok, 0),
                 run := some { bytes := 0, wct := t, remote := [], banks := [] } }
      match s.slot? op.grid op.cutSlot with
      | none => .next (s.failOp core handle .staleGen 0)
      | some c =>
        if s.doomedOp op then .next (s.failOp core handle .staleGen 0)
        else
          match s.engReadScratch op (wd op.words 1) c.bytes with
          | .fail st a => .next (s.failOp core handle st a)
          | .bytes tile =>
            let level := s.levelOf op.group
            if level = 0 then
              let (s1, t) := s.realPost op.cutSlot c tile op.writer
              .next (settle s1 t (c.version + 1))
            else if 0 < c.specLevel then .next (s.modOp core handle fun o => { o with begun := true })
            else
              let (s1, t) := s.specPost op.cutSlot c level op.group tile op.writer
              .next (settle s1 t (c.version + 1))
          | _ => .next s

/-- R379 step 6: the versions a committed group posted become real, and the groups that consumed them commit. -/
def State.installPosted (s : State) (uid : Nat) (writer : Writer) : State :=
  s.cuts.foldl
    (fun s (n, c) =>
      if 0 < c.specLevel && c.specBy == uid then
        let tile := s.slotRead c c.spec c.bytes
        let s1 := (s.modSlot n fun c => { c with specVer := 0, specLevel := 0, specBy := 0 }).resolve n c tile writer
        let us := (s1.specs.filter fun (_, sp) => sp.live && sp.producer == some uid && sp.slot == n).map fun (u, _) => u
        s.timeSquash ((us.foldl State.beginCommit (s1.countCommits n us)).installTile n tile writer c.foretold).1
      else s) s

/-- COMMIT_WRITEBACK_DONE (R379): GTIME has reached the write-back's WCTs: held records enter the pool, and the group
goes on as no longer speculative. -/
def execCommitWritebackDone (group : Nat) (s : State) : Result :=
  match s.specOf group with
  | none => .next s
  | some sp =>
    match sp.committing with
    | none => .next s
    | some t =>
      if s.gtime < t then .next s
      else
        let s1 := sp.held.foldl (fun s task => s.keepTask { task with vis := t } false group) s
        .next ((s1.modSpec group fun _ => none).installPosted group (s.specWriter group 32)).ungate

/-! ## Hardware squashes (R377, R383) -/

/-- The slot that counts a hardware squash: the one from which the squashed group of lowest level consumed (R383). -/
def State.lowestSlot (s : State) (us : List Nat) : Nat :=
  match (s.byLevel us).getLast? with
  | none => 0
  | some u => ((s.specOf u).map (·.slot)).getD 0

/-- Squashes a group and what grew from it, by the hardware; the counting slot's header is written (R383). -/
def State.hardSquash (s : State) (uid : Nat) : State :=
  let us := s.closure [uid]
  let n := s.lowestSlot us
  let w := s.specWriter uid 32
  s.timeSquash ((s.squash us n w).writeHeader n w).1

/-- SPECULATIVE_ROOM_SQUASH (R377): every speculative group of the core lacks line room; the one of highest level, and
of those the latest dispatched, is squashed. -/
def execSpeculativeRoomSquash (core : Nat) (s : State) : Result :=
  let us := (s.groups.filter fun g => s.coreOf g.team == core && g.spec.any (·.live))
  if us.isEmpty || us.any (!·.noRoom) then .next s
  else
    match s.byLevel (us.map (·.uid)) with
    | [] => .next s
    | u :: _ => .next (s.hardSquash u)

/-- SPECULATIVE_LINE_ERROR (R377): an uncorrectable error in a group's speculative line squashes it and is reported. -/
def execSpeculativeLineError (core group : Nat) (s : State) : Result :=
  match s.specOf group with
  | none => .next s
  | some sp => if sp.live && !sp.lines.isEmpty then .next ((s.hardSquash group).event 6 core []) else .next s

end Sys2Proof.Machine
end

