-- ==== Sys2Proof/Machine/Tiles.lean ====
section
/-!
DEFINITION. Tiles: the shapes of R239, the layouts of R245 to R247, block terms (R127), the special values of a step
(R129), accumulator elements (R40, R238) and the epilogue store's rounding (R256).
-/

namespace Sys2Proof.Machine

/-! ## Shapes (R43, R239) -/

def tileF4S : Nat := 0
def tileF8E4S : Nat := 1
def tileF8E5S : Nat := 2
def tileI8 : Nat := 3
def tileBF16 : Nat := 4

/-- A tag or sparse mode that R43 or R239 reserves. -/
def badShape (tag spk : Nat) : Bool := 4 < tag || spk == 3 || (spk != 0 && tag != tileF4S)

/-- Logical K. -/
def tileK (tag spk : Nat) : Nat :=
  if tag = tileF4S then (if spk = 0 then 128 else if spk = 1 then 256 else 512)
  else if tag = tileBF16 then 32 else 64

/-- Bytes of an A row. -/
def rowBytes (tag spk : Nat) : Nat := if tag = tileF4S then tileK tag spk / 2 else 64

/-- The tags with block scales. -/
def isScaled (tag : Nat) : Bool := tag ≤ tileF8E5S

/-- Scale bytes of a step, for A and for B. -/
def scaleBytes (tag spk : Nat) : Nat := if isScaled tag then 64 * (tileK tag spk / 8) else 0

/-- The slots of the span with a head. -/
def spanSlots (head spk : Nat) : List Nat := if spk = 0 then [head] else [head, head + 1, head + 2, head + 3]

/-! ## Elements (R245 to R247) -/

/-- A signed byte as a value. -/
def int8Value (b : Nat) : Num :=
  if b < 128 then .fin false b 0 else .fin true (256 - b) 0

/-- The elements of a row or column. For F4S the value is half of D (R112), so that the factor 2^−2 of R127 is in
it. -/
def elements (tag : Nat) (bs : List Byte) : List Num :=
  if tag = tileF4S then
    (bs.map fun b => [fE2M1.value (b.toNat % 16), fE2M1.value (b.toNat / 16)]).flatten
  else if tag = tileF8E4S then bs.map fun b => fE4M3.value b.toNat
  else if tag = tileF8E5S then bs.map fun b => fE5M2.value b.toNat
  else if tag = tileI8 then bs.map fun b => int8Value b.toNat
  else (wordsOf bs).flatMap fun w => [fBF16.value (elem w 0 16), fBF16.value (elem w 1 16)]

/-- Cuts a list into `n` pieces of `k`. -/
def chunks {α : Type} (k : Nat) : Nat → List α → List (List α)
  | 0, _ => []
  | n + 1, xs => xs.take k :: chunks k n (xs.drop k)

/-- The logical positions of a column's 128 stored values (R247): value `v` stands at 128 · ⌊v / N⌋ plus bits [6:0] of
its index byte. -/
def positions (spk : Nat) (indices : List Byte) : List Nat :=
  mapFrom (fun v b => 128 * (v / (if spk = 1 then 64 else 32)) + b.toNat % 128) 0 indices

/-- The products' factors of each block of one element: dense (R127). -/
def denseBlocks (blocks : Nat) (a b : List Num) : List (List (Num × Num)) := chunks 8 blocks (a.zip b)

/-- The products' factors of each block of one element: sparse (R247). -/
def sparseBlocks (blocks : Nat) (a b : List Num) (pos : List Nat) : List (List (Num × Num)) :=
  let at' := (pos.zip b).map fun (k, y) => (k / 8, ((a[k]?).getD (.fin false 0 0), y))
  (List.range blocks).map fun i => (at'.filter fun (j, _) => j == i).map fun (_, p) => p

/-! ## One element of a step (R127 to R129) -/

def Num.isNan : Num → Bool
  | .nan => true
  | _ => false

def Num.infSign : Num → Option Bool
  | .inf s => some s
  | _ => none

def Num.isZero : Num → Bool
  | .fin _ 0 _ => true
  | _ => false

def Num.negative : Num → Bool
  | .fin s _ _ => s
  | .inf s => s
  | .nan => false

/-- A block of one element: its factors and the product of its block scales. -/
structure Block where
  pairs : List (Num × Num)
  scale : Num

/-- Case 1 of R129, apart from the old value: the step has no number. -/
def stepInvalid (blocks : List Block) (ba bb : Num) : Bool :=
  let products (b : Block) : List Num := b.pairs.map fun (x, y) => x.mul y
  let bandOff := ba.isNan || bb.isNan || ba.infSign.isSome || bb.infSign.isSome
  let bandZero := ba.isZero || bb.isZero
  let infs := (blocks.map fun b => (products b).filterMap Num.infSign).flatten
  bandOff ||
    (blocks.any fun b => b.pairs.any fun (x, y) => x.isNan || y.isNan) ||
    (blocks.any fun b => (products b).any Num.isNan) ||
    (blocks.any fun b => ((products b).any fun p => p.infSign.isSome) && (b.scale.isZero || bandZero)) ||
    (infs.contains true && infs.contains false)

/-- The sign of the infinite terms, if any. -/
def stepInfinity (blocks : List Block) (ba bb : Num) : Option Bool :=
  ((blocks.map fun b => b.pairs.filterMap fun (x, y) => (x.mul y).infSign).flatten.head?).map fun s =>
    s != (ba.negative != bb.negative)

/-- A block term (R127). -/
def blockTerm (ba bb : Num) (b : Block) : Num :=
  (((b.pairs.foldl (fun (y : Num) (x, z) => Num.add rne y (x.mul z)) (.fin false 0 0)).mul b.scale).mul ba).mul bb

/-- A finite value as a term of the window sum. -/
def Num.term : Num → List (Bool × Nat × Int)
  | .fin s m e => [(s, m, e)]
  | _ => []

/-- The new value of an element with old value `c`, and whether case 4 overflowed (R129, R251). -/
def stepElement (c : Nat) (blocks : List Block) (ba bb : Num) : Nat × Bool :=
  let sum : Nat :=
    windowSum ((fF32.value c).term ++ (blocks.map fun b => (blockTerm ba bb b).term).flatten)
  if stepInvalid blocks ba bb then (0x7FC00000, false)
  else
    match stepInfinity blocks ba bb, fF32.value c with
    | some s, .inf t => (if s == t then fF32.inf s else 0x7FC00000, false)
    | _, .nan => (fF32.quiet c, false)
    | some s, _ => (fF32.inf s, false)
    | none, .inf t => (fF32.inf t, false)
    | none, _ => (sum, fF32.isInf sum)

/-- What a span holds, read as a step reads it: for each column its elements, positions and scales. -/
structure Column where
  vals : List Num
  pos : List Nat
  scales : List Num

/-- The 64 columns of a span (R246, R247). -/
def WData.columns (w : WData) (tag spk : Nat) : List Column :=
  let blocks := tileK tag spk / 8
  (List.range 64).map fun j =>
    { vals := elements tag ((w.data.drop (64 * j)).take 64),
      pos := if spk = 0 then [] else positions spk ((w.indices.drop (128 * j)).take 128),
      scales := ((w.scales.drop (blocks * j)).take blocks).map fun b => fE3M5.value b.toNat }

/-- The blocks of one element from an A row, its scales and a column. -/
def elementBlocks (tag spk : Nat) (a sa : List Num) (col : Column) : List Block :=
  let n := tileK tag spk / 8
  let pairs := if spk = 0 then denseBlocks n a col.vals else sparseBlocks n a col.vals col.pos
  let scales := if isScaled tag then (sa.zip col.scales).map fun (x, y) => x.mul y else List.replicate n (.fin false 1 0)
  (pairs.zip scales).map fun (p, q) => { pairs := p, scale := q }

/-- One row of a step (R251): the new elements, and how many overflowed. -/
def stepRow (tag spk : Nat) (ba bb : Num) (a sa : List Num) (cols : List Column) (old : List Nat) :
    List Word × Nat :=
  let rs := (old.zip cols).map fun (c, col) => stepElement c (elementBlocks tag spk a sa col) ba bb
  (rs.map fun (y, _) => BitVec.ofNat 32 y, (rs.filter fun (_, o) => o).length)

/-! ## Accumulator tiles (R40, R238) -/

/-- The rows of an active mask (R250, R254). -/
def ownedRows (mask : BitVec 32) : List Nat := (laneList mask).flatMap fun l => [2 * l, 2 * l + 1]

/-- The place of an element. -/
def accPlace (tile row col : Nat) : Nat := 4096 * tile + 64 * row + col

/-- A row of a tile. -/
def Team.accRow (t : Team) (tile row : Nat) : List Nat :=
  (List.range 64).map fun j => (tget 0 t.acc (accPlace tile row j)).toNat

/-- Writes a row; damage in it is gone (R298). -/
def Team.setAccRow (t : Team) (tile row : Nat) (ws : List Word) : Team :=
  { t with acc := tputs t.acc (mapFrom (fun j w => (accPlace tile row j, w)) 0 ws),
           accDamage := t.accDamage.filter fun d => !(accPlace tile row 0 ≤ 2 * d && 2 * d < accPlace tile row 64) }

/-- Damaged elements stand in one of the rows. -/
def Team.accDamaged (t : Team) (tile : Nat) (rows : List Nat) : Bool :=
  rows.any fun i => t.accDamage.any fun d => accPlace tile i 0 ≤ 2 * d && 2 * d < accPlace tile i 64

/-- A tile's overflow counter. -/
def Team.counter (t : Team) (tile : Nat) : Nat := tget 0 t.overflow tile

def Team.setCounter (t : Team) (tile n : Nat) : Team := { t with overflow := tput t.overflow tile n }

/-- The counter rises, saturating (R254). -/
def Team.countOverflow (t : Team) (tile n : Nat) : Team := t.setCounter tile (min (t.counter tile + n) (2 ^ 32 - 1))

/-! ## The store of a tile (R256) -/

/-- The formats of FMT and their bytes. -/
def storeFmt (fmt : Nat) : Fmt :=
  if fmt = 0 then fF32 else if fmt = 1 then fBF16 else if fmt = 2 then fF16 else if fmt = 3 then fE4M3 else fE5M2

def storeElemBytes (fmt : Nat) : Nat := if fmt = 0 then 4 else if fmt ≤ 2 then 2 else 1

/-- An element as stored, and whether saturation replaced it. -/
def storeElement (fmt : Nat) (mode : RMode) (sat : Bool) (x : Nat) : Nat × Bool :=
  if fmt = 0 then
    if sat && fF32.isInf x then (fF32.vmax (fF32.sign x), true) else (x, false)
  else
    let (y, fl) := convFloat fF32 (storeFmt fmt) mode sat x
    (y, sat && (fl &&& ofe) != 0)

/-- A row as stored, and how many elements saturation replaced. -/
def storeRow (fmt : Nat) (mode : RMode) (sat : Bool) (xs : List Nat) : List Byte × Nat :=
  let ys := xs.map (storeElement fmt mode sat)
  ((ys.map fun (y, _) => natLe (storeElemBytes fmt) y).flatten, (ys.filter fun (_, c) => c).length)

end Sys2Proof.Machine
end

