-- ==== Sys2Proof/Machine/Matrix.lean ====
section
/-!
DEFINITION. The matrix unit: tile descriptors (R240, R248), the weight store (R241, R252), scale queues (R249), the MMA and
ACC majors at issue (R250, R253 to R257), the turns of the matrix queue (R242, R251, R256) and its errors (R262).
-/

namespace Sys2Proof.Machine

/-! ## The weight store (R241) -/

def WSlot.empty : WSlot := { state := .empty, owner := 0, head := 0, tag := 0, spk := 0, bandb := 0 }

def WData.empty : WData := { data := [], scales := [], indices := [] }

def Core.slot (c : Core) (n : Nat) : WSlot := tget WSlot.empty c.slots n

/-- The span of a team with a head becomes EMPTY. -/
def Core.releaseSpan (c : Core) (team head : Nat) : Core := c.releaseSlots fun w => w.owner == team && w.head == head

/-- The heads of a team's spans that overlap some slots. -/
def Core.overlapping (c : Core) (team : Nat) (ns : List Nat) : List Nat :=
  nubNat ((c.slots.filter fun (n, w) => w.owner == team && ns.contains n).map fun (_, w) => w.head)

/-- A slot is the head of a span that a team owns. -/
def Core.heads (c : Core) (team n : Nat) : Bool := (c.slot n).owner == team && (c.slot n).head == n

/-! ## Addresses and locks (R243, R244) -/

/-- The lowest offending address of a span: on the issuing core, aligned, within SCRATCH (R243). -/
def badSpan (img : Image) (t : Team) (address align len : Nat) : Option Nat :=
  match ownOffset t address with
  | none => some address
  | some off =>
    if off % align != 0 then some address
    else if img.scratch < off + len then some (address - off + max off img.scratch)
    else none

/-- The lowest offending address of several spans: address, alignment, length. -/
def badSpans (img : Image) (t : Team) (xs : List (Nat × Nat × Nat)) : Option Nat :=
  least (xs.filterMap fun (a, n, len) => badSpan img t a n len)

/-- The weight-slot fault of a team whose matrix error is set (R262). -/
def errorFault (t : Team) : Option Cause := t.matrixError.map Cause.weightSlot

/-- The fault of the addresses, then that of the matrix error (R259). -/
def addressThenError (img : Image) (t : Team) (xs : List (Nat × Nat × Nat)) : Option Cause :=
  match badSpans img t xs with
  | some a => some (Cause.address a)
  | none => errorFault t

/-- A tile index at or above Ca (R40). -/
def tileBounds (x : Site) (t : Team) (cs : List Nat) : Bool := cs.any fun c => x.img.ca ≤ t.accwin + c

/-- The operand checks of a matrix instruction, in the order of R65: `illegal` lists what makes its operands illegal,
each with the uniform registers that it is read from (DEDUCED, log 25). -/
def matCheck (now : State) (us cs : List Nat) (illegal : Site → Rules) (x : Site) (l : Lane) :
    Option Cause :=
  match now.team? x.g.team with
  | none => some Cause.illegalOperand
  | some t =>
    if (illegal x).any fun (rs, bad) => bad && !isPending x l { us := rs } then some Cause.illegalOperand
    else if tileBounds x t cs then some Cause.registerBounds
    else operandFault x l { us := us } true

/-- An operation enters the matrix queue, with its locks (R242, R244). -/
def State.queueMat (s : State) (x : Site) (good : BitVec 32) (kind : MatKind) (spans : List Span) : State :=
  match s.team? x.g.team with
  | none => s
  | some t =>
    let core := t.core.getD 0
    let (n, s1) := s.newFresh
    s1.modCore core fun c =>
      { c with matrix := c.matrix ++ [{ id := c.nextMat, group := x.g.uid, team := t.uid, grid := x.g.grid,
                                        lanes := good, due := s.clock.tick + Config.latency n, kind := kind }],
               locks := c.locks ++ locksOf true c.nextMat spans, nextMat := c.nextMat + 1 }

/-- A scratchpad span of the issuing core. -/
def ownSpan (write : Bool) (address len : Nat) : Span := ⟨write, true, anyMember address, len⟩

/-- A matrix instruction: its operand checks, its operation faults, its spans, a further reason not to issue, and its
effect. -/
def matOp (m : Bool) (now : State) (us cs : List Nat) (illegal : Site → Rules)
    (fault : Site → Team → Option Cause) (spans : Site → List Span) (hold : Site → Team → Bool)
    (effect : Site → BitVec 32 → Team → State → State) : Op :=
  { m := m, kind := .plain, check := fun x _ l => matCheck now us cs illegal x l,
    fault := fun x _ _ => (now.team? x.g.team).bind fun t => fault x t,
    hold := fun x _ =>
      (now.team? x.g.team).any fun t => now.lockFull (t.core.getD 0) (spans x) || hold x t,
    effect := fun x good s =>
      match now.team? x.g.team with
      | none => s
      | some t => effect x good t s }

/-- The words of a block of `n` uniform registers. -/
def Group.block (g : Group) (a n : Nat) : List Word := (regsFrom a n).map g.u

/-! ## TDSET (R240, R248) -/

/-- The fields of a descriptor's words. -/
def TileDesc.tag (td : TileDesc) : Nat := bitsOf td.word2.toNat 0 5
def TileDesc.spk (td : TileDesc) : Nat := bitsOf td.word2.toNat 5 2
def TileDesc.qsel (td : TileDesc) : Nat := bitsOf td.word2.toNat 7 2
def TileDesc.stride (td : TileDesc) : Nat := td.rstride.toNat
def TileDesc.rowBytes (td : TileDesc) : Nat := Machine.rowBytes td.tag td.spk

/-- The descriptor of four words. -/
def descriptorOf (ws : List Word) : TileDesc :=
  { abase := (ws[0]?).getD 0, rstride := (ws[1]?).getD 0, word2 := (ws[2]?).getD 0, banda := (ws[3]?).getD 0,
    valid := true, pseq := 0, cseq := 0 }

/-- R248 step 1: what makes a descriptor's words illegal, with the words that each condition is read from. -/
def descriptorRules (td : TileDesc) : Rules :=
  [([1], bitsOf td.rstride.toNat 21 11 != 0), ([2], bitsOf td.word2.toNat 9 23 != 0),
    ([3], bitsOf td.banda.toNat 16 16 != 0), ([2], badShape td.tag td.spk), ([1], td.stride % 64 != 0),
    ([1, 2], td.stride < td.rowBytes)]

/-- R248 step 1 refuses the words. -/
def descriptorBad (td : TileDesc) : Bool := (descriptorRules td).any (·.2)

/-- The bytes of the A span (R245). -/
def TileDesc.span (td : TileDesc) : Nat := 63 * td.stride + td.rowBytes

/-- A packet of a group and descriptor that no issued MMA has claimed. -/
def Packet.openFor (p : Packet) (group td : Nat) : Bool := p.group == group && p.td == td && !p.claimed

/-- TDSET (R248). -/
def execTdset (m : Bool) (d a : BitVec 7) (s : State) : Result :=
  let td (x : Site) : TileDesc := descriptorOf (x.g.block a.toNat 4)
  (matOp m s (regsFrom a.toNat 4) [] (fun x => blockRules a.toNat (descriptorRules (td x)))
    (fun x t => addressThenError x.img t [((td x).abase.toNat, 64, (td x).span)]) (fun _ => []) (fun _ _ => false)
    fun x _ t s' =>
      (s'.modCore (t.core.getD 0) fun c =>
        { c with packets := c.packets.filter fun p => !p.openFor x.g.uid d.toNat }).modGroup x.g.uid
        fun g => { g with tdescs := tput g.tdescs d.toNat (td x) }).issue s

/-! ## SCPUSH (R249) -/

/-- The bytes in a queue's packets. -/
def Core.queueBytes (c : Core) (q : Nat) (p : Packet → Bool) : Nat :=
  ((c.packets.filter fun k => k.queue == q && p k).map (·.len)).sum

/-- SCPUSH (R249). -/
def execScpush (m : Bool) (d a b : BitVec 7) (s : State) : Result :=
  let td (x : Site) : TileDesc := x.g.td d.toNat
  let size (x : Site) : Nat := (x.g.u b.toNat).toNat
  let address (x : Site) : Nat := (x.g.u a.toNat).toNat
  (matOp m s [a.toNat, b.toNat] []
    (fun x => [([], !(td x).valid), ([b.toNat], size x % 64 != 0 || size x < 64 || 4096 < size x)])
    (fun x t =>
      match addressThenError x.img t [(address x, 64, size x)] with
      | some c => some c
      | none =>
        if 8192 < (s.core (t.core.getD 0)).queueBytes (td x).qsel (fun p => !p.claimed) + size x
        then some (Cause.desync 3) else none)
    (fun x => [ownSpan false (address x) (size x)])
    (fun x t => 8192 < (s.core (t.core.getD 0)).queueBytes (td x).qsel (fun _ => true) + size x)
    fun x good t s' =>
      let id := (s'.core (t.core.getD 0)).nextMat
      let packet : Packet :=
        { id := id, queue := (td x).qsel, team := t.uid, group := x.g.uid, td := d.toNat, seq := (td x).pseq, len := size x,
          claimed := false, bytes := [], damaged := false }
      let s1 := s'.queueMat x good (.scpush id (address x)) [ownSpan false (address x) (size x)]
      (s1.modCore (t.core.getD 0) fun c => { c with packets := c.packets ++ [packet] }).modGroup x.g.uid
        fun g => { g with tdescs := tput g.tdescs d.toNat { td x with pseq := (td x).pseq + 1 } }).issue s

/-! ## MMA (R250) -/

/-- What claiming scale packets meets. -/
inductive Claim where
  | ok (claim : List Nat) (seq : BitVec 16)
  | short
  | wrong
  | surplus

/-- The loop of MmaIssue over the unclaimed packets of the queue. -/
def claimFrom (group td need : Nat) : List Packet → Nat → BitVec 16 → List Nat → Claim
  | ps, got, seq, claim =>
    if need < got then .surplus
    else if got = need then .ok claim.reverse seq
    else
      match ps with
      | [] => .short
      | p :: rest =>
        if p.group != group || p.td != td || p.seq != seq then .wrong
        else claimFrom group td need rest (got + p.len) (seq + 1) (p.id :: claim)

/-- The claim of an MMA through a descriptor. -/
def Core.claim (c : Core) (group d : Nat) (td : TileDesc) : Claim :=
  claimFrom group d (scaleBytes td.tag td.spk) (c.packets.filter fun p => p.queue == td.qsel && !p.claimed) 0 td.cseq []

/-- The operation faults of an MMA, in the order written (R250, R259). -/
def mmaFault (c : Core) (t : Team) (group d : Nat) (td : TileDesc) (n : Nat) : Option Cause :=
  let w := c.slot n
  if t.matrixError.isSome then errorFault t
  else if !c.heads t.uid n || w.state == .empty || w.state == .error then some (Cause.weightSlot n)
  else if w.tag.toNat != td.tag || w.spk.toNat != td.spk then some Cause.formatTag
  else
    match c.claim group d td with
    | .ok _ _ => none
    | .wrong => some (Cause.desync 0)
    | .short => some (Cause.desync 1)
    | .surplus => some (Cause.desync 2)

/-- MMA (R250). -/
def execMma (m : Bool) (d a b : BitVec 7) (s : State) : Result :=
  let td (x : Site) : TileDesc := x.g.td a.toNat
  let n (x : Site) : Nat := (x.g.u b.toNat).toNat
  let core (t : Team) : Core := s.core (t.core.getD 0)
  let spans (x : Site) : List Span := [ownSpan false (td x).abase.toNat (td x).span]
  (matOp m s [b.toNat] [d.toNat] (fun x => [([], !(td x).valid), ([b.toNat], 511 < n x)])
    (fun x t => mmaFault (core t) t x.g.uid a.toNat (td x) (n x)) spans (fun _ _ => false)
    fun x good t s' =>
      match (core t).claim x.g.uid a.toNat (td x) with
      | .ok claim seq =>
        let kind : MatKind := .mma (t.accwin + d.toNat) (td x) (n x) ((core t).slot (n x)).bandb claim
        ((s'.queueMat x good kind (spans x)).modCore (t.core.getD 0) fun c =>
          { c with packets := c.packets.map fun p => if claim.contains p.id then { p with claimed := true } else p }).modGroup
          x.g.uid fun g => { g with tdescs := tput g.tdescs a.toNat { td x with cseq := seq } }
      | _ => s').issue s

/-! ## BLOAD (R252) -/

/-- The fields of word 2 of the block. -/
def loadTag (ws : List Word) : Nat := bitsOf (wd ws 2) 0 5
def loadSpk (ws : List Word) : Nat := bitsOf (wd ws 2) 5 2
def loadFree (ws : List Word) : Bool := bitsOf (wd ws 2) 7 1 == 1

/-- R252 step 1, for the block of a load: each condition with the words that it is read from. -/
def loadRules (ws : List Word) : Rules :=
  [([2], bitsOf (wd ws 2) 8 8 != 0), ([2], badShape (loadTag ws) (loadSpk ws)),
    ([1, 2], !isScaled (loadTag ws) && wd ws 1 != 0), ([2, 3], loadSpk ws == 0 && wd ws 3 != 0)]

/-- R252 step 1 refuses the block of a load. -/
def loadBad (ws : List Word) : Bool := (loadRules ws).any (·.2)

/-- R252 step 1, for the block of a free: each condition with the words that it is read from, the FREE bit's among
them. -/
def loadFreeRules (ws : List Word) : Rules :=
  [([0, 2], wd ws 0 != 0), ([1, 2], wd ws 1 != 0), ([2], wd ws 2 != 2 ^ 7), ([2, 3], wd ws 3 != 0)]

/-- R252 step 1 refuses the block of a free. -/
def loadFreeBad (ws : List Word) : Bool := (loadFreeRules ws).any (·.2)

/-- The scratchpad a load reads: address, alignment, length. -/
def loadReads (ws : List Word) : List (Nat × Nat × Nat) :=
  [(wd ws 0, 64, 4096)] ++
    (if isScaled (loadTag ws) then [(wd ws 1, 64, scaleBytes (loadTag ws) (loadSpk ws))] else []) ++
    (if loadSpk ws = 0 then [] else [(wd ws 3, 64, 8192)])

/-- The span becomes LOADING and the team's (R252). -/
def Core.acquireSpan (c : Core) (team n : Nat) (ws : List Word) : Core :=
  let ns := spanSlots n (loadSpk ws)
  let c := (c.overlapping team ns).foldl (fun c head => c.releaseSpan team head) c
  let w : WSlot :=
    { state := .loading, owner := team, head := n, tag := BitVec.ofNat 5 (loadTag ws),
      spk := BitVec.ofNat 2 (loadSpk ws), bandb := BitVec.ofNat 16 (bitsOf (wd ws 2) 16 16) }
  { c with slots := ns.foldl (fun t k => tput t k w) c.slots }

/-- BLOAD, to load. The weight-slot fault on a slot of its span that another team holds gives the span's head in TADDR
(DESIGN CHOICE, log 100). -/
def loadOp (m : Bool) (a b : BitVec 7) (s : State) : Op :=
  let ws (x : Site) : List Word := x.g.block b.toNat 4
  let n (x : Site) : Nat := (x.g.u a.toNat).toNat
  let spans (x : Site) : List Span := (loadReads (ws x)).map fun (p, _, len) => ownSpan false p len
  matOp m s (a.toNat :: regsFrom b.toNat 4) []
    (fun x => blockRules b.toNat (loadRules (ws x)) ++
      [([a.toNat], decide (511 < n x)), ([a.toNat, b.toNat + 2], loadSpk (ws x) != 0 && n x % 4 != 0)])
    (fun x t =>
      match addressThenError x.img t (loadReads (ws x)) with
      | some c => some c
      | none =>
        if (spanSlots (n x) (loadSpk (ws x))).any fun k =>
          ((s.core (t.core.getD 0)).slot k).owner != 0 && ((s.core (t.core.getD 0)).slot k).owner != t.uid
        then some (Cause.weightSlot (n x)) else none)
    spans (fun _ _ => false)
    fun x good t s' =>
      let kind : MatKind := .bload (n x) (loadTag (ws x)) (loadSpk (ws x)) (wd (ws x) 0) (wd (ws x) 1) (wd (ws x) 3)
      (s'.queueMat x good kind (spans x)).modCore (t.core.getD 0) fun c => c.acquireSpan t.uid (n x) (ws x)

/-- BLOAD, to free. -/
def unloadOp (m : Bool) (a b : BitVec 7) (s : State) : Op :=
  let ws (x : Site) : List Word := x.g.block b.toNat 4
  let n (x : Site) : Nat := (x.g.u a.toNat).toNat
  matOp m s (a.toNat :: regsFrom b.toNat 4) []
    (fun x => blockRules b.toNat (loadFreeRules (ws x)) ++ [([a.toNat], decide (511 < n x))])
    (fun x t =>
      if t.matrixError.isSome then errorFault t
      else if (s.core (t.core.getD 0)).heads t.uid (n x) then none else some (Cause.weightSlot (n x)))
    (fun _ => []) (fun _ _ => false)
    fun x good _ s' => s'.queueMat x good (.bfree (n x)) []

/-- BLOAD (R252), as its FREE bit says. -/
def execBload (m : Bool) (a b : BitVec 7) (s : State) : Result :=
  if s.curBit (b.toNat + 2) 7 then (unloadOp m a b s).issue s else (loadOp m a b s).issue s

/-- BLOAD with FREE = 1 (R252). -/
def execBloadFree (m : Bool) (a b : BitVec 7) (s : State) : Result :=
  if s.curBit (b.toNat + 2) 7 then (unloadOp m a b s).issue s else (loadOp m a b s).issue s

/-! ## BSTAT (R253) -/

/-- The STATE code of a slot. -/
def SlotState.code : SlotState → Nat
  | .empty => 0
  | .loading => 1
  | .ready => 2
  | .error => 3

/-- The slot status word. -/
def Core.slotStatus (c : Core) (team n : Nat) : Nat :=
  let w := c.slot n
  2 ^ 30 * w.state.code + 2 ^ 29 * (w.owner == team).toNat + 2 ^ 27 * w.spk.toNat + 2 ^ 22 * w.tag.toNat +
    2 ^ 21 * (w.owner != 0 && w.head != n).toNat + w.bandb.toNat

/-- The slots whose status a queued operation may still change. -/
def MatKind.touches : MatKind → List Nat
  | .bload head _ spk _ _ _ => spanSlots head spk
  | .bfree head => spanSlots head 1
  | .mma _ td slot _ _ => spanSlots slot td.spk
  | _ => []

/-- BSTAT with k = 0 (R253). -/
def execBstatSlot (m : Bool) (d a : BitVec 7) (s : State) : Result :=
  let n (x : Site) : Nat := (x.g.u a.toNat).toNat
  (matOp m s [d.toNat, a.toNat] [] (fun x => [([a.toNat], 511 < n x)]) (fun _ t => errorFault t) (fun _ => [])
    (fun x t => (s.core (t.core.getD 0)).matrix.any fun o => o.kind.touches.contains (n x))
    fun x _ t s' => s'.modGroup x.g.uid fun g =>
      g.setU d.toNat (BitVec.ofNat 32 ((s.core (t.core.getD 0)).slotStatus t.uid (n x)))).issue s

/-- BSTAT with k = 1 (R253). -/
def execBstatQueue (m : Bool) (d a : BitVec 7) (s : State) : Result :=
  let q (x : Site) : Nat := (x.g.u a.toNat).toNat
  (matOp m s [d.toNat, a.toNat] [] (fun x => [([a.toNat], 3 < q x)]) (fun _ t => errorFault t) (fun _ => []) (fun _ _ => false)
    fun x _ t s' =>
      let c := s.core (t.core.getD 0)
      let w := c.queueBytes (q x) (fun _ => true) + 2 ^ 16 * c.queueBytes (q x) (fun p => !p.claimed)
      s'.modGroup x.g.uid fun g => g.setU d.toNat (BitVec.ofNat 32 w)).issue s

/-- BSTAT with k = 2 (R253): the matrix error word, read and cleared, once no earlier operation of the team can set it
(R242). -/
def execBstatError (m : Bool) (d : BitVec 7) (s : State) : Result :=
  (matOp m s [d.toNat] [] (fun _ => []) (fun _ _ => none) (fun _ => [])
    (fun _ t => (s.core (t.core.getD 0)).matrix.any (·.team == t.uid))
    fun x _ t s' =>
      let w := match t.matrixError with
        | none => 0
        | some n => 2 ^ 31 + n % 2 ^ 9
      (s'.modTeam t.uid fun t => { t with matrixError := none }).modGroup x.g.uid fun g =>
        g.setU d.toNat (BitVec.ofNat 32 w)).issue s

/-- BSTAT with k = 3 (R253): issued once the group's matrix operations have completed. -/
def execBstatDrain (m : Bool) (d : BitVec 7) (s : State) : Result :=
  (matOp m s [d.toNat] [] (fun _ => []) (fun _ _ => none) (fun _ => [])
    (fun x t => (s.core (t.core.getD 0)).matrix.any (·.group == x.g.uid))
    fun x _ _ s' => s'.modGroup x.g.uid fun g => g.setU d.toNat 0).issue s

/-! ## Accumulator operations at issue (R254 to R257) -/

/-- An ACC operation that takes no address. -/
def accOp (m : Bool) (now : State) (cs : List Nat) (kind : Team → MatKind) : Op :=
  matOp m now [] cs (fun _ => []) (fun _ t => errorFault t) (fun _ => []) (fun _ _ => false)
    fun x good t s => s.queueMat x good (kind t) []

/-- ACZERO (R255). -/
def execAczero (m : Bool) (d : BitVec 7) (s : State) : Result :=
  (accOp m s [d.toNat] fun t => .aczero (t.accwin + d.toNat)).issue s

/-- ACLD (R255). -/
def execAcld (m : Bool) (d a b : BitVec 7) (s : State) : Result :=
  let address (x : Site) : Nat := (x.g.u a.toNat).toNat
  let stride (x : Site) : Nat := (x.g.u b.toNat).toNat
  let spans (x : Site) : List Span := [ownSpan false (address x) (63 * stride x + 256)]
  (matOp m s [a.toNat, b.toNat] [d.toNat]
    (fun x => [([b.toNat], stride x % 16 != 0 || stride x < 256 || 2 ^ 21 - 16 < stride x)])
    (fun x t => addressThenError x.img t [(address x, 16, 63 * stride x + 256)]) spans (fun _ _ => false)
    fun x good t s' => s'.queueMat x good (.acld (t.accwin + d.toNat) (address x) (stride x)) (spans x)).issue s

/-- The fields of an ACST block (R256). -/
def storeFMT (ws : List Word) : Nat := bitsOf (wd ws 2) 0 3
def storeOVW (ws : List Word) : Bool := bitsOf (wd ws 2) 7 1 == 1
def storeSAT (ws : List Word) : Bool := bitsOf (wd ws 2) 6 1 == 1
def storeRND (ws : List Word) : RMode := BitVec.ofNat 2 (bitsOf (wd ws 2) 4 2)

/-- Bytes of a stored row. -/
def storeRowBytes (ws : List Word) : Nat := 64 * storeElemBytes (storeFMT ws)

/-- The reserved values of an ACST block and a short or unaligned RSTRIDE, each with the words that it is read from. -/
def storeRules (ws : List Word) : Rules :=
  [([1], bitsOf (wd ws 1) 21 11 != 0), ([2], bitsOf (wd ws 2) 8 24 != 0), ([2], bitsOf (wd ws 2) 3 1 != 0),
    ([2], 4 < storeFMT ws), ([1], wd ws 1 % 16 != 0), ([1, 2], wd ws 1 < storeRowBytes ws)]

/-- An ACST refuses the block (R256). -/
def storeBad (ws : List Word) : Bool := (storeRules ws).any (·.2)

/-- Bytes of the stored span. -/
def storeSpan (ws : List Word) : Nat :=
  if storeOVW ws then 64 * wd ws 1 + 16 else 63 * wd ws 1 + storeRowBytes ws

/-- ACST (R256). -/
def execAcst (m : Bool) (d a : BitVec 7) (s : State) : Result :=
  let ws (x : Site) : List Word := x.g.block a.toNat 4
  let spans (x : Site) : List Span := [ownSpan true (wd (ws x) 0) (storeSpan (ws x))]
  (matOp m s (regsFrom a.toNat 4) [d.toNat] (fun x => blockRules a.toNat (storeRules (ws x)))
    (fun x t => addressThenError x.img t
      ((wd (ws x) 0, 16, storeSpan (ws x)) :: (if wd (ws x) 3 = 0 then [] else [(wd (ws x) 3, 8, 8)])))
    spans (fun _ _ => false)
    fun x good t s' => s'.queueMat x good (.acst (t.accwin + d.toNat) (ws x)) (spans x)).issue s

/-- ACADD (R255). -/
def execAcadd (m : Bool) (d a b : BitVec 7) (s : State) : Result :=
  (accOp m s [d.toNat, a.toNat, b.toNat] fun t =>
    .acadd (t.accwin + d.toNat) (t.accwin + a.toNat) (t.accwin + b.toNat)).issue s

/-- ACMUL (R255). -/
def execAcmul (m : Bool) (d a b : BitVec 7) (s : State) : Result :=
  let address (x : Site) : Nat := (x.g.u b.toNat).toNat
  let spans (x : Site) : List Span := [ownSpan false (address x) 256]
  (matOp m s [b.toNat] [d.toNat, a.toNat] (fun _ => [])
    (fun x t => addressThenError x.img t [(address x, 16, 256)]) spans (fun _ _ => false)
    fun x good t s' =>
      s'.queueMat x good (.acmul (t.accwin + d.toNat) (t.accwin + a.toNat) (address x)) (spans x)).issue s

/-- The tile whose elements or counter an operation writes. -/
def MatKind.writes : MatKind → Option Nat
  | .mma tile _ _ _ _ => some tile
  | .aczero tile => some tile
  | .acld tile _ _ => some tile
  | .acst tile _ => some tile
  | .acadd tile _ _ => some tile
  | .acmul tile _ _ => some tile
  | .acmov tile _ => some tile
  | .acovf tile => some tile
  | _ => none

/-- ACOVF (R257): issued once the earlier operations that write the tile have completed, so that its value is known; the
counter is cleared in queue order, after earlier operations that copy it (R242). -/
def execAcovf (m : Bool) (d a : BitVec 7) (s : State) : Result :=
  (matOp m s [d.toNat] [a.toNat] (fun _ => []) (fun _ t => errorFault t) (fun _ => [])
    (fun _ t => (s.core (t.core.getD 0)).matrix.any fun o =>
      o.team == t.uid && o.kind.writes == some (t.accwin + a.toNat))
    fun x good t s' =>
      (s'.queueMat x good (.acovf (t.accwin + a.toNat)) []).modGroup x.g.uid fun g =>
        g.setU d.toNat (BitVec.ofNat 32 (t.counter (t.accwin + a.toNat)))).issue s

/-- ACMOV (R255). -/
def execAcmov (m : Bool) (d a : BitVec 7) (s : State) : Result :=
  (accOp m s [d.toNat, a.toNat] fun t => .acmov (t.accwin + d.toNat) (t.accwin + a.toNat)).issue s

/-! ## Turns (R242, R251, R252, R256) -/

/-- Maps the rows of a mask of a tile: the new elements and the count of overflows, from the row number and the old
elements. -/
def Team.mapRows (t : Team) (tile : Nat) (mask : BitVec 32) (f : Nat → List Nat → List Word × Nat) : Team :=
  (ownedRows mask).foldl
    (fun t i =>
      let (ws, n) := f i (t.accRow tile i)
      (t.setAccRow tile i ws).countOverflow tile n) t

/-- The bytes of an A row (R245). -/
def Team.aRow (t : Team) (td : TileDesc) (i : Nat) : List Byte :=
  t.bytes (td.abase.toNat % 2 ^ 21 + i * td.stride) td.rowBytes

/-- A step's effect on its tile (R251). A slot that a free has emptied since the issue still gives the contents it had
(DESIGN CHOICE, log 98). -/
def Team.mma (t : Team) (c : Core) (tile : Nat) (td : TileDesc) (slot : Nat) (bandb : BitVec 16) (claim : List Nat)
    (mask : BitVec 32) : Team :=
  let cols := (tget WData.empty c.contents slot).columns td.tag td.spk
  let scales := (claim.filterMap fun id => (c.packets.find? (·.id == id)).map (·.bytes)).flatten
  let n := tileK td.tag td.spk / 8
  let ba := fBF16.value (bitsOf td.banda.toNat 0 16)
  let bb := fBF16.value bandb.toNat
  t.mapRows tile mask fun i old =>
    stepRow td.tag td.spk ba bb (elements td.tag (t.aRow td i))
      (((scales.drop (n * i)).take n).map fun b => fE3M5.value b.toNat) cols old

/-- An element-wise operation on two values and its overflow from finite operands (R255). -/
def accArith (f : Nat → Nat → Nat × FpFlags) (x y : Nat) : Word × Nat :=
  let finite (v : Nat) : Bool := !fF32.isNan v && !fF32.isInf v
  let r := (f x y).1
  (BitVec.ofNat 32 r, if fF32.isInf r && finite x && finite y then 1 else 0)

/-- A row of such operations. -/
def accRowArith (f : Nat → Nat → Nat × FpFlags) (xs ys : List Nat) : List Word × Nat :=
  let rs := (xs.zip ys).map fun (x, y) => accArith f x y
  (rs.map fun (w, _) => w, (rs.map fun (_, n) => n).sum)

/-- The offset of an address of the issuing core. -/
def offsetOf (address : Nat) : Nat := address % 2 ^ 21

/-- ACST at its turn (R256). -/
def Team.acst (t : Team) (tile : Nat) (ws : List Word) (mask : BitVec 32) : Team :=
  let base := offsetOf (wd ws 0)
  let rows := ownedRows mask
  let (t1, clamped) := rows.foldl
    (fun (t, n) i =>
      let (bs, k) := storeRow (storeFMT ws) (storeRND ws) (storeSAT ws) (t.accRow tile i)
      (t.write (base + i * wd ws 1) bs, n + k)) (t, 0)
  let t2 := t1.countOverflow tile clamped
  let t3 :=
    if storeOVW ws then
      t2.write (base + 64 * wd ws 1) (natLe 4 (t2.counter tile) ++ natLe 4 clamped ++ natLe 4 tile ++ natLe 4 0)
    else t2
  if wd ws 3 = 0 then t3
  else t3.countBytes (offsetOf (wd ws 3)) (rows.length * storeRowBytes ws + if storeOVW ws then 16 else 0) false

/-- The effect of an operation on its team's tiles and scratchpad. -/
def Team.perform (t : Team) (c : Core) (o : MatOp) : Team :=
  let full : Bool := o.lanes == BitVec.allOnes 32
  match o.kind with
  | .bload _ _ _ _ _ _ | .bfree _ | .scpush _ _ => t
  | .mma tile td slot bandb claim => t.mma c tile td slot bandb claim o.lanes
  | .aczero tile =>
    let t := t.mapRows tile o.lanes fun _ old => (old.map fun _ => 0, 0)
    if full then t.setCounter tile 0 else t
  | .acld tile address stride =>
    t.mapRows tile o.lanes fun i _ => (wordsOf (t.bytes (offsetOf address + i * stride) 256), 0)
  | .acst tile ws => t.acst tile ws o.lanes
  | .acadd tile a b => t.mapRows tile o.lanes fun i _ => accRowArith (fF32.add rne) (t.accRow a i) (t.accRow b i)
  | .acmul tile a address =>
    t.mapRows tile o.lanes fun i _ =>
      accRowArith (fF32.mul rne) (t.accRow a i)
        (List.replicate 64 (t.word (offsetOf address + 4 * i)).toNat)
  | .acmov tile a =>
    let t1 := t.mapRows tile o.lanes fun i _ => ((t.accRow a i).map (BitVec.ofNat 32), 0)
    if full then t1.setCounter tile (t.counter a) else t1
  | .acovf tile => t.setCounter tile 0

/-- The effect of an operation on its core's slots and queues, given its team before it. -/
def Core.perform (c : Core) (t : Team) (o : MatOp) : Core :=
  let later (head : Nat) : Bool := c.matrix.any fun q =>
    q.id != o.id && (match q.kind with | .bload h _ _ _ _ _ => h == head | _ => false)
  match o.kind with
  | .bload head tag spk baddr sbaddr iaddr =>
    let w : WData :=
      { data := t.bytes (offsetOf baddr) 4096, scales := t.bytes (offsetOf sbaddr) (scaleBytes tag spk),
        indices := if spk = 0 then [] else t.bytes (offsetOf iaddr) 8192 }
    { c with contents := tput c.contents head w,
             parity := c.parity.filter fun n => !(spanSlots head spk).contains n,
             slots := c.slots.map fun (n, k) =>
               if k.head = head ∧ k.owner = o.team ∧ later head = false then (n, { k with state := .ready })
               else (n, k) }
  | .bfree head => if later head then c else c.releaseSpan o.team head
  | .scpush id address =>
    { c with packets := c.packets.map fun p =>
        if p.id = id then { p with bytes := t.bytes (offsetOf address) p.len } else p }
  | .mma _ _ _ _ claim => { c with packets := c.packets.filter fun p => !claim.contains p.id }
  | _ => c

/-! ## Errors (R262, R299) -/

/-- The slot in which a step meets a parity error. -/
def Core.parityMet (c : Core) (o : MatOp) : Option Nat :=
  match o.kind with
  | .mma _ td slot _ _ => (spanSlots slot td.spk).find? c.parity.contains
  | _ => none

/-- The scratchpad bytes an operation reads at its turn: offset and length. -/
def MatOp.reads (o : MatOp) (c : Core) : List (Nat × Nat) :=
  match o.kind with
  | .bload _ tag spk baddr sbaddr iaddr =>
    [(offsetOf baddr, 4096), (offsetOf sbaddr, scaleBytes tag spk)] ++
      (if spk = 0 then [] else [(offsetOf iaddr, 8192)])
  | .scpush id address => (c.packets.filter (·.id == id)).map fun p => (offsetOf address, p.len)
  | .mma _ td _ _ _ => (ownedRows o.lanes).map fun i => (offsetOf td.abase.toNat + i * td.stride, td.rowBytes)
  | .acld _ address stride => (ownedRows o.lanes).map fun i => (offsetOf address + i * stride, 256)
  | .acmul _ _ address => (ownedRows o.lanes).map fun i => (offsetOf address + 4 * i, 4)
  | _ => []

/-- The tiles whose elements an operation reads. -/
def MatKind.readsTiles : MatKind → List Nat
  | .mma tile _ _ _ _ => [tile]
  | .acst tile _ => [tile]
  | .acadd _ a b => [a, b]
  | .acmul _ a _ => [a]
  | .acmov _ a => [a]
  | _ => []

/-- The operation meets damaged bytes in scratchpad, in a tile or in a scale packet (R298, R299). -/
def MatOp.damaged (o : MatOp) (c : Core) (t : Team) : Bool :=
  ((o.reads c).any fun (a, n) => 0 < n && (scratchDamaged t a n).isSome) ||
    (o.kind.readsTiles.any fun k => t.accDamaged k (ownedRows o.lanes)) ||
    (match o.kind with
     | .mma _ _ _ _ claim => c.packets.any fun p => p.damaged && claim.contains p.id
     | _ => false)

/-- An operation leaves the queue and its locks are released. -/
def Core.endMat (c : Core) (id : Nat) : Core :=
  { c with matrix := c.matrix.filter (·.id != id), locks := c.locks.filter fun k => !k.matrix || k.owner != id }

/-- R262: this operation and the team's later ones are not performed, each ACST among them sets ERR of its barrier word,
and the team's matrix error word names the slot. What they held of packets and slots stays as it stands (DESIGN CHOICE,
log 99). -/
def State.failMat (s : State) (core : Nat) (o : MatOp) (slot : Nat) : State :=
  let dead := (s.core core).matrix.filter fun q => q.team == o.team
  let s1 := s.modCore core fun c => dead.foldl (fun c q => c.endMat q.id) c
  s1.modTeam o.team fun t =>
    let t := { t with matrixError := some slot }
    dead.foldl
      (fun t q =>
        match q.kind with
        | .acst _ ws => if wd ws 3 = 0 then t else t.countBytes (offsetOf (wd ws 3)) 0 true
        | _ => t) t

/-- The slot in which a team's step met a parity error becomes ERROR, with its span (R241, R262). A slot that is EMPTY by
then becomes ERROR alone; one that another team has loaded since is left to it. -/
def Core.slotError (c : Core) (team n : Nat) : Core :=
  let hit (k : Nat) (w : WSlot) : Bool :=
    if (c.slot n).owner = team then w.owner == team && w.head == (c.slot n).head
    else (c.slot n).owner == 0 && k == n
  { c with slots := c.slots.map fun (k, w) => if hit k w then (k, { w with state := .error }) else (k, w),
           parity := c.parity.filter (· != n) }

/-- A matrix operation whose turn has come. -/
def State.matTurn (s : State) (core : Nat) (p : MatKind → Bool) : Option MatOp :=
  match (s.core core).matrix with
  | o :: _ => if o.due ≤ s.clock.tick && p o.kind then some o else none
  | [] => none

/-- Performs an operation at its turn. Where damage outside a slot stops it, the slot number that R262 puts into the
error word is a free value (DESIGN CHOICE, log 42). -/
def State.performMat (s : State) (core : Nat) (o : MatOp) : State :=
  match s.team? o.team with
  | none => s.modCore core fun c => c.endMat o.id
  | some t =>
    let c := s.core core
    match c.parityMet o with
    | some n =>
      ((s.modCore core fun c => c.slotError o.team n).failMat core o n).dropTeam o.team
    | none =>
      if o.damaged c t then
        let (n, s1) := s.newFresh
        (s1.failMat core o ((Config.freeDWord n).toNat % 512)).dropTeam o.team
      else
        ((s.modTeam o.team fun t => t.perform c o).modCore core fun c => (c.perform t o).endMat o.id).dropTeam o.team

/-- BLOAD_TURN (R252). -/
def execBloadTurn (core : Nat) (s : State) : Result :=
  match s.matTurn core fun k => match k with | .bload _ _ _ _ _ _ => true | _ => false with
  | some o => .next (s.performMat core o)
  | none => .next s

/-- MMA_STEP (R251). -/
def execMmaStep (core : Nat) (s : State) : Result :=
  match s.matTurn core fun k => match k with | .mma _ _ _ _ _ => true | _ => false with
  | some o => .next (s.performMat core o)
  | none => .next s

/-- ACST_TURN (R256). -/
def execAcstTurn (core : Nat) (s : State) : Result :=
  match s.matTurn core fun k => match k with | .acst _ _ => true | _ => false with
  | some o => .next (s.performMat core o)
  | none => .next s

/-- MATRIX_QUEUE_TURN (R242): any other operation. -/
def execMatrixQueueTurn (core : Nat) (s : State) : Result :=
  match s.matTurn core fun k =>
    match k with | .bload _ _ _ _ _ _ | .mma _ _ _ _ _ | .acst _ _ => false | _ => true with
  | some o => .next (s.performMat core o)
  | none => .next s

end Sys2Proof.Machine
end

