-- ==== Sys2Proof/Machine/Placement.lean ====
section
/-!
DEFINITION. Candidates and their order (R311, R312), room and placement (R313 to R315), the start of groups (R41, R62,
R310), and the pre-emption that makes room (R321, R325).
-/

namespace Sys2Proof.Machine

/-! ## Starting groups (R24, R41, R62, R310) -/

/-- A lane at its group's start (DESIGN CHOICE, log 4). -/
def Lane.start (pc : Addr) : Lane :=
  { lpc := pc, state := .run, handler := false, atSafe := false, service := none, redo := none, stood := none, leaving := false, window := 0,
    vregs := [], preds := 0, fpflags := 0, lwct := 0, tcause := 0, tpc := 0, taddr := 0, pend := [] }

/-- A group at its start (R24, R41): 32 lanes in RUN at one address. -/
def Group.start (uid : Nat) (t : Team) (index : Nat) (pc : Addr) (slot place stackSlot stackLimit : Nat) :
    Group :=
  { uid := uid, team := t.uid, grid := t.grid, index := index, slot := some slot, place := some place, sched := .resident,
    halted := none,
    lanes := List.replicate 32 (Lane.start pc), uregs := [], jmasks := List.replicate 8 ⟨0, 0⟩, tdescs := [],
    fpmode := 0, pprom := true, fairtime := 256, leaseovr := 0, spcount := 0, atbank := 0, upend := [], fairness := 0,
    rotation := none, segEnd := false, blocked := false, noRoom := false, lastIssue := 0, lastAddr := 0,
    standing := none, stubs := [], task := none, stackSlot := stackSlot, stackLimit := stackLimit, spec := none, service := none,
    push := none, held := none }

/-- The uniform registers a task's group starts with (R62). -/
def Task.uregs (t : Task) : List (Nat × Word) :=
  mapFrom (fun i w => (i, w)) 0 ((t.args.take 8) ++
    [t.argp.lo, t.argp.hi, t.tile.lo, t.tile.hi, BitVec.ofNat 32 t.succ, BitVec.ofNat 32 (t.succ / 2 ^ 32)])

/-- A task's group (R62); a record that starts on a cutting is marked so (R374, R375). -/
def Group.startTask (g : Group) (t : Task) (cutting : Bool) : Group :=
  let spec : Option Spec :=
    if cutting then
      some { level := 0, slot := t.cutSlot, want := t.cutWant, producer := none, predicted := false,
             counted := false, lines := [], held := [],
             committing := none, doomed := none }
    else none
  { g with uregs := t.uregs, task := some t, spec := spec }

/-! ## Resources of a core (R45, R313) -/

/-- A group's footprint in register-cache lines (R45). -/
def footprint (va : Nat) : Nat := va + (va + 5) / 6 + 24

/-- What a candidate needs on a core, or what its teams hold there (R313). -/
structure Needs where
  groups : Nat
  lines : Nat
  scratch : Nat
  tiles : Nat
  locks : Nat
  deriving DecidableEq, Repr

def Needs.add (a b : Needs) : Needs :=
  ⟨a.groups + b.groups, a.lines + b.lines, a.scratch + b.scratch, a.tiles + b.tiles, a.locks + b.locks⟩

def Needs.none : Needs := ⟨0, 0, 0, 0, 0⟩

/-- R313: what a core has in all. -/
def Needs.fits (n : Needs) : Bool :=
  n.groups ≤ 64 && n.lines ≤ 6144 && n.scratch ≤ Config.scratchBytes && n.tiles ≤ 256 && n.locks ≤ 64

/-- The needs of `k` groups of an image. -/
def Image.needs (img : Image) (k locks : Nat) : Needs := ⟨k, k * footprint img.va, img.scratch, img.ca, locks⟩

/-- A team is one that a task forms (R62). -/
def State.isTaskTeam (s : State) (t : Team) : Bool :=
  (s.grid? t.grid).any fun g => g.launch.gridX * g.launch.gridY ≤ t.index

/-- The groups of a team that have not retired. -/
def State.teamGroups (s : State) (team : Nat) : List Group := s.groups.filter (·.team == team)

/-- Engine operations of a team on a core. -/
def Core.teamOps (c : Core) (team : Nat) : List EngOp := c.ops.filter (·.team == team)

/-- Range-lock entries of a team on a core: of its engine and matrix operations. -/
def Core.teamLocks (c : Core) (team : Nat) : List Lock :=
  c.locks.filter fun k =>
    if k.matrix then c.matrix.any fun o => o.id == k.owner && o.team == team
    else c.ops.any fun o => o.handle == k.owner && o.team == team

/-- What a team holds on its core; the lines of parked and saving groups are evictable (R313, R317, R324). -/
def State.holds (s : State) (core : Nat) (t : Team) : Needs :=
  match s.grid? t.grid with
  | none => Needs.none
  | some gr =>
    let gs := s.teamGroups t.uid
    let lined := gs.filter fun g => g.sched != .parked && t.sched != .saving
    ⟨gs.length, lined.length * footprint gr.image.va, gr.image.scratch, gr.image.ca,
     ((s.core core).teamLocks t.uid).length⟩

/-- What is in use on a core, the teams of a list not counted. -/
def State.inUse (s : State) (core : Nat) (freed : List Nat) : Needs :=
  ((s.teams.filter fun t => t.core == some core && !freed.contains t.uid).map (s.holds core)).foldl Needs.add
    Needs.none

/-- The lock entries of operations on a core whose teams have left. -/
def State.strayLocks (s : State) (core : Nat) : Nat :=
  let c := s.core core
  c.locks.length - (((s.teams.filter fun t => t.core == some core).map fun t => (c.teamLocks t.uid).length).sum)

/-- A core has room (R313). -/
def State.hasRoom (s : State) (core : Nat) (n : Needs) (freed : List Nat) : Bool :=
  (((s.inUse core freed).add n).add ⟨0, 0, 0, 0, s.strayLocks core⟩).fits

/-- Issue is stopped on a core, by the trip or by the power stop (R331, R396). -/
def State.issueStopped (s : State) (core : Nat) : Bool := (s.core core).stopped || s.fw.powerStop

/-- R314: a core under migration or stopped receives no placement, and a warm core no high-energy group. -/
def State.admits (s : State) (core eclass : Nat) : Bool :=
  let c := s.core core
  c.migrating.isNone && !s.issueStopped core && (eclass != 2 || c.temp ≤ s.fw.placement)

/-- The W × H rectangles within the dies' 4 × 8 meshes, members row by row, by rising id of member 0 (R2, R17, R313). -/
def rectangles (w h : Nat) : List (List Nat) :=
  ((List.range 4).map fun die => ((List.range (5 - h)).map fun row => (List.range (9 - w)).map fun col =>
    (List.range (w * h)).map fun m => die * 32 + (row + m / w) * 8 + (col + m % w)).flatten).flatten

/-- The greatest temperature on a rectangle. -/
def State.heat (s : State) (cores : List Nat) : Nat := (cores.map fun c => (s.core c).temp).foldl max 0

/-- What firmware's placement weights make of a rectangle, the least being taken: its own weight (DESIGN CHOICE, log 74),
then by default the coolest (R314). -/
def State.rank (s : State) (cores : List Nat) : List Nat := [tget 0 s.fw.weights (cores.headD 0), s.heat cores]

/-- The rectangle that firmware's weights choose; the lowest physical id of member 0 on a tie (R314). -/
def State.coolest (s : State) (rs : List (List Nat)) : Option (List Nat) :=
  rs.foldl
    (fun best r => match best with
      | none => some r
      | some b => if keyLt (s.rank r) (s.rank b) then some r else some b) none

/-- The slot with the fewest bound groups, the lowest on a tie (R315). -/
def State.bestSlot (s : State) (core : Nat) : Nat :=
  let bound (k : Nat) : Nat := (s.groups.filter fun g => g.slot == some k && s.coreOf g.team == core).length
  [1, 2, 3].foldl (fun b k => if bound k < bound b then k else b) 0

/-! ## Candidates (R311) -/

/-- A candidate: the first team of an unplaced or saved cluster, or a task record. -/
structure Cand where
  task : Bool
  id : Nat
  base : Nat
  since : Nat
  queue : Nat
  order : Nat
  deriving DecidableEq, Repr

/-- The effective priority. -/
def Cand.eff (c : Cand) (now quantum : Nat) : Nat := min 7 (c.base + (now - c.since) / quantum)

/-- The order of R311. -/
def Cand.before (now quantum : Nat) (a b : Cand) : Bool :=
  keyLt [7 - a.eff now quantum, a.since, a.task.toNat, a.queue, a.order]
    [7 - b.eff now quantum, b.since, b.task.toNat, b.queue, b.order]

/-- The queue of a grid's launch. -/
def State.gridQueue (s : State) (grid : Nat) : Nat := ((s.grid? grid).map (·.launch.queue)).getD 0

/-- The task slots of a grid in use (R310). -/
def State.slotsUsed (s : State) (gr : Grid) : List Nat :=
  let n := gr.launch.gridX * gr.launch.gridY
  (s.teams.filter fun t => t.grid == gr.uid && n ≤ t.index).map fun t => t.index - n

/-- The lowest free task slot (R310; DESIGN CHOICE, log 50). -/
def State.freeTaskSlot (s : State) (gr : Grid) : Option Nat :=
  (List.range gr.launch.stkTasks).find? fun k => !(s.slotsUsed gr).contains k

/-- A pooled record that may be dispatched now (R60, R61, R310, R374). -/
def State.taskReady (s : State) (t : Task) : Bool :=
  !t.gated && t.vis ≤ s.gtime && (s.grid? t.grid).any fun gr => !gr.terminating && (s.freeTaskSlot gr).isSome

/-- A team that waits for placement or for its restore, first of its cluster. -/
def State.teamWaits (s : State) (t : Team) : Bool :=
  (t.sched == .candidate || t.sched == .saved) && t.member == 0 && !(s.grid? t.grid).any (·.terminating)

/-- The candidates in the order of R311. -/
def State.candidates (s : State) : List Cand :=
  let teams := (s.teams.filter s.teamWaits).map fun t =>
    { task := false, id := t.uid, base := t.prio, since := t.since, queue := s.gridQueue t.grid, order := t.index : Cand }
  let tasks := (s.pool.filter s.taskReady).map fun t =>
    { task := true, id := t.uid, base := t.prio, since := t.since, queue := s.gridQueue t.grid, order := t.order : Cand }
  sortBy (Cand.before s.gtime s.fw.quantum) (teams ++ tasks)

/-! ## Where a candidate may go (R313, R314) -/

/-- The teams of a team's cluster, in member order. -/
def State.cluster (s : State) (t : Team) : List Team :=
  sortBy (fun a b => a.member < b.member) (s.teams.filter fun u => u.grid == t.grid && u.cluster == t.cluster)

/-- Lock entries a saved team brings back (R324, R333): those kept with its context and those of its operations still at
work. -/
def State.keptLocks (s : State) (t : Team) : Nat :=
  t.context.locks.length + (s.cores.map fun c => if t.core.isNone then (c.teamLocks t.uid).length else 0).sum

/-- Handles that a saved team brings back (R333). -/
def State.keptHandles (s : State) (t : Team) : List Nat :=
  t.context.ops.map (·.named) ++ (s.cores.map fun c => (c.teamOps t.uid).map (·.named)).flatten

/-- No operation of another team uses one of the handles on the core (DEDUCED, log 51). -/
def State.handlesFree (s : State) (core : Nat) (t : Team) : Bool :=
  let hs := s.keptHandles t
  !(s.core core).ops.any fun o => o.team != t.uid && hs.contains o.handle

/-- What a candidate asks: its rectangle's shape, its energy class, and its needs by member. -/
structure Ask where
  width : Nat
  height : Nat
  eclass : Nat
  needs : List Needs
  teams : List Team

/-- What a candidate asks (R62, R313). -/
def State.ask (s : State) (c : Cand) : Option Ask :=
  if c.task then
    match s.pool.find? (·.uid == c.id) with
    | none => none
    | some t => (s.grid? t.grid).map fun gr => ⟨1, 1, t.eclass, [gr.image.needs 1 0], []⟩
  else
    match s.team? c.id with
    | none => none
    | some t =>
      (s.grid? t.grid).map fun gr =>
        let ts := s.cluster t
        if s.isTaskTeam t then
          let eclass := ((s.teamGroups t.uid).head?.bind (·.task)).map (·.eclass)
          ⟨1, 1, eclass.getD 0, [gr.image.needs 1 (s.keptLocks t)], ts⟩
        else
          let needs (m : Nat) : Needs :=
            gr.image.needs gr.image.teamGroups (((ts.find? (·.member == m)).map s.keptLocks).getD 0)
          ⟨gr.image.width, gr.image.height, gr.launch.eclass,
           (List.range (gr.image.width * gr.image.height)).map needs, ts⟩

/-- A rectangle takes what a candidate asks, the teams of a list counted as gone. -/
def State.takes (s : State) (a : Ask) (freed : List Nat) (cores : List Nat) : Bool :=
  (cores.zip a.needs).all fun (core, n) =>
    s.admits core a.eclass && s.hasRoom core n freed

/-- The rectangles with room (R313, R314). -/
def State.roomsFor (s : State) (a : Ask) (freed : List Nat) : List (List Nat) :=
  (rectangles a.width a.height).filter fun cores =>
    s.takes a freed cores && a.teams.all fun t => s.handlesFree (cores.getD t.member 0) t

/-- Where a candidate goes now. -/
def State.placeFor (s : State) (c : Cand) : Option (List Nat) :=
  match s.ask c with
  | none => none
  | some a => s.coolest (s.roomsFor a [])

/-- The first candidate, in the order of R311, that has room, and where (R312). -/
def State.firstPlaceable (s : State) : Option (Cand × List Nat) :=
  s.candidates.findSome? fun c => (s.placeFor c).map fun cores => (c, cores)

/-! ## Placing (R17, R310, R315, R316) -/

/-- A team comes to a core. -/
def State.seatTeam (s : State) (t : Team) (core : Nat) : State :=
  s.modTeam t.uid fun t =>
    { t with core := some core, sched := .resident, lcid := (s.core core).lcid, admitted := s.gtime, slice := s.gtime,
             requests := [], target := none }

/-- The lowest group place of a core that no group holds (R313; DESIGN CHOICE, log 24). -/
def State.freePlace (s : State) (core : Nat) : Nat :=
  ((List.range 64).find? fun k =>
    !s.groups.any fun g => g.place == some k && (s.team? g.team).any (·.core == some core)).getD 0

/-- Starts one group of a root team. -/
def State.startGroup (s : State) (gr : Grid) (t : Team) (core index : Nat) : State :=
  let (uid, s1) := s.newUid
  let pc := BitVec.ofNat 48 (gr.image.base + gr.image.entry)
  let g := Group.start uid t index pc (s.bestSlot core) (s.freePlace core) (t.index * gr.image.teamGroups + index) gr.launch.stkInit
  { s1 with groups := s1.groups ++ [g] }

/-- Admits one team with all its groups (R17). -/
def State.takeSeat (s : State) (gr : Grid) (t : Team) (core : Nat) : State :=
  (List.range gr.image.teamGroups).foldl (fun s k => s.startGroup gr t core k) (s.seatTeam t core)

/-- CANDIDATE_PLACEMENT (R311 to R316): the first candidate with room, an unplaced cluster with this team in it, is
placed with all its teams. -/
def execCandidatePlacement (team : Nat) (s : State) : Result :=
  match s.team? team, s.firstPlaceable with
  | some t, some (c, cores) =>
    match s.grid? t.grid with
    | none => .next s
    | some gr =>
      if !c.task && t.sched == .candidate && (s.clusterTeams t).contains c.id then
        .next ((s.cluster t).foldl (fun s u => s.takeSeat gr u (cores.getD u.member 0)) s)
      else .next s
  | _, _ => .next s

/-- The team that a dispatched record's group forms (R62, R310). GRIDPOS is not stated for it (DESIGN CHOICE, log 45). -/
def State.taskTeam (s : State) (gr : Grid) (t : Task) (k core : Nat) : Team × State :=
  let (uid, s1) := s.newUid
  let (n, s2) := s1.newFresh
  let pos := (Config.freeDWord n).toNat
  let index := gr.launch.gridX * gr.launch.gridY + k
  let team := newTeam uid gr.uid index (gr.launch.gridX * gr.launch.gridY + uid) 0 (pos % 2 ^ 16) (pos / 2 ^ 16 % 2 ^ 16) t.prio t.since
  ({ team with core := some core, sched := .resident, lcid := (s.core core).lcid, admitted := s.gtime,
               slice := s.gtime }, s2)

/-- Binds a record to a new group (R60, R62, R310, R374). -/
def State.dispatch (s : State) (gr : Grid) (t : Task) (k core : Nat) : State :=
  let cutting := t.cut && !(s.slot? t.grid t.cutSlot).any (·.covers t.cutWant)
  let (team, s1) := s.taskTeam gr t k core
  let (uid, s2) := s1.newUid
  let g := Group.start uid team 0 (BitVec.ofNat 48 t.entry) (s.bestSlot core) (s.freePlace core)
    (gr.launch.gridX * gr.launch.gridY * gr.image.teamGroups + k) gr.launch.stkInit
  { s2 with teams := s2.teams ++ [team], groups := s2.groups ++ [g.startTask t cutting],
            pool := s2.pool.filter (·.uid != t.uid) }

/-- TASK_DISPATCH (R60 to R62, R311 to R315, R374). -/
def execTaskDispatch (record : Nat) (s : State) : Result :=
  match s.pool.find? (·.uid == record), s.firstPlaceable with
  | some t, some (c, cores) =>
    match s.grid? t.grid with
    | none => .next s
    | some gr =>
      match s.freeTaskSlot gr with
      | none => .next s
      | some k => if c.task && c.id == record then .next (s.dispatch gr t k (cores.headD 0)) else .next s
  | _, _ => .next s

/-! ## Requests that make room (R321, R325) -/

/-- A request that will take the team off its core. -/
def Request.leaves : Request → Bool
  | .slice | .preempt => true
  | .migrate _ => false

/-- Some team of the cluster is asked to leave, or is being saved: it counts as freed (R325). -/
def State.leaving (s : State) (t : Team) : Bool :=
  (s.cluster t).any fun u => u.requests.any (·.leaves) || (u.sched == .saving && u.target.isNone)

/-- The teams that count as freed already. -/
def State.leavingTeams (s : State) : List Nat :=
  (s.teams.filter fun t => t.core.isSome && s.leaving t).map (·.uid)

/-- Teams that may be asked to leave for a candidate: resident, of lower base priority, not asked yet; the lowest base
priority first, then the most recently admitted (R325). Member 0 stands for its cluster, some group of which is left. -/
def State.victims (s : State) (eff : Nat) : List Team :=
  sortBy (fun a b => keyLt [a.prio, s.gtime - a.admitted, s.clock.uid - a.uid] [b.prio, s.gtime - b.admitted, s.clock.uid - b.uid])
    (s.teams.filter fun t => t.sched == .resident && t.member == 0 && t.prio < eff && !s.leaving t &&
      (s.clusterTeams t).any fun u => !(s.teamGroups u).isEmpty)

/-- The selections whose sizes come to `n`, in order. -/
def chooseOf {α : Type} (size : α → Nat) : Nat → List α → List (List α)
  | n, [] => if n = 0 then [[]] else []
  | n, x :: xs => (if size x ≤ n then (chooseOf size (n - size x) xs).map (x :: ·) else []) ++ chooseOf size n xs

/-- The fewest teams that make room, every member of a cluster counted, with those already leaving (R325). -/
def State.toPreempt (s : State) : List Team :=
  match s.candidates with
  | [] => []
  | c :: _ =>
    match s.ask c with
    | none => []
    | some a =>
      let left := s.leavingTeams
      let room (ts : List Team) : Bool :=
        !(s.roomsFor a (left ++ (ts.map s.clusterTeams).flatten)).isEmpty
      let vs := s.victims (c.eff s.gtime s.fw.quantum)
      if !(s.roomsFor a []).isEmpty || room [] then []
      else
        let size (t : Team) : Nat := (s.clusterTeams t).length
        ((List.range ((vs.map size).sum + 1)).findSome? fun n => (chooseOf size n vs).find? room).getD []

/-- Adds a request, unless one of its kind is pending (R323). -/
def Team.ask (t : Team) (r : Request) : Team :=
  if t.requests.contains r then t else { t with requests := t.requests ++ [r] }

/-- Posts a request to every team of a cluster (DEDUCED, log 52). -/
def State.postRequest (s : State) (t : Team) (r : Request) : State :=
  (s.clusterTeams t).foldl (fun s u => s.modTeam u (·.ask r)) s

/-- PREEMPTION_REQUEST (R325). -/
def execPreemptionRequest (team : Nat) (s : State) : Result :=
  match s.toPreempt.find? (·.uid == team) with
  | none => .next s
  | some t => .next (s.postRequest t .preempt)

/-- TIME_SLICE_EXPIRY (R321). -/
def execTimeSliceExpiry (team : Nat) (s : State) : Result :=
  match s.team? team with
  | none => .next s
  | some t =>
    let slice := ((s.grid? t.grid).map (·.launch.tslice)).getD 0
    if t.sched != .resident || slice = 0 || s.gtime < t.slice + 1000 * slice then .next s
    else if s.candidates.any fun c => t.prio ≤ c.eff s.gtime s.fw.quantum then .next (s.postRequest t .slice)
    else .next (s.modTeam team fun t => { t with slice := s.gtime })

end Sys2Proof.Machine
end

