-- ==== Sys2Proof/Machine/Save.lean ====
section
/-!
DEFINITION. Safe points (R50), saves (R51, R52, R263, R324), restores (R53, R54, R326, R333) and migrations (R329, R333).
-/

namespace Sys2Proof.Machine

/-! ## Standing at a safe point (R50) -/

/-- The wait is at a safe-point instruction (R48, R50). -/
def Wait.safe : Wait → Bool
  | .fence _ _ | .twait _ => false
  | _ => true

/-- A lane stands at a safe point, or is DONE. -/
def Lane.standsSafe (l : Lane) : Bool :=
  l.service.isNone && l.stood.isNone &&
    (match l.state with
     | .run => l.atSafe
     | .wait w => w.safe
     | .join _ | .done => true
     | .trap => false)

/-- A group stands at a safe point (R50, R319). -/
def Group.standsSafe (g : Group) : Bool :=
  g.stubs.isEmpty && !g.inHandler && g.lanes.all (·.standsSafe) && !g.allDone

/-- The safe-point instruction at which a lane stands: a lane in RUN has gone past it (DEDUCED, log 23). -/
def Lane.standingPc (l : Lane) : Addr := if l.running then l.lpc - 4 else l.lpc

/-- The table entries of the safe points at which the lanes stand. -/
def Group.standing? (g : Group) (img : Image) : List SafePoint :=
  g.lanes.filterMap fun l => if l.isDone then none else img.safePoint? l.standingPc

/-- Speculation whose outcome is open holds requests back (R377). -/
def State.unresolved (s : State) (g : Group) : Bool :=
  s.undecided g || g.spec.any fun sp => 0 < sp.level || sp.committing.isSome || sp.doomed.isSome

/-- A group lets its team be saved now (R50, R51, R65, R322, R377). -/
def State.mayLeave (s : State) (g : Group) : Bool :=
  (g.sched == .resident || g.sched == .parked) && g.halted.isNone && g.standsSafe && !s.unresolved g &&
    !s.pend.any (·.group == g.uid)

/-- A pending request of a team's cluster may be honoured now (R51, R331; DEDUCED, log 52). -/
def State.maySave (s : State) (t : Team) : Bool :=
  let ts := s.cluster t
  ts.any (fun u => !u.requests.isEmpty) &&
    ts.all (fun u => u.sched == .resident && !s.issueStopped (u.core.getD 0) &&
      (s.teamGroups u.uid).all s.mayLeave) &&
    ts.any fun u => !(s.teamGroups u.uid).isEmpty

/-! ## The beginning of a save (R324 steps 1 to 3) -/

/-- The operation's destination lies in scratchpad. -/
def EngOp.fillsScratch (op : EngOp) : Bool :=
  match op.kind with
  | 1 => cpyDSP op.words || cpyDTRUG op.words
  | 2 => gsCSP op.words
  | 3 => gsTSP op.words
  | 12 => true
  | _ => false

/-- The operation reads scratchpad. -/
def EngOp.readsScratch (op : EngOp) : Bool :=
  match op.kind with
  | 1 => cpySSP op.words
  | 2 => gsTSP op.words
  | 3 => gsCSP op.words
  | 11 => true
  | _ => false

/-- The core that a migration request names. -/
def Team.migratesTo (t : Team) : Option Nat :=
  t.requests.findSome? fun r =>
    match r with
    | .migrate dst => some dst
    | _ => none

/-- A team's save begins. A request to leave stays pending behind a migration. -/
def State.beginSave (s : State) (t : Team) (due : Nat) : State :=
  let s1 := s.modTeam t.uid fun t =>
    { t with sched := .saving, saveDue := due, target := t.migratesTo,
             requests := if t.migratesTo.isSome then t.requests.filter (·.leaves) else [] }
  { s1 with
    groups := s1.groups.map fun g =>
      if g.team = t.uid then { g with sched := .saving, slot := none, standing := none } else g,
    cores := s1.cores.map fun c =>
      { c with ops := c.ops.map fun o =>
          if o.team = t.uid && o.fillsScratch && o.outcome.isNone then { o with paused := true } else o } }

/-- TEAM_SAVE (R51, R324). -/
def execTeamSave (team : Nat) (s : State) : Result :=
  match s.team? team with
  | none => .next s
  | some t =>
    if s.maySave t then
      let (n, s1) := s.newFresh
      .next ((s.cluster t).foldl (fun s u => s.beginSave u (s.gtime + Config.latency n)) s1)
    else .next s

/-! ## What is kept (R52, R105, R263) -/

/-- The union of the live bitmaps. -/
def unionLive {n : Nat} (f : SafePoint → BitVec n) (es : List SafePoint) : BitVec n :=
  es.foldl (fun x e => x ||| f e) 0

/-- What of a lane is kept: registers by physical number, and p0 to p14. -/
def Lane.keep (v : BitVec 512) (p : BitVec 16) (l : Lane) : Lane :=
  { l with vregs := l.vregs.filter (fun (i, _) => v.getLsbD i), preds := l.preds &&& p.setWidth 15 }

/-- What of a group is kept (R52); PSEQ of each descriptor is set to its CSEQ (R263). -/
def Group.keep (g : Group) (img : Image) : Group :=
  let es := g.standing? img
  { g with
    lanes := g.lanes.map (Lane.keep (unionLive (·.vlive) es) (unionLive (·.plive) es)),
    uregs := g.uregs.filter (fun (i, _) => (unionLive (·.ulive) es).getLsbD i),
    jmasks := mapFrom (fun i j => if (unionLive (·.jlive) es).getLsbD i then j else ⟨0, 0⟩) 0 g.jmasks,
    tdescs := (g.tdescs.filter (fun (i, _) => (unionLive (·.tlive) es).getLsbD i)).map fun (i, d) =>
      (i, { d with pseq := d.cseq }) }

/-- A tile is kept (R52 step 5). -/
def keepsTile (accwin : Nat) (alive : BitVec 128) (tile : Nat) : Bool := accwin ≤ tile && alive.getLsbD (tile - accwin)

/-- A byte lies in a save region (R105). -/
def inRegions (rs : List (Nat × Nat)) (a : Nat) : Bool := rs.any fun (o, n) => o ≤ a && a < o + n

/-- What of a team is kept: its save regions, and the tiles live at its groups' safe points. -/
def Team.keep (t : Team) (img : Image) (alive : BitVec 128) : Team :=
  let tile (k : Nat) : Bool := keepsTile t.accwin alive k
  { t with
    scratch := t.scratch.filter (fun (a, _) => inRegions img.saveRegions a),
    scratchDamage := t.scratchDamage.filter (fun d => inRegions img.saveRegions (8 * d)),
    acc := t.acc.filter (fun (k, _) => tile (k / 4096)), accDamage := t.accDamage.filter (fun d => tile (d / 2048)),
    overflow := t.overflow.filter (fun (k, _) => tile k) }

/-- The live tiles of a team's groups. -/
def State.teamAlive (s : State) (t : Team) (img : Image) : BitVec 128 :=
  (s.teamGroups t.uid).foldl (fun x g => x ||| unionLive (·.alive) (g.standing? img)) 0

/-! ## The end of a save (R324 steps 4 to 6) -/

/-- The locks of engine operations. -/
def Core.locksOf (c : Core) (ops : List EngOp) : List Lock :=
  c.locks.filter fun k => !k.matrix && ops.any (·.handle == k.owner)

/-- Operations and their locks leave a core. -/
def Core.without (c : Core) (ops : List EngOp) : Core :=
  { c with ops := c.ops.filter (fun o => !ops.any (·.handle == o.handle)),
           locks := c.locks.filter (fun k => k.matrix || !ops.any (·.handle == k.owner)) }

/-- The team's operations on its core that are paused. -/
def State.pausedOps (s : State) (t : Team) : List EngOp := ((s.core (t.core.getD 0)).teamOps t.uid).filter (·.paused)

/-- The work that R324 has a save wait for is done. -/
def State.saveReady (s : State) (t : Team) : Bool :=
  t.sched == .saving && t.saveDue ≤ s.gtime && !(s.cores.any fun c => c.matrix.any (·.team == t.uid)) &&
    s.cores.all fun c => (c.teamOps t.uid).all fun o =>
      if o.paused then o.atPause && !o.exhausted else !o.readsScratch && !o.fillsScratch

/-- The save of a team is written (R324 steps 4 to 6): it is SAVED, or MIGRATING. -/
def State.endSave (s : State) (t : Team) : State :=
  match s.grid? t.grid with
  | none => s
  | some gr =>
    let core := t.core.getD 0
    let ops := s.pausedOps t
    let locks := (s.core core).locksOf ops
    let alive := s.teamAlive t gr.image
    let away := t.target.isNone
    let after : Sched := if away then .saved else .migrating
    let s1 := s.modTeam t.uid fun t =>
      { t.keep gr.image alive with
        sched := after, core := if away then none else t.core, since := if away then s.gtime else t.since,
        context := { core := core, locks := locks, ops := ops, done := [] } }
    { s1 with
      groups := s1.groups.map fun g => if g.team = t.uid then { g.keep gr.image with sched := after, place := none } else g,
      cores := (setAt (fun c => c.without ops) core s1.cores).map fun c => (c.loseTeam t.uid).dropPackets t.uid }

/-- SAVE_COMPLETE (R324, R327). -/
def execSaveComplete (team : Nat) (s : State) : Result :=
  match s.team? team with
  | none => .next s
  | some t =>
    let ts := s.cluster t
    if ts.all s.saveReady then .next (ts.foldl State.endSave s) else .next s

/-! ## Coming back (R53, R54, R326, R333) -/

/-- Stubs in ascending order of their safe points, each with the lanes that stand there. -/
def stubsFrom (base : Nat) : List (Nat × SafePoint) → List Stub
  | es =>
    let offs := sortBy (· < ·) (nubNat (es.map fun (_, e) => e.pcoff))
    offs.filterMap fun off =>
      match es.find? fun (_, e) => e.pcoff == off with
      | none => none
      | some (_, e) =>
        e.stub.map fun so =>
          { pcoff := off, start := BitVec.ofNat 48 (base + so),
            lanes := ((es.filter fun (_, e) => e.pcoff == off).foldl (fun m (i, _) => m ||| BitVec.ofNat 32 (2 ^ i)) 0) }

/-- The rebuild stubs of a group begin, with SPCOUNT 0 (R54, R66). A safe point without one counts as a RESUME alone. -/
def Group.beginStubs (g : Group) (img : Image) : Group :=
  let es := (mapFrom (fun i (l : Lane) =>
    if l.isDone then [] else ((img.safePoint? l.standingPc).map fun e => (i, e)).toList) 0 g.lanes).flatten
  let stubs := stubsFrom img.base es
  let begin_ (i : Nat) (l : Lane) : Lane :=
    match stubs.find? fun st => st.lanes.getLsbD i with
    | none => l
    | some st => { l with stood := some ⟨l.lpc, l.state⟩, state := .run, lpc := st.start, atSafe := false }
  { g with lanes := mapFrom begin_ 0 g.lanes, stubs := stubs, spcount := 0 }

/-- A team's groups are bound to slots of its core and go on with their stubs: they are resident from now, and a new slice
begins (R54, R315, R316, R321). -/
def State.bindGroups (s : State) (t : Team) (core : Nat) (img : Image) : State :=
  let s := s.modTeam t.uid fun t => { t with sched := .resident, slice := s.gtime }
  (s.teamGroups t.uid).foldl
    (fun s g => s.modGroup g.uid fun g =>
      { g.beginStubs img with sched := .resident, slot := some (s.bestSlot core), place := some (s.freePlace core),
                               standing := none }) s

/-- An operation goes on with its team: not paused, under its handle, its status recorded (R326, R333). -/
def EngOp.moved (o : EngOp) : EngOp := { o with handle := o.named, paused := false, silent := false }

/-- A team's operations, paused or at work elsewhere, and their locks come to a core; requests under way for them find
them there (R324, R326, R333). -/
def State.bringOps (s : State) (t : Team) (core : Nat) : State :=
  let work := (s.cores.map fun c => c.teamOps t.uid).flatten
  let locks := (s.cores.map fun c => c.locksOf (c.teamOps t.uid)).flatten
  let s1 : State := { s with cores := s.cores.map fun c => c.without (c.teamOps t.uid) }
  let s2 := s1.modCore core fun c =>
    { c with ops := c.ops ++ (t.context.ops ++ work).map EngOp.moved,
             locks := c.locks ++ (t.context.locks ++ locks).map fun k => { k with owner := k.owner % 2 ^ 16 } }
  let moved (r : Remote) : Remote :=
    match r.engine with
    | some (_, h) =>
      if work.any (fun o => o.handle == h && o.group == r.group) then { r with engine := some (core, h % 2 ^ 16) } else r
    | none => r
  ({ s2 with fabric := { s2.fabric with remotes := s2.fabric.remotes.map moved } } : State).modTeam t.uid fun t =>
    { t with context := { core := core, locks := [], ops := [], done := [] } }

/-- A saved team comes to a core to be refilled: it is RESTORING (R316, R326). The statuses of operations that completed
before are gone (R333). -/
def State.restoreTeam (s : State) (t : Team) (core due : Nat) : State :=
  let s1 := (s.seatTeam t core).bringOps t core
  let s2 : State := { s1 with cores := s1.cores.map fun c => { c with done := c.done.filter (·.team != t.uid) } }
  let s3 := s2.modTeam t.uid fun t => { t with stale := t.ended, sched := .restoring, saveDue := due }
  { s3 with groups := s3.groups.map fun g => if g.team = t.uid then { g with sched := .restoring } else g }

/-- The save regions and tiles of a restoring cluster are back: its groups begin their stubs (R53, R54, R316, R326). -/
def State.endRestore (s : State) (t : Team) : State :=
  match s.grid? t.grid with
  | none => s
  | some gr => (s.cluster t).foldl (fun s u => s.bindGroups u (u.core.getD 0) gr.image) s

/-- TEAM_RESTORE (R53, R54, R315, R316, R326): the first candidate with room, a saved cluster with this team in it, is
placed and refilled, which takes a free time; then its groups are resident again. -/
def execTeamRestore (team : Nat) (s : State) : Result :=
  match s.team? team with
  | none => .next s
  | some t =>
    if t.sched == .restoring then
      if t.saveDue ≤ s.gtime then .next (s.endRestore t) else .next s
    else
      match s.firstPlaceable with
      | none => .next s
      | some (c, cores) =>
        if !c.task && t.sched == .saved && (s.clusterTeams t).contains c.id then
          let (n, s1) := s.newFresh
          .next ((s.cluster t).foldl
            (fun s u => s.restoreTeam u (cores.getD u.member 0) (s.gtime + Config.latency n)) s1)
        else .next s

/-! ## Migration (R329) -/

/-- The teams of a core that a migration moves: those with a group left. -/
def State.movers (s : State) (core : Nat) : List Team :=
  s.teams.filter fun t => t.core == some core && !(s.teamGroups t.uid).isEmpty

/-- The target may take the source's teams (R329): none that the source holds, its groups left or not, is of a cluster of
more than one core. -/
def State.mayMigrate (s : State) (src dst : Nat) : Bool :=
  let ts := s.movers src
  src < 128 && dst < 128 && src != dst && s.fw.migration < (s.core src).temp && (s.core dst).temp ≤ s.fw.placement &&
    (s.core src).migrating.isNone && (s.core dst).migrating.isNone && !ts.isEmpty && (s.movers dst).isEmpty &&
    s.teams.all (fun t => t.core != some src || (s.cluster t).length ≤ 1) &&
    s.hasRoom dst ((ts.map (s.holds src)).foldl Needs.add Needs.none) []

/-- MIGRATION_REQUEST (R329 step 1). -/
def execMigrationRequest (src dst : Nat) (s : State) : Result :=
  if s.mayMigrate src dst then
    let s1 := (s.modCore src fun c => { c with migrating := some dst }).modCore dst fun c =>
      { c with migrating := some src }
    .next ((s.movers src).foldl (fun s t => s.modTeam t.uid (·.ask (.migrate dst))) s1)
  else .next s

/-- A migrated team goes on at the target, under the LCID it has (R329 steps 5 and 6). -/
def State.landTeam (s : State) (t : Team) (dst : Nat) : State :=
  match s.grid? t.grid with
  | none => s
  | some gr =>
    ((s.modTeam t.uid fun t => { t with core := some dst, sched := .resident, target := none }).bringOps t dst).bindGroups
      t dst gr.image

/-- Both cores are free again. -/
def State.endMigration (s : State) (src dst : Nat) : State :=
  (s.modCore src fun c => { c with migrating := none }).modCore dst fun c => { c with migrating := none }

/-- A core gives up the handle and the status of an operation of a team that has left (R333). -/
def State.disown (s : State) (core : Nat) (o : EngOp) : State :=
  let n := (s.core core).strayNumber o.handle
  let own (k : Lock) : Lock := if !k.matrix && k.owner == o.handle then { k with owner := n } else k
  let s1 := (s.modOp core o.handle fun o => { o with handle := n, silent := true }).modCore core fun c =>
    { c with locks := c.locks.map own }
  let now (r : Remote) : Remote := if r.engine = some (core, o.handle) then { r with engine := some (core, n) } else r
  { s1 with fabric := { s1.fabric with remotes := s1.fabric.remotes.map now } }

/-- The statuses and the handle count of the moved teams go to the target, which discards those it held, of operations
still at work too, whose handles the moved teams may have (R333); the LCID map entries are exchanged. -/
def State.exchange (s : State) (src dst : Nat) (teams : List Nat) : State :=
  let a := s.core src
  let b := s.core dst
  ((b.ops.foldl (fun s o => s.disown dst o) s).modCore src fun c =>
    { c with lcid := b.lcid, done := c.done.filter fun d => !teams.contains d.team }).modCore dst
    fun c => { c with lcid := a.lcid, done := a.done.filter (fun d => teams.contains d.team), nextHandle := a.nextHandle }

/-- MIGRATION_TRANSFER_DONE (R17, R329, R333): every team of the source that still has a group is MIGRATING. A migration
whose teams have all retired meanwhile ends without an exchange. -/
def execMigrationTransferDone (src : Nat) (s : State) : Result :=
  match (s.core src).migrating with
  | none => .next s
  | some dst =>
    let ts := s.movers src
    if !(s.movers dst).isEmpty then .next s
    else if ts.isEmpty then .next (s.endMigration src dst)
    else if ts.all (fun t => t.sched == .migrating && t.target == some dst) then
      .next ((ts.foldl (fun s t => s.landTeam t dst) (s.exchange src dst (ts.map (·.uid)))).endMigration src dst)
    else .next s

end Sys2Proof.Machine
end

