-- ==== Sys2Proof/Machine/Groups.lean ====
section
/-!
DEFINITION. What happens to a group between its issues: fetching (R71, R318), fairness rotations (R25), the distance fault
(R49), results that land (R34), segment ends (R33), handlers (R319, R320), parking (R317), serviceable pages (R272) and
leases (R279).
-/

namespace Sys2Proof.Machine

/-! ## Fetching (R71, R271, R318) -/

/-- What fetching an instruction meets. -/
inductive Fetch where
  | word (w : Word)
  | fault (c : Cause)
  | service
  /-- The ingress atomic cache writes the line back first (R359). -/
  | later

/-- Fetches the word at an address for a grid, on a core: code lies on executable pages of local HBM. -/
def State.fetchAt (s : State) (core grid : Nat) (pc : Addr) : Fetch :=
  let va := pc.toNat
  match s.xlatG core grid va with
  | .fault sub => .fault { Cause.translation sub va with fetch := true }
  | .service _ => .service
  | .ok p =>
    if p.aper != 0 || !p.executable then .fault { Cause.permission 2 va with fetch := true }
    else
      match s.mem.damagedByte p.pa 4 with
      | some b => .fault { Cause.dataError (va + (b - p.pa)) with fetch := true }
      | none =>
        if s.gtime < s.mem.ingressUntil p.pa 4 then .later else .word (BitVec.ofNat 32 (s.peekNat p.pa 4))

/-- The translation of a fetched word is cached (R273). -/
def State.fetched (s : State) (g : Group) (pc : Addr) : State :=
  s.cacheXlat (s.coreOf g.team) (s.rootOf g.grid) pc.toNat

/-- A group's next issue, given that it is chosen. -/
def State.siteOf (s : State) (group : Nat) : Option Site := { s with cur := group }.site?

/-- FETCH_FAULT (R71, R318): the lanes at the issue address enter TRAP; nothing is issued, and nothing is counted as an
issue for SPCOUNT, the fairness count or the segment (DESIGN CHOICE, log 67). -/
def execFetchFault (group : Nat) (s : State) : Result :=
  match s.siteOf group with
  | none => .next s
  | some x =>
    match s.fetchAt (s.coreOf x.g.team) x.g.grid x.pc with
    | .fault c => .next (s.raise x x.mask fun _ _ => some c)
    | _ => .next s

/-- ILLEGAL_INSTRUCTION (R74): the chosen group's issue of a word that stands for no instruction. -/
def execIllegalInstruction (s : State) : Result := decodeFault Cause.illegalInstruction s

/-- The chosen group's issue of a word with an illegal field (R73). -/
def execIllegalWord (s : State) : Result := decodeFault Cause.illegalOperand s

/-! ## The next issue (R18, R55) -/

/-- A bank of the group's core is LOADING for it (R167). -/
def State.loadsTable (s : State) (core group : Nat) : Bool :=
  (s.core core).banks.any fun b => b.load.any (·.group == group)

/-- The clock step lets the core's slots issue in this half nanosecond (R330): 5, 4, 3 or 2 of every 5. -/
def clockTicks (clock tick : Nat) : Bool :=
  let n := 5 - clock
  tick * n / 5 != (tick + 1) * n / 5

/-- A group may issue now (R18, R31, R33, R322, R324, R331, R377, R379). -/
def State.ready (s : State) (g : Group) : Bool :=
  let core := s.coreOf g.team
  g.sched == .resident && g.slot.isSome && g.halted.isNone && !(g.segEnd && g.redo?.isNone) && !g.blocked && g.issueAddr.isSome &&
    !(g.spec.any fun sp => sp.committing.isSome || sp.doomed.isSome) && (s.team? g.team).any (·.core.isSome) &&
    !s.issueStopped core && clockTicks (s.core core).clock s.clock.tick && !s.loadsTable core g.uid

/-- The number of a group's slot among the part's. -/
def State.slotOf (s : State) (g : Group) : Nat := 4 * s.coreOf g.team + g.slot.getD 0

/-- The better of two groups to issue: the lower slot, then the one that issued longest ago (R55). -/
def State.sooner (s : State) (best : Option Group) (g : Group) : Option Group :=
  match best with
  | none => some g
  | some b =>
    if s.slotOf g < s.slotOf b || (s.slotOf g == s.slotOf b && g.lastIssue < b.lastIssue) then some g else some b

/-- The next group to issue in this cycle. -/
def State.nextGroup (s : State) : Option Group :=
  (s.groups.filter fun g => s.clock.turn ≤ s.slotOf g && s.ready g).foldl s.sooner none

/-! ## Rotations (R25) and the distance fault (R49) -/

/-- FAIRNESS_ROTATION (R25 step 1). -/
def execFairnessRotation (group : Nat) (s : State) : Result :=
  match s.group? group with
  | none => .next s
  | some g =>
    if g.pprom && g.stubs.isEmpty && g.redo?.isNone && g.rotation.isNone && g.fairtime ≤ g.fairness && g.fairness != 0 then
      .next (s.modGroup group fun g =>
        { g with fairness := 0, rotation := (g.leastAbove g.lastAddr).map fun b => { base := b, left := g.fairtime } })
    else .next s

/-- A rotation is over: its issues are used up, or it is the group's turn to issue and no lane stands at or above the
base (R25 step 3). An issue that finds it so ends it itself (`Group.fair`). -/
def State.rotationOver (s : State) (g : Group) : Bool :=
  match g.rotation with
  | none => false
  | some r =>
    g.stubs.isEmpty && g.redo?.isNone && (r.left == 0 || (g.activeRotation.isNone && s.nextGroup.any (·.uid == g.uid)))

/-- ROTATION_END (R25 step 3). -/
def execRotationEnd (group : Nat) (s : State) : Result :=
  .next (s.modGroup group fun g => if s.rotationOver g then { g with rotation := none, fairness := 0 } else g)

/-- An instruction whose issue sets SPCOUNT to 0 (R48, R49). -/
def zeroesCount : Instr → Bool
  | .safept .. | .yield .. | .bar .. | .cbar .. | .bcwait .. | .tgwait .. | .tgacq .. | .evwait .. | .jarv ..
  | .resume .. => true
  | _ => false

/-- SAFE_POINT_DISTANCE_FAULT (R49, R304): the group's next issue would raise SPCOUNT above D. -/
def execSafePointDistanceFault (group : Nat) (s : State) : Result :=
  match s.siteOf group with
  | none => .next s
  | some x =>
    match s.fetchAt (s.coreOf x.g.team) x.g.grid x.pc with
    | .word w =>
      match decode w with
      | .ok i =>
        if !zeroesCount i && overDistance s.fw.spdistCap x .plain then
          decodeFault Cause.distance { s with cur := group }
        else .next s
      | _ => .next s
    | _ => .next s

/-! ## Results that land, and segment ends (R33, R34) -/

/-- A lane that has entered TRAP or WAIT loses the marks of a landed result at once (R34); other marks stay until the
segment ends, so that no outcome depends on when it lands (R33). -/
def Lane.clears (l : Lane) (regs : List Nat) : Lane :=
  match l.state with
  | .trap | .wait _ => { l with pend := l.pend.filter fun r => !regs.contains r }
  | _ => l

/-- A result is written and leaves the list. -/
def State.landed (s : State) (p : Pend) (ws : List RegWrite) : State :=
  let s1 := s.writeResult p ws
  let s2 : State := { s1 with pend := s1.pend.filter (·.id != p.id) }
  match p.lane with
  | none => s2
  | some i => s2.modGroup p.group fun g => { g with lanes := setAt (fun l => l.clears p.regs) i g.lanes }

/-- PENDING_RESULT_LANDS (R34, R282; DEDUCED, log 8). A scratchpad access is accepted first (R290). A load waits for the
write-back of a line that the ingress atomic cache owns (R359), and one of bytes that
have been damaged since its issue takes the data-error fault (R299). -/
def execPendingResultLands (result : Nat) (s : State) : Result :=
  match s.pend.find? (·.id == result) with
  | none => .next s
  | some p =>
    if s.clock.tick < p.due then .next s
    else
      match p.what with
      | .value ws => .next (s.landed p ws)
      | .load va pa acc d lease after =>
        if s.gtime < s.loadAfter p.group pa acc lease after then .next s
        else
          match s.loadDamage p.group pa acc lease with
          | some b => .next (s.failPend p (Cause.dataError (va + (b - pa))))
          | none =>
            let (ws, s1) := s.loadNow p.group pa acc d lease
            .next (s1.landed p ws)
      | .fill core pa lease l1 =>
        if s.gtime < s.fillAfter core lease l1 pa then .next s
        else .next { s.fillBlock core lease l1 pa with pend := s.pend.filter (·.id != p.id) }
      | .atom _ w => .next (s.landed p [w])
      | .bankLoad .. | .bankStore .. | .bankAtom .. => if s.acceptable p then .next (s.accept p) else .next s
      | .accepted .. | .answer .. | .oldValue .. => .next s

/-- Results that a group waits for at a segment end: not those of stores and atomics that write no register, nor a
prefetch. -/
def State.awaits (s : State) (group : Nat) : Bool :=
  s.pend.any fun p => p.group == group && !p.what.unaccepted && !p.what.fills

/-- A lane goes back to where it stood before its stub (R54). -/
def Lane.goBack (l : Lane) : Lane :=
  match l.stood with
  | none => { l with leaving := false }
  | some p => { l with lpc := p.lpc, state := p.state, stood := none, leaving := false, atSafe := true }

/-- The lanes whose stub has ended with its segment go back (R54, R67); a stub that no lane runs any more gives way to the
next. -/
def Group.endStub (g : Group) : Group :=
  let mask := g.maskOf fun _ l => l.leaving
  (g.onLanes mask fun _ l => l.goBack).leaveStubs mask

/-- R33, R272: the segment is over, and no access of it is left to be performed; the marks are cleared and the group
may issue. -/
def State.endSegment (s : State) (g : Group) : Group :=
  if g.segEnd && !s.awaits g.uid && !g.lanes.any (fun l => l.service.isSome || l.redo.isSome) then
    ({ g with segEnd := false, upend := [], lanes := g.lanes.map fun l => { l with pend := [] } } : Group).endStub
  else g

/-- Ends every segment that can end. -/
def State.endSegments (s : State) : State := { s with groups := s.groups.map s.endSegment }

/-! ## Handlers (R319, R320) -/

/-- A RUN lane that is not held while the group has lanes in TRAP (R319), of the stub that runs (R54). -/
def Group.unheld (g : Group) : BitVec 32 :=
  g.maskOf fun i l =>
    l.running && !l.atSafe && (match g.stubs with | [] => true | st :: _ => st.lanes.getLsbD i)

/-- HANDLER_START (R319 step 3, R320): a speculative group waits for its resolution (R377). -/
def execHandlerStart (group : Nat) (s : State) : Result :=
  match s.group? group with
  | none => .next s
  | some g =>
    if !g.inTrap || g.inHandler || g.unheld != 0 || g.sched != .resident || g.halted.isSome || s.unresolved g then
      .next s
    else
      match s.grid? g.grid with
      | none => .next s
      | some gr =>
        let trapped := g.maskOf fun _ l => l.trapped
        if gr.image.handler = 0 then .next (s.terminateWith g.grid (s.laneRecords g trapped))
        else
          let start := BitVec.ofNat 48 (gr.image.base + gr.image.handler)
          .next (s.modGroup group fun g => { g.onLanes trapped (fun _ l => l.startHandler start) with spcount := 0 })

/-! ## Parking (R317) -/

/-- A lane may park. -/
def Lane.parks (l : Lane) : Bool :=
  match l.state with
  | .wait w => w.safe
  | .join _ | .done => true
  | _ => false

/-- A group may stand for parking (R317). -/
def State.mayPark (s : State) (g : Group) : Bool :=
  g.sched == .resident && g.halted.isNone && !g.inHandler && g.stubs.isEmpty && g.lanes.all (·.parks) && !g.allDone &&
    !s.awaits g.uid

/-- GROUP_PARK (R317): from the time it begins to stand so, after the park delay. -/
def execGroupPark (group : Nat) (s : State) : Result :=
  match s.group? group with
  | none => .next s
  | some g =>
    if !s.mayPark g then .next (s.modGroup group fun g => { g with standing := none })
    else
      let since := g.standing.getD s.gtime
      if since + s.fw.parkDelay ≤ s.gtime then
        .next (s.modGroup group fun g => { g with sched := .parked, slot := none, standing := none })
      else .next (s.modGroup group fun g => { g with standing := some since })

/-- GROUP_WAKE (R315, R317, R319): some lane has returned to RUN, or has trapped at an access made before it parked. -/
def execGroupWake (group : Nat) (s : State) : Result :=
  match s.group? group with
  | none => .next s
  | some g =>
    if g.sched == .parked && g.halted.isNone && g.lanes.any (fun l => l.running || l.trapped) then
      let slot := s.bestSlot (s.coreOf g.team)
      .next (s.modGroup group fun g => { g with sched := .resident, slot := some slot })
    else .next s

/-! ## Serviceable pages (R272) -/

/-- The entry of a walk that firmware is asked about, and the virtual range it covers (R268, R272). -/
def State.serviceEntry (s : State) (va : Nat) : List (Nat × Nat × Nat × Nat) → Nat → Option (Nat × Nat × Nat)
  | [], _ => none
  | (low, count, _, _) :: rest, table =>
    let entryAt := table + 8 * (va / 2 ^ low % count)
    let e := s.peekNat entryAt 8
    if bitsOf e 0 1 = 0 then
      (if bitsOf e 12 1 = 1 then some (entryAt, va / 2 ^ low * 2 ^ low, 2 ^ low) else none)
    else if bitsOf e 1 1 = 1 then none
    else s.serviceEntry va rest (bitsOf e 8 44 * 2 ^ 8)

/-- The translation root a page is asked for: a grid's, or that of a queue's head for number 0 (DESIGN CHOICE, log 54).
-/
def State.rootsAsked (s : State) (grid va : Nat) : List Nat :=
  if grid = 0 then
    (s.queues.filterMap List.head?).filterMap fun q =>
      match s.checkImage q.launch with
      | .service a => if a / 65536 = va / 65536 then some q.launch.troot else none
      | _ => none
  else
    (((s.grid? grid).map fun g => g.launch.troot).toList ++
      (s.ctxs.filter fun c => c.grid == grid && c.running).map (·.troot))

/-- The page asked for lies in a range. -/
def within (low len a : Nat) : Bool := low ≤ a && a < low + len

/-- Lanes that wait for the range proceed or take NOTVALID at their instruction (R272). -/
def State.serveLanes (s : State) (grid low len : Nat) (ok : Bool) : State :=
  s.groups.foldl
    (fun s g =>
      let mask := g.maskOf fun _ l => l.service.any (within low len)
      if g.grid != grid || mask = 0 then s
      else
        let s1 := s.modGroup g.uid fun g => g.onLanes mask fun _ l => { l with service := none }
        if ok then s1
        else
          (laneList mask).foldl
            (fun s i =>
              match g.lane? i with
              | none => s
              | some l =>
                let va := l.service.getD 0
                match s.grid? g.grid with
                | none => s
                | some gr =>
                  let c := { Cause.translation 0 va with fetch := l.redo.isNone }
                  s.raise { g := g, img := g.image gr.image, pc := l.lpc, mask := mask } (BitVec.ofNat 32 (2 ^ i))
                    fun _ _ => some c) s1) s

/-- The address in the range at which an engine operation waits: were the entry refused, its next step would fail
there. -/
def State.engWants (s : State) (core : Nat) (op : EngOp) (entryAt low len : Nat) : Option Nat :=
  let refused := s.writeEntry entryAt 0
  let next : State :=
    if op.kind = 1 && op.waiting then
      match execCircuitBarrierMatch core op.handle refused with
      | .next t => t
      | _ => refused
    else if op.begun && op.run.isNone && op.reading.isNone then refused.opStep core op
    else refused
  match (next.op? core op.handle).bind (·.outcome) with
  | some (.translation, a) => if within low len a then some a else none
  | some _ => none
  | none => if s.circuitOpen core op then (s.sideWaits op).find? (within low len) else none

/-- Operations that wait for the range fail with TRANSLATION (R216, R272). -/
def State.failOps (s : State) (grid entryAt low len : Nat) : State :=
  (List.range s.cores.length).foldl
    (fun s i =>
      ((s.core i).ops.filter fun o => o.grid == grid && o.outcome.isNone).foldl
        (fun s o =>
          match s.engWants i o entryAt low len with
          | some a => s.failOp i o.handle .translation a
          | none => s) s) s

/-- A table load whose source lies in the range fails (R167, R272). -/
def State.failTables (s : State) (grid low len : Nat) : State :=
  (List.range s.cores.length).foldl
    (fun s i =>
      (List.range 2).foldl
        (fun s k =>
          match ((s.core i).banks[k]?).bind (·.load) with
          | none => s
          | some t =>
            if ((s.group? t.group).any fun g => g.grid == grid) && t.address < low + len && low < t.address + bankBytes then
              s.failTable i k t (Cause.translation 0 (max low t.address))
            else s) s) s

/-- Script contexts that wait for the range go on; refused, they take a script fault, or a CREQ its status 2 (R272, R346,
R347). -/
def State.serveCtxs (s : State) (grid low len : Nat) (ok : Bool) : State :=
  (List.range 4).foldl
    (fun s n =>
      match (s.ctx n).wait with
      | some (.page va fetch) =>
        if (s.ctx n).grid = grid && within low len va then
          if ok then s.modCtx n fun c => { c with wait := none }
          else s.scriptFault n { Cause.translation 0 va with fetch := fetch }
        else s
      | some (.barrier d va) =>
        if (s.ctx n).grid = grid && within low len va then
          s.modCtx n fun c => { (if ok then c else c.result (BitVec.ofNat 4 d) 2) with wait := none }
        else s
      | _ => s) s

/-- Successor decrements that wait for the range fail and end their grid (R63, R272). -/
def State.failDecrements (s : State) (grid low len : Nat) : State :=
  (s.retiring.filter fun r => r.grid == grid && r.succ != 0 && s.decrementDue r && within low len r.succ).foldl
    (fun s r => s.failDecrement r (Cause.translation 0 r.succ)) s

/-- The status with which an image is refused that firmware does not map a page of: that of the first check of R107 that
fails without the page, and without others that it has not answered for (DESIGN CHOICE, log 79). -/
def State.refusedStatus (s : State) (l : Launch) : Nat :=
  let read (pa : Nat) : Header := s.peek pa 128
  match s.checkImage l, s.imagePage l l.image with
  | .refuse st, _ => st
  | _, .page pa =>
    match s.checkParts l (read pa) ((read pa).entryVas l.image) with
    | .refuse st => st
    | _ => stTranslation
  | _, _ => stTranslation

/-- Queue heads whose image lies in the range are refused (R107, R272). -/
def State.refuseHeads (s : State) (entryAt low len : Nat) : State :=
  (s.queues.filterMap List.head?).foldl
    (fun s q =>
      match s.checkImage q.launch with
      | .service a =>
        if within low len a && s.queueFree q.launch.queue then
          s.refuseHead q ((s.writeEntry entryAt 0).refusedStatus q.launch)
        else s
      | _ => s) s

/-- Firmware refuses a range. -/
def State.refuseRange (s : State) (grid entryAt low len : Nat) : State :=
  if grid = 0 then s.refuseHeads entryAt low len
  else
    ((((s.serveLanes grid low len false).failOps grid entryAt low len).failTables grid low len).serveCtxs grid low len
      false).failDecrements grid low len

/-- SERVICEABLE_PAGE_MAPPED (R272): firmware writes a valid entry for a page it is asked for, or refuses. -/
def execServiceablePageMapped (grid va : Nat) (ok : Bool) (entry : DWord) (s : State) : Result :=
  match (s.rootsAsked grid va).findSome? fun root => s.serviceEntry va walkLevels root with
  | none => .next s
  | some (entryAt, low, len) =>
    if ok && entry.getLsbD 0 then
      .next (((s.writeEntry entryAt entry.toNat).serveLanes grid low len true).serveCtxs grid low len true)
    else .next (s.refuseRange grid entryAt low len)

/-! ## Leases (R279) -/

/-- LEASE_EXPIRY (R279). -/
def execLeaseExpiry (core superblock : Nat) (s : State) : Result :=
  if (s.core core).l1.any fun b => b.block == superblock && b.expiry ≤ s.gtime then
    .next (s.modCore core (·.expire superblock))
  else .next s

end Sys2Proof.Machine
end

