-- ==== Sys2Proof/Machine/Thermal.lean ====
section
/-!
DEFINITION. Temperature and power (R328, R330, R331, R396).
-/

namespace Sys2Proof.Machine

/-- R330: a sample above the threshold lowers the clock one step, and one 5 °C or more below it raises it one step. -/
def throttled (clock temp threshold : Nat) : Nat :=
  if threshold < temp then min 3 (clock + 1) else if temp + 5 ≤ threshold then clock - 1 else clock

/-- The hottest core that is not at its lowest step; the lowest id on a tie (R396; DESIGN CHOICE, log 53). -/
def State.hottest (s : State) : Option Nat :=
  (List.range s.cores.length).foldl
    (fun best i =>
      if 3 ≤ (s.core i).clock then best
      else
        match best with
        | none => some i
        | some b => if (s.core b).temp < (s.core i).temp then some i else some b) none

/-- The power cap may lower a clock again: the samples of one 10 µs lower one (R328, R396; DESIGN CHOICE, log 53). -/
def State.capDue (s : State) : Bool := s.fw.capAt.all fun t => t + 10000 ≤ s.gtime

/-- The firmware power cap, against the limit in force when the cycle began (R395, R396). -/
def State.capPower (s : State) (watts : Nat) : State :=
  if s.fw.powerLimitWas < watts && s.capDue then
    match s.hottest with
    | none => s
    | some i =>
      { s.modCore i fun c => { c with clock := min 3 (c.clock + 1) } with fw := { s.fw with capAt := some s.gtime } }
  else s

/-- A core at a sample (R328, R330, R331): the trip at 105 °C, its end at 100 °C or below. -/
def Core.sample (c : Core) (temp threshold : Nat) : Core :=
  let c := { c with temp := temp }
  if c.stopped && temp ≤ 100 then { c with stopped := false, clock := 3 }
  else { c with clock := throttled c.clock temp threshold, stopped := c.stopped || 105 ≤ temp }

/-- SENSOR_SAMPLE (R328, R330, R331, R395, R396): the core's sample against the threshold in force when the cycle
began, its trip or the trip's end with an EVENT (R388), and the power cap; `watts` is the package power averaged over 1
ms. -/
def execSensorSample (core temp watts : Nat) (s : State) : Result :=
  if s.cores.length ≤ core then .next s
  else
    let was := (s.core core).stopped
    let s1 := s.modCore core fun c => c.sample temp s.fw.throttleWas
    let now := (s1.core core).stopped
    let s2 := if was == now then s1 else s1.event 5 core (natLe 8 now.toNat)
    .next (s2.capPower watts)

/-- POWER_STOP (R396): `watts` is the package power averaged over 100 µs. -/
def execPowerStop (watts : Nat) (s : State) : Result :=
  if 2000 < watts then .next { s with fw := { s.fw with powerStop := true } } else .next s

/-- POWER_STOP_END (R396): issue resumes at 0.8 GHz. -/
def execPowerStopEnd (watts : Nat) (s : State) : Result :=
  if s.fw.powerStop && watts < 1800 then
    .next { s with fw := { s.fw with powerStop := false }, cores := s.cores.map fun c => { c with clock := 3 } }
  else .next s

end Sys2Proof.Machine
end

