-- ==== Sys2Proof/Machine/Xlane.lean ====
section
/-!
DEFINITION. Cross-lane instructions (R171 to R176), predicates and select (R177 to R179).
-/

namespace Sys2Proof.Machine

/-! ## Participants (R171) -/

/-- The class of a reduction: its float tag, unsigned or signed (R171). -/
inductive RedClass where
  | float (tag : BitVec 5)
  | unsigned
  | signed
  deriving DecidableEq, Repr

def redClass (t : BitVec 5) : RedClass :=
  if isFloat t then .float t else if t == tagUI32 then .unsigned else .signed

/-- Tags that a reduction or scan accepts at all (R171 step 1). -/
def isReducible (t : BitVec 5) : Bool := isInt t || isFloat t

/-- Whether a tag fits a class (R171 step 3). -/
def RedClass.fits (c : RedClass) (t : BitVec 5) : Bool :=
  match c with
  | .float u => t == u
  | _ => isInt t

/-- The lowest lane of the active mask that passes the other checks, by its tag (R171 step 2). -/
def siteClass (x : Site) (o : Operands) (a : Nat) : RedClass :=
  let ok := x.g.maskOf fun i l => x.mask.getLsbD i && (operandFault x l o (isReducible (l.get a).tag)).isNone
  match laneList ok with
  | [] => .signed
  | i :: _ => redClass (((x.g.lane? i).map fun l => (l.get a).tag).getD tagRAW)

/-- The values of the participants, lane by lane. -/
def values {α : Type} (x : Site) (good : BitVec 32) (f : Lane → α) : List (Option α) :=
  mapFrom (fun i l => if good.getLsbD i then some (f l) else none) 0 x.g.lanes

/-- An instruction over the participants, each of which is changed by its own number. -/
def crossOp (m : Bool) (o : Operands) (tags : Site → Lane → Bool) (f : Site → BitVec 32 → Nat → Lane → Lane) : Op :=
  { m := m, kind := .plain, check := fun x _ l => operandFault x l o (tags x l),
    effect := fun x good s => s.modGroup x.g.uid fun g => g.onLanes good (f x good) }

/-- A shuffle (R172): a lane whose source is not a participant takes its own a. -/
def shuffle (m : Bool) (d a : BitVec 7) (vs : List Nat) (src : Nat → Lane → Option Nat) : Op :=
  crossOp m { vs := d.toNat :: a.toNat :: vs } (fun _ _ => true) fun x good i l =>
    let own := l.get a.toNat
    let r := match src i l with
      | none => own
      | some j => if j < 32 && good.getLsbD j then ((x.g.lane? j).map fun p : Lane => p.get a.toNat).getD own else own
    l.put d.toNat r.bits r.tag

/-! ## Reductions and scans (R174, R175) -/

/-- The operation of an arithmetic reduction by class: sum, minimum or maximum (R133, R174). -/
inductive RedOp where
  | sum
  | min
  | max
  deriving DecidableEq, Repr

/-- One step of a reduction. -/
def RedOp.step (op : RedOp) (c : RedClass) (u v : Word) : Word × FpFlags :=
  match c with
  | .float t =>
    let fmt := floatFmt t
    elementwise fmt
      (fun p q _ =>
        match op with
        | .sum => fmt.add rne p q
        | .min => fmt.minmax false p q
        | .max => fmt.minmax true p q) u v 0
  | .unsigned =>
    (match op with
     | .sum => u + v
     | .min => natLesser u v
     | .max => natGreater u v, 0)
  | .signed =>
    (match op with
     | .sum => u + v
     | .min => intLesser u v
     | .max => intGreater u v, 0)

/-- The tag of a result (R174). -/
def RedClass.tag : RedClass → BitVec 5
  | .float t => t
  | .unsigned => tagUI32
  | .signed => tagI32

/-- A variable-latency result of every participant, with flags for all (R117, R139). -/
def reduceOp (m : Bool) (d a : BitVec 7) (tags : Site → Lane → Bool)
    (f : Site → BitVec 32 → List (Option Word) × BitVec 5 × FpFlags) : Op :=
  { m := m, kind := .plain,
    check := fun x _ l => operandFault x l { vs := [d.toNat, a.toNat] } (tags x l),
    effect := fun x good s =>
      let (rs, tag, fl) := f x good
      let s1 := s.modGroup x.g.uid fun g => g.onLanes good fun _ l => l.flag fl
      s1.awaitLanes x.g good fun i l =>
        [{ reg := l.window + d.toNat, bits := (rs[i]?.join).getD 0, tag := tag }] }

/-- REDADD, REDMIN and REDMAX (R174). -/
def reduceArith (m : Bool) (d a : BitVec 7) (op : RedOp) : Op :=
  let o : Operands := { vs := [d.toNat, a.toNat] }
  reduceOp m d a
    (fun x l => isReducible (l.get a.toNat).tag && (siteClass x o a.toNat).fits (l.get a.toNat).tag)
    fun x good =>
      let c := siteClass x o a.toNat
      let (r, fl) := treeReduce (op.step c) 5 (values x good fun l => (l.get a.toNat).bits)
      (List.replicate 32 r, c.tag, fl)

/-- REDAND, REDOR and REDXOR (R174). -/
def reduceBits (m : Bool) (d a : BitVec 7) (f : Word → Word → Word) : Op :=
  reduceOp m d a (fun _ l => isAny (l.get a.toNat).tag) fun x good =>
    let (r, fl) := treeReduce (fun u v => (f u v, 0)) 5 (values x good fun l => (l.get a.toNat).bits)
    (List.replicate 32 r, tagRAW, fl)

/-- SCANADD and SCANMAX (R175). -/
def scanArith (m : Bool) (d a : BitVec 7) (op : RedOp) : Op :=
  let o : Operands := { vs := [d.toNat, a.toNat] }
  reduceOp m d a
    (fun x l => isReducible (l.get a.toNat).tag && (siteClass x o a.toNat).fits (l.get a.toNat).tag)
    fun x good =>
      let c := siteClass x o a.toNat
      let (rs, fl) := scanFrom (op.step c) none (values x good fun l => (l.get a.toNat).bits)
      (rs, c.tag, fl)

/-! ## Shuffles, votes and the rest (R172 to R176) -/

/-- SHFLI (R172). -/
def execShfli (m : Bool) (d a b : BitVec 7) (s : State) : Result :=
  (shuffle m d a [b.toNat] fun _ l => some (bitsOf (l.get b.toNat).bits.toNat 0 5)).issue s

/-- SHFLU (R172). -/
def execShflu (m : Bool) (d a k : BitVec 7) (s : State) : Result :=
  (shuffle m d a [] fun i _ => if k.toNat ≤ i then some (i - k.toNat) else none).issue s

/-- SHFLD (R172). -/
def execShfld (m : Bool) (d a k : BitVec 7) (s : State) : Result :=
  (shuffle m d a [] fun i _ => some (i + k.toNat)).issue s

/-- SHFLX (R172). -/
def execShflx (m : Bool) (d a k : BitVec 7) (s : State) : Result :=
  (shuffle m d a [] fun i _ => some (i ^^^ k.toNat)).issue s

/-- VOTEALL (R173). -/
def execVoteall (m : Bool) (d a : BitVec 7) (s : State) : Result :=
  (crossOp m {} (fun _ _ => true) fun x good _ l =>
    l.setPred d.toNat ((values x good fun p => p.pred a.toNat).all fun v => v.getD true)).issue s

/-- VOTEANY (R173). -/
def execVoteany (m : Bool) (d a : BitVec 7) (s : State) : Result :=
  (crossOp m {} (fun _ _ => true) fun x good _ l =>
    l.setPred d.toNat ((values x good fun p => p.pred a.toNat).any fun v => v.getD false)).issue s

/-- BALLOT (R173): the participants' predicate bits, in a uniform register. -/
def execBallot (m : Bool) (d a : BitVec 7) (s : State) : Result :=
  (groupOp m [d.toNat] fun x good g =>
    g.setU d.toNat (x.g.maskOf fun i l => good.getLsbD i && l.pred a.toNat)).issue s

/-- REDADD (R174). -/
def execRedadd (m : Bool) (d a : BitVec 7) (s : State) : Result :=
  (reduceArith m d a .sum).issue s

/-- REDMIN (R174). -/
def execRedmin (m : Bool) (d a : BitVec 7) (s : State) : Result :=
  (reduceArith m d a .min).issue s

/-- REDMAX (R174). -/
def execRedmax (m : Bool) (d a : BitVec 7) (s : State) : Result :=
  (reduceArith m d a .max).issue s

/-- REDAND (R174). -/
def execRedand (m : Bool) (d a : BitVec 7) (s : State) : Result :=
  (reduceBits m d a (· &&& ·)).issue s

/-- REDOR (R174). -/
def execRedor (m : Bool) (d a : BitVec 7) (s : State) : Result :=
  (reduceBits m d a (· ||| ·)).issue s

/-- REDXOR (R174). -/
def execRedxor (m : Bool) (d a : BitVec 7) (s : State) : Result :=
  (reduceBits m d a (· ^^^ ·)).issue s

/-- SCANADD (R175). -/
def execScanadd (m : Bool) (d a : BitVec 7) (s : State) : Result :=
  (scanArith m d a .sum).issue s

/-- SCANMAX (R175). -/
def execScanmax (m : Bool) (d a : BitVec 7) (s : State) : Result :=
  (scanArith m d a .max).issue s

/-- MATCH (R176): tags are ignored. -/
def execMatchLanes (m : Bool) (d a : BitVec 7) (s : State) : Result :=
  (crossOp m { vs := [d.toNat, a.toNat] } (fun _ _ => true) fun x good _ l =>
    l.put d.toNat (x.g.maskOf fun j p => good.getLsbD j && (p.get a.toNat).bits == (l.get a.toNat).bits) tagUI32).issue s

/-- BCAST (R176). -/
def execBcast (m : Bool) (d a k : BitVec 7) (s : State) : Result :=
  (shuffle m d a [] fun _ _ => some k.toNat).issue s

/-- SPLAT (R176). -/
def execSplat (m : Bool) (d a : BitVec 7) (s : State) : Result :=
  (crossOp m { vs := [d.toNat], us := [a.toNat] } (fun _ _ => true)
    fun x _ _ l => l.put d.toNat (x.g.u a.toNat) tagRAW).issue s

/-! ## Predicates and select (R177 to R179) -/

/-- A predicate operation of each active lane (R177). -/
def predOp (m : Bool) (f : Lane → Lane) : Op := laneOp m {} (fun _ _ => true) fun _ _ l => f l

/-- PAND (R177). -/
def execPand (m : Bool) (d a b : BitVec 7) (s : State) : Result :=
  (predOp m fun l => l.setPred d.toNat (l.pred a.toNat && l.pred b.toNat)).issue s

/-- POR (R177). -/
def execPor (m : Bool) (d a b : BitVec 7) (s : State) : Result :=
  (predOp m fun l => l.setPred d.toNat (l.pred a.toNat || l.pred b.toNat)).issue s

/-- PXOR (R177). -/
def execPxor (m : Bool) (d a b : BitVec 7) (s : State) : Result :=
  (predOp m fun l => l.setPred d.toNat (l.pred a.toNat != l.pred b.toNat)).issue s

/-- PNOT (R177). -/
def execPnot (m : Bool) (d a : BitVec 7) (s : State) : Result :=
  (predOp m fun l => l.setPred d.toNat (!l.pred a.toNat)).issue s

/-- PMOV (R177). -/
def execPmov (m : Bool) (d a : BitVec 7) (s : State) : Result :=
  (predOp m fun l => l.setPred d.toNat (l.pred a.toNat)).issue s

/-- PANDN (R177). -/
def execPandn (m : Bool) (d a b : BitVec 7) (s : State) : Result :=
  (predOp m fun l => l.setPred d.toNat (l.pred a.toNat && !l.pred b.toNat)).issue s

/-- PTOS (R178): all 32 lanes, whatever their state. -/
def execPtos (m : Bool) (d a : BitVec 7) (s : State) : Result :=
  (groupOp m [d.toNat] fun x _ g => g.setU d.toNat (x.g.maskOf fun _ l => l.pred a.toNat)).issue s

/-- PFROMS (R178). -/
def execPfroms (m : Bool) (d a : BitVec 7) (s : State) : Result :=
  (laneOp m { us := [a.toNat] } (fun _ _ => true)
    fun x i l => l.setPred d.toNat ((x.g.u a.toNat).getLsbD i)).issue s

/-- SEL (R179): bits and tag; both operands are checked. -/
def execSel (m n : Bool) (p : BitVec 4) (d a b : BitVec 7) (s : State) : Result :=
  (laneOp m { vs := [d.toNat, a.toNat, b.toNat] } (fun _ _ => true)
    fun _ _ l =>
      let r := if l.pred p.toNat != n then l.get a.toNat else l.get b.toNat
      l.put d.toNat r.bits r.tag).issue s

end Sys2Proof.Machine
end

