-- ==== Sys2Proof/Machine/Dispatch.lean ====
section
/-!
DEFINITION. The dispatcher: one arm for each row of the table of operations and events.
-/

namespace Sys2Proof.Machine

-- One arm per constructor, each one direct call of its meaning.
def exec (i : Instr) (s : State) : Host.Outcome State Fault Refusal :=
  match i with
  | .iadd m d a b => Sys2Proof.Machine.execIadd m d a b s
  | .isub m d a b => Sys2Proof.Machine.execIsub m d a b s
  | .imul m d a b => Sys2Proof.Machine.execImul m d a b s
  | .imulh m d a b => Sys2Proof.Machine.execImulh m d a b s
  | .imulhu m d a b => Sys2Proof.Machine.execImulhu m d a b s
  | .imad m d a b => Sys2Proof.Machine.execImad m d a b s
  | .imin m d a b => Sys2Proof.Machine.execImin m d a b s
  | .imax m d a b => Sys2Proof.Machine.execImax m d a b s
  | .iminu m d a b => Sys2Proof.Machine.execIminu m d a b s
  | .imaxu m d a b => Sys2Proof.Machine.execImaxu m d a b s
  | .iabs m d a => Sys2Proof.Machine.execIabs m d a s
  | .ineg m d a => Sys2Proof.Machine.execIneg m d a s
  | .and m d a b => Sys2Proof.Machine.execAnd m d a b s
  | .or m d a b => Sys2Proof.Machine.execOr m d a b s
  | .xor m d a b => Sys2Proof.Machine.execXor m d a b s
  | .andn m d a b => Sys2Proof.Machine.execAndn m d a b s
  | .shl m d a b => Sys2Proof.Machine.execShl m d a b s
  | .shr m d a b => Sys2Proof.Machine.execShr m d a b s
  | .sar m d a b => Sys2Proof.Machine.execSar m d a b s
  | .rotl m d a b => Sys2Proof.Machine.execRotl m d a b s
  | .popc m d a => Sys2Proof.Machine.execPopc m d a s
  | .clz m d a => Sys2Proof.Machine.execClz m d a s
  | .brev m d a => Sys2Proof.Machine.execBrev m d a s
  | .bfx m d a b => Sys2Proof.Machine.execBfx m d a b s
  | .bfxs m d a b => Sys2Proof.Machine.execBfxs m d a b s
  | .bfi m d a b => Sys2Proof.Machine.execBfi m d a b s
  | .iadds m d a b => Sys2Proof.Machine.execIadds m d a b s
  | .isubs m d a b => Sys2Proof.Machine.execIsubs m d a b s
  | .mov m d a => Sys2Proof.Machine.execMov m d a s
  | .retag m d a k => Sys2Proof.Machine.execRetag m d a k s
  | .ualuIadd m vc d a b => Sys2Proof.Machine.execUaluIadd m vc d a b s
  | .ualuIsub m vc d a b => Sys2Proof.Machine.execUaluIsub m vc d a b s
  | .ualuImul m vc d a b => Sys2Proof.Machine.execUaluImul m vc d a b s
  | .ualuImin m vc d a b => Sys2Proof.Machine.execUaluImin m vc d a b s
  | .ualuImax m vc d a b => Sys2Proof.Machine.execUaluImax m vc d a b s
  | .ualuIminu m vc d a b => Sys2Proof.Machine.execUaluIminu m vc d a b s
  | .ualuImaxu m vc d a b => Sys2Proof.Machine.execUaluImaxu m vc d a b s
  | .ualuAnd m vc d a b => Sys2Proof.Machine.execUaluAnd m vc d a b s
  | .ualuOr m vc d a b => Sys2Proof.Machine.execUaluOr m vc d a b s
  | .ualuXor m vc d a b => Sys2Proof.Machine.execUaluXor m vc d a b s
  | .ualuAndn m vc d a b => Sys2Proof.Machine.execUaluAndn m vc d a b s
  | .ualuShl m vc d a b => Sys2Proof.Machine.execUaluShl m vc d a b s
  | .ualuShr m vc d a b => Sys2Proof.Machine.execUaluShr m vc d a b s
  | .ualuSar m vc d a b => Sys2Proof.Machine.execUaluSar m vc d a b s
  | .ualuMov m vc d b => Sys2Proof.Machine.execUaluMov m vc d b s
  | .iaddi m d a imm => Sys2Proof.Machine.execIaddi m d a imm s
  | .andi m d a imm => Sys2Proof.Machine.execAndi m d a imm s
  | .ori m d a imm => Sys2Proof.Machine.execOri m d a imm s
  | .xori m d a imm => Sys2Proof.Machine.execXori m d a imm s
  | .shli m d a imm => Sys2Proof.Machine.execShli m d a imm s
  | .shri m d a imm => Sys2Proof.Machine.execShri m d a imm s
  | .sari m d a imm => Sys2Proof.Machine.execSari m d a imm s
  | .imuli m d a imm => Sys2Proof.Machine.execImuli m d a imm s
  | .ualuiIaddi m d a imm => Sys2Proof.Machine.execUaluiIaddi m d a imm s
  | .ualuiAndi m d a imm => Sys2Proof.Machine.execUaluiAndi m d a imm s
  | .ualuiOri m d a imm => Sys2Proof.Machine.execUaluiOri m d a imm s
  | .ualuiXori m d a imm => Sys2Proof.Machine.execUaluiXori m d a imm s
  | .ualuiShli m d a imm => Sys2Proof.Machine.execUaluiShli m d a imm s
  | .ualuiShri m d a imm => Sys2Proof.Machine.execUaluiShri m d a imm s
  | .ualuiSari m d a imm => Sys2Proof.Machine.execUaluiSari m d a imm s
  | .ualuiImuli m d a imm => Sys2Proof.Machine.execUaluiImuli m d a imm s
  | .movl m d imm => Sys2Proof.Machine.execMovl m d imm s
  | .movh m d imm => Sys2Proof.Machine.execMovh m d imm s
  | .movlUniform m d imm => Sys2Proof.Machine.execMovlUniform m d imm s
  | .movhUniform m d imm => Sys2Proof.Machine.execMovhUniform m d imm s
  | .icmp m c d a b => Sys2Proof.Machine.execIcmp m c d a b s
  | .aadd m d a b => Sys2Proof.Machine.execAadd m d a b s
  | .aaddx m d a b => Sys2Proof.Machine.execAaddx m d a b s
  | .asub m d a b => Sys2Proof.Machine.execAsub m d a b s
  | .alea m x d a b => Sys2Proof.Machine.execAlea m x d a b s
  | .acmpeq m d a b => Sys2Proof.Machine.execAcmpeq m d a b s
  | .acmpltu m d a b => Sys2Proof.Machine.execAcmpltu m d a b s
  | .afroms m d a => Sys2Proof.Machine.execAfroms m d a s
  | .fadd m d a b => Sys2Proof.Machine.execFadd m d a b s
  | .fsub m d a b => Sys2Proof.Machine.execFsub m d a b s
  | .fmul m d a b => Sys2Proof.Machine.execFmul m d a b s
  | .ffma m d a b => Sys2Proof.Machine.execFfma m d a b s
  | .ffms m d a b => Sys2Proof.Machine.execFfms m d a b s
  | .fnma m d a b => Sys2Proof.Machine.execFnma m d a b s
  | .fmin m d a b => Sys2Proof.Machine.execFmin m d a b s
  | .fmax m d a b => Sys2Proof.Machine.execFmax m d a b s
  | .fminnum m d a b => Sys2Proof.Machine.execFminnum m d a b s
  | .fmaxnum m d a b => Sys2Proof.Machine.execFmaxnum m d a b s
  | .fabs m d a => Sys2Proof.Machine.execFabs m d a s
  | .fneg m d a => Sys2Proof.Machine.execFneg m d a s
  | .fcopysign m d a b => Sys2Proof.Machine.execFcopysign m d a b s
  | .frnd m d a k => Sys2Proof.Machine.execFrnd m d a k s
  | .fclass m d a => Sys2Proof.Machine.execFclass m d a s
  | .fdot2 m d a b => Sys2Proof.Machine.execFdot2 m d a b s
  | .fdot4 m d a b => Sys2Proof.Machine.execFdot4 m d a b s
  | .fdiv m d a b => Sys2Proof.Machine.execFdiv m d a b s
  | .fscale m d a b => Sys2Proof.Machine.execFscale m d a b s
  | .fgetexp m d a => Sys2Proof.Machine.execFgetexp m d a s
  | .fgetman m d a => Sys2Proof.Machine.execFgetman m d a s
  | .fcmp m c d a b => Sys2Proof.Machine.execFcmp m c d a b s
  | .cvt m t d a elem dyn sat rnd => Sys2Proof.Machine.execCvt m t d a elem dyn sat rnd s
  | .frcp m d a => Sys2Proof.Machine.execFrcp m d a s
  | .frsq m d a => Sys2Proof.Machine.execFrsq m d a s
  | .fsqrt m d a => Sys2Proof.Machine.execFsqrt m d a s
  | .flut m d a => Sys2Proof.Machine.execFlut m d a s
  | .atload m a k => Sys2Proof.Machine.execAtload m a k s
  | .atbind m k => Sys2Proof.Machine.execAtbind m k s
  | .atstat m d => Sys2Proof.Machine.execAtstat m d s
  | .shfli m d a b => Sys2Proof.Machine.execShfli m d a b s
  | .shflu m d a k => Sys2Proof.Machine.execShflu m d a k s
  | .shfld m d a k => Sys2Proof.Machine.execShfld m d a k s
  | .shflx m d a k => Sys2Proof.Machine.execShflx m d a k s
  | .voteall m d a => Sys2Proof.Machine.execVoteall m d a s
  | .voteany m d a => Sys2Proof.Machine.execVoteany m d a s
  | .ballot m d a => Sys2Proof.Machine.execBallot m d a s
  | .redadd m d a => Sys2Proof.Machine.execRedadd m d a s
  | .redmin m d a => Sys2Proof.Machine.execRedmin m d a s
  | .redmax m d a => Sys2Proof.Machine.execRedmax m d a s
  | .redand m d a => Sys2Proof.Machine.execRedand m d a s
  | .redor m d a => Sys2Proof.Machine.execRedor m d a s
  | .redxor m d a => Sys2Proof.Machine.execRedxor m d a s
  | .scanadd m d a => Sys2Proof.Machine.execScanadd m d a s
  | .scanmax m d a => Sys2Proof.Machine.execScanmax m d a s
  | .matchLanes m d a => Sys2Proof.Machine.execMatchLanes m d a s
  | .bcast m d a k => Sys2Proof.Machine.execBcast m d a k s
  | .splat m d a => Sys2Proof.Machine.execSplat m d a s
  | .pand m d a b => Sys2Proof.Machine.execPand m d a b s
  | .por m d a b => Sys2Proof.Machine.execPor m d a b s
  | .pxor m d a b => Sys2Proof.Machine.execPxor m d a b s
  | .pnot m d a => Sys2Proof.Machine.execPnot m d a s
  | .pmov m d a => Sys2Proof.Machine.execPmov m d a s
  | .pandn m d a b => Sys2Proof.Machine.execPandn m d a b s
  | .ptos m d a => Sys2Proof.Machine.execPtos m d a s
  | .pfroms m d a => Sys2Proof.Machine.execPfroms m d a s
  | .sel m n p d a b => Sys2Proof.Machine.execSel m n p d a b s
  | .bra m n p off => Sys2Proof.Machine.execBra m n p off s
  | .call m wsh off => Sys2Proof.Machine.execCall m wsh off s
  | .brx m a => Sys2Proof.Machine.execBrx m a s
  | .ret m => Sys2Proof.Machine.execRet m s
  | .wbase m a => Sys2Proof.Machine.execWbase m a s
  | .wadj m k => Sys2Proof.Machine.execWadj m k s
  | .jenr m d => Sys2Proof.Machine.execJenr m d s
  | .jarv m d => Sys2Proof.Machine.execJarv m d s
  | .jstk m d => Sys2Proof.Machine.execJstk m d s
  | .jclr m d => Sys2Proof.Machine.execJclr m d s
  | .jqry m d a => Sys2Proof.Machine.execJqry m d a s
  | .yield m => Sys2Proof.Machine.execYield m s
  | .safept m => Sys2Proof.Machine.execSafept m s
  | .exit m => Sys2Proof.Machine.execExit m s
  | .nop m => Sys2Proof.Machine.execNop m s
  | .resume m => Sys2Proof.Machine.execResume m s
  | .acbase m k => Sys2Proof.Machine.execAcbase m k s
  | .sread m d cls b => Sys2Proof.Machine.execSread m d cls b s
  | .swrite m cls a b => Sys2Proof.Machine.execSwrite m cls a b s
  | .trap m k => Sys2Proof.Machine.execTrap m k s
  | .svcNull m => Sys2Proof.Machine.execSvcNull m s
  | .svcStack m => Sys2Proof.Machine.execSvcStack m s
  | .svcMap m => Sys2Proof.Machine.execSvcMap m s
  | .svcLog m => Sys2Proof.Machine.execSvcLog m s
  | .svcUnprovided m k => Sys2Proof.Machine.execSvcUnprovided m k s
  | .bkpt m k => Sys2Proof.Machine.execBkpt m k s
  | .tret m => Sys2Proof.Machine.execTret m s
  | .tskip m => Sys2Proof.Machine.execTskip m s
  | .tkill m => Sys2Proof.Machine.execTkill m s
  | .ldg m acc d a b => Sys2Proof.Machine.execLdg m acc d a b s
  | .stg m acc d a b => Sys2Proof.Machine.execStg m acc d a b s
  | .ldp m acc d a b => Sys2Proof.Machine.execLdp m acc d a b s
  | .stp m acc d a b => Sys2Proof.Machine.execStp m acc d a b s
  | .ldu m acc d a b => Sys2Proof.Machine.execLdu m acc d a b s
  | .stu m acc d a b => Sys2Proof.Machine.execStu m acc d a b s
  | .atom m r op d a b => Sys2Proof.Machine.execAtom m r op d a b s
  | .atomp m r op d a b => Sys2Proof.Machine.execAtomp m r op d a b s
  | .fence m k => Sys2Proof.Machine.execFence m k s
  | .bar m => Sys2Proof.Machine.execBar m s
  | .cbar m => Sys2Proof.Machine.execCbar m s
  | .bcinit m a b => Sys2Proof.Machine.execBcinit m a b s
  | .bcexp m a b => Sys2Proof.Machine.execBcexp m a b s
  | .bcwait m a => Sys2Proof.Machine.execBcwait m a s
  | .tginit m a => Sys2Proof.Machine.execTginit m a s
  | .tgacq m d a => Sys2Proof.Machine.execTgacq m d a s
  | .tgcmt m d a b => Sys2Proof.Machine.execTgcmt m d a b s
  | .tgwait m d a => Sys2Proof.Machine.execTgwait m d a s
  | .tgrel m a => Sys2Proof.Machine.execTgrel m a s
  | .evsig m k => Sys2Proof.Machine.execEvsig m k s
  | .evwait m a k => Sys2Proof.Machine.execEvwait m a k s
  | .twait m a => Sys2Proof.Machine.execTwait m a s
  | .cpy m d a => Sys2Proof.Machine.execCpy m d a s
  | .gath m d a => Sys2Proof.Machine.execGath m d a s
  | .scat m d a => Sys2Proof.Machine.execScat m d a s
  | .coll m d a => Sys2Proof.Machine.execColl m d a s
  | .bankop m d a => Sys2Proof.Machine.execBankop m d a s
  | .bankred m d a => Sys2Proof.Machine.execBankred m d a s
  | .pfetch m lvl a b => Sys2Proof.Machine.execPfetch m lvl a b s
  | .cflush m d a b => Sys2Proof.Machine.execCflush m d a b s
  | .cinv m d a b => Sys2Proof.Machine.execCinv m d a b s
  | .engst m d a k => Sys2Proof.Machine.execEngst m d a k s
  | .task m d a => Sys2Proof.Machine.execTask m d a s
  | .tsucc m d a b => Sys2Proof.Machine.execTsucc m d a b s
  | .tstat m d k => Sys2Proof.Machine.execTstat m d k s
  | .ctdecl m d a => Sys2Proof.Machine.execCtdecl m d a s
  | .ctdeclFree m d a => Sys2Proof.Machine.execCtdeclFree m d a s
  | .ctpost m d a b => Sys2Proof.Machine.execCtpost m d a b s
  | .ctget m d a b => Sys2Proof.Machine.execCtget m d a b s
  | .ctstat m d a => Sys2Proof.Machine.execCtstat m d a s
  | .tdset m d a => Sys2Proof.Machine.execTdset m d a s
  | .bload m a b => Sys2Proof.Machine.execBload m a b s
  | .bloadFree m a b => Sys2Proof.Machine.execBloadFree m a b s
  | .scpush m d a b => Sys2Proof.Machine.execScpush m d a b s
  | .mma m d a b => Sys2Proof.Machine.execMma m d a b s
  | .bstatSlot m d a => Sys2Proof.Machine.execBstatSlot m d a s
  | .bstatQueue m d a => Sys2Proof.Machine.execBstatQueue m d a s
  | .bstatError m d => Sys2Proof.Machine.execBstatError m d s
  | .bstatDrain m d => Sys2Proof.Machine.execBstatDrain m d s
  | .aczero m d => Sys2Proof.Machine.execAczero m d s
  | .acld m d a b => Sys2Proof.Machine.execAcld m d a b s
  | .acst m d a => Sys2Proof.Machine.execAcst m d a s
  | .acadd m d a b => Sys2Proof.Machine.execAcadd m d a b s
  | .acmul m d a b => Sys2Proof.Machine.execAcmul m d a b s
  | .acovf m d a => Sys2Proof.Machine.execAcovf m d a s
  | .acmov m d a => Sys2Proof.Machine.execAcmov m d a s
  | .illegalInstruction => Sys2Proof.Machine.execIllegalInstruction s
  | .kmov d a => Sys2Proof.Machine.execKmov d a s
  | .kmovi d imm => Sys2Proof.Machine.execKmovi d imm s
  | .kmoviSh d imm => Sys2Proof.Machine.execKmoviSh d imm s
  | .kadd d a b imm => Sys2Proof.Machine.execKadd d a b imm s
  | .ksub d a b => Sys2Proof.Machine.execKsub d a b s
  | .kand d a b => Sys2Proof.Machine.execKand d a b s
  | .kor d a b => Sys2Proof.Machine.execKor d a b s
  | .kld d a imm => Sys2Proof.Machine.execKld d a imm s
  | .kst d a imm => Sys2Proof.Machine.execKst d a imm s
  | .kbeq a b imm => Sys2Proof.Machine.execKbeq a b imm s
  | .kbne a b imm => Sys2Proof.Machine.execKbne a b imm s
  | .kblt a b imm => Sys2Proof.Machine.execKblt a b imm s
  | .kjmp imm => Sys2Proof.Machine.execKjmp imm s
  | .ktime d => Sys2Proof.Machine.execKtime d s
  | .ksleep a imm => Sys2Proof.Machine.execKsleep a imm s
  | .khalt imm => Sys2Proof.Machine.execKhalt imm s
  | .knop => Sys2Proof.Machine.execKnop s
  | .creq d a b => Sys2Proof.Machine.execCreq d a b s
  | .cwait d a b imm => Sys2Proof.Machine.execCwait d a b imm s
  | .crel d a => Sys2Proof.Machine.execCrel d a s
  | .ctol a b => Sys2Proof.Machine.execCtol a b s
  | .cstat d a imm => Sys2Proof.Machine.execCstat d a imm s
  | .cpathRoute d a => Sys2Proof.Machine.execCpathRoute d a s
  | .cpathRank d a => Sys2Proof.Machine.execCpathRank d a s
  | .cpathClear d a => Sys2Proof.Machine.execCpathClear d a s
  | .ewait a imm => Sys2Proof.Machine.execEwait a imm s
  | .esig imm => Sys2Proof.Machine.execEsig imm s
  | .ksleepExpiry ctx => Sys2Proof.Machine.execKsleepExpiry ctx s
  | .cwaitTimeout ctx => Sys2Proof.Machine.execCwaitTimeout ctx s
  | .launch msg => Sys2Proof.Machine.execLaunch msg s
  | .launchQueueHead queue => Sys2Proof.Machine.execLaunchQueueHead queue s
  | .carveoutWaitEnd queue => Sys2Proof.Machine.execCarveoutWaitEnd queue s
  | .read msg => Sys2Proof.Machine.execRead msg s
  | .write msg => Sys2Proof.Machine.execWrite msg s
  | .tinval msg => Sys2Proof.Machine.execTinval msg s
  | .terminate msg => Sys2Proof.Machine.execTerminate msg s
  | .debugAttach msg => Sys2Proof.Machine.execDebugAttach msg s
  | .debugDetach msg => Sys2Proof.Machine.execDebugDetach msg s
  | .debugHalt msg => Sys2Proof.Machine.execDebugHalt msg s
  | .debugResume msg => Sys2Proof.Machine.execDebugResume msg s
  | .debugReadRegister msg => Sys2Proof.Machine.execDebugReadRegister msg s
  | .debugWriteRegister msg => Sys2Proof.Machine.execDebugWriteRegister msg s
  | .mgmtThresholds msg => Sys2Proof.Machine.execMgmtThresholds msg s
  | .mgmtAgeingQuantum msg => Sys2Proof.Machine.execMgmtAgeingQuantum msg s
  | .mgmtParkDelay msg => Sys2Proof.Machine.execMgmtParkDelay msg s
  | .mgmtSpdistCap msg => Sys2Proof.Machine.execMgmtSpdistCap msg s
  | .mgmtPowerLimit msg => Sys2Proof.Machine.execMgmtPowerLimit msg s
  | .mgmtReadCounters msg => Sys2Proof.Machine.execMgmtReadCounters msg s
  | .mgmtRaiseSvn msg => Sys2Proof.Machine.execMgmtRaiseSvn msg s
  | .mgmtReservedBase msg => Sys2Proof.Machine.execMgmtReservedBase msg s
  | .attest msg => Sys2Proof.Machine.execAttest msg s
  | .devrsp msg => Sys2Proof.Machine.execDevrsp msg s
  | .devrspTimeout req => Sys2Proof.Machine.execDevrspTimeout req s
  | .bootdata msg => Sys2Proof.Machine.execBootdata msg s
  | .powerGood => Sys2Proof.Machine.execPowerGood s
  | .boardReset => Sys2Proof.Machine.execBoardReset s
  | .firmwareReady reservedGiB blocks => Sys2Proof.Machine.execFirmwareReady reservedGiB blocks s
  | .gridCompletion grid => Sys2Proof.Machine.execGridCompletion grid s
  | .gridTerminationDone grid => Sys2Proof.Machine.execGridTerminationDone grid s
  | .candidatePlacement team => Sys2Proof.Machine.execCandidatePlacement team s
  | .taskDispatch record => Sys2Proof.Machine.execTaskDispatch record s
  | .spillRefill grid => Sys2Proof.Machine.execSpillRefill grid s
  | .ringPageMapped grid ok => Sys2Proof.Machine.execRingPageMapped grid ok s
  | .serviceablePageMapped grid va ok entry => Sys2Proof.Machine.execServiceablePageMapped grid va ok entry s
  | .fairnessRotation group => Sys2Proof.Machine.execFairnessRotation group s
  | .rotationEnd group => Sys2Proof.Machine.execRotationEnd group s
  | .safePointDistanceFault group => Sys2Proof.Machine.execSafePointDistanceFault group s
  | .pendingResultLands result => Sys2Proof.Machine.execPendingResultLands result s
  | .fenceRelease group wait => Sys2Proof.Machine.execFenceRelease group wait s
  | .twaitRelease group => Sys2Proof.Machine.execTwaitRelease group s
  | .handlerStart group => Sys2Proof.Machine.execHandlerStart group s
  | .trackerEntryFree core group => Sys2Proof.Machine.execTrackerEntryFree core group s
  | .successorDecrement core group => Sys2Proof.Machine.execSuccessorDecrement core group s
  | .companionRetry record => Sys2Proof.Machine.execCompanionRetry record s
  | .groupPark group => Sys2Proof.Machine.execGroupPark group s
  | .groupWake group => Sys2Proof.Machine.execGroupWake group s
  | .timeSliceExpiry team => Sys2Proof.Machine.execTimeSliceExpiry team s
  | .preemptionRequest team => Sys2Proof.Machine.execPreemptionRequest team s
  | .teamSave team => Sys2Proof.Machine.execTeamSave team s
  | .saveComplete team => Sys2Proof.Machine.execSaveComplete team s
  | .teamRestore team => Sys2Proof.Machine.execTeamRestore team s
  | .sensorSample core temp watts => Sys2Proof.Machine.execSensorSample core temp watts s
  | .powerStop watts => Sys2Proof.Machine.execPowerStop watts s
  | .migrationRequest src dst => Sys2Proof.Machine.execMigrationRequest src dst s
  | .migrationTransferDone src => Sys2Proof.Machine.execMigrationTransferDone src s
  | .leaseExpiry core superblock => Sys2Proof.Machine.execLeaseExpiry core superblock s
  | .ingressWriteback line => Sys2Proof.Machine.execIngressWriteback line s
  | .engineRunDelivered core handle => Sys2Proof.Machine.execEngineRunDelivered core handle s
  | .engineCompletion core handle => Sys2Proof.Machine.execEngineCompletion core handle s
  | .circuitBarrierMatch core handle => Sys2Proof.Machine.execCircuitBarrierMatch core handle s
  | .atloadComplete core bank => Sys2Proof.Machine.execAtloadComplete core bank s
  | .bloadTurn core => Sys2Proof.Machine.execBloadTurn core s
  | .mmaStep core => Sys2Proof.Machine.execMmaStep core s
  | .acstTurn core => Sys2Proof.Machine.execAcstTurn core s
  | .matrixQueueTurn core => Sys2Proof.Machine.execMatrixQueueTurn core s
  | .circuitGrant port peerPort setup => Sys2Proof.Machine.execCircuitGrant port peerPort setup s
  | .brokerRefusal port code => Sys2Proof.Machine.execBrokerRefusal port code s
  | .lightDetected port => Sys2Proof.Machine.execLightDetected port s
  | .lightTimeout port => Sys2Proof.Machine.execLightTimeout port s
  | .lockAchieved port => Sys2Proof.Machine.execLockAchieved port s
  | .lockTimeout port => Sys2Proof.Machine.execLockTimeout port s
  | .trainingDone port rank => Sys2Proof.Machine.execTrainingDone port rank s
  | .trainingTimeout port => Sys2Proof.Machine.execTrainingTimeout port s
  | .liveHandshakeDone port => Sys2Proof.Machine.execLiveHandshakeDone port s
  | .portDoze port => Sys2Proof.Machine.execPortDoze port s
  | .portNap port => Sys2Proof.Machine.execPortNap port s
  | .portWake port => Sys2Proof.Machine.execPortWake port s
  | .drainEnd port => Sys2Proof.Machine.execDrainEnd port s
  | .drainTimeout port => Sys2Proof.Machine.execDrainTimeout port s
  | .laneFailure channel lanes => Sys2Proof.Machine.execLaneFailure channel lanes s
  | .retrainEnd channel => Sys2Proof.Machine.execRetrainEnd channel s
  | .retrainTimeout channel => Sys2Proof.Machine.execRetrainTimeout channel s
  | .lightLoss port => Sys2Proof.Machine.execLightLoss port s
  | .ucieFailure port => Sys2Proof.Machine.execUcieFailure port s
  | .elinkDown link => Sys2Proof.Machine.execElinkDown link s
  | .flitReceive channel flit => Sys2Proof.Machine.execFlitReceive channel flit s
  | .retryTimeout channel => Sys2Proof.Machine.execRetryTimeout channel s
  | .packetReceive channel packet => Sys2Proof.Machine.execPacketReceive channel packet s
  | .collChunkReceive msg => Sys2Proof.Machine.execCollChunkReceive msg s
  | .cuttingWaitExpiry record => Sys2Proof.Machine.execCuttingWaitExpiry record s
  | .ctgetTurn core handle => Sys2Proof.Machine.execCtgetTurn core handle s
  | .ctpostTurn core handle => Sys2Proof.Machine.execCtpostTurn core handle s
  | .commitWritebackDone group => Sys2Proof.Machine.execCommitWritebackDone group s
  | .speculativeRoomSquash core => Sys2Proof.Machine.execSpeculativeRoomSquash core s
  | .speculativeLineError core group => Sys2Proof.Machine.execSpeculativeLineError core group s
  | .fetchFault group => Sys2Proof.Machine.execFetchFault group s
  | .scriptIllegalWord ctx => Sys2Proof.Machine.execScriptIllegalWord ctx s
  | .peerRelease port => Sys2Proof.Machine.execPeerRelease port s
  | .peerFault port => Sys2Proof.Machine.execPeerFault port s
  | .rankReport channel rank => Sys2Proof.Machine.execRankReport channel rank s
  | .electricalLinkTrained link rank => Sys2Proof.Machine.execElectricalLinkTrained link rank s
  | .powerStopEnd watts => Sys2Proof.Machine.execPowerStopEnd watts s
  | .heldRecordRetry group => Sys2Proof.Machine.execHeldRecordRetry group s
  | .unknownMtype msg => Sys2Proof.Machine.execUnknownMtype msg s

end Sys2Proof.Machine
end

