-- ==== Sys2Proof/Machine/Events.lean ====
section
/-!
DEFINITION. What one step chooses: the next group or context to issue (R18, R20, R55, R330, R345), the next input (R384,
R386), the next step that the part takes by itself, and the passing of time (DESIGN CHOICE, log 5).
-/

namespace Sys2Proof.Machine

/-- The next context to execute in this cycle (R343, R345). -/
def State.nextCtx (s : State) : Option Nat :=
  (List.range 4).find? fun n => s.clock.turn ≤ 512 + n && (s.ctx n).ready s.gtime

/-- Sets whose turn is next. -/
def State.turnTo (s : State) (k : Nat) : State := { s with clock := { s.clock with turn := k } }

/-- The next state with the turn set. -/
def turned (k : Nat) : Result → Result
  | .next s => .next (s.turnTo k)
  | r => r

/-! ## What a fetched word stands for (DEDUCED, log 11) -/

/-- The rows that share one word are told apart by the registers they read: CTDECL and BLOAD by FREE, CPATH by OPC. -/
def State.refine (s : State) : Instr → Instr
  | .ctdecl m d a => if s.curBit a.toNat 31 then .ctdeclFree m d a else .ctdecl m d a
  | .bload m a b => if s.curBit (b.toNat + 2) 7 then .bloadFree m a b else .bload m a b
  | .cpathRoute d a =>
    match bitsOf ((s.ctx s.curCtx).reg a).toNat 0 4 with
    | 1 => .cpathRank d a
    | 2 => .cpathClear d a
    | _ => .cpathRoute d a
  | i => i

/-- A group waits for the page its next instruction lies on (R272). -/
def State.waitForCode (s : State) (group : Nat) : State :=
  match s.siteOf group with
  | none => s
  | some x => s.modGroup group fun g => g.onLanes x.mask fun _ l => { l with service := some x.pc.toNat }

/-- A context waits for the page its next instruction lies on (R272). -/
def State.waitForScript (s : State) (n va : Nat) : State :=
  s.modCtx n fun c => { c with wait := some (.page va true) }

/-! ## Inputs (R298, R384 to R386) -/

/-- The step a message of the node is (R385, R389, R395). -/
def State.takeMessage (s : State) (msg : CtlMsg) : Result :=
  match decodeMessage msg with
  | .launch => execLaunch msg s
  | .read => execRead msg s
  | .write => execWrite msg s
  | .tinval => execTinval msg s
  | .terminate => execTerminate msg s
  | .debugAttach => execDebugAttach msg s
  | .debugDetach => execDebugDetach msg s
  | .debugHalt => execDebugHalt msg s
  | .debugResume => execDebugResume msg s
  | .debugReadRegister => execDebugReadRegister msg s
  | .debugWriteRegister => execDebugWriteRegister msg s
  | .mgmtThresholds => execMgmtThresholds msg s
  | .mgmtAgeingQuantum => execMgmtAgeingQuantum msg s
  | .mgmtParkDelay => execMgmtParkDelay msg s
  | .mgmtSpdistCap => execMgmtSpdistCap msg s
  | .mgmtPowerLimit => execMgmtPowerLimit msg s
  | .mgmtReadCounters => execMgmtReadCounters msg s
  | .mgmtRaiseSvn => execMgmtRaiseSvn msg s
  | .mgmtReservedBase => execMgmtReservedBase msg s
  | .attest => execAttest msg s
  | .devrsp => execDevrsp msg s
  | .bootdata => execBootdata msg s
  | .unknownMtype => execUnknownMtype msg s

/-- Adds numbers to a list of damaged places. -/
def addDamage (ds new : List Nat) : List Nat := ds ++ new.filter fun d => !ds.contains d

/-- The update of an ATOM whose old value is on its way. -/
def Pend.atomUpdate (p : Pend) (u : Update) : Bool :=
  match p.what with
  | .atom pa _ => u.word == pa && u.atomic && u.source == p.group && (u.writer.lanes &&& p.lanes) != 0
  | _ => false

/-- The ATOMs that wait at a line, their updates not yet visible, take the data-error fault, and their updates are not made
(R300). -/
def State.failAtoms (s : State) (line : Nat) : State :=
  let waits (u : Update) : Bool := u.word / 128 == line && s.gtime < u.wct
  let hit := s.pend.filter fun p => s.mem.updates.any fun u => waits u && p.atomUpdate u
  let mem := { s.mem with updates := s.mem.updates.filter fun u => !(waits u && s.pend.any (·.atomUpdate u)) }
  hit.foldl (fun s p => s.failPend p (Cause.dataError p.va)) { s with mem := mem }

/-- An uncorrectable error in a line of the last-level cache (R298, R300): a clean line is in error for this cycle and
then dropped; a dirty line, or one of bank memory, is reported and stays in error. -/
def State.lineError (s : State) (line : Nat) : State :=
  let bit : BitVec 4 := BitVec.ofNat 4 (2 ^ (line % 4))
  let held (f : SliceBlock → BitVec 4) : Bool := s.mem.llc.any fun b => b.block == line / 4 && f b &&& bit != 0
  if Config.bankBase ≤ 128 * line || held (·.dirty) then
    let mem := { s.mem with badLines := tput s.mem.badLines line (BitVec.allOnes 8) }
    (({ s with mem := mem } : State).failAtoms line).event 2 (128 * line) []
  else if held (·.valid) then { s with mem := { s.mem with passing := addDamage s.mem.passing [line] } }
  else s

/-- An error in a stored place (R298; DESIGN CHOICE, log 13): a correctable one is counted; the others damage what they
stand in. -/
def State.soften (s : State) : SoftError → State
  | .corrected => { s with fw := { s.fw with eccCorrections := s.fw.eccCorrections + 1 } }
  | .hbm a => { s with mem := { s.mem with damage := addDamage s.mem.damage [a / 32] } }
  | .line a => s.lineError (a / 128)
  | .l1 core a => s.modCore core fun c =>
    { c with l1 := c.l1.map fun b =>
        if b.block = blockOf a then { b with lines := b.lines &&& ~~~BitVec.ofNat 4 (2 ^ (a / 128 % 4)) } else b }
  | .scratch t off => s.modTeam t fun t => { t with scratchDamage := addDamage t.scratchDamage [off / 8] }
  | .accumulator t e => s.modTeam t fun t => { t with accDamage := addDamage t.accDamage [e / 2] }
  | .weightSlot core k => s.modCore core fun c => { c with parity := addDamage c.parity [k] }
  | .scalePacket core p => s.modCore core fun c =>
    { c with packets := c.packets.map fun q => if q.id = p then { q with damaged := true } else q }

/-- The step that something from outside is. -/
def State.takeEnv (s : State) : Env → Result
  | .powerGood => execPowerGood s
  | .boardReset => execBoardReset s
  | .firmwareReady n blocks => execFirmwareReady n blocks s
  | .ringPageMapped grid ok => execRingPageMapped grid ok s
  | .serviceablePageMapped grid va ok entry => execServiceablePageMapped grid va ok entry s
  | .firmwarePolicy depth weights =>
    .next (if depth.any (15 < ·) then s else { s with fw := { s.fw with depthLimit := depth, weights := weights } })
  | .portTol port tol => .next (s.modPort port fun p => { p with tol := tol % 2 ^ 20 })
  | .sensorSample core temp watts => execSensorSample core temp watts s
  | .powerStop watts => execPowerStop watts s
  | .powerStopEnd watts => execPowerStopEnd watts s
  | .migrationRequest src dst => execMigrationRequest src dst s
  | .circuitGrant port peerPort setup => execCircuitGrant port peerPort setup s
  | .brokerRefusal port code => execBrokerRefusal port code s
  | .lightDetected port => execLightDetected port s
  | .lockAchieved port => execLockAchieved port s
  | .trainingDone port rank => execTrainingDone port rank s
  | .portWake port => execPortWake port s
  | .laneFailure channel lanes => execLaneFailure channel lanes s
  | .retrainEnd channel => execRetrainEnd channel s
  | .lightLoss port => execLightLoss port s
  | .ucieFailure port => execUcieFailure port s
  | .elinkDown link => execElinkDown link s
  | .electricalLinkTrained link rank => execElectricalLinkTrained link rank s
  | .flitReceive channel flit => execFlitReceive channel flit s
  | .speculativeLineError core group => execSpeculativeLineError core group s
  | .peerRelease port => execPeerRelease port s
  | .peerFault port => execPeerFault port s
  | .rankReport channel rank => execRankReport channel rank s
  | .softError e => .next (s.soften e)

/-- Performs an input. -/
def State.takeInput (s : State) : Input → Result
  | .message bs => s.takeMessage (CtlMsg.parse bs)
  | .env e => s.takeEnv e

/-- A READ waits for the write-back of a line that the ingress atomic cache owns (R359). -/
def State.awaitsWriteBack (s : State) (msg : CtlMsg) : Bool :=
  msg.mtype == 2 && s.gtime < s.mem.ingressUntil msg.addr (leNat msg.payload)

/-- An input has come and may be taken: a message waits for the one before it (R386). -/
def State.mayTake (s : State) (t : Nat) : Input → Bool
  | .message bs => t ≤ s.clock.tick && s.busy.isNone && !s.awaitsWriteBack (CtlMsg.parse bs)
  | .env _ => t ≤ s.clock.tick

/-- A message, rather than something else from outside. -/
def Input.isMessage : Input → Bool
  | .message _ => true
  | .env _ => false

/-- The first input that may be taken, and the inputs left; messages keep their order, so an earlier one that has to wait
(`held`) holds the later ones. -/
def State.splitInputs (s : State) : Bool → List (Nat × Input) → Option (Input × List (Nat × Input))
  | _, [] => none
  | held, (t, i) :: rest =>
    if s.mayTake t i && !(held && i.isMessage) then some (i, rest)
    else (s.splitInputs (held || i.isMessage) rest).map fun (j, left) => (j, (t, i) :: left)

/-! ## What the part does by itself -/

/-- The steps of the table that the part takes by itself, and what is settled between them: waits that are over, segments
that have ended, squashed groups that can go, records that no longer wait for a version, the message under way. -/
inductive Ev where
  | powerGood
  | settle
  | ksleepExpiry (ctx : Nat)
  | cwaitTimeout (ctx : Nat)
  | launchQueueHead (queue : Nat)
  | carveoutWaitEnd (queue : Nat)
  | devrspTimeout (req : Nat)
  | gridCompletion (grid : Nat)
  | gridTerminationDone (grid : Nat)
  | candidatePlacement (team : Nat)
  | taskDispatch (record : Nat)
  | spillRefill (grid : Nat)
  | fairnessRotation (group : Nat)
  | rotationEnd (group : Nat)
  | pendingResultLands (result : Nat)
  | fenceRelease (group wait : Nat)
  | twaitRelease (group : Nat)
  | handlerStart (group : Nat)
  | trackerEntryFree (core group : Nat)
  | successorDecrement (core group : Nat)
  | companionRetry (record : Nat)
  | heldRecordRetry (group : Nat)
  | groupPark (group : Nat)
  | groupWake (group : Nat)
  | timeSliceExpiry (team : Nat)
  | preemptionRequest (team : Nat)
  | teamSave (team : Nat)
  | saveComplete (team : Nat)
  | teamRestore (team : Nat)
  | migrationTransferDone (src : Nat)
  | leaseExpiry (core superblock : Nat)
  | ingressWriteback (line : Nat)
  | engineRunDelivered (core handle : Nat)
  | engineCompletion (core handle : Nat)
  | circuitBarrierMatch (core handle : Nat)
  | atloadComplete (core bank : Nat)
  | bloadTurn (core : Nat)
  | mmaStep (core : Nat)
  | acstTurn (core : Nat)
  | matrixQueueTurn (core : Nat)
  | lightTimeout (port : Nat)
  | lockTimeout (port : Nat)
  | trainingTimeout (port : Nat)
  | liveHandshakeDone (port : Nat)
  | portDoze (port : Nat)
  | portNap (port : Nat)
  | portWake (port : Nat)
  | drainEnd (port : Nat)
  | drainTimeout (port : Nat)
  | retrainTimeout (channel : Nat)
  | retryTimeout (channel : Nat)
  | packetReceive (channel : Nat) (packet : List Byte)
  | cuttingWaitExpiry (record : Nat)
  | ctgetTurn (core handle : Nat)
  | ctpostTurn (core handle : Nat)
  | commitWritebackDone (group : Nat)
  | speculativeRoomSquash (core : Nat)
  deriving DecidableEq, Repr

/-- Everything that is settled between steps. -/
def State.settleAll (s : State) : State :=
  s.settleWaits.settleCtxs.reapAll.ungate.endSegments.settleBusy

/-- The step an event is. -/
def Ev.run (s : State) : Ev → Result
  | .powerGood => execPowerGood s
  | .settle => .next s.settleAll
  | .ksleepExpiry n => execKsleepExpiry n s
  | .cwaitTimeout n => execCwaitTimeout n s
  | .launchQueueHead q => execLaunchQueueHead q s
  | .carveoutWaitEnd q => execCarveoutWaitEnd q s
  | .devrspTimeout r => execDevrspTimeout r s
  | .gridCompletion g => execGridCompletion g s
  | .gridTerminationDone g => execGridTerminationDone g s
  | .candidatePlacement t => execCandidatePlacement t s
  | .taskDispatch r => execTaskDispatch r s
  | .spillRefill g => execSpillRefill g s
  | .fairnessRotation g => execFairnessRotation g s
  | .rotationEnd g => execRotationEnd g s
  | .pendingResultLands r => execPendingResultLands r s
  | .fenceRelease g w => execFenceRelease g w s
  | .twaitRelease g => execTwaitRelease g s
  | .handlerStart g => execHandlerStart g s
  | .trackerEntryFree c g => execTrackerEntryFree c g s
  | .successorDecrement c g => execSuccessorDecrement c g s
  | .companionRetry r => execCompanionRetry r s
  | .heldRecordRetry g => execHeldRecordRetry g s
  | .groupPark g => execGroupPark g s
  | .groupWake g => execGroupWake g s
  | .timeSliceExpiry t => execTimeSliceExpiry t s
  | .preemptionRequest t => execPreemptionRequest t s
  | .teamSave t => execTeamSave t s
  | .saveComplete t => execSaveComplete t s
  | .teamRestore t => execTeamRestore t s
  | .migrationTransferDone c => execMigrationTransferDone c s
  | .leaseExpiry c b => execLeaseExpiry c b s
  | .ingressWriteback l => execIngressWriteback l s
  | .engineRunDelivered c h => execEngineRunDelivered c h s
  | .engineCompletion c h => execEngineCompletion c h s
  | .circuitBarrierMatch c h => execCircuitBarrierMatch c h s
  | .atloadComplete c b => execAtloadComplete c b s
  | .bloadTurn c => execBloadTurn c s
  | .mmaStep c => execMmaStep c s
  | .acstTurn c => execAcstTurn c s
  | .matrixQueueTurn c => execMatrixQueueTurn c s
  | .lightTimeout p => execLightTimeout p s
  | .lockTimeout p => execLockTimeout p s
  | .trainingTimeout p => execTrainingTimeout p s
  | .liveHandshakeDone p => execLiveHandshakeDone p s
  | .portDoze p => execPortDoze p s
  | .portNap p => execPortNap p s
  | .portWake p => if s.mustWake p then execPortWake p s else .next s
  | .drainEnd p => execDrainEnd p s
  | .drainTimeout p => execDrainTimeout p s
  | .retrainTimeout c => execRetrainTimeout c s
  | .retryTimeout c => execRetryTimeout c s
  | .packetReceive c bs => execPacketReceive c bs s
  | .cuttingWaitExpiry r => execCuttingWaitExpiry r s
  | .ctgetTurn c h => execCtgetTurn c h s
  | .ctpostTurn c h => execCtpostTurn c h s
  | .commitWritebackDone g => execCommitWritebackDone g s
  | .speculativeRoomSquash c => execSpeculativeRoomSquash c s

/-- The events a lane's wait may bring. -/
def Lane.events (group : Nat) (l : Lane) : List Ev :=
  match l.state with
  | .wait (.fence _ id) => [.fenceRelease group id]
  | .wait (.twait _) => [.twaitRelease group]
  | _ => []

/-- The events a group may bring. -/
def Group.events (g : Group) : List Ev :=
  (g.lanes.map (·.events g.uid)).flatten ++
    [.fairnessRotation g.uid, .rotationEnd g.uid, .handlerStart g.uid, .groupWake g.uid, .groupPark g.uid]

/-- The events an engine operation may bring: the turn of a CTGET or CTPOST, the barrier of a waiting copy, its runs and
its end. -/
def EngOp.events (core : Nat) (op : EngOp) : List Ev :=
  (if op.kind = 12 then [.ctgetTurn core op.handle, .engineRunDelivered core op.handle]
   else if op.kind = 11 then [.ctpostTurn core op.handle]
   else [.circuitBarrierMatch core op.handle, .engineRunDelivered core op.handle]) ++ [.engineCompletion core op.handle]

/-- The events a core may bring. -/
def Core.events (i : Nat) (c : Core) : List Ev :=
  (mapFrom (fun k (b : ActBank) => if b.load.isSome then [Ev.atloadComplete i k] else []) 0 c.banks).flatten ++
    (c.ops.map (·.events i)).flatten ++
    (if c.matrix.isEmpty then [] else [.bloadTurn i, .mmaStep i, .acstTurn i, .matrixQueueTurn i]) ++
    (if c.migrating.isSome then [.migrationTransferDone i] else []) ++ (c.l1.map fun b => .leaseExpiry i b.block)

/-- The events a channel may bring. -/
def Channel.events (c : Nat) (ch : Channel) : List Ev :=
  (if ch.retrain.isSome then [.retrainTimeout c] else []) ++ (if ch.retry.isEmpty then [] else [.retryTimeout c])

/-- The events a port may bring. -/
def Port.events (n : Nat) (p : Port) : List Ev :=
  if p.state == .dark then []
  else
    [.lightTimeout n, .lockTimeout n, .trainingTimeout n, .liveHandshakeDone n, .portWake n, .portDoze n, .portNap n,
      .drainEnd n, .drainTimeout n] ++ p.channel.events n

/-- Every event that may come about, in the order in which they are tried (DESIGN CHOICE, log 5). -/
def State.events (s : State) : List Ev :=
  (if s.boot.phase = .powerGood then [.powerGood] else []) ++ [.settle] ++
    (s.fabric.arrived.map fun (c, _, bs) => .packetReceive c bs) ++
    ((sortBy (fun p q => keyLt (s.bankOrder p) (s.bankOrder q)) s.pend).map fun p => .pendingResultLands p.id) ++
    (s.groups.map (·.events)).flatten ++
    (mapFrom (fun i (c : Core) => c.events i) 0 s.cores).flatten ++
    (s.groups.filterMap fun g => if g.spec.isSome then some (.commitWritebackDone g.uid) else none) ++
    (s.retiring.filterMap fun r => if r.spec.isSome then some (.commitWritebackDone r.group) else none) ++
    (s.groups.filterMap fun g => if g.noRoom then some (.speculativeRoomSquash (s.coreOf g.team)) else none) ++
    (s.retiring.map fun r => [Ev.successorDecrement r.core r.group, .trackerEntryFree r.core r.group]).flatten ++
    (s.kept.map fun k => if k.companion then .companionRetry k.task.uid else .heldRecordRetry k.group) ++
    (s.grids.map fun g => [Ev.spillRefill g.uid, .gridCompletion g.uid, .gridTerminationDone g.uid]).flatten ++
    (mapFrom (fun q (es : List Queued) => if es.isEmpty then [] else [Ev.carveoutWaitEnd q, .launchQueueHead q]) 0
      s.queues).flatten ++
    (s.pool.map fun t => .cuttingWaitExpiry t.uid) ++
    (s.teams.map fun t =>
      [Ev.timeSliceExpiry t.uid, .teamSave t.uid, .saveComplete t.uid, .candidatePlacement t.uid,
        .teamRestore t.uid]).flatten ++
    (s.pool.map fun t => .taskDispatch t.uid) ++ (s.teams.map fun t => .preemptionRequest t.uid) ++
    (mapFrom (fun n (c : Ctx) => if c.wait.isSome then [Ev.ksleepExpiry n, .cwaitTimeout n] else []) 0 s.ctxs).flatten ++
    (mapFrom (fun n (p : Port) => p.events n) 0 s.fabric.ports).flatten ++
    (mapFrom (fun n (l : ELink) => if l.up then l.channel.events (32 + n) else []) 0 s.fabric.links).flatten ++
    ((s.fabric.remotes.filter (·.node)).map fun r => .devrspTimeout r.id) ++
    (s.mem.ingress.map fun l => .ingressWriteback l.line)

/-- The state an event leads to, if it changes anything. -/
def State.tryEvent (s : State) (e : Ev) : Option State :=
  match e.run s with
  | .next t => if t = s then none else some t
  | _ => none

/-- The first packet that has arrived and can be taken now (R351, R359). -/
def State.nextArrival (s : State) : Option State :=
  (s.fabric.arrived.map fun (c, _, bs) => Ev.packetReceive c bs).findSome? s.tryEvent

/-- The first event that changes anything. -/
def State.nextEvent (s : State) : Option State := s.events.findSome? s.tryEvent

/-! ## The end of a cycle -/

/-- The window that an ACBASE of the cycle gave takes effect (R40). -/
def Team.newCycle (t : Team) : Team := { t with accwin := t.accnext.getD t.accwin, accnext := none }

/-- The clean lines in error are dropped; the next access fetches them again from HBM (R298). -/
def Memory.dropPassing (mem : Memory) : Memory :=
  { mem with passing := [],
             llc := if mem.passing.isEmpty then mem.llc else mem.llc.map fun b =>
               mem.passing.foldl (fun b l => if l / 4 = b.block then
                 { b with valid := b.valid &&& ~~~BitVec.ofNat 4 (2 ^ (l % 4)) } else b) b }

/-- Half a nanosecond passes: updates become visible (R281), held requests and acknowledgements are sent (R287, R352),
and the next cycle's turns begin. -/
def State.tickOn (s : State) : State :=
  let s1 : State := { s with clock := { s.clock with tick := s.clock.tick + 1, turn := 0 } }
  let s2 : State := { s1 with mem := (s1.mem.dropPassing).fold s1.gtime, teams := s1.teams.map Team.newCycle,
                              groups := s1.groups.map fun g => { g with blocked := false },
                              fw := { s1.fw with throttleWas := s1.fw.throttle, powerLimitWas := s1.fw.powerLimit } }
  let s3 := s2.flushQueued.flushColl.flushAcks
  { s3 with fabric := s3.fabric.flushStranded s3.gtime }

end Sys2Proof.Machine
end

