-- ==== Sys2Proof/Machine/Step.lean ====
section
/-!
DEFINITION. One step of the part (DESIGN CHOICE, log 5), and the placing of a word where the next step fetches it (DESIGN
CHOICE, log 22).
-/

namespace Sys2Proof.Machine

/-- After an issue the cycle goes on with the next slot. A group that did not issue its instruction (R193) was not ready:
its slot serves another (R315). -/
def afterIssue (s : State) (g : Group) : Host.Outcome State Fault Refusal → Host.Outcome State Fault Refusal
  | .next t => .next (if (t.group? g.uid).any (·.blocked) then t else t.turnTo (s.slotOf g + 1))
  | r => r

/-- A group's turn: its next word is fetched, decoded and executed (R20, R71, R74). Where its code page is awaited, the
slot serves another group. -/
def stepGroup (s : State) (g : Group) (pc : Addr) : Host.Outcome State Fault Refusal :=
  let now : State := { s with cur := g.uid }
  match now.fetchAt (now.coreOf g.team) g.grid pc with
  | .service => .next (now.waitForCode g.uid)
  | .later => .next (now.modGroup g.uid fun g => { g with blocked := true })
  | .fault _ => afterIssue s g (execFetchFault g.uid now)
  | .word w =>
    let now := now.fetched g pc
    afterIssue s g
      (match decode w with
       | .ok i => exec (now.refine i) now
       | .illegalInstruction => exec .illegalInstruction now
       | .illegalOperand => execIllegalWord now)

/-- A context's turn (R343, R344). -/
def stepCtx (s : State) (n : Nat) : Host.Outcome State Fault Refusal :=
  let now : State := { s with curCtx := n }
  match now.scriptFetch (now.ctx n) with
  | .page va => .next (now.waitForScript n va)
  | .later t => .next (now.modCtx n fun c => { c with wait := some (.store t) })
  | .fault _ => execScriptIllegalWord n now
  | .word w =>
    match decodeScript w with
    | .ok i => exec (now.refine i) now
    | _ => execScriptIllegalWord n now

/-- What comes from outside in this cycle: an input, or a packet that has arrived. No slot issues after it; the contexts
do, so that an ATOMIC reaches its line before the load of a context in the same cycle (R367). -/
def stepComing (s : State) : Option (Host.Outcome State Fault Refusal) :=
  match s.splitInputs false s.inputs with
  | some (i, left) => some (turned (max s.clock.turn 512) (({ s with inputs := left } : State).takeInput i))
  | none => s.nextArrival.map fun t => .next (t.turnTo (max s.clock.turn 512))

/-- What comes after the issues of a cycle: a step the part takes by itself, or the passing of time. -/
def stepRest (s : State) : Host.Outcome State Fault Refusal :=
  match s.nextEvent with
  | some t => .next (t.turnTo 516)
  | none => .next s.tickOn

/-- What comes after the slots of a cycle: what comes from outside, else the next context's turn, else the rest. -/
def stepAfter (s : State) : Host.Outcome State Fault Refusal :=
  match stepComing s with
  | some r => r
  | none =>
    match s.nextCtx with
    | some n => turned (513 + n) (stepCtx s n)
    | none => stepRest s

/-- One step: the next slot's issue, else what comes after the slots of the cycle. -/
def step (s : State) : Host.Outcome State Fault Refusal :=
  match s.nextGroup with
  | some g =>
    match g.issueAddr with
    | some pc => stepGroup s g pc
    | none => stepAfter s
  | none => stepAfter s

/-! ## A word placed (DESIGN CHOICE, log 22) -/

/-- The addresses of the placed program: its translation root, the second table, its image and its word. -/
def placedRoot : Nat := 0x10000
def placedTable : Nat := 0x20000
def placedBase : Nat := 0x40000
def placedPc : Nat := 0x40080

/-- One leaf of 1 GiB, readable and executable, holds the image and the tables (R268, R270). -/
def placedCells (cells : List Host.Cell) (w : Nat) : List Host.Cell :=
  cputs (cputs (cputs cells placedRoot (natLe 8 (placedTable + 1))) placedTable (natLe 8 0x17)) placedPc (natLe 4 w)

/-- The placed image: one group, every register and tile, one safe point at the word, with a stub's end there. -/
def placedImage : Image :=
  { base := placedBase, isa2 := false, va := 512, teamGroups := 1, width := 1, height := 1, scratch := 65536, ca := 256,
    saveRegions := [], spdist := 0, entry := 0x80, handler := 0, codeOff := 0x80, codeSize := 128,
    safePoints := [{ pcoff := 0x80, stub := none, vlive := 0, ulive := 0, plive := 0, jlive := 0, tlive := 0,
                     alive := 0 }] }

/-- The placed launch. -/
def placedLaunch : Launch :=
  { queue := 0, prio := 0, script := false, eclass := 0, ltag := 0, image := placedBase, troot := placedRoot,
    gridX := 1, gridY := 1, bankmem := 0, depthLim := 15, stkTasks := 1, tslice := 0, ringCap := 0, stkLane := 0,
    stkBase := 0, stkInit := 0, sctx := 0, scriptAddr := 0 }

/-- The placed team, on core 0. -/
def placedTeam : Team :=
  { newTeam 2 1 0 0 0 0 0 0 0 with core := some 0, sched := .resident }

/-- The placed group: 32 lanes in RUN at the word, in slot 0 of core 0. -/
def placedGroup : Group := Group.start 3 placedTeam 0 (BitVec.ofNat 48 placedPc) 0 0 0 0

/-- The placed context. -/
def placedCtx : Ctx := startedCtx { placedLaunch with scriptAddr := placedPc } 1

/-- The next word is a core instruction's, or an illegal one, rather than a trellis word (DEDUCED, log 10). -/
def isTrellisWord (w : Nat) : Bool :=
  match decode (BitVec.ofNat 32 w), decodeScript (BitVec.ofNat 32 w) with
  | .ok _, _ => false
  | _, .ok _ => true
  | _, _ => false

/-- The state with a word where its next step fetches it (DESIGN CHOICE, log 22). -/
def State.withFetchWord (s : State) (_nbits w : Nat) : State :=
  let script := isTrellisWord w
  { s with
    clock := { s.clock with turn := 0, uid := max 4 s.clock.uid }, cur := 3, curCtx := 0,
    boot := { s.boot with phase := .ready }, fw := { s.fw with powerStop := false },
    mem := { s.mem with cells := placedCells s.mem.cells w, updates := [], tlb := [], damage := [], badLines := [], passing := [], ingress := [] },
    cores := setAt (fun c => { c with clock := 0, stopped := false, banks := c.banks.map fun b => { b with load := none } })
      0 s.cores,
    grids := [newGrid 1 placedLaunch placedImage], teams := [placedTeam],
    groups := if script then [] else [placedGroup],
    ctxs := if script then setAt (fun _ => placedCtx) 0 s.ctxs else s.ctxs,
    inputs := if script then [] else s.inputs,
    fabric := if script then { s.fabric with arrived := [] } else s.fabric }

end Sys2Proof.Machine
end

