-- ==== Sys2Proof/Laws/State.lean ====
section
/-!
SUPPORT. What each update of the state leaves alone, field by field.
-/

namespace Sys2Proof.Machine

/-! ## `State.modGroup` -/

@[simp] theorem State.modGroup_clock (s : State) (u : Nat) (f : Group → Group) :
    (s.modGroup u f).clock = s.clock := rfl
@[simp] theorem State.modGroup_cur (s : State) (u : Nat) (f : Group → Group) : (s.modGroup u f).cur = s.cur := rfl
@[simp] theorem State.modGroup_curCtx (s : State) (u : Nat) (f : Group → Group) :
    (s.modGroup u f).curCtx = s.curCtx := rfl
@[simp] theorem State.modGroup_inputs (s : State) (u : Nat) (f : Group → Group) :
    (s.modGroup u f).inputs = s.inputs := rfl
@[simp] theorem State.modGroup_outbox (s : State) (u : Nat) (f : Group → Group) :
    (s.modGroup u f).outbox = s.outbox := rfl
@[simp] theorem State.modGroup_seqOut (s : State) (u : Nat) (f : Group → Group) :
    (s.modGroup u f).seqOut = s.seqOut := rfl
@[simp] theorem State.modGroup_busy (s : State) (u : Nat) (f : Group → Group) : (s.modGroup u f).busy = s.busy := rfl
@[simp] theorem State.modGroup_chipId (s : State) (u : Nat) (f : Group → Group) :
    (s.modGroup u f).chipId = s.chipId := rfl
@[simp] theorem State.modGroup_boot (s : State) (u : Nat) (f : Group → Group) : (s.modGroup u f).boot = s.boot := rfl
@[simp] theorem State.modGroup_fw (s : State) (u : Nat) (f : Group → Group) : (s.modGroup u f).fw = s.fw := rfl
@[simp] theorem State.modGroup_mem (s : State) (u : Nat) (f : Group → Group) : (s.modGroup u f).mem = s.mem := rfl
@[simp] theorem State.modGroup_cores (s : State) (u : Nat) (f : Group → Group) :
    (s.modGroup u f).cores = s.cores := rfl
@[simp] theorem State.modGroup_teams (s : State) (u : Nat) (f : Group → Group) :
    (s.modGroup u f).teams = s.teams := rfl
@[simp] theorem State.modGroup_grids (s : State) (u : Nat) (f : Group → Group) :
    (s.modGroup u f).grids = s.grids := rfl
@[simp] theorem State.modGroup_queues (s : State) (u : Nat) (f : Group → Group) :
    (s.modGroup u f).queues = s.queues := rfl
@[simp] theorem State.modGroup_pool (s : State) (u : Nat) (f : Group → Group) : (s.modGroup u f).pool = s.pool := rfl
@[simp] theorem State.modGroup_kept (s : State) (u : Nat) (f : Group → Group) : (s.modGroup u f).kept = s.kept := rfl
@[simp] theorem State.modGroup_retiring (s : State) (u : Nat) (f : Group → Group) :
    (s.modGroup u f).retiring = s.retiring := rfl
@[simp] theorem State.modGroup_cuts (s : State) (u : Nat) (f : Group → Group) : (s.modGroup u f).cuts = s.cuts := rfl
@[simp] theorem State.modGroup_pend (s : State) (u : Nat) (f : Group → Group) : (s.modGroup u f).pend = s.pend := rfl
@[simp] theorem State.modGroup_fabric (s : State) (u : Nat) (f : Group → Group) :
    (s.modGroup u f).fabric = s.fabric := rfl
@[simp] theorem State.modGroup_ctxs (s : State) (u : Nat) (f : Group → Group) : (s.modGroup u f).ctxs = s.ctxs := rfl

/-! ## `State.modTeam` -/

@[simp] theorem State.modTeam_clock (s : State) (u : Nat) (f : Team → Team) : (s.modTeam u f).clock = s.clock := rfl
@[simp] theorem State.modTeam_cur (s : State) (u : Nat) (f : Team → Team) : (s.modTeam u f).cur = s.cur := rfl
@[simp] theorem State.modTeam_curCtx (s : State) (u : Nat) (f : Team → Team) :
    (s.modTeam u f).curCtx = s.curCtx := rfl
@[simp] theorem State.modTeam_inputs (s : State) (u : Nat) (f : Team → Team) :
    (s.modTeam u f).inputs = s.inputs := rfl
@[simp] theorem State.modTeam_outbox (s : State) (u : Nat) (f : Team → Team) :
    (s.modTeam u f).outbox = s.outbox := rfl
@[simp] theorem State.modTeam_seqOut (s : State) (u : Nat) (f : Team → Team) :
    (s.modTeam u f).seqOut = s.seqOut := rfl
@[simp] theorem State.modTeam_busy (s : State) (u : Nat) (f : Team → Team) : (s.modTeam u f).busy = s.busy := rfl
@[simp] theorem State.modTeam_chipId (s : State) (u : Nat) (f : Team → Team) :
    (s.modTeam u f).chipId = s.chipId := rfl
@[simp] theorem State.modTeam_boot (s : State) (u : Nat) (f : Team → Team) : (s.modTeam u f).boot = s.boot := rfl
@[simp] theorem State.modTeam_fw (s : State) (u : Nat) (f : Team → Team) : (s.modTeam u f).fw = s.fw := rfl
@[simp] theorem State.modTeam_mem (s : State) (u : Nat) (f : Team → Team) : (s.modTeam u f).mem = s.mem := rfl
@[simp] theorem State.modTeam_cores (s : State) (u : Nat) (f : Team → Team) : (s.modTeam u f).cores = s.cores := rfl
@[simp] theorem State.modTeam_groups (s : State) (u : Nat) (f : Team → Team) :
    (s.modTeam u f).groups = s.groups := rfl
@[simp] theorem State.modTeam_grids (s : State) (u : Nat) (f : Team → Team) : (s.modTeam u f).grids = s.grids := rfl
@[simp] theorem State.modTeam_queues (s : State) (u : Nat) (f : Team → Team) :
    (s.modTeam u f).queues = s.queues := rfl
@[simp] theorem State.modTeam_pool (s : State) (u : Nat) (f : Team → Team) : (s.modTeam u f).pool = s.pool := rfl
@[simp] theorem State.modTeam_kept (s : State) (u : Nat) (f : Team → Team) : (s.modTeam u f).kept = s.kept := rfl
@[simp] theorem State.modTeam_retiring (s : State) (u : Nat) (f : Team → Team) :
    (s.modTeam u f).retiring = s.retiring := rfl
@[simp] theorem State.modTeam_cuts (s : State) (u : Nat) (f : Team → Team) : (s.modTeam u f).cuts = s.cuts := rfl
@[simp] theorem State.modTeam_pend (s : State) (u : Nat) (f : Team → Team) : (s.modTeam u f).pend = s.pend := rfl
@[simp] theorem State.modTeam_fabric (s : State) (u : Nat) (f : Team → Team) :
    (s.modTeam u f).fabric = s.fabric := rfl
@[simp] theorem State.modTeam_ctxs (s : State) (u : Nat) (f : Team → Team) : (s.modTeam u f).ctxs = s.ctxs := rfl

/-! ## `State.modGrid` -/

@[simp] theorem State.modGrid_clock (s : State) (u : Nat) (f : Grid → Grid) : (s.modGrid u f).clock = s.clock := rfl
@[simp] theorem State.modGrid_cur (s : State) (u : Nat) (f : Grid → Grid) : (s.modGrid u f).cur = s.cur := rfl
@[simp] theorem State.modGrid_curCtx (s : State) (u : Nat) (f : Grid → Grid) :
    (s.modGrid u f).curCtx = s.curCtx := rfl
@[simp] theorem State.modGrid_inputs (s : State) (u : Nat) (f : Grid → Grid) :
    (s.modGrid u f).inputs = s.inputs := rfl
@[simp] theorem State.modGrid_outbox (s : State) (u : Nat) (f : Grid → Grid) :
    (s.modGrid u f).outbox = s.outbox := rfl
@[simp] theorem State.modGrid_seqOut (s : State) (u : Nat) (f : Grid → Grid) :
    (s.modGrid u f).seqOut = s.seqOut := rfl
@[simp] theorem State.modGrid_busy (s : State) (u : Nat) (f : Grid → Grid) : (s.modGrid u f).busy = s.busy := rfl
@[simp] theorem State.modGrid_chipId (s : State) (u : Nat) (f : Grid → Grid) :
    (s.modGrid u f).chipId = s.chipId := rfl
@[simp] theorem State.modGrid_boot (s : State) (u : Nat) (f : Grid → Grid) : (s.modGrid u f).boot = s.boot := rfl
@[simp] theorem State.modGrid_fw (s : State) (u : Nat) (f : Grid → Grid) : (s.modGrid u f).fw = s.fw := rfl
@[simp] theorem State.modGrid_mem (s : State) (u : Nat) (f : Grid → Grid) : (s.modGrid u f).mem = s.mem := rfl
@[simp] theorem State.modGrid_cores (s : State) (u : Nat) (f : Grid → Grid) : (s.modGrid u f).cores = s.cores := rfl
@[simp] theorem State.modGrid_teams (s : State) (u : Nat) (f : Grid → Grid) : (s.modGrid u f).teams = s.teams := rfl
@[simp] theorem State.modGrid_groups (s : State) (u : Nat) (f : Grid → Grid) :
    (s.modGrid u f).groups = s.groups := rfl
@[simp] theorem State.modGrid_queues (s : State) (u : Nat) (f : Grid → Grid) :
    (s.modGrid u f).queues = s.queues := rfl
@[simp] theorem State.modGrid_pool (s : State) (u : Nat) (f : Grid → Grid) : (s.modGrid u f).pool = s.pool := rfl
@[simp] theorem State.modGrid_kept (s : State) (u : Nat) (f : Grid → Grid) : (s.modGrid u f).kept = s.kept := rfl
@[simp] theorem State.modGrid_retiring (s : State) (u : Nat) (f : Grid → Grid) :
    (s.modGrid u f).retiring = s.retiring := rfl
@[simp] theorem State.modGrid_cuts (s : State) (u : Nat) (f : Grid → Grid) : (s.modGrid u f).cuts = s.cuts := rfl
@[simp] theorem State.modGrid_pend (s : State) (u : Nat) (f : Grid → Grid) : (s.modGrid u f).pend = s.pend := rfl
@[simp] theorem State.modGrid_fabric (s : State) (u : Nat) (f : Grid → Grid) :
    (s.modGrid u f).fabric = s.fabric := rfl
@[simp] theorem State.modGrid_ctxs (s : State) (u : Nat) (f : Grid → Grid) : (s.modGrid u f).ctxs = s.ctxs := rfl

/-! ## `State.modCore` -/

@[simp] theorem State.modCore_clock (s : State) (i : Nat) (f : Core → Core) : (s.modCore i f).clock = s.clock := rfl
@[simp] theorem State.modCore_cur (s : State) (i : Nat) (f : Core → Core) : (s.modCore i f).cur = s.cur := rfl
@[simp] theorem State.modCore_curCtx (s : State) (i : Nat) (f : Core → Core) :
    (s.modCore i f).curCtx = s.curCtx := rfl
@[simp] theorem State.modCore_inputs (s : State) (i : Nat) (f : Core → Core) :
    (s.modCore i f).inputs = s.inputs := rfl
@[simp] theorem State.modCore_outbox (s : State) (i : Nat) (f : Core → Core) :
    (s.modCore i f).outbox = s.outbox := rfl
@[simp] theorem State.modCore_seqOut (s : State) (i : Nat) (f : Core → Core) :
    (s.modCore i f).seqOut = s.seqOut := rfl
@[simp] theorem State.modCore_busy (s : State) (i : Nat) (f : Core → Core) : (s.modCore i f).busy = s.busy := rfl
@[simp] theorem State.modCore_chipId (s : State) (i : Nat) (f : Core → Core) :
    (s.modCore i f).chipId = s.chipId := rfl
@[simp] theorem State.modCore_boot (s : State) (i : Nat) (f : Core → Core) : (s.modCore i f).boot = s.boot := rfl
@[simp] theorem State.modCore_fw (s : State) (i : Nat) (f : Core → Core) : (s.modCore i f).fw = s.fw := rfl
@[simp] theorem State.modCore_mem (s : State) (i : Nat) (f : Core → Core) : (s.modCore i f).mem = s.mem := rfl
@[simp] theorem State.modCore_teams (s : State) (i : Nat) (f : Core → Core) : (s.modCore i f).teams = s.teams := rfl
@[simp] theorem State.modCore_groups (s : State) (i : Nat) (f : Core → Core) :
    (s.modCore i f).groups = s.groups := rfl
@[simp] theorem State.modCore_grids (s : State) (i : Nat) (f : Core → Core) : (s.modCore i f).grids = s.grids := rfl
@[simp] theorem State.modCore_queues (s : State) (i : Nat) (f : Core → Core) :
    (s.modCore i f).queues = s.queues := rfl
@[simp] theorem State.modCore_pool (s : State) (i : Nat) (f : Core → Core) : (s.modCore i f).pool = s.pool := rfl
@[simp] theorem State.modCore_kept (s : State) (i : Nat) (f : Core → Core) : (s.modCore i f).kept = s.kept := rfl
@[simp] theorem State.modCore_retiring (s : State) (i : Nat) (f : Core → Core) :
    (s.modCore i f).retiring = s.retiring := rfl
@[simp] theorem State.modCore_cuts (s : State) (i : Nat) (f : Core → Core) : (s.modCore i f).cuts = s.cuts := rfl
@[simp] theorem State.modCore_pend (s : State) (i : Nat) (f : Core → Core) : (s.modCore i f).pend = s.pend := rfl
@[simp] theorem State.modCore_fabric (s : State) (i : Nat) (f : Core → Core) :
    (s.modCore i f).fabric = s.fabric := rfl
@[simp] theorem State.modCore_ctxs (s : State) (i : Nat) (f : Core → Core) : (s.modCore i f).ctxs = s.ctxs := rfl

/-! ## `State.modCtx` -/

@[simp] theorem State.modCtx_clock (s : State) (n : Nat) (f : Ctx → Ctx) : (s.modCtx n f).clock = s.clock := rfl
@[simp] theorem State.modCtx_cur (s : State) (n : Nat) (f : Ctx → Ctx) : (s.modCtx n f).cur = s.cur := rfl
@[simp] theorem State.modCtx_curCtx (s : State) (n : Nat) (f : Ctx → Ctx) : (s.modCtx n f).curCtx = s.curCtx := rfl
@[simp] theorem State.modCtx_inputs (s : State) (n : Nat) (f : Ctx → Ctx) : (s.modCtx n f).inputs = s.inputs := rfl
@[simp] theorem State.modCtx_outbox (s : State) (n : Nat) (f : Ctx → Ctx) : (s.modCtx n f).outbox = s.outbox := rfl
@[simp] theorem State.modCtx_seqOut (s : State) (n : Nat) (f : Ctx → Ctx) : (s.modCtx n f).seqOut = s.seqOut := rfl
@[simp] theorem State.modCtx_busy (s : State) (n : Nat) (f : Ctx → Ctx) : (s.modCtx n f).busy = s.busy := rfl
@[simp] theorem State.modCtx_chipId (s : State) (n : Nat) (f : Ctx → Ctx) : (s.modCtx n f).chipId = s.chipId := rfl
@[simp] theorem State.modCtx_boot (s : State) (n : Nat) (f : Ctx → Ctx) : (s.modCtx n f).boot = s.boot := rfl
@[simp] theorem State.modCtx_fw (s : State) (n : Nat) (f : Ctx → Ctx) : (s.modCtx n f).fw = s.fw := rfl
@[simp] theorem State.modCtx_mem (s : State) (n : Nat) (f : Ctx → Ctx) : (s.modCtx n f).mem = s.mem := rfl
@[simp] theorem State.modCtx_cores (s : State) (n : Nat) (f : Ctx → Ctx) : (s.modCtx n f).cores = s.cores := rfl
@[simp] theorem State.modCtx_teams (s : State) (n : Nat) (f : Ctx → Ctx) : (s.modCtx n f).teams = s.teams := rfl
@[simp] theorem State.modCtx_groups (s : State) (n : Nat) (f : Ctx → Ctx) : (s.modCtx n f).groups = s.groups := rfl
@[simp] theorem State.modCtx_grids (s : State) (n : Nat) (f : Ctx → Ctx) : (s.modCtx n f).grids = s.grids := rfl
@[simp] theorem State.modCtx_queues (s : State) (n : Nat) (f : Ctx → Ctx) : (s.modCtx n f).queues = s.queues := rfl
@[simp] theorem State.modCtx_pool (s : State) (n : Nat) (f : Ctx → Ctx) : (s.modCtx n f).pool = s.pool := rfl
@[simp] theorem State.modCtx_kept (s : State) (n : Nat) (f : Ctx → Ctx) : (s.modCtx n f).kept = s.kept := rfl
@[simp] theorem State.modCtx_retiring (s : State) (n : Nat) (f : Ctx → Ctx) :
    (s.modCtx n f).retiring = s.retiring := rfl
@[simp] theorem State.modCtx_cuts (s : State) (n : Nat) (f : Ctx → Ctx) : (s.modCtx n f).cuts = s.cuts := rfl
@[simp] theorem State.modCtx_pend (s : State) (n : Nat) (f : Ctx → Ctx) : (s.modCtx n f).pend = s.pend := rfl
@[simp] theorem State.modCtx_fabric (s : State) (n : Nat) (f : Ctx → Ctx) : (s.modCtx n f).fabric = s.fabric := rfl

/-! ## `State.advance` -/

@[simp] theorem State.advance_clock (s : State) (x : Site) (m : BitVec 32) : (s.advance x m).clock = s.clock := rfl
@[simp] theorem State.advance_cur (s : State) (x : Site) (m : BitVec 32) : (s.advance x m).cur = s.cur := rfl
@[simp] theorem State.advance_curCtx (s : State) (x : Site) (m : BitVec 32) : (s.advance x m).curCtx = s.curCtx := rfl
@[simp] theorem State.advance_inputs (s : State) (x : Site) (m : BitVec 32) : (s.advance x m).inputs = s.inputs := rfl
@[simp] theorem State.advance_outbox (s : State) (x : Site) (m : BitVec 32) : (s.advance x m).outbox = s.outbox := rfl
@[simp] theorem State.advance_seqOut (s : State) (x : Site) (m : BitVec 32) : (s.advance x m).seqOut = s.seqOut := rfl
@[simp] theorem State.advance_busy (s : State) (x : Site) (m : BitVec 32) : (s.advance x m).busy = s.busy := rfl
@[simp] theorem State.advance_chipId (s : State) (x : Site) (m : BitVec 32) : (s.advance x m).chipId = s.chipId := rfl
@[simp] theorem State.advance_boot (s : State) (x : Site) (m : BitVec 32) : (s.advance x m).boot = s.boot := rfl
@[simp] theorem State.advance_fw (s : State) (x : Site) (m : BitVec 32) : (s.advance x m).fw = s.fw := rfl
@[simp] theorem State.advance_mem (s : State) (x : Site) (m : BitVec 32) : (s.advance x m).mem = s.mem := rfl
@[simp] theorem State.advance_cores (s : State) (x : Site) (m : BitVec 32) : (s.advance x m).cores = s.cores := rfl
@[simp] theorem State.advance_teams (s : State) (x : Site) (m : BitVec 32) : (s.advance x m).teams = s.teams := rfl
@[simp] theorem State.advance_grids (s : State) (x : Site) (m : BitVec 32) : (s.advance x m).grids = s.grids := rfl
@[simp] theorem State.advance_queues (s : State) (x : Site) (m : BitVec 32) : (s.advance x m).queues = s.queues := rfl
@[simp] theorem State.advance_pool (s : State) (x : Site) (m : BitVec 32) : (s.advance x m).pool = s.pool := rfl
@[simp] theorem State.advance_kept (s : State) (x : Site) (m : BitVec 32) : (s.advance x m).kept = s.kept := rfl
@[simp] theorem State.advance_retiring (s : State) (x : Site) (m : BitVec 32) :
    (s.advance x m).retiring = s.retiring := rfl
@[simp] theorem State.advance_cuts (s : State) (x : Site) (m : BitVec 32) : (s.advance x m).cuts = s.cuts := rfl
@[simp] theorem State.advance_pend (s : State) (x : Site) (m : BitVec 32) : (s.advance x m).pend = s.pend := rfl
@[simp] theorem State.advance_fabric (s : State) (x : Site) (m : BitVec 32) : (s.advance x m).fabric = s.fabric := rfl
@[simp] theorem State.advance_ctxs (s : State) (x : Site) (m : BitVec 32) : (s.advance x m).ctxs = s.ctxs := rfl

/-! ## `State.turnTo` -/

@[simp] theorem State.turnTo_cur (s : State) (k : Nat) : (s.turnTo k).cur = s.cur := rfl
@[simp] theorem State.turnTo_curCtx (s : State) (k : Nat) : (s.turnTo k).curCtx = s.curCtx := rfl
@[simp] theorem State.turnTo_inputs (s : State) (k : Nat) : (s.turnTo k).inputs = s.inputs := rfl
@[simp] theorem State.turnTo_outbox (s : State) (k : Nat) : (s.turnTo k).outbox = s.outbox := rfl
@[simp] theorem State.turnTo_seqOut (s : State) (k : Nat) : (s.turnTo k).seqOut = s.seqOut := rfl
@[simp] theorem State.turnTo_busy (s : State) (k : Nat) : (s.turnTo k).busy = s.busy := rfl
@[simp] theorem State.turnTo_chipId (s : State) (k : Nat) : (s.turnTo k).chipId = s.chipId := rfl
@[simp] theorem State.turnTo_boot (s : State) (k : Nat) : (s.turnTo k).boot = s.boot := rfl
@[simp] theorem State.turnTo_fw (s : State) (k : Nat) : (s.turnTo k).fw = s.fw := rfl
@[simp] theorem State.turnTo_mem (s : State) (k : Nat) : (s.turnTo k).mem = s.mem := rfl
@[simp] theorem State.turnTo_cores (s : State) (k : Nat) : (s.turnTo k).cores = s.cores := rfl
@[simp] theorem State.turnTo_teams (s : State) (k : Nat) : (s.turnTo k).teams = s.teams := rfl
@[simp] theorem State.turnTo_groups (s : State) (k : Nat) : (s.turnTo k).groups = s.groups := rfl
@[simp] theorem State.turnTo_grids (s : State) (k : Nat) : (s.turnTo k).grids = s.grids := rfl
@[simp] theorem State.turnTo_queues (s : State) (k : Nat) : (s.turnTo k).queues = s.queues := rfl
@[simp] theorem State.turnTo_pool (s : State) (k : Nat) : (s.turnTo k).pool = s.pool := rfl
@[simp] theorem State.turnTo_kept (s : State) (k : Nat) : (s.turnTo k).kept = s.kept := rfl
@[simp] theorem State.turnTo_retiring (s : State) (k : Nat) : (s.turnTo k).retiring = s.retiring := rfl
@[simp] theorem State.turnTo_cuts (s : State) (k : Nat) : (s.turnTo k).cuts = s.cuts := rfl
@[simp] theorem State.turnTo_pend (s : State) (k : Nat) : (s.turnTo k).pend = s.pend := rfl
@[simp] theorem State.turnTo_fabric (s : State) (k : Nat) : (s.turnTo k).fabric = s.fabric := rfl
@[simp] theorem State.turnTo_ctxs (s : State) (k : Nat) : (s.turnTo k).ctxs = s.ctxs := rfl

/-! ## `State.post` -/

@[simp] theorem State.post_clock (s : State) (ty a b c : Nat) (p : List Byte) :
    (s.post ty a b c p).clock = s.clock := rfl
@[simp] theorem State.post_cur (s : State) (ty a b c : Nat) (p : List Byte) : (s.post ty a b c p).cur = s.cur := rfl
@[simp] theorem State.post_curCtx (s : State) (ty a b c : Nat) (p : List Byte) :
    (s.post ty a b c p).curCtx = s.curCtx := rfl
@[simp] theorem State.post_inputs (s : State) (ty a b c : Nat) (p : List Byte) :
    (s.post ty a b c p).inputs = s.inputs := rfl
@[simp] theorem State.post_busy (s : State) (ty a b c : Nat) (p : List Byte) :
    (s.post ty a b c p).busy = s.busy := rfl
@[simp] theorem State.post_chipId (s : State) (ty a b c : Nat) (p : List Byte) :
    (s.post ty a b c p).chipId = s.chipId := rfl
@[simp] theorem State.post_boot (s : State) (ty a b c : Nat) (p : List Byte) :
    (s.post ty a b c p).boot = s.boot := rfl
@[simp] theorem State.post_fw (s : State) (ty a b c : Nat) (p : List Byte) : (s.post ty a b c p).fw = s.fw := rfl
@[simp] theorem State.post_mem (s : State) (ty a b c : Nat) (p : List Byte) : (s.post ty a b c p).mem = s.mem := rfl
@[simp] theorem State.post_cores (s : State) (ty a b c : Nat) (p : List Byte) :
    (s.post ty a b c p).cores = s.cores := rfl
@[simp] theorem State.post_teams (s : State) (ty a b c : Nat) (p : List Byte) :
    (s.post ty a b c p).teams = s.teams := rfl
@[simp] theorem State.post_groups (s : State) (ty a b c : Nat) (p : List Byte) :
    (s.post ty a b c p).groups = s.groups := rfl
@[simp] theorem State.post_grids (s : State) (ty a b c : Nat) (p : List Byte) :
    (s.post ty a b c p).grids = s.grids := rfl
@[simp] theorem State.post_queues (s : State) (ty a b c : Nat) (p : List Byte) :
    (s.post ty a b c p).queues = s.queues := rfl
@[simp] theorem State.post_pool (s : State) (ty a b c : Nat) (p : List Byte) :
    (s.post ty a b c p).pool = s.pool := rfl
@[simp] theorem State.post_kept (s : State) (ty a b c : Nat) (p : List Byte) :
    (s.post ty a b c p).kept = s.kept := rfl
@[simp] theorem State.post_retiring (s : State) (ty a b c : Nat) (p : List Byte) :
    (s.post ty a b c p).retiring = s.retiring := rfl
@[simp] theorem State.post_cuts (s : State) (ty a b c : Nat) (p : List Byte) :
    (s.post ty a b c p).cuts = s.cuts := rfl
@[simp] theorem State.post_pend (s : State) (ty a b c : Nat) (p : List Byte) :
    (s.post ty a b c p).pend = s.pend := rfl
@[simp] theorem State.post_fabric (s : State) (ty a b c : Nat) (p : List Byte) :
    (s.post ty a b c p).fabric = s.fabric := rfl
@[simp] theorem State.post_ctxs (s : State) (ty a b c : Nat) (p : List Byte) :
    (s.post ty a b c p).ctxs = s.ctxs := rfl

/-! ## `State.modSlot` -/

@[simp] theorem State.modSlot_clock (s : State) (n : Nat) (f : CutSlot → CutSlot) :
    (s.modSlot n f).clock = s.clock := rfl
@[simp] theorem State.modSlot_cur (s : State) (n : Nat) (f : CutSlot → CutSlot) : (s.modSlot n f).cur = s.cur := rfl
@[simp] theorem State.modSlot_curCtx (s : State) (n : Nat) (f : CutSlot → CutSlot) :
    (s.modSlot n f).curCtx = s.curCtx := rfl
@[simp] theorem State.modSlot_inputs (s : State) (n : Nat) (f : CutSlot → CutSlot) :
    (s.modSlot n f).inputs = s.inputs := rfl
@[simp] theorem State.modSlot_outbox (s : State) (n : Nat) (f : CutSlot → CutSlot) :
    (s.modSlot n f).outbox = s.outbox := rfl
@[simp] theorem State.modSlot_seqOut (s : State) (n : Nat) (f : CutSlot → CutSlot) :
    (s.modSlot n f).seqOut = s.seqOut := rfl
@[simp] theorem State.modSlot_busy (s : State) (n : Nat) (f : CutSlot → CutSlot) :
    (s.modSlot n f).busy = s.busy := rfl
@[simp] theorem State.modSlot_chipId (s : State) (n : Nat) (f : CutSlot → CutSlot) :
    (s.modSlot n f).chipId = s.chipId := rfl
@[simp] theorem State.modSlot_boot (s : State) (n : Nat) (f : CutSlot → CutSlot) :
    (s.modSlot n f).boot = s.boot := rfl
@[simp] theorem State.modSlot_fw (s : State) (n : Nat) (f : CutSlot → CutSlot) : (s.modSlot n f).fw = s.fw := rfl
@[simp] theorem State.modSlot_mem (s : State) (n : Nat) (f : CutSlot → CutSlot) : (s.modSlot n f).mem = s.mem := rfl
@[simp] theorem State.modSlot_cores (s : State) (n : Nat) (f : CutSlot → CutSlot) :
    (s.modSlot n f).cores = s.cores := rfl
@[simp] theorem State.modSlot_teams (s : State) (n : Nat) (f : CutSlot → CutSlot) :
    (s.modSlot n f).teams = s.teams := rfl
@[simp] theorem State.modSlot_groups (s : State) (n : Nat) (f : CutSlot → CutSlot) :
    (s.modSlot n f).groups = s.groups := rfl
@[simp] theorem State.modSlot_grids (s : State) (n : Nat) (f : CutSlot → CutSlot) :
    (s.modSlot n f).grids = s.grids := rfl
@[simp] theorem State.modSlot_queues (s : State) (n : Nat) (f : CutSlot → CutSlot) :
    (s.modSlot n f).queues = s.queues := rfl
@[simp] theorem State.modSlot_pool (s : State) (n : Nat) (f : CutSlot → CutSlot) :
    (s.modSlot n f).pool = s.pool := rfl
@[simp] theorem State.modSlot_kept (s : State) (n : Nat) (f : CutSlot → CutSlot) :
    (s.modSlot n f).kept = s.kept := rfl
@[simp] theorem State.modSlot_retiring (s : State) (n : Nat) (f : CutSlot → CutSlot) :
    (s.modSlot n f).retiring = s.retiring := rfl
@[simp] theorem State.modSlot_pend (s : State) (n : Nat) (f : CutSlot → CutSlot) :
    (s.modSlot n f).pend = s.pend := rfl
@[simp] theorem State.modSlot_fabric (s : State) (n : Nat) (f : CutSlot → CutSlot) :
    (s.modSlot n f).fabric = s.fabric := rfl
@[simp] theorem State.modSlot_ctxs (s : State) (n : Nat) (f : CutSlot → CutSlot) :
    (s.modSlot n f).ctxs = s.ctxs := rfl

end Sys2Proof.Machine
end

