-- ==== Sys2Proof/Laws/Table.lean ====
section
/-!
SUPPORT. Laws of the sparse tables: reading after writing, and the canonical form of byte tables.
-/

namespace Sys2Proof.Machine

theorem tget_tput_same {α : Type} (dflt v : α) (t : List (Nat × α)) (k : Nat) : tget dflt (tput t k v) k = v := by
  induction t with
  | nil => simp [tput, tget]
  | cons p t ih =>
    obtain ⟨k', v'⟩ := p
    simp only [tput]
    split
    · simp [tget]
    · split
      · simp [tget]
      · simp_all [tget]

theorem tget_tput_other {α : Type} (dflt v : α) (t : List (Nat × α)) (k j : Nat) (h : j ≠ k) :
    tget dflt (tput t k v) j = tget dflt t j := by
  induction t with
  | nil => simp [tput, tget, Ne.symm h]
  | cons p t ih =>
    obtain ⟨k', v'⟩ := p
    simp only [tput]
    split
    · simp [tget, Ne.symm h]
    · split
      · subst_vars; simp [tget, Ne.symm h]
      · simp only [tget]; split <;> simp_all

/-- Every listed address of a canonical table above `lo` is above `lo`, so `lo` and what is below read as unlisted. -/
theorem cget_below (t : List Host.Cell) (lo a : Nat) (h : cwfAbove (some lo) t = true) (ha : a ≤ lo) :
    cget t a = unlisted := by
  induction t generalizing lo with
  | nil => rfl
  | cons p t ih =>
    obtain ⟨k, v⟩ := p
    simp only [cwfAbove, Bool.and_eq_true, decide_eq_true_eq] at h
    have : k ≠ a := by omega
    simp only [cget, tget, this, if_false]
    exact ih k h.2 (by omega)

theorem cget_cput_same (t : List Host.Cell) (a : Nat) (v : Byte) (lo : Option Nat) (h : cwfAbove lo t = true) :
    cget (cput t a v) a = v := by
  induction t generalizing lo with
  | nil => simp only [cput]; split <;> simp_all [cget, tget]
  | cons p t ih =>
    obtain ⟨k, w⟩ := p
    simp only [cwfAbove, Bool.and_eq_true] at h
    simp only [cput]
    split
    · split
      · rename_i h1 h2
        have : k ≠ a := by omega
        simp only [cget, tget, this, if_false]
        rw [h2]; exact cget_below t k a h.2 (by omega)
      · simp [cget, tget]
    · split
      · split
        · rename_i h1 h2 h3
          subst h2; rw [h3]; exact cget_below t k k h.2 (by omega)
        · simp [cget, tget]
      · rename_i h1 h2
        simp only [cget, tget, h2, if_false]
        exact ih (some k) h.2

theorem cget_cput_other (t : List Host.Cell) (a b : Nat) (v : Byte) (lo : Option Nat) (h : cwfAbove lo t = true)
    (hb : b ≠ a) : cget (cput t a v) b = cget t b := by
  induction t generalizing lo with
  | nil => simp only [cput]; split <;> simp [cget, tget, Ne.symm hb]
  | cons p t ih =>
    obtain ⟨k, w⟩ := p
    simp only [cwfAbove, Bool.and_eq_true] at h
    simp only [cput]
    split
    · split <;> simp [cget, tget, Ne.symm hb]
    · split
      · split
        · rename_i h1 h2 h3
          subst h2; simp [cget, tget, Ne.symm hb]
        · rename_i h1 h2 h3
          subst h2; simp [cget, tget, Ne.symm hb]
      · simp only [cget, tget]
        split
        · rfl
        · exact ih (some k) h.2

theorem cwfAbove_weaken (t : List Host.Cell) (lo lo' : Nat) (h : cwfAbove (some lo) t = true) (hl : lo' ≤ lo) :
    cwfAbove (some lo') t = true := by
  cases t with
  | nil => rfl
  | cons p t =>
    simp only [cwfAbove, Bool.and_eq_true, decide_eq_true_eq] at h ⊢
    exact ⟨⟨by omega, h.1.2⟩, h.2⟩

theorem cwfAbove_cput (t : List Host.Cell) (a : Nat) (v : Byte) (lo : Option Nat) (h : cwfAbove lo t = true)
    (hlo : ∀ l, lo = some l → l < a) : cwfAbove lo (cput t a v) = true := by
  induction t generalizing lo with
  | nil =>
    simp only [cput]
    split
    · rfl
    · rename_i hv; cases lo <;> simp_all [cwfAbove]
  | cons p t ih =>
    obtain ⟨k, w⟩ := p
    simp only [cput]
    split
    · split
      · exact h
      · rename_i h1 hv
        simp only [cwfAbove, Bool.and_eq_true, decide_eq_true_eq] at h ⊢
        exact ⟨⟨by cases lo <;> simp_all, hv⟩, ⟨h1, h.1.2⟩, h.2⟩
    · split
      · rename_i h1 h2
        subst h2
        simp only [cwfAbove, Bool.and_eq_true, decide_eq_true_eq] at h
        split
        · cases lo with
          | none => cases t with
            | nil => rfl
            | cons q t => simp only [cwfAbove, Bool.and_eq_true, decide_eq_true_eq] at h ⊢; exact ⟨⟨trivial, h.2.1.2⟩, h.2.2⟩
          | some l => exact cwfAbove_weaken t k l h.2 (by have := hlo l rfl; omega)
        · rename_i hv
          simp only [cwfAbove, Bool.and_eq_true, decide_eq_true_eq]
          exact ⟨⟨h.1.1, hv⟩, h.2⟩
      · simp only [cwfAbove, Bool.and_eq_true] at h ⊢
        exact ⟨h.1, ih (some k) h.2 (by intro l hl; cases hl; omega)⟩

theorem cwf_cput (t : List Host.Cell) (a : Nat) (v : Byte) (h : cwf t = true) : cwf (cput t a v) = true :=
  cwfAbove_cput t a v none h (by simp)

theorem cwf_cputs (bs : List Byte) (t : List Host.Cell) (a : Nat) (h : cwf t = true) : cwf (cputs t a bs) = true := by
  induction bs generalizing t a with
  | nil => exact h
  | cons b bs ih => exact ih _ _ (cwf_cput t a b h)

/-- A write leaves every other byte alone. -/
theorem cget_cputs_other (bs : List Byte) (t : List Host.Cell) (a b : Nat) (h : cwf t = true)
    (hb : b < a ∨ a + bs.length ≤ b) : cget (cputs t a bs) b = cget t b := by
  induction bs generalizing t a with
  | nil => rfl
  | cons c bs ih =>
    simp only [List.length_cons] at hb
    simp only [cputs]
    rw [ih _ _ (cwf_cput t a c h) (by omega), cget_cput_other t a b c none h (by omega)]

/-- Bytes read after they are written are the bytes written. -/
theorem cgets_cputs (bs : List Byte) (t : List Host.Cell) (a : Nat) (h : cwf t = true) :
    cgets (cputs t a bs) a bs.length = bs := by
  induction bs generalizing t a with
  | nil => rfl
  | cons b bs ih =>
    simp only [cputs, cgets, List.length_cons, List.cons.injEq]
    refine ⟨?_, ih _ _ (cwf_cput t a b h)⟩
    rw [cget_cputs_other bs _ (a + 1) a (cwf_cput t a b h) (by omega), cget_cput_same t a b none h]

theorem cwfAbove_filter (p : Host.Cell → Bool) (t : List Host.Cell) (lo : Option Nat) (h : cwfAbove lo t = true) :
    cwfAbove lo (t.filter p) = true := by
  induction t generalizing lo with
  | nil => exact h
  | cons q t ih =>
    obtain ⟨k, v⟩ := q
    have h0 := h
    simp only [cwfAbove, Bool.and_eq_true] at h
    simp only [List.filter_cons]
    split
    · simp only [cwfAbove, Bool.and_eq_true]
      exact ⟨h.1, ih (some k) h.2⟩
    · have hk := ih (some k) h.2
      cases lo with
      | none =>
        generalize t.filter p = t' at hk ⊢
        cases t' with
        | nil => rfl
        | cons r t' => simp only [cwfAbove, Bool.and_eq_true, decide_eq_true_eq] at hk ⊢; exact ⟨⟨trivial, hk.1.2⟩, hk.2⟩
      | some l => exact cwfAbove_weaken _ k l hk (by have := h.1.1; simp at this; omega)

theorem cwf_filter (p : Host.Cell → Bool) (t : List Host.Cell) (h : cwf t = true) : cwf (t.filter p) = true :=
  cwfAbove_filter p t none h

/-! ## Lists -/

theorem mapFrom_getElem? {α β : Type} (f : Nat → α → β) (xs : List α) (i j : Nat) :
    (mapFrom f i xs)[j]? = (xs[j]?).map (f (i + j)) := by
  induction xs generalizing i j with
  | nil => simp [mapFrom]
  | cons x xs ih =>
    cases j with
    | zero => simp [mapFrom]
    | succ j => simp only [mapFrom, List.getElem?_cons_succ, ih]; congr 2; omega

theorem mapFrom_length {α β : Type} (f : Nat → α → β) (xs : List α) (i : Nat) : (mapFrom f i xs).length = xs.length := by
  induction xs generalizing i with
  | nil => rfl
  | cons x xs ih => simp [mapFrom, ih]

theorem setAt_length {α : Type} (f : α → α) (i : Nat) (xs : List α) : (setAt f i xs).length = xs.length := by
  induction xs generalizing i with
  | nil => cases i <;> rfl
  | cons x xs ih => cases i <;> simp [setAt, ih]

theorem setAt_getElem?_same {α : Type} (f : α → α) (i : Nat) (xs : List α) : (setAt f i xs)[i]? = (xs[i]?).map f := by
  induction xs generalizing i with
  | nil => cases i <;> rfl
  | cons x xs ih => cases i <;> simp [setAt, ih]

theorem setAt_getElem?_other {α : Type} (f : α → α) (i j : Nat) (xs : List α) (h : j ≠ i) : (setAt f i xs)[j]? = xs[j]? := by
  induction xs generalizing i j with
  | nil => cases i <;> rfl
  | cons x xs ih =>
    cases i <;> cases j <;> simp_all [setAt]

end Sys2Proof.Machine
end

