-- ==== Sys2Proof/Safety.lean ====
section
/-!
DEFINITION. The terms in which claims are stated: an issue that every active lane passes, what such an issue leaves, steps
that go on, and the invariants of the part.
-/

namespace Sys2Proof.Machine

/-! ## Issues that every active lane passes (R20 to R22, R65) -/

/-- The chosen group issues at `x`: some lane is active, the kind of the instruction is allowed there (R48, R54), and the
safe-point distance is not exceeded (R49). -/
structure Issuing (s : State) (x : Site) (kind : IssueKind) : Prop where
  site : s.site? = some x
  active : x.mask ≠ 0
  allowed : kindFault x kind = none
  near : overDistance s.fw.spdistCap x kind = false

/-- What holds of every active lane. -/
def ActiveLanes (x : Site) (p : Nat → Lane → Prop) : Prop :=
  ∀ (i : Nat) (l : Lane), x.g.lanes[i]? = some l → x.mask.getLsbD i = true → p i l

/-- Every active lane passes the operand checks of R65: in bounds, not pending, of the accepted tags. -/
def OperandsPass (x : Site) (o : Operands) (tags : Lane → Bool) : Prop :=
  ActiveLanes x fun _ l => operandFault x l o (tags l) = none

/-- The state after an issue that every active lane passes: the lanes go on to the next word, the instruction has its
effect, and the books of the group are kept (R21, R25, R31, R49). -/
def State.completed (s : State) (x : Site) (m : Bool) (kind : IssueKind) (effect : State → State) : State :=
  let s1 := (effect (s.advance x x.mask)).modGroup x.g.uid
    (x.g.book x.pc x.mask m kind (overDistance s.fw.spdistCap x kind) s.clock.stamp)
  { s1 with clock := { s1.clock with stamp := s1.clock.stamp + 1 } }

/-- An effect on the active lanes, each by itself (R21). -/
def onActive (x : Site) (f : Nat → Lane → Lane) (s : State) : State :=
  s.modGroup x.g.uid fun g => g.onLanes x.mask f

/-- An effect on the group, once (R22). -/
def onGroup (x : Site) (f : Group → Group) (s : State) : State := s.modGroup x.g.uid f

/-! ## Answers of instructions that every active lane passes -/

/-- Each active lane writes one vector register, with a tag (R138). -/
def State.writesLane (s : State) (x : Site) (m : Bool) (d : BitVec 7) (tag : BitVec 5) (f : Lane → Word) : Result :=
  .next (s.completed x m .plain (onActive x fun _ l => l.put d.toNat (f l) tag))

/-- Each active lane writes a register pair, with the tags of R44 (R148). -/
def State.writesPair (s : State) (x : Site) (m : Bool) (d : BitVec 7) (f : Lane → DWord) : Result :=
  .next (s.completed x m .plain
    (onActive x fun _ l => (l.put d.toNat (f l).lo tagI64L).put (d.toNat + 1) (f l).hi tagI64H))

/-- Each active lane writes one predicate (R39). -/
def State.writesPred (s : State) (x : Site) (m : Bool) (d : BitVec 7) (f : Lane → Bool) : Result :=
  .next (s.completed x m .plain (onActive x fun _ l => l.setPred d.toNat (f l)))

/-- The group writes one uniform register, once (R22, R138). -/
def State.writesUniform (s : State) (x : Site) (m : Bool) (d : BitVec 7) (f : Group → Word) : Result :=
  .next (s.completed x m .plain (onGroup x fun g => g.setU d.toNat (f g)))

/-- A result on its way: to a lane of a group, or to the group itself, with the registers it marks (R32). -/
def State.hasComing (t : State) (group : Nat) (lane : Option Nat) (regs : List Nat) (what : Awaited) : Prop :=
  ∃ p ∈ t.pend, p.group = group ∧ p.lane = lane ∧ p.regs = regs ∧ p.what = what

/-- The registers of a lane, physical, or of the group are marked pending (R32). -/
def State.marked (t : State) (group : Nat) (lane : Option Nat) (regs : List Nat) : Prop :=
  ∀ g, t.group? group = some g →
    match lane with
    | none => ∀ r ∈ regs, r ∈ g.upend
    | some i => ∀ l, g.lanes[i]? = some l → ∀ r ∈ regs, r ∈ l.pend

/-- A variable-latency instruction brings a result: it is on its way, and its registers are marked pending (R32). -/
def State.brings (t : State) (group : Nat) (lane : Option Nat) (regs : List Nat) (what : Awaited) : Prop :=
  t.hasComing group lane regs what ∧ t.marked group lane regs

/-- A form that S[d] alone of the uniform registers receives a value by (R22, R214). -/
def State.onlyWrites (s : State) (x : Site) (d : Nat) (g : Group) : Prop :=
  ∀ g0, s.group? x.g.uid = some g0 → ∀ r, r ≠ d → g.u r = g0.u r

/-- An operation of the engines starts (R214): the core has one more operation, not begun, with the next handle in S[d],
its words and the locks of its spans; memory is as it was, and of the teams the issuer's alone has its handles' lists
changed, which no longer name the new handle. -/
def State.startsOperation (s : State) (x : Site) (i : Instr) (d kind : Nat) (words : List Word) (spans : List Span) : Prop :=
  let core := s.coreOf x.g.team
  ∀ c, s.cores[core]? = some c →
    ∃ t c' op g, Sys2Proof.Machine.exec i s = .next t ∧ t.mem = s.mem ∧
      (t.teams = s.teams.map fun tm => if tm.uid = x.g.team then
        { tm with ended := tm.ended.filter (· != op.handle), stale := tm.stale.filter (· != op.handle) } else tm) ∧
      t.cores[core]? = some c' ∧ c'.ops = c.ops ++ [op] ∧ op.kind = kind ∧ op.words = words ∧
      op.begun = false ∧ op.outcome = none ∧ c'.locks = c.locks ++ locksOf false op.handle spans ∧
      (c.nextHandle ≠ 0 → c.nextHandle < 2 ^ 16 → (∀ o ∈ c.ops, o.handle ≠ c.nextHandle) →
        op.handle = c.nextHandle ∧ c'.nextHandle = if c.nextHandle = 2 ^ 16 - 1 then 1 else c.nextHandle + 1) ∧
      t.group? x.g.uid = some g ∧ g.u d = BitVec.ofNat 32 op.handle ∧ s.onlyWrites x d g

/-- Likewise, with range locks (R214, R292): while the locks of its spans do not fit, it is not issued. -/
def State.startsLocked (s : State) (x : Site) (i : Instr) (d kind : Nat) (words : List Word) (spans : List Span) : Prop :=
  (s.lockFull (s.coreOf x.g.team) spans = true →
    Sys2Proof.Machine.exec i s = .next (s.modGroup x.g.uid fun g => { g with blocked := true })) ∧
  (s.lockFull (s.coreOf x.g.team) spans = false → s.startsOperation x i d kind words spans)

/-- An instruction is held while a piece of what it reads at issue is asked of another chip or the node (R193, R214,
R364): it has the bytes `got`, and asks for those at `va`. -/
def State.asksFirst (s : State) (x : Site) (i : Instr) (got : List Byte) (p : Place) (n : Nat) : Prop :=
  ∃ t g h id, Sys2Proof.Machine.exec i s = .next t ∧ t.group? x.g.uid = some g ∧ g.blocked = true ∧
    g.lanes = x.g.lanes ∧ g.held = some h ∧ h.pc = x.pc ∧ h.request = some id ∧ h.bytes = got ∧
    ∃ q ∈ t.fabric.remotes, q.id = id ∧ q.kind = pkRead ∧ q.chip = p.chip ∧ q.address = p.pa ∧ q.len = n

/-- An operation enters the matrix queue of the group's core (R242, R244), for the lanes of the issue and with the locks
of its spans; memory, teams and uniform registers are as they were. -/
def State.entersQueue (s : State) (x : Site) (i : Instr) (kind : MatKind) (spans : List Span)
    (also : State → Group → Core → Core → Prop) : Prop :=
  let core := s.coreOf x.g.team
  s.lockFull core spans = false → ∀ c, s.cores[core]? = some c →
    ∃ t c' o g, Sys2Proof.Machine.exec i s = .next t ∧ t.mem = s.mem ∧ t.teams = s.teams ∧ t.cores[core]? = some c' ∧
      c'.matrix = c.matrix ++ [o] ∧ o.kind = kind ∧ o.group = x.g.uid ∧ o.team = x.g.team ∧ o.lanes = x.mask ∧
      c'.locks = c.locks ++ locksOf true o.id spans ∧ t.group? x.g.uid = some g ∧
      (∀ g0, s.group? x.g.uid = some g0 → g.uregs = g0.uregs) ∧ also t g c c'

/-- Bytes have been received at an address: each stands in an update of its word, with a WCT above one time and not above
another (R280). -/
def Memory.received (mem : Memory) (pa : Nat) (bs : List Byte) (low high : Nat) : Prop :=
  ∀ k b, bs[k]? = some b →
    ∃ u ∈ mem.updates, u.word = (pa + k) / 4 * 4 ∧ ((pa + k) % 4, b) ∈ u.bytes ∧ low < u.wct ∧ u.wct ≤ high

/-- Bytes have been received at an offset of a cutting slot's STORE, which may lie on two pages (R280, R371). -/
def State.slotReceived (t : State) (c : CutSlot) (off : Nat) (bs : List Byte) (low high : Nat) : Prop :=
  ∀ k b, bs[k]? = some b → t.mem.received (c.addr (off + k)) [b] low high

/-- A port has entered a state at the time of `s`, and has written its barrier word, once a CREQ has named one, with a
WCT above that of its previous write (R337, R341). -/
def State.portEntered (s t : State) (n : Nat) (st : PortState) : Prop :=
  t.mem.cells = s.mem.cells ∧ ∃ q, t.fabric.ports[n]? = some q ∧ q.state = st ∧ q.since = s.gtime ∧
    q.barrier = (s.port n).barrier ∧
    ∀ pa, q.barrier = some pa →
      (s.port n).lastWct < q.lastWct ∧ t.mem.received pa (natLe 8 (q.word n)) s.gtime q.lastWct

/-- A script fault (R346, R387): the chosen context halts with its registers and PC as they stood, and the fault is
posted. -/
def State.haltsScript (s : State) (i : Instr) (k : Cause) : Prop :=
  ∃ t c c', Sys2Proof.Machine.exec i s = .next t ∧ s.ctxs[s.curCtx]? = some c ∧ t.ctxs[s.curCtx]? = some c' ∧
    c'.running = false ∧ c'.regs = c.regs ∧ c'.pc = c.pc ∧ t.mem.cells = s.mem.cells ∧ t.fabric = s.fabric ∧
    ∃ msg, t.outbox = s.outbox ++ [msg] ∧ msg.mtype = mtScriptFault ∧ msg.addr = s.curCtx ∧
      msg.payload = natLe 8 c.pc.toNat ++ natLe 4 (k.word false).toNat ++ natLe 4 0 ++ natLe 8 k.addr

/-- Every copy that was bound to a port has ended (R340, R358). -/
def State.boundEnded (s t : State) (n : Nat) : Prop :=
  ∀ (core : Nat) (c c' : Core), s.cores[core]? = some c → t.cores[core]? = some c' →
    ∀ op ∈ c.ops, op.bound = some n → op.outcome = none → ∀ o ∈ c'.ops, o.handle = op.handle → o.outcome ≠ none

/-- The rational number a finite value stands for; 0 for the others. -/
def Num.rat : Num → Rat
  | .fin s m e => (if s then -1 else 1) * (m : Rat) * 2 ^ e
  | _ => 0

/-- A pattern of a format that is neither infinite nor NaN. -/
def Fmt.finite (f : Fmt) (x : Nat) : Prop := x < 2 ^ f.width ∧ f.isNan x = false ∧ f.isInf x = false

/-- A step or an instruction goes on. -/
def GoesOn (r : Result) : Prop := ∃ t, r = .next t

/-! ## Invariants -/

/-- Memory keeps its canonical form. -/
def State.memWf (s : State) : Prop := s.mem.wf = true

end Sys2Proof.Machine

namespace Sys2Proof

/-! ## What instructions may write (R21, R22, R39, R113) -/

/-- The destinations of an instruction: vector registers by name, predicates, uniform registers, and whether it raises
FPFLAGS. -/
structure Dest where
  vregs : List Nat
  preds : List Nat
  uregs : List Nat
  flags : Bool

/-- The destination of a UALU form: a vector register where VC is 1, else a uniform register (R144). -/
def ualuDest (vc : Bool) (d : BitVec 7) : Dest :=
  if vc then ⟨[d.toNat], [], [], false⟩ else ⟨[], [], [d.toNat], false⟩

/-- The destinations of the instructions that write only registers, predicates, flags and the places of their lanes. -/
def Instr.dest : Instr → Option Dest
  | .iadd _ d _ _ => some ⟨[d.toNat], [], [], false⟩
  | .isub _ d _ _ => some ⟨[d.toNat], [], [], false⟩
  | .imul _ d _ _ => some ⟨[d.toNat], [], [], false⟩
  | .imulh _ d _ _ => some ⟨[d.toNat], [], [], false⟩
  | .imulhu _ d _ _ => some ⟨[d.toNat], [], [], false⟩
  | .imad _ d _ _ => some ⟨[d.toNat], [], [], false⟩
  | .imin _ d _ _ => some ⟨[d.toNat], [], [], false⟩
  | .imax _ d _ _ => some ⟨[d.toNat], [], [], false⟩
  | .iminu _ d _ _ => some ⟨[d.toNat], [], [], false⟩
  | .imaxu _ d _ _ => some ⟨[d.toNat], [], [], false⟩
  | .iabs _ d _ => some ⟨[d.toNat], [], [], false⟩
  | .ineg _ d _ => some ⟨[d.toNat], [], [], false⟩
  | .and _ d _ _ => some ⟨[d.toNat], [], [], false⟩
  | .or _ d _ _ => some ⟨[d.toNat], [], [], false⟩
  | .xor _ d _ _ => some ⟨[d.toNat], [], [], false⟩
  | .andn _ d _ _ => some ⟨[d.toNat], [], [], false⟩
  | .shl _ d _ _ => some ⟨[d.toNat], [], [], false⟩
  | .shr _ d _ _ => some ⟨[d.toNat], [], [], false⟩
  | .sar _ d _ _ => some ⟨[d.toNat], [], [], false⟩
  | .rotl _ d _ _ => some ⟨[d.toNat], [], [], false⟩
  | .popc _ d _ => some ⟨[d.toNat], [], [], false⟩
  | .clz _ d _ => some ⟨[d.toNat], [], [], false⟩
  | .brev _ d _ => some ⟨[d.toNat], [], [], false⟩
  | .bfx _ d _ _ => some ⟨[d.toNat], [], [], false⟩
  | .bfxs _ d _ _ => some ⟨[d.toNat], [], [], false⟩
  | .bfi _ d _ _ => some ⟨[d.toNat], [], [], false⟩
  | .iadds _ d _ _ => some ⟨[d.toNat], [], [], false⟩
  | .isubs _ d _ _ => some ⟨[d.toNat], [], [], false⟩
  | .mov _ d _ => some ⟨[d.toNat], [], [], false⟩
  | .retag _ d _ _ => some ⟨[d.toNat], [], [], false⟩
  | .ualuIadd _ vc d _ _ => some (ualuDest vc d)
  | .ualuIsub _ vc d _ _ => some (ualuDest vc d)
  | .ualuImul _ vc d _ _ => some (ualuDest vc d)
  | .ualuImin _ vc d _ _ => some (ualuDest vc d)
  | .ualuImax _ vc d _ _ => some (ualuDest vc d)
  | .ualuIminu _ vc d _ _ => some (ualuDest vc d)
  | .ualuImaxu _ vc d _ _ => some (ualuDest vc d)
  | .ualuAnd _ vc d _ _ => some (ualuDest vc d)
  | .ualuOr _ vc d _ _ => some (ualuDest vc d)
  | .ualuXor _ vc d _ _ => some (ualuDest vc d)
  | .ualuAndn _ vc d _ _ => some (ualuDest vc d)
  | .ualuShl _ vc d _ _ => some (ualuDest vc d)
  | .ualuShr _ vc d _ _ => some (ualuDest vc d)
  | .ualuSar _ vc d _ _ => some (ualuDest vc d)
  | .ualuMov _ vc d _ => some (ualuDest vc d)
  | .iaddi _ d _ _ => some ⟨[d.toNat], [], [], false⟩
  | .andi _ d _ _ => some ⟨[d.toNat], [], [], false⟩
  | .ori _ d _ _ => some ⟨[d.toNat], [], [], false⟩
  | .xori _ d _ _ => some ⟨[d.toNat], [], [], false⟩
  | .shli _ d _ _ => some ⟨[d.toNat], [], [], false⟩
  | .shri _ d _ _ => some ⟨[d.toNat], [], [], false⟩
  | .sari _ d _ _ => some ⟨[d.toNat], [], [], false⟩
  | .imuli _ d _ _ => some ⟨[d.toNat], [], [], false⟩
  | .ualuiIaddi _ d _ _ => some ⟨[], [], [d.toNat], false⟩
  | .ualuiAndi _ d _ _ => some ⟨[], [], [d.toNat], false⟩
  | .ualuiOri _ d _ _ => some ⟨[], [], [d.toNat], false⟩
  | .ualuiXori _ d _ _ => some ⟨[], [], [d.toNat], false⟩
  | .ualuiShli _ d _ _ => some ⟨[], [], [d.toNat], false⟩
  | .ualuiShri _ d _ _ => some ⟨[], [], [d.toNat], false⟩
  | .ualuiSari _ d _ _ => some ⟨[], [], [d.toNat], false⟩
  | .ualuiImuli _ d _ _ => some ⟨[], [], [d.toNat], false⟩
  | .movl _ d _ => some ⟨[d.toNat], [], [], false⟩
  | .movh _ d _ => some ⟨[d.toNat], [], [], false⟩
  | .movlUniform _ d _ => some ⟨[], [], [d.toNat], false⟩
  | .movhUniform _ d _ => some ⟨[], [], [d.toNat], false⟩
  | .icmp _ _ d _ _ => some ⟨[], [d.toNat], [], false⟩
  | .aadd _ d _ _ => some ⟨[d.toNat, d.toNat + 1], [], [], false⟩
  | .aaddx _ d _ _ => some ⟨[d.toNat, d.toNat + 1], [], [], false⟩
  | .asub _ d _ _ => some ⟨[d.toNat, d.toNat + 1], [], [], false⟩
  | .alea _ _ d _ _ => some ⟨[d.toNat, d.toNat + 1], [], [], false⟩
  | .acmpeq _ d _ _ => some ⟨[], [d.toNat], [], false⟩
  | .acmpltu _ d _ _ => some ⟨[], [d.toNat], [], false⟩
  | .afroms _ d _ => some ⟨[d.toNat, d.toNat + 1], [], [], false⟩
  | .fadd _ d _ _ => some ⟨[d.toNat], [], [], true⟩
  | .fsub _ d _ _ => some ⟨[d.toNat], [], [], true⟩
  | .fmul _ d _ _ => some ⟨[d.toNat], [], [], true⟩
  | .ffma _ d _ _ => some ⟨[d.toNat], [], [], true⟩
  | .ffms _ d _ _ => some ⟨[d.toNat], [], [], true⟩
  | .fnma _ d _ _ => some ⟨[d.toNat], [], [], true⟩
  | .fmin _ d _ _ => some ⟨[d.toNat], [], [], true⟩
  | .fmax _ d _ _ => some ⟨[d.toNat], [], [], true⟩
  | .fminnum _ d _ _ => some ⟨[d.toNat], [], [], true⟩
  | .fmaxnum _ d _ _ => some ⟨[d.toNat], [], [], true⟩
  | .fabs _ d _ => some ⟨[d.toNat], [], [], false⟩
  | .fneg _ d _ => some ⟨[d.toNat], [], [], false⟩
  | .fcopysign _ d _ _ => some ⟨[d.toNat], [], [], false⟩
  | .frnd _ d _ _ => some ⟨[d.toNat], [], [], true⟩
  | .fclass _ d _ => some ⟨[d.toNat], [], [], false⟩
  | .fdot2 _ d _ _ => some ⟨[d.toNat], [], [], true⟩
  | .fdot4 _ d _ _ => some ⟨[d.toNat], [], [], true⟩
  | .fdiv _ d _ _ => some ⟨[d.toNat], [], [], true⟩
  | .fscale _ d _ _ => some ⟨[d.toNat], [], [], true⟩
  | .fgetexp _ d _ => some ⟨[d.toNat], [], [], true⟩
  | .fgetman _ d _ => some ⟨[d.toNat], [], [], true⟩
  | .fcmp _ _ d _ _ => some ⟨[], [d.toNat], [], true⟩
  | .cvt _ _ d _ _ _ _ _ => some ⟨[d.toNat], [], [], true⟩
  | .frcp _ d _ => some ⟨[d.toNat], [], [], true⟩
  | .frsq _ d _ => some ⟨[d.toNat], [], [], true⟩
  | .fsqrt _ d _ => some ⟨[d.toNat], [], [], true⟩
  | .flut _ d _ => some ⟨[d.toNat], [], [], false⟩
  | .atstat _ d => some ⟨[], [], [d.toNat], false⟩
  | .shfli _ d _ _ => some ⟨[d.toNat], [], [], false⟩
  | .shflu _ d _ _ => some ⟨[d.toNat], [], [], false⟩
  | .shfld _ d _ _ => some ⟨[d.toNat], [], [], false⟩
  | .shflx _ d _ _ => some ⟨[d.toNat], [], [], false⟩
  | .voteall _ d _ => some ⟨[], [d.toNat], [], false⟩
  | .voteany _ d _ => some ⟨[], [d.toNat], [], false⟩
  | .ballot _ d _ => some ⟨[], [], [d.toNat], false⟩
  | .redadd _ d _ => some ⟨[d.toNat], [], [], true⟩
  | .redmin _ d _ => some ⟨[d.toNat], [], [], true⟩
  | .redmax _ d _ => some ⟨[d.toNat], [], [], true⟩
  | .redand _ d _ => some ⟨[d.toNat], [], [], false⟩
  | .redor _ d _ => some ⟨[d.toNat], [], [], false⟩
  | .redxor _ d _ => some ⟨[d.toNat], [], [], false⟩
  | .scanadd _ d _ => some ⟨[d.toNat], [], [], true⟩
  | .scanmax _ d _ => some ⟨[d.toNat], [], [], true⟩
  | .matchLanes _ d _ => some ⟨[d.toNat], [], [], false⟩
  | .bcast _ d _ _ => some ⟨[d.toNat], [], [], false⟩
  | .splat _ d _ => some ⟨[d.toNat], [], [], false⟩
  | .pand _ d _ _ => some ⟨[], [d.toNat], [], false⟩
  | .por _ d _ _ => some ⟨[], [d.toNat], [], false⟩
  | .pxor _ d _ _ => some ⟨[], [d.toNat], [], false⟩
  | .pnot _ d _ => some ⟨[], [d.toNat], [], false⟩
  | .pmov _ d _ => some ⟨[], [d.toNat], [], false⟩
  | .pandn _ d _ _ => some ⟨[], [d.toNat], [], false⟩
  | .ptos _ d _ => some ⟨[], [], [d.toNat], false⟩
  | .pfroms _ d _ => some ⟨[], [d.toNat], [], false⟩
  | .sel _ _ _ d _ _ => some ⟨[d.toNat], [], [], false⟩
  | .bra _ _ _ _ => some ⟨[], [], [], false⟩
  | .call _ wsh _ => some ⟨[8 * wsh.toNat, 8 * wsh.toNat + 1], [], [], false⟩
  | .brx _ _ => some ⟨[], [], [], false⟩
  | .ret _ => some ⟨[], [], [], false⟩
  | .wbase _ _ => some ⟨[], [], [], false⟩
  | .wadj _ _ => some ⟨[], [], [], false⟩
  | .jenr _ _ => some ⟨[], [], [], false⟩
  | .jarv _ _ => some ⟨[], [], [], false⟩
  | .jstk _ _ => some ⟨[], [], [], false⟩
  | .jclr _ _ => some ⟨[], [], [], false⟩
  | .jqry _ d _ => some ⟨[d.toNat, d.toNat + 1], [], [], false⟩
  | .yield _ => some ⟨[], [], [], false⟩
  | .safept _ => some ⟨[], [], [], false⟩
  | .nop _ => some ⟨[], [], [], false⟩
  | .resume _ => some ⟨[], [], [], false⟩
  | .sread _ d cls b =>
    let r := if Machine.isWideSpecial b.toNat then [d.toNat, d.toNat + 1] else [d.toNat]
    if cls = 0 then some ⟨r, [], [], false⟩ else some ⟨[], [], r, false⟩
  | _ => none

/-- The core instructions that send an update to memory (R199, R202, R225, R227). -/
def Instr.sendsUpdate : Instr → Bool
  | .stg .. | .stu .. | .atom .. | .tsucc .. | .ctdecl .. | .ctdeclFree .. => true
  | _ => false

/-- The core instructions by which a byte of memory may change at once: firmware writes a table entry (R233, DESIGN
CHOICE, log 18). -/
def Instr.mapsPage : Instr → Bool
  | .svcStack _ | .svcMap _ => true
  | _ => false

/-- A row of the table before the events: the core instructions and the illegal one (R75 to R94). -/
def Instr.isCore (i : Instr) : Bool := i.ctorIdx < 216

/-- An instruction with a word of its own: of the cores or of the scripts (R68, R344). -/
def Instr.hasWord (i : Instr) : Bool := i.ctorIdx < 243 && i.ctorIdx != 215

/-- The instruction a word stands for before its registers are read: the FREE forms and the CPATH forms share their
words (DEDUCED, log 11). -/
def Instr.plainForm : Instr → Instr
  | .ctdeclFree m d a => .ctdecl m d a
  | .bloadFree m a b => .bload m a b
  | .cpathRank d a => .cpathRoute d a
  | .cpathClear d a => .cpathRoute d a
  | i => i

end Sys2Proof
end

