-- ==== Sys2Proof/Laws/Issue.lean ====
section
/-!
SUPPORT. What an issue does: where every active lane passes, the advance, the effect and the books.
-/

namespace Sys2Proof.Machine

/-- No lane satisfies `p`: the mask of `p` is empty. -/
theorem maskFrom_zero (p : Nat → Lane → Bool) (ls : List Lane) (k : Nat)
    (h : ∀ i l, ls[i]? = some l → p (k + i) l = false) : maskFrom p k ls = 0 := by
  induction ls generalizing k with
  | nil => rfl
  | cons l ls ih =>
    have h0 := h 0 l rfl
    simp only [Nat.add_zero] at h0
    have ht := ih (k + 1) fun i l' hl => by
      have := h (i + 1) l' (by simpa using hl)
      rwa [← Nat.add_assoc, Nat.add_right_comm] at this
    simp [maskFrom, h0, ht]

theorem faultMask_zero (x : Site) (f : Nat → Lane → Option Cause) (h : ActiveLanes x fun i l => f i l = none) :
    faultMask x f = 0 := by
  refine maskFrom_zero _ _ _ fun i l hl => ?_
  cases hm : x.mask.getLsbD i with
  | false => simp [hm]
  | true => simp [hm, h i l hl hm]

/-- An operation that every active lane passes has no fault. -/
theorem Op.faultOf_none (o : Op) (cap : Nat) (x : Site) (hk : kindFault x o.kind = none)
    (hn : overDistance cap x o.kind = false) (hc : ActiveLanes x fun i l => o.check x i l = none)
    (hf : ActiveLanes x fun i l => o.fault x i l = none) :
    ActiveLanes x fun i l => o.faultOf cap x i l = none := by
  intro i l hl hm
  simp [Op.faultOf, hk, hc i l hl hm, hn, hf i l hl hm]

/-- The issue of an operation that every active lane passes and that is not held. -/
theorem Op.issue_completed (o : Op) (s : State) (x : Site) (h : Issuing s x o.kind)
    (hc : ActiveLanes x fun i l => o.check x i l = none) (hf : ActiveLanes x fun i l => o.fault x i l = none)
    (hw : o.wait x = false) (hh : o.hold x x.mask = false) :
    o.issue s = .next (s.completed x o.m o.kind (o.effect x x.mask)) := by
  have h0 := faultMask_zero x _ (o.faultOf_none s.fw.spdistCap x h.allowed h.near hc hf)
  have hm := h.active
  have hn : x.mask &&& ~~~(0 : BitVec 32) = x.mask := by
    exact BitVec.and_allOnes
  simp only [Op.issue, h.site, h0, Op.perform, hn, hw, hh, hm, State.completed, Bool.and_false, Bool.or_false, Bool.false_eq_true, if_true,
    if_false]

/-- A lane instruction that every active lane passes. -/
theorem laneOp_issue (s : State) (x : Site) (m : Bool) (o : Operands) (tags : Site → Lane → Bool)
    (f : Site → Nat → Lane → Lane) (h : Issuing s x .plain) (hc : OperandsPass x o (tags x)) :
    (laneOp m o tags f).issue s = .next (s.completed x m .plain (onActive x (f x))) :=
  (laneOp m o tags f).issue_completed s x h hc (fun _ _ _ _ => rfl) rfl rfl

/-- A group instruction that every active lane passes. -/
theorem groupOp_issue (s : State) (x : Site) (m : Bool) (us : List Nat) (f : Site → BitVec 32 → Group → Group)
    (h : Issuing s x .plain) (hc : OperandsPass x { us := us } fun _ => true) :
    (groupOp m us f).issue s = .next (s.completed x m .plain (onGroup x (f x x.mask))) :=
  (groupOp m us f).issue_completed s x h hc (fun _ _ _ _ => rfl) rfl rfl

/-! ## What a completed issue leaves alone -/

section
variable (s : State) (x : Site) (m : Bool) (k : IssueKind) (e : State → State)

theorem completed_of_keeps {α : Type} (p : State → α) (hg : ∀ (s : State) (u : Nat) (f : Group → Group), p (s.modGroup u f) = p s)
    (hc : ∀ (s : State) (c : Clock), p { s with clock := c } = p s) (he : ∀ s, p (e s) = p s) :
    p (s.completed x m k e) = p s := by
  simp only [State.completed, hc, hg, he, State.advance]

end

@[simp] theorem onActive_mem (x : Site) (f : Nat → Lane → Lane) (s : State) : (onActive x f s).mem = s.mem := rfl
@[simp] theorem onGroup_mem (x : Site) (f : Group → Group) (s : State) : (onGroup x f s).mem = s.mem := rfl

end Sys2Proof.Machine
end

