-- ==== Sys2Proof/Laws/Coming.lean ====
section
/-!
SUPPORT. Results on their way: what `await` adds, what keeps them, and passing through the lanes of a mask.
-/

namespace Sys2Proof.Machine

/-- Every result on its way in `s` is on its way in `t`. -/
def Grows (s t : State) : Prop := ∀ p ∈ s.pend, p ∈ t.pend

theorem Grows.refl (s : State) : Grows s s := fun _ h => h
theorem Grows.trans {s t u : State} (h : Grows s t) (k : Grows t u) : Grows s u := fun p hp => k p (h p hp)
theorem Grows.of_eq {s t : State} (h : t.pend = s.pend) : Grows s t := fun _ hp => h ▸ hp

theorem Grows.coming {s t : State} (h : Grows s t) {g lane regs what} (hs : s.hasComing g lane regs what) :
    t.hasComing g lane regs what :=
  let ⟨p, hp, hq⟩ := hs
  ⟨p, h p hp, hq⟩

theorem Grows.foldl {α : Type} (f : State → α → State) (hf : ∀ s a, Grows s (f s a)) (xs : List α) (s : State) :
    Grows s (xs.foldl f s) := by
  induction xs generalizing s with
  | nil => exact Grows.refl s
  | cons a xs ih => exact (hf s a).trans (ih _)

/-- What one turn of a fold brings stands at the end. -/
theorem coming_foldl {α : Type} (f : State → α → State) (hf : ∀ s a, Grows s (f s a)) (xs : List α) (a : α) (ha : a ∈ xs)
    {g lane regs what} (h : ∀ s, (f s a).hasComing g lane regs what) (s : State) :
    (xs.foldl f s).hasComing g lane regs what := by
  induction xs generalizing s with
  | nil => cases ha
  | cons b xs ih =>
    rcases List.mem_cons.mp ha with rfl | ha
    · exact (Grows.foldl f hf xs _).coming (h s)
    · exact ih ha _

/-- `await` adds its result. -/
theorem await_coming (s : State) (g : Nat) (lane : Option Nat) (regs : List Nat) (what : Awaited) :
    (s.await g lane regs what).hasComing g lane regs what := by
  refine ⟨_, List.mem_append_right _ (List.mem_singleton.mpr rfl), rfl, rfl, rfl, rfl⟩

theorem await_grows (s : State) (g : Nat) (lane : Option Nat) (regs : List Nat) (what : Awaited) :
    Grows s (s.await g lane regs what) := fun _ hp => List.mem_append_left _ hp

@[simp] theorem completed_pend (s : State) (x : Site) (m : Bool) (k : IssueKind) (e : State → State) :
    (s.completed x m k e).pend = (e (s.advance x x.mask)).pend := rfl

theorem mem_laneList (mask : BitVec 32) (i : Nat) (h : mask.getLsbD i = true) : i ∈ laneList mask := by
  refine List.mem_filter.mpr ⟨List.mem_range.mpr ?_, h⟩
  exact Nat.lt_of_not_le fun hn => by simp [BitVec.getLsbD_of_ge _ _ hn] at h

/-- What the turn of one active lane brings stands at the end. -/
theorem coming_forLanes (x : Site) (f : Nat → Lane → State → State) (hf : ∀ i l s, Grows s (f i l s)) (i : Nat) (l : Lane)
    (hl : x.g.lanes[i]? = some l) (hm : x.mask.getLsbD i = true) {g lane regs what}
    (h : ∀ s, (f i l s).hasComing g lane regs what) (s : State) :
    (s.forLanes x.g x.mask f).hasComing g lane regs what := by
  have hl' : x.g.lane? i = some l := hl
  refine coming_foldl _ (fun s j => ?_) _ i (mem_laneList x.mask i hm) (fun s => ?_) s
  · cases hj : x.g.lane? j with
    | none => exact Grows.refl s
    | some l' => exact hf j l' s
  · simp only [hl']; exact h s

/-- A special function or reduction: every active lane's result is on its way. -/
theorem coming_awaitLanes (s : State) (x : Site) (f : Nat → Lane → List RegWrite) (i : Nat) (l : Lane)
    (hl : x.g.lanes[i]? = some l) (hm : x.mask.getLsbD i = true) :
    (s.awaitLanes x.g x.mask f).hasComing x.g.uid (some i) ((f i l).map (·.reg)) (.value (f i l)) := by
  let F : Nat → Lane → State → State := fun i l s => s.await x.g.uid (some i) ((f i l).map RegWrite.reg) (.value (f i l))
  exact coming_forLanes x F (fun i l s => await_grows s _ _ _ _) i l hl hm (fun s => await_coming s _ _ _ _) s

end Sys2Proof.Machine
end

