-- ==== Sys2Proof/Laws/PerInstr.lean ====
section
/-!
SUPPORT. Statements made instruction by instruction: encodings are read back.
-/

namespace Sys2Proof.Laws.Encoding

/-- A legal instruction with a word of its own has an encoding, which decodes back to it (R68 to R94, R344). -/
def Statement (i : Instr) : Prop :=
  i.hasWord = true → i.wellFormed = true →
    (∃ w, encode i = some w ∧ decode w = .ok i.plainForm) ∨
      (∃ w, encodeScript i = some w ∧ decodeScript w = .ok i.plainForm)

/-! ## The fields of a word -/

theorem slice {w k : Nat} (x : BitVec 32) (y : BitVec w) (h : ∀ i, i < w → x.getLsbD (k + i) = y.getLsbD i) :
    x.extractLsb' k w = y := by
  apply BitVec.eq_of_getLsbD_eq
  intro i hi
  rw [BitVec.getLsbD_extractLsb', h i hi]
  simp [hi]

theorem low {v w : Nat} (x : BitVec v) (y : BitVec w) (i : Nat) (h : i < w) : (x ++ y).getLsbD i = y.getLsbD i := by
  simp [BitVec.getLsbD_append, h]

theorem high {v w : Nat} (x : BitVec v) (y : BitVec w) (i : Nat) (h : w ≤ i) : (x ++ y).getLsbD i = x.getLsbD (i - w) := by
  simp [BitVec.getLsbD_append, Nat.not_lt.mpr h]

theorem top (m : Bool) (i : Nat) (h : i = 0) : (BitVec.ofBool m).getLsbD i = m := by
  subst h
  cases m <;> rfl

section
variable (m : Bool) (M fn : BitVec 5) (d a b : BitVec 7)

theorem bits_rrr (i : Nat) : (wordRrr m M fn d a b).getLsbD i =
    BitVec.getLsbD (w := 1 + 5 + 5 + 7 + 7 + 7) (BitVec.ofBool m ++ M ++ fn ++ d ++ a ++ b) i := rfl

theorem major_rrr : (wordRrr m M fn d a b).extractLsb' 26 5 = M := by
  apply slice
  intro i hi
  rw [bits_rrr]
  simp (disch := omega) only [low, high]
  congr 1; omega

theorem rrr_word : rrr (wordRrr m M fn d a b) = ⟨m, fn, d, a, b⟩ := by
  simp only [rrr]
  congr 1
  · rw [bits_rrr]
    simp (disch := omega) only [high, top]
  all_goals
    apply slice
    intro i hi
    rw [bits_rrr]
    simp (disch := omega) only [low, high]
    congr 1
    omega

end

section
variable (m : Bool) (M : BitVec 5) (fn : BitVec 3) (d a : BitVec 7) (imm : BitVec 9)

theorem bits_rri (i : Nat) : (wordRri m M fn d a imm).getLsbD i =
    BitVec.getLsbD (w := 1 + 5 + 3 + 7 + 7 + 9) (BitVec.ofBool m ++ M ++ fn ++ d ++ a ++ imm) i := rfl

theorem major_rri : (wordRri m M fn d a imm).extractLsb' 26 5 = M := by
  apply slice
  intro i hi
  rw [bits_rri]
  simp (disch := omega) only [low, high]
  congr 1; omega

theorem rri_word : rri (wordRri m M fn d a imm) = ⟨m, fn, d, a, imm⟩ := by
  simp only [rri]
  congr 1
  · rw [bits_rri]
    simp (disch := omega) only [high, top]
  all_goals
    apply slice
    intro i hi
    rw [bits_rri]
    simp (disch := omega) only [low, high]
    congr 1
    omega

end

section
variable (m : Bool) (M : BitVec 5) (fn : BitVec 2) (d : BitVec 7) (imm : BitVec 17)

theorem bits_ri (i : Nat) : (wordRi m M fn d imm).getLsbD i =
    BitVec.getLsbD (w := 1 + 5 + 2 + 7 + 17) (BitVec.ofBool m ++ M ++ fn ++ d ++ imm) i := rfl

theorem major_ri : (wordRi m M fn d imm).extractLsb' 26 5 = M := by
  apply slice
  intro i hi
  rw [bits_ri]
  simp (disch := omega) only [low, high]
  congr 1; omega

theorem ri_word : ri (wordRi m M fn d imm) = ⟨m, fn, d, imm⟩ := by
  simp only [ri]
  congr 1
  · rw [bits_ri]
    simp (disch := omega) only [high, top]
  all_goals
    apply slice
    intro i hi
    rw [bits_ri]
    simp (disch := omega) only [low, high]
    congr 1
    omega

end

section
variable (m n : Bool) (M : BitVec 5) (p : BitVec 4) (d a b : BitVec 7) (off : BitVec 21) (wsh : BitVec 5)

/-- Format P is format RRR with n and p for fn. -/
theorem wordP_eq : wordP m M n p d a b = wordRrr m M (ualuFn n p) d a b := by
  apply BitVec.eq_of_getLsbD_eq
  intro i hi
  rw [bits_rrr]
  show BitVec.getLsbD (w := 1 + 5 + 1 + 4 + 7 + 7 + 7) (BitVec.ofBool m ++ M ++ BitVec.ofBool n ++ p ++ d ++ a ++ b) i = _
  by_cases h1 : i < 21
  · by_cases h2 : i < 14
    · by_cases h3 : i < 7 <;> simp (disch := omega) only [low, high]
    · simp (disch := omega) only [low, high]
  · by_cases h2 : i < 26
    · simp (disch := omega) only [low, high]
      show _ = BitVec.getLsbD (w := 1 + 4) (BitVec.ofBool n ++ p) _
      by_cases h3 : i < 25 <;> simp (disch := omega) only [low, high, top]
    · by_cases h3 : i < 31 <;> simp (disch := omega) only [low, high, top]
      congr 1

theorem major_p : (wordP m M n p d a b).extractLsb' 26 5 = M := by rw [wordP_eq, major_rrr]

theorem rrr_p : rrr (wordP m M n p d a b) = ⟨m, ualuFn n p, d, a, b⟩ := by rw [wordP_eq, rrr_word]

theorem pfn_n : (ualuFn n p).getLsbD 4 = n := by
  show BitVec.getLsbD (w := 1 + 4) (BitVec.ofBool n ++ p) 4 = n
  simp (disch := omega) only [high, top]

theorem pfn_p : (ualuFn n p).setWidth 4 = p := by
  apply BitVec.eq_of_getLsbD_eq
  intro i hi
  rw [BitVec.getLsbD_setWidth]
  show (decide (i < 4) && BitVec.getLsbD (w := 1 + 4) (BitVec.ofBool n ++ p) i) = _
  simp (disch := omega) only [low]
  simp [hi]

theorem pfn_n' : (ualuFn n p)[4] = n := pfn_n n p

theorem atom_r : (atomFn n p)[4] = n := pfn_n n p
theorem atom_op : (atomFn n p).setWidth 4 = p := pfn_p n p

theorem bits_br (i : Nat) : (wordBr m M n p off).getLsbD i =
    BitVec.getLsbD (w := 1 + 5 + 1 + 4 + 21) (BitVec.ofBool m ++ M ++ BitVec.ofBool n ++ p ++ off) i := rfl

theorem major_br : (wordBr m M n p off).extractLsb' 26 5 = M := by
  apply slice
  intro i hi
  rw [bits_br]
  simp (disch := omega) only [low, high]
  congr 1; omega

theorem br_m : (rrr (wordBr m M n p off)).m = m := by
  show (wordBr m M n p off).getLsbD 31 = m
  rw [bits_br]
  simp (disch := omega) only [high, top]

theorem br_fn : (rrr (wordBr m M n p off)).fn = ualuFn n p := by
  apply slice
  intro i hi
  rw [bits_br]
  show _ = BitVec.getLsbD (w := 1 + 4) (BitVec.ofBool n ++ p) i
  by_cases h : i < 4
  · simp (disch := omega) only [low, high]
    congr 1; omega
  · simp (disch := omega) only [low, high, top]

theorem br_off : (wordBr m M n p off).setWidth 21 = off := by
  apply BitVec.eq_of_getLsbD_eq
  intro i hi
  rw [BitVec.getLsbD_setWidth, bits_br]
  simp (disch := omega) only [low]
  simp [hi]

theorem bits_j (i : Nat) : (wordJ m M wsh off).getLsbD i =
    BitVec.getLsbD (w := 1 + 5 + 5 + 21) (BitVec.ofBool m ++ M ++ wsh ++ off) i := rfl

theorem major_j : (wordJ m M wsh off).extractLsb' 26 5 = M := by
  apply slice
  intro i hi
  rw [bits_j]
  simp (disch := omega) only [low, high]
  congr 1; omega

theorem j_m : (rrr (wordJ m M wsh off)).m = m := by
  show (wordJ m M wsh off).getLsbD 31 = m
  rw [bits_j]
  simp (disch := omega) only [high, top]

theorem j_fn : (rrr (wordJ m M wsh off)).fn = wsh := by
  apply slice
  intro i hi
  rw [bits_j]
  simp (disch := omega) only [low, high]
  congr 1; omega

theorem j_off : (wordJ m M wsh off).setWidth 21 = off := by
  apply BitVec.eq_of_getLsbD_eq
  intro i hi
  rw [BitVec.getLsbD_setWidth, bits_j]
  simp (disch := omega) only [low]
  simp [hi]

end

section
variable (op : BitVec 6) (d a b : BitVec 4) (imm : BitVec 14)

theorem bits_k (i : Nat) : (wordK op d a b imm).getLsbD i =
    BitVec.getLsbD (w := 6 + 4 + 4 + 4 + 14) (op ++ d ++ a ++ b ++ imm) i := rfl

theorem trellis_word : trellisFields (wordK op d a b imm) = ⟨op, d, a, b, imm⟩ := by
  simp only [trellisFields]
  congr 1
  all_goals
    apply slice
    intro i hi
    rw [bits_k]
    simp (disch := omega) only [low, high]
    congr 1
    omega

end

section
variable (e : BitVec 3) (y s : Bool) (r : BitVec 2)

/-- The mode field of CVT is read back (R82). -/
theorem cvt_fields : (cvtMode e y s r).extractLsb' 4 3 = e ∧ (cvtMode e y s r).getLsbD 3 = y ∧
    (cvtMode e y s r).getLsbD 2 = s ∧ (cvtMode e y s r).extractLsb' 0 2 = r := by
  revert e r
  cases y <;> cases s <;> decide

theorem cvt_elem : (cvtMode e y s r).extractLsb' 4 3 = e := (cvt_fields e y s r).1
theorem cvt_dyn : (cvtMode e y s r)[3] = y := (cvt_fields e y s r).2.1
theorem cvt_sat : (cvtMode e y s r)[2] = s := (cvt_fields e y s r).2.2.1
theorem cvt_rnd : (cvtMode e y s r).extractLsb' 0 2 = r := (cvt_fields e y s r).2.2.2

end

theorem two_bits (x : BitVec 2) : x = 0 ∨ x = 1 ∨ x = 2 ∨ x = 3 := by
  revert x
  decide

/-! ## One lemma per row -/

section
set_option Elab.async false


theorem to_decodeIalu (m fn d a b) : decode (wordRrr m 0#5 fn d a b) = decodeIalu ⟨m, fn, d, a, b⟩ := by
  simp [decode, major_rrr, rrr_word]

theorem to_decodeIalui (m fn d a imm) : decode (wordRri m 1#5 fn d a imm) = decodeIalui ⟨m, fn, d, a, imm⟩ := by
  simp [decode, major_rri, rri_word]

theorem to_decodeAddr (m fn d a b) : decode (wordRrr m 3#5 fn d a b) = decodeAddr ⟨m, fn, d, a, b⟩ := by
  simp [decode, major_rrr, rrr_word]

theorem to_decodeFalu (m fn d a b) : decode (wordRrr m 4#5 fn d a b) = decodeFalu ⟨m, fn, d, a, b⟩ := by
  simp [decode, major_rrr, rrr_word]

theorem to_decodeCvt (m fn d a b) : decode (wordRrr m 6#5 fn d a b) = decodeCvt ⟨m, fn, d, a, b⟩ := by
  simp [decode, major_rrr, rrr_word]

theorem to_decodeSfu (m fn d a b) : decode (wordRrr m 7#5 fn d a b) = decodeSfu ⟨m, fn, d, a, b⟩ := by
  simp [decode, major_rrr, rrr_word]

theorem to_decodeXlane (m fn d a b) : decode (wordRrr m 8#5 fn d a b) = decodeXlane ⟨m, fn, d, a, b⟩ := by
  simp [decode, major_rrr, rrr_word]

theorem to_decodeUalu (m fn d a b) : decode (wordRrr m 9#5 fn d a b) = decodeUalu ⟨m, fn, d, a, b⟩ := by
  simp [decode, major_rrr, rrr_word]

theorem to_decodeUalui (m fn d a imm) : decode (wordRri m 10#5 fn d a imm) = decodeUalui ⟨m, fn, d, a, imm⟩ := by
  simp [decode, major_rri, rri_word]

theorem to_decodeMovw (m fn d imm) : decode (wordRi m 11#5 fn d imm) = decodeMovw ⟨m, fn, d, imm⟩ := by
  simp [decode, major_ri, ri_word]

theorem to_decodePred (m fn d a b) : decode (wordRrr m 12#5 fn d a b) = decodePred ⟨m, fn, d, a, b⟩ := by
  simp [decode, major_rrr, rrr_word]

theorem to_decodeCtrl (m fn d a b) : decode (wordRrr m 16#5 fn d a b) = decodeCtrl ⟨m, fn, d, a, b⟩ := by
  simp [decode, major_rrr, rrr_word]

theorem to_decodeSys (m fn d a b) : decode (wordRrr m 17#5 fn d a b) = decodeSys ⟨m, fn, d, a, b⟩ := by
  simp [decode, major_rrr, rrr_word]

theorem to_decodeSync (m fn d a b) : decode (wordRrr m 26#5 fn d a b) = decodeSync ⟨m, fn, d, a, b⟩ := by
  simp [decode, major_rrr, rrr_word]

theorem to_decodeEng (m fn d a b) : decode (wordRrr m 27#5 fn d a b) = decodeEng ⟨m, fn, d, a, b⟩ := by
  simp [decode, major_rrr, rrr_word]

theorem to_decodeTask (m fn d a b) : decode (wordRrr m 28#5 fn d a b) = decodeTask ⟨m, fn, d, a, b⟩ := by
  simp [decode, major_rrr, rrr_word]

theorem to_decodeMma (m fn d a b) : decode (wordRrr m 29#5 fn d a b) = decodeMma ⟨m, fn, d, a, b⟩ := by
  simp [decode, major_rrr, rrr_word]

theorem to_decodeAcc (m fn d a b) : decode (wordRrr m 30#5 fn d a b) = decodeAcc ⟨m, fn, d, a, b⟩ := by
  simp [decode, major_rrr, rrr_word]

theorem iadd (m d a b) : Statement (.iadd m d a b) := fun _ h =>
  .inl ⟨_, rfl, by simpa [to_decodeIalu, decodeIalu, form, check, legalFields, Instr.plainForm] using h⟩
theorem isub (m d a b) : Statement (.isub m d a b) := fun _ h =>
  .inl ⟨_, rfl, by simpa [to_decodeIalu, decodeIalu, form, check, legalFields, Instr.plainForm] using h⟩
theorem imul (m d a b) : Statement (.imul m d a b) := fun _ h =>
  .inl ⟨_, rfl, by simpa [to_decodeIalu, decodeIalu, form, check, legalFields, Instr.plainForm] using h⟩
theorem imulh (m d a b) : Statement (.imulh m d a b) := fun _ h =>
  .inl ⟨_, rfl, by simpa [to_decodeIalu, decodeIalu, form, check, legalFields, Instr.plainForm] using h⟩
theorem imulhu (m d a b) : Statement (.imulhu m d a b) := fun _ h =>
  .inl ⟨_, rfl, by simpa [to_decodeIalu, decodeIalu, form, check, legalFields, Instr.plainForm] using h⟩
theorem imad (m d a b) : Statement (.imad m d a b) := fun _ h =>
  .inl ⟨_, rfl, by simpa [to_decodeIalu, decodeIalu, form, check, legalFields, Instr.plainForm] using h⟩
theorem imin (m d a b) : Statement (.imin m d a b) := fun _ h =>
  .inl ⟨_, rfl, by simpa [to_decodeIalu, decodeIalu, form, check, legalFields, Instr.plainForm] using h⟩
theorem imax (m d a b) : Statement (.imax m d a b) := fun _ h =>
  .inl ⟨_, rfl, by simpa [to_decodeIalu, decodeIalu, form, check, legalFields, Instr.plainForm] using h⟩
theorem iminu (m d a b) : Statement (.iminu m d a b) := fun _ h =>
  .inl ⟨_, rfl, by simpa [to_decodeIalu, decodeIalu, form, check, legalFields, Instr.plainForm] using h⟩
theorem imaxu (m d a b) : Statement (.imaxu m d a b) := fun _ h =>
  .inl ⟨_, rfl, by simpa [to_decodeIalu, decodeIalu, form, check, legalFields, Instr.plainForm] using h⟩
theorem iabs (m d a) : Statement (.iabs m d a) := fun _ h =>
  .inl ⟨_, rfl, by simpa [to_decodeIalu, decodeIalu, form, check, legalFields, Instr.plainForm] using h⟩
theorem ineg (m d a) : Statement (.ineg m d a) := fun _ h =>
  .inl ⟨_, rfl, by simpa [to_decodeIalu, decodeIalu, form, check, legalFields, Instr.plainForm] using h⟩
theorem and (m d a b) : Statement (.and m d a b) := fun _ h =>
  .inl ⟨_, rfl, by simpa [to_decodeIalu, decodeIalu, form, check, legalFields, Instr.plainForm] using h⟩
theorem or (m d a b) : Statement (.or m d a b) := fun _ h =>
  .inl ⟨_, rfl, by simpa [to_decodeIalu, decodeIalu, form, check, legalFields, Instr.plainForm] using h⟩
theorem xor (m d a b) : Statement (.xor m d a b) := fun _ h =>
  .inl ⟨_, rfl, by simpa [to_decodeIalu, decodeIalu, form, check, legalFields, Instr.plainForm] using h⟩
theorem andn (m d a b) : Statement (.andn m d a b) := fun _ h =>
  .inl ⟨_, rfl, by simpa [to_decodeIalu, decodeIalu, form, check, legalFields, Instr.plainForm] using h⟩
theorem shl (m d a b) : Statement (.shl m d a b) := fun _ h =>
  .inl ⟨_, rfl, by simpa [to_decodeIalu, decodeIalu, form, check, legalFields, Instr.plainForm] using h⟩
theorem shr (m d a b) : Statement (.shr m d a b) := fun _ h =>
  .inl ⟨_, rfl, by simpa [to_decodeIalu, decodeIalu, form, check, legalFields, Instr.plainForm] using h⟩
theorem sar (m d a b) : Statement (.sar m d a b) := fun _ h =>
  .inl ⟨_, rfl, by simpa [to_decodeIalu, decodeIalu, form, check, legalFields, Instr.plainForm] using h⟩
theorem rotl (m d a b) : Statement (.rotl m d a b) := fun _ h =>
  .inl ⟨_, rfl, by simpa [to_decodeIalu, decodeIalu, form, check, legalFields, Instr.plainForm] using h⟩
theorem popc (m d a) : Statement (.popc m d a) := fun _ h =>
  .inl ⟨_, rfl, by simpa [to_decodeIalu, decodeIalu, form, check, legalFields, Instr.plainForm] using h⟩
theorem clz (m d a) : Statement (.clz m d a) := fun _ h =>
  .inl ⟨_, rfl, by simpa [to_decodeIalu, decodeIalu, form, check, legalFields, Instr.plainForm] using h⟩
theorem brev (m d a) : Statement (.brev m d a) := fun _ h =>
  .inl ⟨_, rfl, by simpa [to_decodeIalu, decodeIalu, form, check, legalFields, Instr.plainForm] using h⟩
theorem bfx (m d a b) : Statement (.bfx m d a b) := fun _ h =>
  .inl ⟨_, rfl, by simpa [to_decodeIalu, decodeIalu, form, check, legalFields, Instr.plainForm] using h⟩
theorem bfxs (m d a b) : Statement (.bfxs m d a b) := fun _ h =>
  .inl ⟨_, rfl, by simpa [to_decodeIalu, decodeIalu, form, check, legalFields, Instr.plainForm] using h⟩
theorem bfi (m d a b) : Statement (.bfi m d a b) := fun _ h =>
  .inl ⟨_, rfl, by simpa [to_decodeIalu, decodeIalu, form, check, legalFields, Instr.plainForm] using h⟩
theorem iadds (m d a b) : Statement (.iadds m d a b) := fun _ h =>
  .inl ⟨_, rfl, by simpa [to_decodeIalu, decodeIalu, form, check, legalFields, Instr.plainForm] using h⟩
theorem isubs (m d a b) : Statement (.isubs m d a b) := fun _ h =>
  .inl ⟨_, rfl, by simpa [to_decodeIalu, decodeIalu, form, check, legalFields, Instr.plainForm] using h⟩
theorem mov (m d a) : Statement (.mov m d a) := fun _ h =>
  .inl ⟨_, rfl, by simpa [to_decodeIalu, decodeIalu, form, check, legalFields, Instr.plainForm] using h⟩
theorem retag (m d a k) : Statement (.retag m d a k) := fun _ h =>
  .inl ⟨_, rfl, by simpa [to_decodeIalu, decodeIalu, form, check, legalFields, Instr.plainForm] using h⟩
theorem ualuIadd (m vc d a b) : Statement (.ualuIadd m vc d a b) := fun _ h => by
  cases vc <;> exact .inl ⟨_, rfl, by simpa [to_decodeUalu, decodeUalu, form, check, legalFields, Instr.plainForm, ualuFn] using h⟩
theorem ualuIsub (m vc d a b) : Statement (.ualuIsub m vc d a b) := fun _ h => by
  cases vc <;> exact .inl ⟨_, rfl, by simpa [to_decodeUalu, decodeUalu, form, check, legalFields, Instr.plainForm, ualuFn] using h⟩
theorem ualuImul (m vc d a b) : Statement (.ualuImul m vc d a b) := fun _ h => by
  cases vc <;> exact .inl ⟨_, rfl, by simpa [to_decodeUalu, decodeUalu, form, check, legalFields, Instr.plainForm, ualuFn] using h⟩
theorem ualuImin (m vc d a b) : Statement (.ualuImin m vc d a b) := fun _ h => by
  cases vc <;> exact .inl ⟨_, rfl, by simpa [to_decodeUalu, decodeUalu, form, check, legalFields, Instr.plainForm, ualuFn] using h⟩
theorem ualuImax (m vc d a b) : Statement (.ualuImax m vc d a b) := fun _ h => by
  cases vc <;> exact .inl ⟨_, rfl, by simpa [to_decodeUalu, decodeUalu, form, check, legalFields, Instr.plainForm, ualuFn] using h⟩
theorem ualuIminu (m vc d a b) : Statement (.ualuIminu m vc d a b) := fun _ h => by
  cases vc <;> exact .inl ⟨_, rfl, by simpa [to_decodeUalu, decodeUalu, form, check, legalFields, Instr.plainForm, ualuFn] using h⟩
theorem ualuImaxu (m vc d a b) : Statement (.ualuImaxu m vc d a b) := fun _ h => by
  cases vc <;> exact .inl ⟨_, rfl, by simpa [to_decodeUalu, decodeUalu, form, check, legalFields, Instr.plainForm, ualuFn] using h⟩
theorem ualuAnd (m vc d a b) : Statement (.ualuAnd m vc d a b) := fun _ h => by
  cases vc <;> exact .inl ⟨_, rfl, by simpa [to_decodeUalu, decodeUalu, form, check, legalFields, Instr.plainForm, ualuFn] using h⟩
theorem ualuOr (m vc d a b) : Statement (.ualuOr m vc d a b) := fun _ h => by
  cases vc <;> exact .inl ⟨_, rfl, by simpa [to_decodeUalu, decodeUalu, form, check, legalFields, Instr.plainForm, ualuFn] using h⟩
theorem ualuXor (m vc d a b) : Statement (.ualuXor m vc d a b) := fun _ h => by
  cases vc <;> exact .inl ⟨_, rfl, by simpa [to_decodeUalu, decodeUalu, form, check, legalFields, Instr.plainForm, ualuFn] using h⟩
theorem ualuAndn (m vc d a b) : Statement (.ualuAndn m vc d a b) := fun _ h => by
  cases vc <;> exact .inl ⟨_, rfl, by simpa [to_decodeUalu, decodeUalu, form, check, legalFields, Instr.plainForm, ualuFn] using h⟩
theorem ualuShl (m vc d a b) : Statement (.ualuShl m vc d a b) := fun _ h => by
  cases vc <;> exact .inl ⟨_, rfl, by simpa [to_decodeUalu, decodeUalu, form, check, legalFields, Instr.plainForm, ualuFn] using h⟩
theorem ualuShr (m vc d a b) : Statement (.ualuShr m vc d a b) := fun _ h => by
  cases vc <;> exact .inl ⟨_, rfl, by simpa [to_decodeUalu, decodeUalu, form, check, legalFields, Instr.plainForm, ualuFn] using h⟩
theorem ualuSar (m vc d a b) : Statement (.ualuSar m vc d a b) := fun _ h => by
  cases vc <;> exact .inl ⟨_, rfl, by simpa [to_decodeUalu, decodeUalu, form, check, legalFields, Instr.plainForm, ualuFn] using h⟩
theorem ualuMov (m vc d b) : Statement (.ualuMov m vc d b) := fun _ h => by
  cases vc <;> exact .inl ⟨_, rfl, by simpa [to_decodeUalu, decodeUalu, form, check, legalFields, Instr.plainForm, ualuFn] using h⟩
theorem iaddi (m d a imm) : Statement (.iaddi m d a imm) := fun _ h =>
  .inl ⟨_, rfl, by simpa [to_decodeIalui, decodeIalui, form, check, legalFields, Instr.plainForm] using h⟩
theorem andi (m d a imm) : Statement (.andi m d a imm) := fun _ h =>
  .inl ⟨_, rfl, by simpa [to_decodeIalui, decodeIalui, form, check, legalFields, Instr.plainForm] using h⟩
theorem ori (m d a imm) : Statement (.ori m d a imm) := fun _ h =>
  .inl ⟨_, rfl, by simpa [to_decodeIalui, decodeIalui, form, check, legalFields, Instr.plainForm] using h⟩
theorem xori (m d a imm) : Statement (.xori m d a imm) := fun _ h =>
  .inl ⟨_, rfl, by simpa [to_decodeIalui, decodeIalui, form, check, legalFields, Instr.plainForm] using h⟩
theorem shli (m d a imm) : Statement (.shli m d a imm) := fun _ h =>
  .inl ⟨_, rfl, by simpa [to_decodeIalui, decodeIalui, form, check, legalFields, Instr.plainForm] using h⟩
theorem shri (m d a imm) : Statement (.shri m d a imm) := fun _ h =>
  .inl ⟨_, rfl, by simpa [to_decodeIalui, decodeIalui, form, check, legalFields, Instr.plainForm] using h⟩
theorem sari (m d a imm) : Statement (.sari m d a imm) := fun _ h =>
  .inl ⟨_, rfl, by simpa [to_decodeIalui, decodeIalui, form, check, legalFields, Instr.plainForm] using h⟩
theorem imuli (m d a imm) : Statement (.imuli m d a imm) := fun _ h =>
  .inl ⟨_, rfl, by simpa [to_decodeIalui, decodeIalui, form, check, legalFields, Instr.plainForm] using h⟩
theorem ualuiIaddi (m d a imm) : Statement (.ualuiIaddi m d a imm) := fun _ h =>
  .inl ⟨_, rfl, by simpa [to_decodeUalui, decodeUalui, form, check, legalFields, Instr.plainForm] using h⟩
theorem ualuiAndi (m d a imm) : Statement (.ualuiAndi m d a imm) := fun _ h =>
  .inl ⟨_, rfl, by simpa [to_decodeUalui, decodeUalui, form, check, legalFields, Instr.plainForm] using h⟩
theorem ualuiOri (m d a imm) : Statement (.ualuiOri m d a imm) := fun _ h =>
  .inl ⟨_, rfl, by simpa [to_decodeUalui, decodeUalui, form, check, legalFields, Instr.plainForm] using h⟩
theorem ualuiXori (m d a imm) : Statement (.ualuiXori m d a imm) := fun _ h =>
  .inl ⟨_, rfl, by simpa [to_decodeUalui, decodeUalui, form, check, legalFields, Instr.plainForm] using h⟩
theorem ualuiShli (m d a imm) : Statement (.ualuiShli m d a imm) := fun _ h =>
  .inl ⟨_, rfl, by simpa [to_decodeUalui, decodeUalui, form, check, legalFields, Instr.plainForm] using h⟩
theorem ualuiShri (m d a imm) : Statement (.ualuiShri m d a imm) := fun _ h =>
  .inl ⟨_, rfl, by simpa [to_decodeUalui, decodeUalui, form, check, legalFields, Instr.plainForm] using h⟩
theorem ualuiSari (m d a imm) : Statement (.ualuiSari m d a imm) := fun _ h =>
  .inl ⟨_, rfl, by simpa [to_decodeUalui, decodeUalui, form, check, legalFields, Instr.plainForm] using h⟩
theorem ualuiImuli (m d a imm) : Statement (.ualuiImuli m d a imm) := fun _ h =>
  .inl ⟨_, rfl, by simpa [to_decodeUalui, decodeUalui, form, check, legalFields, Instr.plainForm] using h⟩
theorem movl (m d imm) : Statement (.movl m d imm) := fun _ h =>
  .inl ⟨_, rfl, by simpa [to_decodeMovw, decodeMovw, form, check, legalFields, Instr.plainForm] using h⟩
theorem movh (m d imm) : Statement (.movh m d imm) := fun _ h =>
  .inl ⟨_, rfl, by simpa [to_decodeMovw, decodeMovw, form, check, legalFields, Instr.plainForm] using h⟩
theorem movlUniform (m d imm) : Statement (.movlUniform m d imm) := fun _ h =>
  .inl ⟨_, rfl, by simpa [to_decodeMovw, decodeMovw, form, check, legalFields, Instr.plainForm] using h⟩
theorem movhUniform (m d imm) : Statement (.movhUniform m d imm) := fun _ h =>
  .inl ⟨_, rfl, by simpa [to_decodeMovw, decodeMovw, form, check, legalFields, Instr.plainForm] using h⟩
theorem icmp (m c d a b) : Statement (.icmp m c d a b) := fun _ h =>
  have hc : ¬9 < c.toNat := by simp [Instr.wellFormed] at h; omega
  .inl ⟨_, rfl, by simpa [decode, major_rrr, rrr_word, form, check, legalFields, Instr.plainForm, hc] using h⟩
theorem aadd (m d a b) : Statement (.aadd m d a b) := fun _ h =>
  .inl ⟨_, rfl, by simpa [to_decodeAddr, decodeAddr, form, check, legalFields, Instr.plainForm] using h⟩
theorem aaddx (m d a b) : Statement (.aaddx m d a b) := fun _ h =>
  .inl ⟨_, rfl, by simpa [to_decodeAddr, decodeAddr, form, check, legalFields, Instr.plainForm] using h⟩
theorem asub (m d a b) : Statement (.asub m d a b) := fun _ h =>
  .inl ⟨_, rfl, by simpa [to_decodeAddr, decodeAddr, form, check, legalFields, Instr.plainForm] using h⟩
theorem alea (m x d a b) : Statement (.alea m x d a b) := fun _ h => by
  rcases two_bits x with rfl | rfl | rfl | rfl <;>
    exact .inl ⟨_, rfl, by simpa [to_decodeAddr, decodeAddr, form, check, legalFields, Instr.plainForm, aleaFn] using h⟩
theorem acmpeq (m d a b) : Statement (.acmpeq m d a b) := fun _ h =>
  .inl ⟨_, rfl, by simpa [to_decodeAddr, decodeAddr, form, check, legalFields, Instr.plainForm] using h⟩
theorem acmpltu (m d a b) : Statement (.acmpltu m d a b) := fun _ h =>
  .inl ⟨_, rfl, by simpa [to_decodeAddr, decodeAddr, form, check, legalFields, Instr.plainForm] using h⟩
theorem afroms (m d a) : Statement (.afroms m d a) := fun _ h =>
  .inl ⟨_, rfl, by simpa [to_decodeAddr, decodeAddr, form, check, legalFields, Instr.plainForm] using h⟩
theorem fadd (m d a b) : Statement (.fadd m d a b) := fun _ h =>
  .inl ⟨_, rfl, by simpa [to_decodeFalu, decodeFalu, form, check, legalFields, Instr.plainForm] using h⟩
theorem fsub (m d a b) : Statement (.fsub m d a b) := fun _ h =>
  .inl ⟨_, rfl, by simpa [to_decodeFalu, decodeFalu, form, check, legalFields, Instr.plainForm] using h⟩
theorem fmul (m d a b) : Statement (.fmul m d a b) := fun _ h =>
  .inl ⟨_, rfl, by simpa [to_decodeFalu, decodeFalu, form, check, legalFields, Instr.plainForm] using h⟩
theorem ffma (m d a b) : Statement (.ffma m d a b) := fun _ h =>
  .inl ⟨_, rfl, by simpa [to_decodeFalu, decodeFalu, form, check, legalFields, Instr.plainForm] using h⟩
theorem ffms (m d a b) : Statement (.ffms m d a b) := fun _ h =>
  .inl ⟨_, rfl, by simpa [to_decodeFalu, decodeFalu, form, check, legalFields, Instr.plainForm] using h⟩
theorem fnma (m d a b) : Statement (.fnma m d a b) := fun _ h =>
  .inl ⟨_, rfl, by simpa [to_decodeFalu, decodeFalu, form, check, legalFields, Instr.plainForm] using h⟩
theorem fmin (m d a b) : Statement (.fmin m d a b) := fun _ h =>
  .inl ⟨_, rfl, by simpa [to_decodeFalu, decodeFalu, form, check, legalFields, Instr.plainForm] using h⟩
theorem fmax (m d a b) : Statement (.fmax m d a b) := fun _ h =>
  .inl ⟨_, rfl, by simpa [to_decodeFalu, decodeFalu, form, check, legalFields, Instr.plainForm] using h⟩
theorem fminnum (m d a b) : Statement (.fminnum m d a b) := fun _ h =>
  .inl ⟨_, rfl, by simpa [to_decodeFalu, decodeFalu, form, check, legalFields, Instr.plainForm] using h⟩
theorem fmaxnum (m d a b) : Statement (.fmaxnum m d a b) := fun _ h =>
  .inl ⟨_, rfl, by simpa [to_decodeFalu, decodeFalu, form, check, legalFields, Instr.plainForm] using h⟩
theorem fabs (m d a) : Statement (.fabs m d a) := fun _ h =>
  .inl ⟨_, rfl, by simpa [to_decodeFalu, decodeFalu, form, check, legalFields, Instr.plainForm] using h⟩
theorem fneg (m d a) : Statement (.fneg m d a) := fun _ h =>
  .inl ⟨_, rfl, by simpa [to_decodeFalu, decodeFalu, form, check, legalFields, Instr.plainForm] using h⟩
theorem fcopysign (m d a b) : Statement (.fcopysign m d a b) := fun _ h =>
  .inl ⟨_, rfl, by simpa [to_decodeFalu, decodeFalu, form, check, legalFields, Instr.plainForm] using h⟩
theorem frnd (m d a k) : Statement (.frnd m d a k) := fun _ h =>
  .inl ⟨_, rfl, by simpa [to_decodeFalu, decodeFalu, form, check, legalFields, Instr.plainForm] using h⟩
theorem fclass (m d a) : Statement (.fclass m d a) := fun _ h =>
  .inl ⟨_, rfl, by simpa [to_decodeFalu, decodeFalu, form, check, legalFields, Instr.plainForm] using h⟩
theorem fdot2 (m d a b) : Statement (.fdot2 m d a b) := fun _ h =>
  .inl ⟨_, rfl, by simpa [to_decodeFalu, decodeFalu, form, check, legalFields, Instr.plainForm] using h⟩
theorem fdot4 (m d a b) : Statement (.fdot4 m d a b) := fun _ h =>
  .inl ⟨_, rfl, by simpa [to_decodeFalu, decodeFalu, form, check, legalFields, Instr.plainForm] using h⟩
theorem fdiv (m d a b) : Statement (.fdiv m d a b) := fun _ h =>
  .inl ⟨_, rfl, by simpa [to_decodeFalu, decodeFalu, form, check, legalFields, Instr.plainForm] using h⟩
theorem fscale (m d a b) : Statement (.fscale m d a b) := fun _ h =>
  .inl ⟨_, rfl, by simpa [to_decodeFalu, decodeFalu, form, check, legalFields, Instr.plainForm] using h⟩
theorem fgetexp (m d a) : Statement (.fgetexp m d a) := fun _ h =>
  .inl ⟨_, rfl, by simpa [to_decodeFalu, decodeFalu, form, check, legalFields, Instr.plainForm] using h⟩
theorem fgetman (m d a) : Statement (.fgetman m d a) := fun _ h =>
  .inl ⟨_, rfl, by simpa [to_decodeFalu, decodeFalu, form, check, legalFields, Instr.plainForm] using h⟩
theorem fcmp (m c d a b) : Statement (.fcmp m c d a b) := fun _ h =>
  have hc : ¬7 < c.toNat := by simp [Instr.wellFormed] at h; omega
  .inl ⟨_, rfl, by simpa [decode, major_rrr, rrr_word, form, check, legalFields, Instr.plainForm, hc] using h⟩
theorem cvt (m t d a elem dyn sat rnd) : Statement (.cvt m t d a elem dyn sat rnd) := fun _ h =>
  .inl ⟨_, rfl, by
    simp only [Instr.wellFormed, Bool.and_eq_true] at h
    simp [to_decodeCvt, decodeCvt, form, check, legalFields, Instr.wellFormed, h.1, cvt_elem, cvt_dyn,
      cvt_sat, cvt_rnd, Instr.plainForm]
    intro hd
    simpa [hd] using h.2⟩
theorem frcp (m d a) : Statement (.frcp m d a) := fun _ h =>
  .inl ⟨_, rfl, by simpa [to_decodeSfu, decodeSfu, form, check, legalFields, Instr.plainForm] using h⟩
theorem frsq (m d a) : Statement (.frsq m d a) := fun _ h =>
  .inl ⟨_, rfl, by simpa [to_decodeSfu, decodeSfu, form, check, legalFields, Instr.plainForm] using h⟩
theorem fsqrt (m d a) : Statement (.fsqrt m d a) := fun _ h =>
  .inl ⟨_, rfl, by simpa [to_decodeSfu, decodeSfu, form, check, legalFields, Instr.plainForm] using h⟩
theorem flut (m d a) : Statement (.flut m d a) := fun _ h =>
  .inl ⟨_, rfl, by simpa [to_decodeSfu, decodeSfu, form, check, legalFields, Instr.plainForm] using h⟩
theorem atload (m a k) : Statement (.atload m a k) := fun _ h =>
  .inl ⟨_, rfl, by simpa [to_decodeSfu, decodeSfu, form, check, legalFields, Instr.plainForm] using h⟩
theorem atbind (m k) : Statement (.atbind m k) := fun _ h =>
  .inl ⟨_, rfl, by simpa [to_decodeSfu, decodeSfu, form, check, legalFields, Instr.plainForm] using h⟩
theorem atstat (m d) : Statement (.atstat m d) := fun _ h =>
  .inl ⟨_, rfl, by simpa [to_decodeSfu, decodeSfu, form, check, legalFields, Instr.plainForm] using h⟩
theorem shfli (m d a b) : Statement (.shfli m d a b) := fun _ h =>
  .inl ⟨_, rfl, by simpa [to_decodeXlane, decodeXlane, form, check, legalFields, Instr.plainForm] using h⟩
theorem shflu (m d a k) : Statement (.shflu m d a k) := fun _ h =>
  .inl ⟨_, rfl, by simpa [to_decodeXlane, decodeXlane, form, check, legalFields, Instr.plainForm] using h⟩
theorem shfld (m d a k) : Statement (.shfld m d a k) := fun _ h =>
  .inl ⟨_, rfl, by simpa [to_decodeXlane, decodeXlane, form, check, legalFields, Instr.plainForm] using h⟩
theorem shflx (m d a k) : Statement (.shflx m d a k) := fun _ h =>
  .inl ⟨_, rfl, by simpa [to_decodeXlane, decodeXlane, form, check, legalFields, Instr.plainForm] using h⟩
theorem voteall (m d a) : Statement (.voteall m d a) := fun _ h =>
  .inl ⟨_, rfl, by simpa [to_decodeXlane, decodeXlane, form, check, legalFields, Instr.plainForm] using h⟩
theorem voteany (m d a) : Statement (.voteany m d a) := fun _ h =>
  .inl ⟨_, rfl, by simpa [to_decodeXlane, decodeXlane, form, check, legalFields, Instr.plainForm] using h⟩
theorem ballot (m d a) : Statement (.ballot m d a) := fun _ h =>
  .inl ⟨_, rfl, by simpa [to_decodeXlane, decodeXlane, form, check, legalFields, Instr.plainForm] using h⟩
theorem redadd (m d a) : Statement (.redadd m d a) := fun _ h =>
  .inl ⟨_, rfl, by simpa [to_decodeXlane, decodeXlane, form, check, legalFields, Instr.plainForm] using h⟩
theorem redmin (m d a) : Statement (.redmin m d a) := fun _ h =>
  .inl ⟨_, rfl, by simpa [to_decodeXlane, decodeXlane, form, check, legalFields, Instr.plainForm] using h⟩
theorem redmax (m d a) : Statement (.redmax m d a) := fun _ h =>
  .inl ⟨_, rfl, by simpa [to_decodeXlane, decodeXlane, form, check, legalFields, Instr.plainForm] using h⟩
theorem redand (m d a) : Statement (.redand m d a) := fun _ h =>
  .inl ⟨_, rfl, by simpa [to_decodeXlane, decodeXlane, form, check, legalFields, Instr.plainForm] using h⟩
theorem redor (m d a) : Statement (.redor m d a) := fun _ h =>
  .inl ⟨_, rfl, by simpa [to_decodeXlane, decodeXlane, form, check, legalFields, Instr.plainForm] using h⟩
theorem redxor (m d a) : Statement (.redxor m d a) := fun _ h =>
  .inl ⟨_, rfl, by simpa [to_decodeXlane, decodeXlane, form, check, legalFields, Instr.plainForm] using h⟩
theorem scanadd (m d a) : Statement (.scanadd m d a) := fun _ h =>
  .inl ⟨_, rfl, by simpa [to_decodeXlane, decodeXlane, form, check, legalFields, Instr.plainForm] using h⟩
theorem scanmax (m d a) : Statement (.scanmax m d a) := fun _ h =>
  .inl ⟨_, rfl, by simpa [to_decodeXlane, decodeXlane, form, check, legalFields, Instr.plainForm] using h⟩
theorem matchLanes (m d a) : Statement (.matchLanes m d a) := fun _ h =>
  .inl ⟨_, rfl, by simpa [to_decodeXlane, decodeXlane, form, check, legalFields, Instr.plainForm] using h⟩
theorem bcast (m d a k) : Statement (.bcast m d a k) := fun _ h =>
  .inl ⟨_, rfl, by simpa [to_decodeXlane, decodeXlane, form, check, legalFields, Instr.plainForm] using h⟩
theorem splat (m d a) : Statement (.splat m d a) := fun _ h =>
  .inl ⟨_, rfl, by simpa [to_decodeXlane, decodeXlane, form, check, legalFields, Instr.plainForm] using h⟩
theorem pand (m d a b) : Statement (.pand m d a b) := fun _ h =>
  .inl ⟨_, rfl, by simpa [to_decodePred, decodePred, form, check, legalFields, Instr.plainForm] using h⟩
theorem por (m d a b) : Statement (.por m d a b) := fun _ h =>
  .inl ⟨_, rfl, by simpa [to_decodePred, decodePred, form, check, legalFields, Instr.plainForm] using h⟩
theorem pxor (m d a b) : Statement (.pxor m d a b) := fun _ h =>
  .inl ⟨_, rfl, by simpa [to_decodePred, decodePred, form, check, legalFields, Instr.plainForm] using h⟩
theorem pnot (m d a) : Statement (.pnot m d a) := fun _ h =>
  .inl ⟨_, rfl, by simpa [to_decodePred, decodePred, form, check, legalFields, Instr.plainForm] using h⟩
theorem pmov (m d a) : Statement (.pmov m d a) := fun _ h =>
  .inl ⟨_, rfl, by simpa [to_decodePred, decodePred, form, check, legalFields, Instr.plainForm] using h⟩
theorem pandn (m d a b) : Statement (.pandn m d a b) := fun _ h =>
  .inl ⟨_, rfl, by simpa [to_decodePred, decodePred, form, check, legalFields, Instr.plainForm] using h⟩
theorem ptos (m d a) : Statement (.ptos m d a) := fun _ h =>
  .inl ⟨_, rfl, by simpa [to_decodePred, decodePred, form, check, legalFields, Instr.plainForm] using h⟩
theorem pfroms (m d a) : Statement (.pfroms m d a) := fun _ h =>
  .inl ⟨_, rfl, by simpa [to_decodePred, decodePred, form, check, legalFields, Instr.plainForm] using h⟩
theorem sel (m n p d a b) : Statement (.sel m n p d a b) := fun _ h =>
  .inl ⟨_, rfl, by simpa [decode, major_p, rrr_p, form, check, legalFields, Instr.plainForm, pfn_n', pfn_p] using h⟩
theorem bra (m n p off) : Statement (.bra m n p off) := fun _ h =>
  .inl ⟨_, rfl, by simpa [decode, major_br, br_m, br_fn, br_off, form, check, legalFields, Instr.plainForm, pfn_n', pfn_p] using h⟩
theorem call (m wsh off) : Statement (.call m wsh off) := fun _ h =>
  .inl ⟨_, rfl, by simpa [decode, major_j, j_m, j_fn, j_off, form, check, legalFields, Instr.plainForm] using h⟩
theorem brx (m a) : Statement (.brx m a) := fun _ h =>
  .inl ⟨_, rfl, by simpa [to_decodeCtrl, decodeCtrl, form, check, legalFields, Instr.plainForm] using h⟩
theorem ret (m) : Statement (.ret m) := fun _ h =>
  .inl ⟨_, rfl, by simpa [to_decodeCtrl, decodeCtrl, form, check, legalFields, Instr.plainForm] using h⟩
theorem wbase (m a) : Statement (.wbase m a) := fun _ h =>
  .inl ⟨_, rfl, by simpa [to_decodeCtrl, decodeCtrl, form, check, legalFields, Instr.plainForm] using h⟩
theorem wadj (m k) : Statement (.wadj m k) := fun _ h =>
  .inl ⟨_, rfl, by simpa [to_decodeCtrl, decodeCtrl, form, check, legalFields, Instr.plainForm] using h⟩
theorem jenr (m d) : Statement (.jenr m d) := fun _ h =>
  .inl ⟨_, rfl, by simpa [to_decodeCtrl, decodeCtrl, form, check, legalFields, Instr.plainForm] using h⟩
theorem jarv (m d) : Statement (.jarv m d) := fun _ h =>
  .inl ⟨_, rfl, by simpa [to_decodeCtrl, decodeCtrl, form, check, legalFields, Instr.plainForm] using h⟩
theorem jstk (m d) : Statement (.jstk m d) := fun _ h =>
  .inl ⟨_, rfl, by simpa [to_decodeCtrl, decodeCtrl, form, check, legalFields, Instr.plainForm] using h⟩
theorem jclr (m d) : Statement (.jclr m d) := fun _ h =>
  .inl ⟨_, rfl, by simpa [to_decodeCtrl, decodeCtrl, form, check, legalFields, Instr.plainForm] using h⟩
theorem jqry (m d a) : Statement (.jqry m d a) := fun _ h =>
  .inl ⟨_, rfl, by simpa [to_decodeCtrl, decodeCtrl, form, check, legalFields, Instr.plainForm] using h⟩
theorem yield (m) : Statement (.yield m) := fun _ h =>
  .inl ⟨_, rfl, by simpa [to_decodeCtrl, decodeCtrl, form, check, legalFields, Instr.plainForm] using h⟩
theorem safept (m) : Statement (.safept m) := fun _ h =>
  .inl ⟨_, rfl, by simpa [to_decodeCtrl, decodeCtrl, form, check, legalFields, Instr.plainForm] using h⟩
theorem exit (m) : Statement (.exit m) := fun _ h =>
  .inl ⟨_, rfl, by simpa [to_decodeCtrl, decodeCtrl, form, check, legalFields, Instr.plainForm] using h⟩
theorem nop (m) : Statement (.nop m) := fun _ h =>
  .inl ⟨_, rfl, by simpa [to_decodeCtrl, decodeCtrl, form, check, legalFields, Instr.plainForm] using h⟩
theorem resume (m) : Statement (.resume m) := fun _ h =>
  .inl ⟨_, rfl, by simpa [to_decodeCtrl, decodeCtrl, form, check, legalFields, Instr.plainForm] using h⟩
theorem acbase (m k) : Statement (.acbase m k) := fun _ h =>
  .inl ⟨_, rfl, by simpa [to_decodeCtrl, decodeCtrl, form, check, legalFields, Instr.plainForm] using h⟩
theorem sread (m d cls b) : Statement (.sread m d cls b) := fun _ h =>
  .inl ⟨_, rfl, by simpa [to_decodeSys, decodeSys, form, check, legalFields, Instr.plainForm] using h⟩
theorem swrite (m cls a b) : Statement (.swrite m cls a b) := fun _ h =>
  .inl ⟨_, rfl, by simpa [to_decodeSys, decodeSys, form, check, legalFields, Instr.plainForm] using h⟩
theorem trap (m k) : Statement (.trap m k) := fun _ h =>
  .inl ⟨_, rfl, by simpa [to_decodeSys, decodeSys, form, check, legalFields, Instr.plainForm] using h⟩
theorem svcNull (m) : Statement (.svcNull m) := fun _ h =>
  .inl ⟨_, rfl, by simpa [to_decodeSys, decodeSys, decodeSvc, form, check, legalFields, Instr.plainForm] using h⟩
theorem svcStack (m) : Statement (.svcStack m) := fun _ h =>
  .inl ⟨_, rfl, by simpa [to_decodeSys, decodeSys, decodeSvc, form, check, legalFields, Instr.plainForm] using h⟩
theorem svcMap (m) : Statement (.svcMap m) := fun _ h =>
  .inl ⟨_, rfl, by simpa [to_decodeSys, decodeSys, decodeSvc, form, check, legalFields, Instr.plainForm] using h⟩
theorem svcLog (m) : Statement (.svcLog m) := fun _ h =>
  .inl ⟨_, rfl, by simpa [to_decodeSys, decodeSys, decodeSvc, form, check, legalFields, Instr.plainForm] using h⟩
theorem svcUnprovided (m k) : Statement (.svcUnprovided m k) := fun _ h => by
  refine .inl ⟨_, rfl, ?_⟩
  have hk : 4 ≤ k.toNat := by simpa [Instr.wellFormed] using h
  rw [show decode (wordRrr m 17 4 0 0 k) = decodeSvc ⟨m, 4, 0, 0, k⟩ by simp [to_decodeSys, decodeSys]]
  simp only [decodeSvc]
  split <;> first | omega | simp [check, legalFields, Instr.wellFormed, hk, Instr.plainForm]
theorem bkpt (m k) : Statement (.bkpt m k) := fun _ h =>
  .inl ⟨_, rfl, by simpa [to_decodeSys, decodeSys, form, check, legalFields, Instr.plainForm] using h⟩
theorem tret (m) : Statement (.tret m) := fun _ h =>
  .inl ⟨_, rfl, by simpa [to_decodeSys, decodeSys, form, check, legalFields, Instr.plainForm] using h⟩
theorem tskip (m) : Statement (.tskip m) := fun _ h =>
  .inl ⟨_, rfl, by simpa [to_decodeSys, decodeSys, form, check, legalFields, Instr.plainForm] using h⟩
theorem tkill (m) : Statement (.tkill m) := fun _ h =>
  .inl ⟨_, rfl, by simpa [to_decodeSys, decodeSys, form, check, legalFields, Instr.plainForm] using h⟩
theorem ldg (m acc d a b) : Statement (.ldg m acc d a b) := fun _ h =>
  .inl ⟨_, rfl, by simpa [decode, major_rrr, rrr_word, form, check, legalFields, Instr.plainForm] using h⟩
theorem stg (m acc d a b) : Statement (.stg m acc d a b) := fun _ h =>
  .inl ⟨_, rfl, by simpa [decode, major_rrr, rrr_word, form, check, legalFields, Instr.plainForm] using h⟩
theorem ldp (m acc d a b) : Statement (.ldp m acc d a b) := fun _ h =>
  .inl ⟨_, rfl, by simpa [decode, major_rrr, rrr_word, form, check, legalFields, Instr.plainForm] using h⟩
theorem stp (m acc d a b) : Statement (.stp m acc d a b) := fun _ h =>
  .inl ⟨_, rfl, by simpa [decode, major_rrr, rrr_word, form, check, legalFields, Instr.plainForm] using h⟩
theorem ldu (m acc d a b) : Statement (.ldu m acc d a b) := fun _ h =>
  .inl ⟨_, rfl, by simpa [decode, major_rrr, rrr_word, form, check, legalFields, Instr.plainForm] using h⟩
theorem stu (m acc d a b) : Statement (.stu m acc d a b) := fun _ h =>
  .inl ⟨_, rfl, by simpa [decode, major_rrr, rrr_word, form, check, legalFields, Instr.plainForm] using h⟩
theorem atom (m r op d a b) : Statement (.atom m r op d a b) := fun _ h =>
  .inl ⟨_, rfl, by simpa [decode, major_rrr, rrr_word, form, check, legalFields, Instr.plainForm, atom_r, atom_op] using h⟩
theorem atomp (m r op d a b) : Statement (.atomp m r op d a b) := fun _ h =>
  .inl ⟨_, rfl, by simpa [decode, major_rrr, rrr_word, form, check, legalFields, Instr.plainForm, atom_r, atom_op] using h⟩
theorem fence (m k) : Statement (.fence m k) := fun _ h =>
  .inl ⟨_, rfl, by simpa [to_decodeSync, decodeSync, form, check, legalFields, Instr.plainForm] using h⟩
theorem bar (m) : Statement (.bar m) := fun _ h =>
  .inl ⟨_, rfl, by simpa [to_decodeSync, decodeSync, form, check, legalFields, Instr.plainForm] using h⟩
theorem cbar (m) : Statement (.cbar m) := fun _ h =>
  .inl ⟨_, rfl, by simpa [to_decodeSync, decodeSync, form, check, legalFields, Instr.plainForm] using h⟩
theorem bcinit (m a b) : Statement (.bcinit m a b) := fun _ h =>
  .inl ⟨_, rfl, by simpa [to_decodeSync, decodeSync, form, check, legalFields, Instr.plainForm] using h⟩
theorem bcexp (m a b) : Statement (.bcexp m a b) := fun _ h =>
  .inl ⟨_, rfl, by simpa [to_decodeSync, decodeSync, form, check, legalFields, Instr.plainForm] using h⟩
theorem bcwait (m a) : Statement (.bcwait m a) := fun _ h =>
  .inl ⟨_, rfl, by simpa [to_decodeSync, decodeSync, form, check, legalFields, Instr.plainForm] using h⟩
theorem tginit (m a) : Statement (.tginit m a) := fun _ h =>
  .inl ⟨_, rfl, by simpa [to_decodeSync, decodeSync, form, check, legalFields, Instr.plainForm] using h⟩
theorem tgacq (m d a) : Statement (.tgacq m d a) := fun _ h =>
  .inl ⟨_, rfl, by simpa [to_decodeSync, decodeSync, form, check, legalFields, Instr.plainForm] using h⟩
theorem tgcmt (m d a b) : Statement (.tgcmt m d a b) := fun _ h =>
  .inl ⟨_, rfl, by simpa [to_decodeSync, decodeSync, form, check, legalFields, Instr.plainForm] using h⟩
theorem tgwait (m d a) : Statement (.tgwait m d a) := fun _ h =>
  .inl ⟨_, rfl, by simpa [to_decodeSync, decodeSync, form, check, legalFields, Instr.plainForm] using h⟩
theorem tgrel (m a) : Statement (.tgrel m a) := fun _ h =>
  .inl ⟨_, rfl, by simpa [to_decodeSync, decodeSync, form, check, legalFields, Instr.plainForm] using h⟩
theorem evsig (m k) : Statement (.evsig m k) := fun _ h =>
  .inl ⟨_, rfl, by simpa [to_decodeSync, decodeSync, form, check, legalFields, Instr.plainForm] using h⟩
theorem evwait (m a k) : Statement (.evwait m a k) := fun _ h =>
  .inl ⟨_, rfl, by simpa [to_decodeSync, decodeSync, form, check, legalFields, Instr.plainForm] using h⟩
theorem twait (m a) : Statement (.twait m a) := fun _ h =>
  .inl ⟨_, rfl, by simpa [to_decodeSync, decodeSync, form, check, legalFields, Instr.plainForm] using h⟩
theorem cpy (m d a) : Statement (.cpy m d a) := fun _ h =>
  .inl ⟨_, rfl, by simpa [to_decodeEng, decodeEng, form, check, legalFields, Instr.plainForm] using h⟩
theorem gath (m d a) : Statement (.gath m d a) := fun _ h =>
  .inl ⟨_, rfl, by simpa [to_decodeEng, decodeEng, form, check, legalFields, Instr.plainForm] using h⟩
theorem scat (m d a) : Statement (.scat m d a) := fun _ h =>
  .inl ⟨_, rfl, by simpa [to_decodeEng, decodeEng, form, check, legalFields, Instr.plainForm] using h⟩
theorem coll (m d a) : Statement (.coll m d a) := fun _ h =>
  .inl ⟨_, rfl, by simpa [to_decodeEng, decodeEng, form, check, legalFields, Instr.plainForm] using h⟩
theorem bankop (m d a) : Statement (.bankop m d a) := fun _ h =>
  .inl ⟨_, rfl, by simpa [to_decodeEng, decodeEng, form, check, legalFields, Instr.plainForm] using h⟩
theorem bankred (m d a) : Statement (.bankred m d a) := fun _ h =>
  .inl ⟨_, rfl, by simpa [to_decodeEng, decodeEng, form, check, legalFields, Instr.plainForm] using h⟩
theorem pfetch (m lvl a b) : Statement (.pfetch m lvl a b) := fun _ h =>
  .inl ⟨_, rfl, by simpa [to_decodeEng, decodeEng, form, check, legalFields, Instr.plainForm] using h⟩
theorem cflush (m d a b) : Statement (.cflush m d a b) := fun _ h =>
  .inl ⟨_, rfl, by simpa [to_decodeEng, decodeEng, form, check, legalFields, Instr.plainForm] using h⟩
theorem cinv (m d a b) : Statement (.cinv m d a b) := fun _ h =>
  .inl ⟨_, rfl, by simpa [to_decodeEng, decodeEng, form, check, legalFields, Instr.plainForm] using h⟩
theorem engst (m d a k) : Statement (.engst m d a k) := fun _ h =>
  .inl ⟨_, rfl, by simpa [to_decodeEng, decodeEng, form, check, legalFields, Instr.plainForm] using h⟩
theorem task (m d a) : Statement (.task m d a) := fun _ h =>
  .inl ⟨_, rfl, by simpa [to_decodeTask, decodeTask, form, check, legalFields, Instr.plainForm] using h⟩
theorem tsucc (m d a b) : Statement (.tsucc m d a b) := fun _ h =>
  .inl ⟨_, rfl, by simpa [to_decodeTask, decodeTask, form, check, legalFields, Instr.plainForm] using h⟩
theorem tstat (m d k) : Statement (.tstat m d k) := fun _ h =>
  .inl ⟨_, rfl, by simpa [to_decodeTask, decodeTask, form, check, legalFields, Instr.plainForm] using h⟩
theorem ctdecl (m d a) : Statement (.ctdecl m d a) := fun _ h =>
  .inl ⟨_, rfl, by simpa [to_decodeTask, decodeTask, form, check, legalFields, Instr.plainForm] using h⟩
theorem ctdeclFree (m d a) : Statement (.ctdeclFree m d a) := fun _ h => ctdecl m d a rfl h
theorem ctpost (m d a b) : Statement (.ctpost m d a b) := fun _ h =>
  .inl ⟨_, rfl, by simpa [to_decodeTask, decodeTask, form, check, legalFields, Instr.plainForm] using h⟩
theorem ctget (m d a b) : Statement (.ctget m d a b) := fun _ h =>
  .inl ⟨_, rfl, by simpa [to_decodeTask, decodeTask, form, check, legalFields, Instr.plainForm] using h⟩
theorem ctstat (m d a) : Statement (.ctstat m d a) := fun _ h =>
  .inl ⟨_, rfl, by simpa [to_decodeTask, decodeTask, form, check, legalFields, Instr.plainForm] using h⟩
theorem tdset (m d a) : Statement (.tdset m d a) := fun _ h =>
  .inl ⟨_, rfl, by simpa [to_decodeMma, decodeMma, form, check, legalFields, Instr.plainForm] using h⟩
theorem bload (m a b) : Statement (.bload m a b) := fun _ h =>
  .inl ⟨_, rfl, by simpa [to_decodeMma, decodeMma, form, check, legalFields, Instr.plainForm] using h⟩
theorem bloadFree (m a b) : Statement (.bloadFree m a b) := fun _ h => bload m a b rfl h
theorem scpush (m d a b) : Statement (.scpush m d a b) := fun _ h =>
  .inl ⟨_, rfl, by simpa [to_decodeMma, decodeMma, form, check, legalFields, Instr.plainForm] using h⟩
theorem mma (m d a b) : Statement (.mma m d a b) := fun _ h =>
  .inl ⟨_, rfl, by simpa [to_decodeMma, decodeMma, form, check, legalFields, Instr.plainForm] using h⟩
theorem bstatSlot (m d a) : Statement (.bstatSlot m d a) := fun _ h =>
  .inl ⟨_, rfl, by simpa [to_decodeMma, decodeMma, decodeBstat, form, check, legalFields, Instr.plainForm] using h⟩
theorem bstatQueue (m d a) : Statement (.bstatQueue m d a) := fun _ h =>
  .inl ⟨_, rfl, by simpa [to_decodeMma, decodeMma, decodeBstat, form, check, legalFields, Instr.plainForm] using h⟩
theorem bstatError (m d) : Statement (.bstatError m d) := fun _ h =>
  .inl ⟨_, rfl, by simpa [to_decodeMma, decodeMma, decodeBstat, form, check, legalFields, Instr.plainForm] using h⟩
theorem bstatDrain (m d) : Statement (.bstatDrain m d) := fun _ h =>
  .inl ⟨_, rfl, by simpa [to_decodeMma, decodeMma, decodeBstat, form, check, legalFields, Instr.plainForm] using h⟩
theorem aczero (m d) : Statement (.aczero m d) := fun _ h =>
  .inl ⟨_, rfl, by simpa [to_decodeAcc, decodeAcc, form, check, legalFields, Instr.plainForm] using h⟩
theorem acld (m d a b) : Statement (.acld m d a b) := fun _ h =>
  .inl ⟨_, rfl, by simpa [to_decodeAcc, decodeAcc, form, check, legalFields, Instr.plainForm] using h⟩
theorem acst (m d a) : Statement (.acst m d a) := fun _ h =>
  .inl ⟨_, rfl, by simpa [to_decodeAcc, decodeAcc, form, check, legalFields, Instr.plainForm] using h⟩
theorem acadd (m d a b) : Statement (.acadd m d a b) := fun _ h =>
  .inl ⟨_, rfl, by simpa [to_decodeAcc, decodeAcc, form, check, legalFields, Instr.plainForm] using h⟩
theorem acmul (m d a b) : Statement (.acmul m d a b) := fun _ h =>
  .inl ⟨_, rfl, by simpa [to_decodeAcc, decodeAcc, form, check, legalFields, Instr.plainForm] using h⟩
theorem acovf (m d a) : Statement (.acovf m d a) := fun _ h =>
  .inl ⟨_, rfl, by simpa [to_decodeAcc, decodeAcc, form, check, legalFields, Instr.plainForm] using h⟩
theorem acmov (m d a) : Statement (.acmov m d a) := fun _ h =>
  .inl ⟨_, rfl, by simpa [to_decodeAcc, decodeAcc, form, check, legalFields, Instr.plainForm] using h⟩
theorem illegalInstruction : Statement .illegalInstruction := fun h => nomatch h
theorem kmov (d a) : Statement (.kmov d a) := fun _ h =>
  .inr ⟨_, rfl, by simpa [decodeScript, trellis_word, form, check, legalFields, Instr.plainForm] using h⟩
theorem kmovi (d imm) : Statement (.kmovi d imm) := fun _ h =>
  .inr ⟨_, rfl, by simpa [decodeScript, trellis_word, form, check, legalFields, Instr.plainForm] using h⟩
theorem kmoviSh (d imm) : Statement (.kmoviSh d imm) := fun _ h =>
  .inr ⟨_, rfl, by simpa [decodeScript, trellis_word, form, check, legalFields, Instr.plainForm] using h⟩
theorem kadd (d a b imm) : Statement (.kadd d a b imm) := fun _ h =>
  .inr ⟨_, rfl, by simpa [decodeScript, trellis_word, form, check, legalFields, Instr.plainForm] using h⟩
theorem ksub (d a b) : Statement (.ksub d a b) := fun _ h =>
  .inr ⟨_, rfl, by simpa [decodeScript, trellis_word, form, check, legalFields, Instr.plainForm] using h⟩
theorem kand (d a b) : Statement (.kand d a b) := fun _ h =>
  .inr ⟨_, rfl, by simpa [decodeScript, trellis_word, form, check, legalFields, Instr.plainForm] using h⟩
theorem kor (d a b) : Statement (.kor d a b) := fun _ h =>
  .inr ⟨_, rfl, by simpa [decodeScript, trellis_word, form, check, legalFields, Instr.plainForm] using h⟩
theorem kld (d a imm) : Statement (.kld d a imm) := fun _ h =>
  .inr ⟨_, rfl, by simpa [decodeScript, trellis_word, form, check, legalFields, Instr.plainForm] using h⟩
theorem kst (d a imm) : Statement (.kst d a imm) := fun _ h =>
  .inr ⟨_, rfl, by simpa [decodeScript, trellis_word, form, check, legalFields, Instr.plainForm] using h⟩
theorem kbeq (a b imm) : Statement (.kbeq a b imm) := fun _ h =>
  .inr ⟨_, rfl, by simpa [decodeScript, trellis_word, form, check, legalFields, Instr.plainForm] using h⟩
theorem kbne (a b imm) : Statement (.kbne a b imm) := fun _ h =>
  .inr ⟨_, rfl, by simpa [decodeScript, trellis_word, form, check, legalFields, Instr.plainForm] using h⟩
theorem kblt (a b imm) : Statement (.kblt a b imm) := fun _ h =>
  .inr ⟨_, rfl, by simpa [decodeScript, trellis_word, form, check, legalFields, Instr.plainForm] using h⟩
theorem kjmp (imm) : Statement (.kjmp imm) := fun _ h =>
  .inr ⟨_, rfl, by simpa [decodeScript, trellis_word, form, check, legalFields, Instr.plainForm] using h⟩
theorem ktime (d) : Statement (.ktime d) := fun _ h =>
  .inr ⟨_, rfl, by simpa [decodeScript, trellis_word, form, check, legalFields, Instr.plainForm] using h⟩
theorem ksleep (a imm) : Statement (.ksleep a imm) := fun _ h =>
  .inr ⟨_, rfl, by simpa [decodeScript, trellis_word, form, check, legalFields, Instr.plainForm] using h⟩
theorem khalt (imm) : Statement (.khalt imm) := fun _ h =>
  .inr ⟨_, rfl, by simpa [decodeScript, trellis_word, form, check, legalFields, Instr.plainForm] using h⟩
theorem knop : Statement .knop := fun _ h =>
  .inr ⟨_, rfl, by simpa [decodeScript, trellis_word, form, check, legalFields, Instr.plainForm] using h⟩
theorem creq (d a b) : Statement (.creq d a b) := fun _ h =>
  .inr ⟨_, rfl, by simpa [decodeScript, trellis_word, form, check, legalFields, Instr.plainForm] using h⟩
theorem cwait (d a b imm) : Statement (.cwait d a b imm) := fun _ h =>
  .inr ⟨_, rfl, by simpa [decodeScript, trellis_word, form, check, legalFields, Instr.plainForm] using h⟩
theorem crel (d a) : Statement (.crel d a) := fun _ h =>
  .inr ⟨_, rfl, by simpa [decodeScript, trellis_word, form, check, legalFields, Instr.plainForm] using h⟩
theorem ctol (a b) : Statement (.ctol a b) := fun _ h =>
  .inr ⟨_, rfl, by simpa [decodeScript, trellis_word, form, check, legalFields, Instr.plainForm] using h⟩
theorem cstat (d a imm) : Statement (.cstat d a imm) := fun _ h =>
  .inr ⟨_, rfl, by simpa [decodeScript, trellis_word, form, check, legalFields, Instr.plainForm] using h⟩
theorem cpathRoute (d a) : Statement (.cpathRoute d a) := fun _ h =>
  .inr ⟨_, rfl, by simpa [decodeScript, trellis_word, form, check, legalFields, Instr.plainForm] using h⟩
theorem cpathRank (d a) : Statement (.cpathRank d a) := fun _ h => cpathRoute d a rfl h
theorem cpathClear (d a) : Statement (.cpathClear d a) := fun _ h => cpathRoute d a rfl h
theorem ewait (a imm) : Statement (.ewait a imm) := fun _ h =>
  .inr ⟨_, rfl, by simpa [decodeScript, trellis_word, form, check, legalFields, Instr.plainForm] using h⟩
theorem esig (imm) : Statement (.esig imm) := fun _ h =>
  .inr ⟨_, rfl, by simpa [decodeScript, trellis_word, form, check, legalFields, Instr.plainForm] using h⟩
theorem ksleepExpiry (ctx) : Statement (.ksleepExpiry ctx) := fun h => nomatch h
theorem cwaitTimeout (ctx) : Statement (.cwaitTimeout ctx) := fun h => nomatch h
theorem launch (msg) : Statement (.launch msg) := fun h => nomatch h
theorem launchQueueHead (queue) : Statement (.launchQueueHead queue) := fun h => nomatch h
theorem carveoutWaitEnd (queue) : Statement (.carveoutWaitEnd queue) := fun h => nomatch h
theorem read (msg) : Statement (.read msg) := fun h => nomatch h
theorem write (msg) : Statement (.write msg) := fun h => nomatch h
theorem tinval (msg) : Statement (.tinval msg) := fun h => nomatch h
theorem terminate (msg) : Statement (.terminate msg) := fun h => nomatch h
theorem debugAttach (msg) : Statement (.debugAttach msg) := fun h => nomatch h
theorem debugDetach (msg) : Statement (.debugDetach msg) := fun h => nomatch h
theorem debugHalt (msg) : Statement (.debugHalt msg) := fun h => nomatch h
theorem debugResume (msg) : Statement (.debugResume msg) := fun h => nomatch h
theorem debugReadRegister (msg) : Statement (.debugReadRegister msg) := fun h => nomatch h
theorem debugWriteRegister (msg) : Statement (.debugWriteRegister msg) := fun h => nomatch h
theorem mgmtThresholds (msg) : Statement (.mgmtThresholds msg) := fun h => nomatch h
theorem mgmtAgeingQuantum (msg) : Statement (.mgmtAgeingQuantum msg) := fun h => nomatch h
theorem mgmtParkDelay (msg) : Statement (.mgmtParkDelay msg) := fun h => nomatch h
theorem mgmtSpdistCap (msg) : Statement (.mgmtSpdistCap msg) := fun h => nomatch h
theorem mgmtPowerLimit (msg) : Statement (.mgmtPowerLimit msg) := fun h => nomatch h
theorem mgmtReadCounters (msg) : Statement (.mgmtReadCounters msg) := fun h => nomatch h
theorem mgmtRaiseSvn (msg) : Statement (.mgmtRaiseSvn msg) := fun h => nomatch h
theorem mgmtReservedBase (msg) : Statement (.mgmtReservedBase msg) := fun h => nomatch h
theorem attest (msg) : Statement (.attest msg) := fun h => nomatch h
theorem devrsp (msg) : Statement (.devrsp msg) := fun h => nomatch h
theorem devrspTimeout (req) : Statement (.devrspTimeout req) := fun h => nomatch h
theorem bootdata (msg) : Statement (.bootdata msg) := fun h => nomatch h
theorem powerGood : Statement .powerGood := fun h => nomatch h
theorem boardReset : Statement .boardReset := fun h => nomatch h
theorem firmwareReady (reservedGiB blocks) : Statement (.firmwareReady reservedGiB blocks) := fun h => nomatch h
theorem gridCompletion (grid) : Statement (.gridCompletion grid) := fun h => nomatch h
theorem gridTerminationDone (grid) : Statement (.gridTerminationDone grid) := fun h => nomatch h
theorem candidatePlacement (team) : Statement (.candidatePlacement team) := fun h => nomatch h
theorem taskDispatch (record) : Statement (.taskDispatch record) := fun h => nomatch h
theorem spillRefill (grid) : Statement (.spillRefill grid) := fun h => nomatch h
theorem ringPageMapped (grid ok) : Statement (.ringPageMapped grid ok) := fun h => nomatch h
theorem serviceablePageMapped (grid va ok entry) : Statement (.serviceablePageMapped grid va ok entry) := fun h => nomatch h
theorem fairnessRotation (group) : Statement (.fairnessRotation group) := fun h => nomatch h
theorem rotationEnd (group) : Statement (.rotationEnd group) := fun h => nomatch h
theorem safePointDistanceFault (group) : Statement (.safePointDistanceFault group) := fun h => nomatch h
theorem pendingResultLands (result) : Statement (.pendingResultLands result) := fun h => nomatch h
theorem fenceRelease (group wait) : Statement (.fenceRelease group wait) := fun h => nomatch h
theorem twaitRelease (group) : Statement (.twaitRelease group) := fun h => nomatch h
theorem handlerStart (group) : Statement (.handlerStart group) := fun h => nomatch h
theorem trackerEntryFree (core group) : Statement (.trackerEntryFree core group) := fun h => nomatch h
theorem successorDecrement (core group) : Statement (.successorDecrement core group) := fun h => nomatch h
theorem companionRetry (record) : Statement (.companionRetry record) := fun h => nomatch h
theorem groupPark (group) : Statement (.groupPark group) := fun h => nomatch h
theorem groupWake (group) : Statement (.groupWake group) := fun h => nomatch h
theorem timeSliceExpiry (team) : Statement (.timeSliceExpiry team) := fun h => nomatch h
theorem preemptionRequest (team) : Statement (.preemptionRequest team) := fun h => nomatch h
theorem teamSave (team) : Statement (.teamSave team) := fun h => nomatch h
theorem saveComplete (team) : Statement (.saveComplete team) := fun h => nomatch h
theorem teamRestore (team) : Statement (.teamRestore team) := fun h => nomatch h
theorem sensorSample (core temp watts) : Statement (.sensorSample core temp watts) := fun h => nomatch h
theorem powerStop (watts) : Statement (.powerStop watts) := fun h => nomatch h
theorem migrationRequest (src dst) : Statement (.migrationRequest src dst) := fun h => nomatch h
theorem migrationTransferDone (src) : Statement (.migrationTransferDone src) := fun h => nomatch h
theorem leaseExpiry (core superblock) : Statement (.leaseExpiry core superblock) := fun h => nomatch h
theorem ingressWriteback (line) : Statement (.ingressWriteback line) := fun h => nomatch h
theorem engineRunDelivered (core handle) : Statement (.engineRunDelivered core handle) := fun h => nomatch h
theorem engineCompletion (core handle) : Statement (.engineCompletion core handle) := fun h => nomatch h
theorem circuitBarrierMatch (core handle) : Statement (.circuitBarrierMatch core handle) := fun h => nomatch h
theorem atloadComplete (core bank) : Statement (.atloadComplete core bank) := fun h => nomatch h
theorem bloadTurn (core) : Statement (.bloadTurn core) := fun h => nomatch h
theorem mmaStep (core) : Statement (.mmaStep core) := fun h => nomatch h
theorem acstTurn (core) : Statement (.acstTurn core) := fun h => nomatch h
theorem matrixQueueTurn (core) : Statement (.matrixQueueTurn core) := fun h => nomatch h
theorem circuitGrant (port peerPort setup) : Statement (.circuitGrant port peerPort setup) := fun h => nomatch h
theorem brokerRefusal (port code) : Statement (.brokerRefusal port code) := fun h => nomatch h
theorem lightDetected (port) : Statement (.lightDetected port) := fun h => nomatch h
theorem lightTimeout (port) : Statement (.lightTimeout port) := fun h => nomatch h
theorem lockAchieved (port) : Statement (.lockAchieved port) := fun h => nomatch h
theorem lockTimeout (port) : Statement (.lockTimeout port) := fun h => nomatch h
theorem trainingDone (port rank) : Statement (.trainingDone port rank) := fun h => nomatch h
theorem trainingTimeout (port) : Statement (.trainingTimeout port) := fun h => nomatch h
theorem liveHandshakeDone (port) : Statement (.liveHandshakeDone port) := fun h => nomatch h
theorem portDoze (port) : Statement (.portDoze port) := fun h => nomatch h
theorem portNap (port) : Statement (.portNap port) := fun h => nomatch h
theorem portWake (port) : Statement (.portWake port) := fun h => nomatch h
theorem drainEnd (port) : Statement (.drainEnd port) := fun h => nomatch h
theorem drainTimeout (port) : Statement (.drainTimeout port) := fun h => nomatch h
theorem laneFailure (channel lanes) : Statement (.laneFailure channel lanes) := fun h => nomatch h
theorem retrainEnd (channel) : Statement (.retrainEnd channel) := fun h => nomatch h
theorem retrainTimeout (channel) : Statement (.retrainTimeout channel) := fun h => nomatch h
theorem lightLoss (port) : Statement (.lightLoss port) := fun h => nomatch h
theorem ucieFailure (port) : Statement (.ucieFailure port) := fun h => nomatch h
theorem elinkDown (link) : Statement (.elinkDown link) := fun h => nomatch h
theorem flitReceive (channel flit) : Statement (.flitReceive channel flit) := fun h => nomatch h
theorem retryTimeout (channel) : Statement (.retryTimeout channel) := fun h => nomatch h
theorem packetReceive (channel packet) : Statement (.packetReceive channel packet) := fun h => nomatch h
theorem collChunkReceive (msg) : Statement (.collChunkReceive msg) := fun h => nomatch h
theorem cuttingWaitExpiry (record) : Statement (.cuttingWaitExpiry record) := fun h => nomatch h
theorem ctgetTurn (core handle) : Statement (.ctgetTurn core handle) := fun h => nomatch h
theorem ctpostTurn (core handle) : Statement (.ctpostTurn core handle) := fun h => nomatch h
theorem commitWritebackDone (group) : Statement (.commitWritebackDone group) := fun h => nomatch h
theorem speculativeRoomSquash (core) : Statement (.speculativeRoomSquash core) := fun h => nomatch h
theorem speculativeLineError (core group) : Statement (.speculativeLineError core group) := fun h => nomatch h
theorem fetchFault (group) : Statement (.fetchFault group) := fun h => nomatch h
theorem scriptIllegalWord (ctx) : Statement (.scriptIllegalWord ctx) := fun h => nomatch h
theorem peerRelease (port) : Statement (.peerRelease port) := fun h => nomatch h
theorem peerFault (port) : Statement (.peerFault port) := fun h => nomatch h
theorem rankReport (channel rank) : Statement (.rankReport channel rank) := fun h => nomatch h
theorem electricalLinkTrained (link rank) : Statement (.electricalLinkTrained link rank) := fun h => nomatch h
theorem powerStopEnd (watts) : Statement (.powerStopEnd watts) := fun h => nomatch h
theorem heldRecordRetry (group) : Statement (.heldRecordRetry group) := fun h => nomatch h
theorem unknownMtype (msg) : Statement (.unknownMtype msg) := fun h => nomatch h

end

end Sys2Proof.Laws.Encoding
end

