-- ==== Sys2Proof/Certificates/Slice0/Obligations.lean ====
section
/-!
DEFINITION. The statements for the provers.
-/

open Sys2Proof Sys2Proof.Machine

/-! ## Integer, logical and move instructions (R140 to R146) -/

/-- R140: each integer operation computes its exact value of a, b (and d for IMAD), writes it truncated to 32 bits, and
leaves the tag of its row; IADDS and ISUBS clamp first. It does so in every active lane, whatever the operands. -/
def Obligations.IntegerArithmeticResults : Prop :=
  ∀ (s : State) (x : Site) (m : Bool) (d a b : BitVec 7), Issuing s x .plain →
    let A (l : Lane) : Word := (l.get a.toNat).bits
    let B (l : Lane) : Word := (l.get b.toNat).bits
    let D (l : Lane) : Word := (l.get d.toNat).bits
    let signed (f : Lane → Int) : Result := s.writesLane x m d tagI32 fun l => BitVec.ofInt 32 (f l)
    let unsigned (f : Lane → Nat) : Result := s.writesLane x m d tagUI32 fun l => BitVec.ofNat 32 (f l)
    (OperandsPass x { vs := [d.toNat, a.toNat, b.toNat] }
        (fun l => isInt (l.get a.toNat).tag && isInt (l.get b.toNat).tag) →
      exec (.iadd m d a b) s = signed (fun l => (A l).toInt + (B l).toInt) ∧
      exec (.isub m d a b) s = signed (fun l => (A l).toInt - (B l).toInt) ∧
      exec (.imul m d a b) s = signed (fun l => (A l).toInt * (B l).toInt) ∧
      exec (.imulh m d a b) s = signed (fun l => (A l).toInt * (B l).toInt / 2 ^ 32) ∧
      exec (.imulhu m d a b) s = unsigned (fun l => (A l).toNat * (B l).toNat / 2 ^ 32) ∧
      exec (.imin m d a b) s = signed (fun l => min (A l).toInt (B l).toInt) ∧
      exec (.imax m d a b) s = signed (fun l => max (A l).toInt (B l).toInt) ∧
      exec (.iminu m d a b) s = unsigned (fun l => min (A l).toNat (B l).toNat) ∧
      exec (.imaxu m d a b) s = unsigned (fun l => max (A l).toNat (B l).toNat) ∧
      exec (.iadds m d a b) s =
        signed (fun l => max (-(2 ^ 31)) (min ((A l).toInt + (B l).toInt) (2 ^ 31 - 1))) ∧
      exec (.isubs m d a b) s =
        signed (fun l => max (-(2 ^ 31)) (min ((A l).toInt - (B l).toInt) (2 ^ 31 - 1)))) ∧
    (OperandsPass x { vs := [d.toNat, a.toNat, b.toNat] }
        (fun l => isInt (l.get a.toNat).tag && isInt (l.get b.toNat).tag && isInt (l.get d.toNat).tag) →
      exec (.imad m d a b) s = signed (fun l => (A l).toInt * (B l).toInt + (D l).toInt)) ∧
    (OperandsPass x { vs := [d.toNat, a.toNat] } (fun l => isInt (l.get a.toNat).tag) →
      exec (.iabs m d a) s = signed (fun l => ((A l).toInt.natAbs : Int)) ∧
      exec (.ineg m d a) s = signed (fun l => -(A l).toInt))

/-- R141 to R143: the logical, shift, count and bit-field operations by their arithmetic, with tag RAW, MOV and RETAG by
bits and tag; a shift of 32 or more leaves 0 or copies of the sign. -/
def Obligations.LogicShiftFieldMoveResults : Prop :=
  ∀ (s : State) (x : Site) (m : Bool) (d a b : BitVec 7), Issuing s x .plain →
    let A (l : Lane) : Word := (l.get a.toNat).bits
    let B (l : Lane) : Word := (l.get b.toNat).bits
    let D (l : Lane) : Word := (l.get d.toNat).bits
    let raw (f : Lane → Word) : Result := s.writesLane x m d tagRAW f
    let pos (l : Lane) : Nat := (B l).toNat % 32
    let len (l : Lane) : Nat := min ((B l).toNat / 256 % 64) (32 - pos l)
    let field (l : Lane) : Nat := (A l).toNat / 2 ^ pos l % 2 ^ len l
    (OperandsPass x { vs := [d.toNat, a.toNat, b.toNat] }
        (fun l => isAny (l.get a.toNat).tag && isAny (l.get b.toNat).tag) →
      exec (.and m d a b) s = raw (fun l => A l &&& B l) ∧
      exec (.or m d a b) s = raw (fun l => A l ||| B l) ∧
      exec (.xor m d a b) s = raw (fun l => A l ^^^ B l) ∧
      exec (.andn m d a b) s = raw (fun l => A l &&& ~~~B l) ∧
      exec (.shl m d a b) s = raw (fun l => BitVec.ofNat 32 ((A l).toNat * 2 ^ (B l).toNat)) ∧
      exec (.shr m d a b) s = raw (fun l => BitVec.ofNat 32 ((A l).toNat / 2 ^ (B l).toNat)) ∧
      exec (.sar m d a b) s = raw (fun l => BitVec.ofInt 32 ((A l).toInt / 2 ^ (B l).toNat)) ∧
      exec (.rotl m d a b) s = raw (fun l => (A l).rotateLeft ((B l).toNat % 32)) ∧
      exec (.bfx m d a b) s = raw (fun l => BitVec.ofNat 32 (field l)) ∧
      exec (.bfxs m d a b) s = raw (fun l => if len l = 0 then 0 else BitVec.ofInt 32 (Int.bmod (field l) (2 ^ len l)))) ∧
    (OperandsPass x { vs := [d.toNat, a.toNat, b.toNat] }
        (fun l => isAny (l.get a.toNat).tag && isAny (l.get b.toNat).tag && isAny (l.get d.toNat).tag) →
      exec (.bfi m d a b) s = raw (fun l =>
        BitVec.ofNat 32 ((D l).toNat - (D l).toNat / 2 ^ pos l % 2 ^ len l * 2 ^ pos l +
          (A l).toNat % 2 ^ len l * 2 ^ pos l))) ∧
    (OperandsPass x { vs := [d.toNat, a.toNat] } (fun l => isAny (l.get a.toNat).tag) →
      exec (.popc m d a) s = raw (fun l => BitVec.ofNat 32 ((List.range 32).countP (A l).getLsbD)) ∧
      exec (.clz m d a) s = raw (fun l => BitVec.ofNat 32 ((List.range 32).takeWhile fun i => !(A l).getMsbD i).length) ∧
      exec (.brev m d a) s = raw (fun l => (A l).reverse) ∧
      exec (.mov m d a) s =
        .next (s.completed x m .plain (onActive x fun _ l => l.put d.toNat (A l) (l.get a.toNat).tag)) ∧
      ∀ k : BitVec 7, k.toNat ≤ 15 → exec (.retag m d a k) s = s.writesLane x m d (k.setWidth 5) A)

/-- R144 to R146: the uniform operations act once for the group, or lane by lane into a vector register where VC is 1, with
a uniform b; the immediate forms are those of R140 to R142 with the immediate for b, and MOVL and MOVH build a word. -/
def Obligations.UniformAndImmediateResults : Prop :=
  (∀ (s : State) (x : Site) (m : Bool) (d a b : BitVec 7), Issuing s x .plain →
    (OperandsPass x { us := [d.toNat, a.toNat, b.toNat] } (fun _ => true) →
      let signed (f : Int → Int → Int) : Result :=
        s.writesUniform x m d fun g => BitVec.ofInt 32 (f (g.u a.toNat).toInt (g.u b.toNat).toInt)
      let unsigned (f : Nat → Nat → Nat) : Result :=
        s.writesUniform x m d fun g => BitVec.ofNat 32 (f (g.u a.toNat).toNat (g.u b.toNat).toNat)
      exec (.ualuIadd m false d a b) s = signed (· + ·) ∧
      exec (.ualuIsub m false d a b) s = signed (· - ·) ∧
      exec (.ualuImul m false d a b) s = signed (· * ·) ∧
      exec (.ualuImin m false d a b) s = signed min ∧
      exec (.ualuImax m false d a b) s = signed max ∧
      exec (.ualuIminu m false d a b) s = unsigned min ∧
      exec (.ualuImaxu m false d a b) s = unsigned max ∧
      exec (.ualuAnd m false d a b) s = s.writesUniform x m d (fun g => g.u a.toNat &&& g.u b.toNat) ∧
      exec (.ualuOr m false d a b) s = s.writesUniform x m d (fun g => g.u a.toNat ||| g.u b.toNat) ∧
      exec (.ualuXor m false d a b) s = s.writesUniform x m d (fun g => g.u a.toNat ^^^ g.u b.toNat) ∧
      exec (.ualuAndn m false d a b) s = s.writesUniform x m d (fun g => g.u a.toNat &&& ~~~(g.u b.toNat)) ∧
      exec (.ualuShl m false d a b) s = unsigned (fun p n => p * 2 ^ n) ∧
      exec (.ualuShr m false d a b) s = unsigned (fun p n => p / 2 ^ n) ∧
      exec (.ualuSar m false d a b) s =
        s.writesUniform x m d (fun g => BitVec.ofInt 32 ((g.u a.toNat).toInt / 2 ^ (g.u b.toNat).toNat))) ∧
    (OperandsPass x { us := [d.toNat, b.toNat] } (fun _ => true) →
      exec (.ualuMov m false d b) s = s.writesUniform x m d (fun g => g.u b.toNat)) ∧
    (OperandsPass x { vs := [d.toNat], us := [b.toNat] } (fun _ => true) →
      exec (.ualuMov m true d b) s = s.writesLane x m d tagRAW (fun _ => x.g.u b.toNat)) ∧
    (OperandsPass x { vs := [d.toNat, a.toNat], us := [b.toNat] } (fun l => isInt (l.get a.toNat).tag) →
      let signed (f : Int → Int → Int) : Result :=
        s.writesLane x m d tagI32 fun l => BitVec.ofInt 32 (f (l.get a.toNat).bits.toInt (x.g.u b.toNat).toInt)
      let unsigned (f : Nat → Nat → Nat) : Result :=
        s.writesLane x m d tagUI32 fun l => BitVec.ofNat 32 (f (l.get a.toNat).bits.toNat (x.g.u b.toNat).toNat)
      exec (.ualuIadd m true d a b) s = signed (· + ·) ∧
      exec (.ualuIsub m true d a b) s = signed (· - ·) ∧
      exec (.ualuImul m true d a b) s = signed (· * ·) ∧
      exec (.ualuImin m true d a b) s = signed min ∧
      exec (.ualuImax m true d a b) s = signed max ∧
      exec (.ualuIminu m true d a b) s = unsigned min ∧
      exec (.ualuImaxu m true d a b) s = unsigned max) ∧
    (OperandsPass x { vs := [d.toNat, a.toNat], us := [b.toNat] } (fun l => isAny (l.get a.toNat).tag) →
      let raw (f : Word → Word → Word) : Result :=
        s.writesLane x m d tagRAW fun l => f (l.get a.toNat).bits (x.g.u b.toNat)
      exec (.ualuAnd m true d a b) s = raw (· &&& ·) ∧
      exec (.ualuOr m true d a b) s = raw (· ||| ·) ∧
      exec (.ualuXor m true d a b) s = raw (· ^^^ ·) ∧
      exec (.ualuAndn m true d a b) s = raw (fun p q => p &&& ~~~q) ∧
      exec (.ualuShl m true d a b) s = raw (fun p n => BitVec.ofNat 32 (p.toNat * 2 ^ n.toNat)) ∧
      exec (.ualuShr m true d a b) s = raw (fun p n => BitVec.ofNat 32 (p.toNat / 2 ^ n.toNat)) ∧
      exec (.ualuSar m true d a b) s = raw (fun p n => BitVec.ofInt 32 (p.toInt / 2 ^ n.toNat)))) ∧
  (∀ (s : State) (x : Site) (m : Bool) (d a : BitVec 7) (imm : BitVec 9) (big : BitVec 17), Issuing s x .plain →
    let k : Int := imm.toInt
    let w : Word := imm.signExtend 32
    (OperandsPass x { vs := [d.toNat, a.toNat] } (fun l => isInt (l.get a.toNat).tag) →
      exec (.iaddi m d a imm) s = s.writesLane x m d tagI32 (fun l => BitVec.ofInt 32 ((l.get a.toNat).bits.toInt + k)) ∧
      exec (.imuli m d a imm) s = s.writesLane x m d tagI32 (fun l => BitVec.ofInt 32 ((l.get a.toNat).bits.toInt * k))) ∧
    (OperandsPass x { vs := [d.toNat, a.toNat] } (fun l => isAny (l.get a.toNat).tag) →
      let raw (f : Word → Word) : Result := s.writesLane x m d tagRAW fun l => f (l.get a.toNat).bits
      exec (.andi m d a imm) s = raw (· &&& w) ∧
      exec (.ori m d a imm) s = raw (· ||| w) ∧
      exec (.xori m d a imm) s = raw (· ^^^ w) ∧
      (imm.toNat < 32 →
        exec (.shli m d a imm) s = raw (fun p => BitVec.ofNat 32 (p.toNat * 2 ^ imm.toNat)) ∧
        exec (.shri m d a imm) s = raw (fun p => BitVec.ofNat 32 (p.toNat / 2 ^ imm.toNat)) ∧
        exec (.sari m d a imm) s = raw (fun p => BitVec.ofInt 32 (p.toInt / 2 ^ imm.toNat)))) ∧
    (OperandsPass x { us := [d.toNat, a.toNat] } (fun _ => true) →
      let uni (f : Word → Word) : Result := s.writesUniform x m d fun g => f (g.u a.toNat)
      exec (.ualuiIaddi m d a imm) s = uni (fun p => BitVec.ofInt 32 (p.toInt + k)) ∧
      exec (.ualuiImuli m d a imm) s = uni (fun p => BitVec.ofInt 32 (p.toInt * k)) ∧
      exec (.ualuiAndi m d a imm) s = uni (· &&& w) ∧
      exec (.ualuiOri m d a imm) s = uni (· ||| w) ∧
      exec (.ualuiXori m d a imm) s = uni (· ^^^ w) ∧
      (imm.toNat < 32 →
        exec (.ualuiShli m d a imm) s = uni (fun p => BitVec.ofNat 32 (p.toNat * 2 ^ imm.toNat)) ∧
        exec (.ualuiShri m d a imm) s = uni (fun p => BitVec.ofNat 32 (p.toNat / 2 ^ imm.toNat)) ∧
        exec (.ualuiSari m d a imm) s = uni (fun p => BitVec.ofInt 32 (p.toInt / 2 ^ imm.toNat)))) ∧
    (OperandsPass x { vs := [d.toNat] } (fun _ => true) →
      exec (.movl m d big) s = s.writesLane x m d tagI32 (fun _ => big.signExtend 32) ∧
      exec (.movh m d big) s = .next (s.completed x m .plain (onActive x fun _ l =>
        l.put d.toNat (BitVec.ofNat 32 (big.toNat * 2 ^ 15 + (l.get d.toNat).bits.toNat % 2 ^ 15))
          (l.get d.toNat).tag))) ∧
    (OperandsPass x { us := [d.toNat] } (fun _ => true) →
      exec (.movlUniform m d big) s = s.writesUniform x m d (fun _ => big.signExtend 32) ∧
      exec (.movhUniform m d big) s = s.writesUniform x m d (fun g =>
        BitVec.ofNat 32 (big.toNat * 2 ^ 15 + (g.u d.toNat).toNat % 2 ^ 15))))

/-- R147, R148: ICMP by the condition of its encoding, on signed or unsigned values; the address instructions on 64-bit
pairs, with an index extended by its tag.
R177 to R179: the predicate operations act on each active lane's own bits; PTOS reads all 32 lanes, whatever their
state, and PFROMS gives each active lane its bit; SEL copies a or b, bits and tag. -/
def Obligations.CompareAddressPredicateResults : Prop :=
  (∀ (s : State) (x : Site) (m : Bool) (c : BitVec 5) (e : BitVec 2) (d a b : BitVec 7), Issuing s x .plain →
    (OperandsPass x { vs := [a.toNat, b.toNat] }
        (fun l => isInt (l.get a.toNat).tag && isInt (l.get b.toNat).tag) → c.toNat ≤ 9 →
      exec (.icmp m c d a b) s = s.writesPred x m d (fun l =>
        let A : Word := (l.get a.toNat).bits
        let B : Word := (l.get b.toNat).bits
        if c = 0 then decide (A = B)
        else if c = 1 then decide (A ≠ B)
        else if c = 2 then decide (A.toInt < B.toInt)
        else if c = 3 then decide (A.toInt ≤ B.toInt)
        else if c = 4 then decide (B.toInt < A.toInt)
        else if c = 5 then decide (B.toInt ≤ A.toInt)
        else if c = 6 then decide (A.toNat < B.toNat)
        else if c = 7 then decide (A.toNat ≤ B.toNat)
        else if c = 8 then decide (B.toNat < A.toNat)
        else decide (B.toNat ≤ A.toNat))) ∧
    (OperandsPass x { vs := [d.toNat, d.toNat + 1, a.toNat, a.toNat + 1, b.toNat, b.toNat + 1] }
        (fun l => isWide l a.toNat && isWide l b.toNat) →
      exec (.aadd m d a b) s = s.writesPair x m d (fun l =>
        BitVec.ofNat 64 ((l.pair a.toNat).toNat + (l.pair b.toNat).toNat)) ∧
      exec (.asub m d a b) s = s.writesPair x m d (fun l =>
        BitVec.ofInt 64 ((l.pair a.toNat).toNat - (l.pair b.toNat).toNat))) ∧
    (OperandsPass x { vs := [d.toNat, d.toNat + 1, a.toNat, a.toNat + 1, b.toNat] }
        (fun l => isWide l a.toNat && isInt (l.get b.toNat).tag) →
      let index (l : Lane) : Int :=
        if (l.get b.toNat).tag = tagUI32 then ((l.get b.toNat).bits.toNat : Int) else (l.get b.toNat).bits.toInt
      exec (.aaddx m d a b) s =
        s.writesPair x m d (fun l => BitVec.ofInt 64 ((l.pair a.toNat).toNat + index l)) ∧
      exec (.alea m e d a b) s =
        s.writesPair x m d (fun l => BitVec.ofInt 64 ((l.pair a.toNat).toNat + index l * 2 ^ e.toNat))) ∧
    (OperandsPass x { vs := [a.toNat, a.toNat + 1, b.toNat, b.toNat + 1] }
        (fun l => isWide l a.toNat && isWide l b.toNat) →
      exec (.acmpeq m d a b) s = s.writesPred x m d (fun l => decide (l.pair a.toNat = l.pair b.toNat)) ∧
      exec (.acmpltu m d a b) s =
        s.writesPred x m d (fun l => decide ((l.pair a.toNat).toNat < (l.pair b.toNat).toNat))) ∧
    (OperandsPass x { vs := [d.toNat, d.toNat + 1], us := [a.toNat, a.toNat + 1] } (fun _ => true) →
      exec (.afroms m d a) s = .next (s.completed x m .plain (onActive x fun _ l =>
        (l.put d.toNat (x.g.u a.toNat) tagI64L).put (d.toNat + 1) (x.g.u (a.toNat + 1)) tagI64H)))) ∧
  (∀ (s : State) (x : Site) (m n : Bool) (p : BitVec 4) (d a b : BitVec 7), Issuing s x .plain →
    let A (l : Lane) : Bool := l.pred a.toNat
    let B (l : Lane) : Bool := l.pred b.toNat
    exec (.pand m d a b) s = s.writesPred x m d (fun l => A l && B l) ∧
    exec (.por m d a b) s = s.writesPred x m d (fun l => A l || B l) ∧
    exec (.pxor m d a b) s = s.writesPred x m d (fun l => A l ^^ B l) ∧
    exec (.pandn m d a b) s = s.writesPred x m d (fun l => A l && !B l) ∧
    exec (.pnot m d a) s = s.writesPred x m d (fun l => !A l) ∧
    exec (.pmov m d a) s = s.writesPred x m d A ∧
    (OperandsPass x { us := [d.toNat] } (fun _ => true) →
      ∃ w : Word, exec (.ptos m d a) s = s.writesUniform x m d (fun _ => w) ∧
        ∀ j, j < 32 → w.getLsbD j = (x.g.lanes[j]?).any A) ∧
    (OperandsPass x { us := [a.toNat] } (fun _ => true) →
      exec (.pfroms m d a) s = .next (s.completed x m .plain (onActive x fun j l =>
        l.setPred d.toNat ((x.g.u a.toNat).getLsbD j)))) ∧
    (OperandsPass x { vs := [d.toNat, a.toNat, b.toNat] } (fun _ => true) →
      exec (.sel m n p d a b) s = .next (s.completed x m .plain (onActive x fun _ l =>
        let r : VReg := if (l.pred p.toNat ^^ n) = true then l.get a.toNat else l.get b.toNat
        l.put d.toNat r.bits r.tag))))

/-! ## Float instructions and conversion (R149 to R163) -/

/-- R149 to R154, R157 to R159: an FALU operation takes its format from the tag of a and acts on each element by itself,
one for F32 and two for the packed tags; the result carries a's tag, and the flags of the elements are ORed into
FPFLAGS. FABS, FNEG and FCOPYSIGN touch the sign bits only. -/
def Obligations.FloatElementResults : Prop :=
  ∀ (s : State) (x : Site) (m : Bool) (d a b : BitVec 7), Issuing s x .plain →
    let format (l : Lane) : Fmt :=
      if (l.get a.toNat).tag = tagF32 then fF32 else if (l.get a.toNat).tag = tagBF16 then fBF16 else fF16
    let rm : RMode := x.g.fpmode
    let each (f : Lane → Nat → Nat → Nat → Nat × FpFlags) : Result :=
      .next (s.completed x m .plain (onActive x fun _ l =>
        let A : Nat := (l.get a.toNat).bits.toNat
        let B : Nat := (l.get b.toNat).bits.toNat
        let D : Nat := (l.get d.toNat).bits.toNat
        let lo := f l (A % 2 ^ 16) (B % 2 ^ 16) (D % 2 ^ 16)
        let hi := f l (A / 2 ^ 16) (B / 2 ^ 16) (D / 2 ^ 16)
        let all := f l A B D
        let r : Nat × FpFlags := if format l = fF32 then all else (lo.1 + 2 ^ 16 * hi.1, lo.2 ||| hi.2)
        { l.put d.toNat (BitVec.ofNat 32 r.1) (l.get a.toNat).tag with fpflags := l.fpflags ||| r.2 }))
    let sign (f : Word → Word → Word → Word) : Result :=
      .next (s.completed x m .plain (onActive x fun _ l =>
        l.put d.toNat
          (f (if format l = fF32 then 0x80000000 else 0x80008000) (l.get a.toNat).bits (l.get b.toNat).bits)
          (l.get a.toNat).tag))
    (OperandsPass x { vs := [d.toNat, a.toNat, b.toNat] }
        (fun l => isFloat (l.get a.toNat).tag && (l.get b.toNat).tag == (l.get a.toNat).tag) →
      exec (.fadd m d a b) s = each (fun l p q _ => (format l).add rm p q) ∧
      exec (.fsub m d a b) s = each (fun l p q _ => (format l).sub rm p q) ∧
      exec (.fmul m d a b) s = each (fun l p q _ => (format l).mul rm p q) ∧
      exec (.fdiv m d a b) s = each (fun l p q _ => (format l).div rm p q) ∧
      exec (.fmin m d a b) s = each (fun l p q _ => (format l).minmax false p q) ∧
      exec (.fmax m d a b) s = each (fun l p q _ => (format l).minmax true p q) ∧
      exec (.fminnum m d a b) s = each (fun l p q _ => (format l).minmaxNum false p q) ∧
      exec (.fmaxnum m d a b) s = each (fun l p q _ => (format l).minmaxNum true p q) ∧
      exec (.fcopysign m d a b) s = sign (fun k p q => (p &&& ~~~k) ||| (q &&& k))) ∧
    (OperandsPass x { vs := [d.toNat, a.toNat, b.toNat] }
        (fun l => isFloat (l.get a.toNat).tag && (l.get b.toNat).tag == (l.get a.toNat).tag &&
          (l.get d.toNat).tag == (l.get a.toNat).tag) →
      exec (.ffma m d a b) s = each (fun l p q r => (format l).fma rm false false p q r) ∧
      exec (.ffms m d a b) s = each (fun l p q r => (format l).fma rm false true p q r) ∧
      exec (.fnma m d a b) s = each (fun l p q r => (format l).fma rm true false p q r)) ∧
    (OperandsPass x { vs := [d.toNat, a.toNat] } (fun l => isFloat (l.get a.toNat).tag) →
      exec (.fabs m d a) s = sign (fun k p _ => p &&& ~~~k) ∧
      exec (.fneg m d a) s = sign (fun k p _ => p ^^^ k) ∧
      exec (.fgetexp m d a) s = each (fun l p _ _ => (format l).getExp rm p) ∧
      exec (.fgetman m d a) s = each (fun l p _ _ => (format l).getMan rm p) ∧
      ∀ k : BitVec 7, k.toNat ≤ 4 →
        exec (.frnd m d a k) s = each (fun l p _ _ => (format l).integral (if k = 4 then rm else k.setWidth 2) p)) ∧
    (OperandsPass x { vs := [d.toNat, a.toNat, b.toNat] }
        (fun l => isFloat (l.get a.toNat).tag && ((l.get b.toNat).tag == tagI32 || (l.get b.toNat).tag == tagRAW)) →
      exec (.fscale m d a b) s = each (fun l p _ _ => (format l).scale rm p (l.get b.toNat).bits.toInt))

/-- R155, R156, R160 to R163: FCLASS writes one bit for each element, with tag UI32; FCMP compares element 0 into a
predicate; the dot products sum exactly over d and round once to F32; CVT converts into its target tag. -/
def Obligations.FloatClassCompareDotConvertResults : Prop :=
  ∀ (s : State) (x : Site) (m : Bool) (d a b : BitVec 7), Issuing s x .plain →
    let A (l : Lane) : VReg := l.get a.toNat
    let B (l : Lane) : VReg := l.get b.toNat
    let format (t : BitVec 5) : Fmt := if t = tagF32 then fF32 else if t = tagBF16 then fBF16 else fF16
    let byte (t : BitVec 5) : Fmt := if t = tagE4 then fE4M3 else fE5M2
    let summed (fmt : BitVec 5 → Fmt) (n : Nat) : Result :=
      .next (s.completed x m .plain (onActive x fun _ l =>
        let part (r : VReg) : List Nat := (List.range n).map fun i => r.bits.toNat / 2 ^ (i * (32 / n)) % 2 ^ (32 / n)
        let r := dot (fmt (A l).tag) (fmt (B l).tag) x.g.fpmode (part (A l)) (part (B l)) (l.get d.toNat).bits.toNat
        { l.put d.toNat (BitVec.ofNat 32 r.1) tagF32 with fpflags := l.fpflags ||| r.2 }))
    (OperandsPass x { vs := [d.toNat, a.toNat] } (fun l => isFloat (A l).tag) →
      exec (.fclass m d a) s = s.writesLane x m d tagUI32 (fun l =>
        let bits : Nat := (A l).bits.toNat
        let fmt := format (A l).tag
        if fmt = fF32 then BitVec.ofNat 32 (2 ^ fmt.classOf bits)
        else BitVec.ofNat 32 (2 ^ fmt.classOf (bits % 2 ^ 16) + 2 ^ 16 * 2 ^ fmt.classOf (bits / 2 ^ 16)))) ∧
    (OperandsPass x { vs := [a.toNat, b.toNat] } (fun l => isFloat (A l).tag && (B l).tag == (A l).tag) →
      ∀ c : BitVec 5, exec (.fcmp m c d a b) s =
        .next (s.completed x m .plain (onActive x fun _ l =>
          let fmt := format (A l).tag
          let r := fmt.compare c.toNat ((A l).bits.toNat % 2 ^ fmt.width) ((B l).bits.toNat % 2 ^ fmt.width)
          { l.setPred d.toNat r.1 with fpflags := l.fpflags ||| r.2 }))) ∧
    (OperandsPass x { vs := [d.toNat, a.toNat, b.toNat] }
        (fun l => ((A l).tag == tagBF16 || (A l).tag == tagF16) && (B l).tag == (A l).tag &&
          (l.get d.toNat).tag == tagF32) →
      exec (.fdot2 m d a b) s = summed format 2) ∧
    (OperandsPass x { vs := [d.toNat, a.toNat, b.toNat] }
        (fun l => ((A l).tag == tagE4 || (A l).tag == tagE5) && ((B l).tag == tagE4 || (B l).tag == tagE5) &&
          (l.get d.toNat).tag == tagF32) →
      exec (.fdot4 m d a b) s = summed byte 4) ∧
    ∀ (t : BitVec 5) (e : BitVec 3) (dyn sat : Bool) (rnd : BitVec 2),
      OperandsPass x { vs := [d.toNat, a.toNat] } (fun l => cvtTags t (A l) (l.get d.toNat)) →
      ActiveLanes x (fun _ l => cvtIllegal t e (A l) = false) →
      exec (.cvt m t d a e dyn sat rnd) s =
        .next (s.completed x m .plain (onActive x fun _ l =>
          let r := cvtResult t e (if dyn then x.g.fpmode else rnd) sat (A l) (l.get d.toNat)
          { l.put d.toNat r.1 t with fpflags := l.fpflags ||| r.2 }))

/-- R114 step 5, R150, R151: a sum, difference, product or fused product of finite operands that raises no IXE is the
exact value: no rounding is lost without the flag. -/
def Obligations.FloatWithoutInexactIsExact : Prop :=
  ∀ (f : Fmt) (rm : RMode) (a b d : Nat), (f = fF32 ∨ f = fBF16 ∨ f = fF16) →
    f.finite a → f.finite b → f.finite d →
    let exact (r : Nat × FpFlags) (y : Rat) : Prop := r.2 &&& ixe = 0 → f.finite r.1 ∧ (f.value r.1).rat = y
    let v (p : Nat) : Rat := (f.value p).rat
    exact (f.add rm a b) (v a + v b) ∧ exact (f.sub rm a b) (v a - v b) ∧ exact (f.mul rm a b) (v a * v b) ∧
      exact (f.fma rm false false a b d) (v a * v b + v d) ∧ exact (f.fma rm false true a b d) (v a * v b - v d) ∧
      exact (f.fma rm true false a b d) (v d - v a * v b)

/-- R32, R121, R139, R164: FRCP, FRSQ and FSQRT complete: each active lane has the flags of its elements ORed into its
FPFLAGS at issue, and its result is on the way: the destination is marked pending, with the value, bits and tag, that it
will take.
When the result is written is open (log 6). -/
def Obligations.SpecialFunctionResults : Prop :=
  ∀ (s : State) (x : Site) (m : Bool) (d a : BitVec 7), Issuing s x .plain →
    let A (l : Lane) : VReg := l.get a.toNat
    let format (t : BitVec 5) : Fmt := if t = tagF32 then fF32 else if t = tagBF16 then fBF16 else fF16
    let each (f : Fmt → Nat → Nat × FpFlags) (l : Lane) : Word × FpFlags :=
      let fmt := format (A l).tag
      let bits : Nat := (A l).bits.toNat
      let lo := f fmt (bits % 2 ^ 16)
      let hi := f fmt (bits / 2 ^ 16)
      if fmt = fF32 then (BitVec.ofNat 32 (f fmt bits).1, (f fmt bits).2)
      else (BitVec.ofNat 32 (lo.1 + 2 ^ 16 * hi.1), lo.2 ||| hi.2)
    let later (i : Instr) (f : Lane → Word × FpFlags) : Prop :=
      ∃ t g, exec i s = .next t ∧ t.mem = s.mem ∧ t.group? x.g.uid = some g ∧ ActiveLanes x fun k l =>
        (t.brings x.g.uid (some k) [l.window + d.toNat]
          (.value [{ reg := l.window + d.toNat, bits := (f l).1, tag := (A l).tag }])) ∧
        ∀ l', g.lanes[k]? = some l' → l'.fpflags = l.fpflags ||| (f l).2
    OperandsPass x { vs := [d.toNat, a.toNat] } (fun l => isFloat (A l).tag) →
      later (.frcp m d a) (each fun fmt p => fmt.rcp x.g.fpmode p) ∧
      later (.frsq m d a) (each fun fmt p => fmt.rsq x.g.fpmode p) ∧
      later (.fsqrt m d a) (each fun fmt p => fmt.sqrt x.g.fpmode p)

/-- R32, R130, R132, R165, R167 to R169: FLUT evaluates the bank that ATBANK names, is not issued while it is LOADING,
and its result is on the way, marked pending, with tag F32; ATBIND names the bank; ATSTAT's snapshot is on its way to
its uniform register; ATLOAD, on a group bound to the other bank and with nothing else bound to the bank it names,
leaves the bank LOADING for it and ends the segment. When a result is written is open (log 6). -/
def Obligations.ActivationTableResults : Prop :=
  ∀ (s : State) (x : Site) (m : Bool) (d a k : BitVec 7), Issuing s x .plain →
    let core := s.coreOf x.g.team
    let own := s.bank core x.g.atbank
    (own.state = .loading → exec (.flut m d a) s = .next (s.modGroup x.g.uid fun g => { g with blocked := true })) ∧
    (own.state ≠ .loading → OperandsPass x { vs := [d.toNat, a.toNat] } (fun l => (l.get a.toNat).tag == tagF32) →
      ∃ t, exec (.flut m d a) s = .next t ∧ t.mem = s.mem ∧ ActiveLanes x fun i l =>
        let p : Nat := (l.get a.toNat).bits.toNat
        let w : Word :=
          if own.state = .valid then BitVec.ofNat 32 (flutValue own.coeff p)
          else if fF32.isNan p then BitVec.ofNat 32 (fF32.quiet p) else 0x7FC00000
        t.brings x.g.uid (some i) [l.window + d.toNat]
          (.value [{ reg := l.window + d.toNat, bits := w, tag := tagF32 }])) ∧
    exec (.atbind m k) s = .next (s.completed x m .plain (onGroup x fun g => { g with atbank := k.toNat })) ∧
    (OperandsPass x { us := [d.toNat] } (fun _ => true) →
      let snapshot : Nat := x.g.atbank + 2 * (s.bank core 0).state.code + 8 * (s.bank core 1).state.code +
        2 ^ 8 * (s.boundTo core 0).length + 2 ^ 16 * (s.boundTo core 1).length
      ∃ t, exec (.atstat m d) s = .next t ∧ t.brings x.g.uid none [d.toNat]
        (.value [{ reg := d.toNat, bits := BitVec.ofNat 32 snapshot, tag := tagRAW }])) ∧
    (OperandsPass x { us := [a.toNat, a.toNat + 1] } (fun _ => true) → k.toNat ≤ 1 → core < s.cores.length →
      x.g.atbank ≠ k.toNat → ((s.core core).banks[k.toNat]?).isSome →
      (x.g.uPair a.toNat).toNat % 2 ^ 48 % 128 = 0 →
      (∀ g ∈ s.boundTo core k.toNat, g.uid = x.g.uid) → (s.bank core k.toNat).state ≠ .loading →
      s.keepsBack x.g = false → x.g.redo? = none →
      ∃ t, exec (.atload m a k) s = .next t ∧ (t.bank core k.toNat).state = .loading ∧
        (t.bank core k.toNat).load.map (·.address) = some ((x.g.uPair a.toNat).toNat % 2 ^ 48) ∧
        (t.bank core k.toNat).load.map (·.group) = some x.g.uid ∧
        ∃ g, t.group? x.g.uid = some g ∧ g.segEnd = true)

/-! ## Cross-lane instructions, predicates and select (R171 to R179) -/

/-- R172, R173, R176: a shuffle takes the bits and tag of a from its source lane if that lane takes part, else from the
lane itself; the votes combine the predicate over the participants; BALLOT and MATCH give masks of them; SPLAT copies a
uniform register with tag RAW. -/
def Obligations.ShuffleVoteBallotResults : Prop :=
  ∀ (s : State) (x : Site) (m : Bool) (d a b k : BitVec 7), Issuing s x .plain →
    let part (j : Nat) : Option Lane := if x.mask.getLsbD j then x.g.lanes[j]? else none
    let own (l : Lane) : VReg := l.get a.toNat
    let from_ (src : Nat → Lane → Int) : Result :=
      .next (s.completed x m .plain (onActive x fun i l =>
        let j := src i l
        let r : VReg := if 0 ≤ j ∧ j < 32 then ((part j.toNat).map own).getD (own l) else own l
        l.put d.toNat r.bits r.tag))
    let parts : List Lane := (List.range 32).filterMap part
    (OperandsPass x { vs := [d.toNat, a.toNat, b.toNat] } (fun _ => true) →
      exec (.shfli m d a b) s = from_ (fun _ l => (l.get b.toNat).bits.toNat % 32)) ∧
    (OperandsPass x { vs := [d.toNat, a.toNat] } (fun _ => true) →
      exec (.shflu m d a k) s = from_ (fun i _ => i - k.toNat) ∧
      exec (.shfld m d a k) s = from_ (fun i _ => i + k.toNat) ∧
      exec (.shflx m d a k) s = from_ (fun i _ => ((i ^^^ k.toNat : Nat) : Int)) ∧
      exec (.bcast m d a k) s = from_ (fun _ _ => k.toNat) ∧
      ∃ w : Lane → Word, exec (.matchLanes m d a) s = s.writesLane x m d tagUI32 w ∧
        ∀ l j, (w l).getLsbD j = ((part j).any fun p => (p.get a.toNat).bits == (l.get a.toNat).bits)) ∧
    exec (.voteall m d a) s = s.writesPred x m d (fun _ => parts.all (·.pred a.toNat)) ∧
    exec (.voteany m d a) s = s.writesPred x m d (fun _ => parts.any (·.pred a.toNat)) ∧
    (OperandsPass x { us := [d.toNat] } (fun _ => true) →
      ∃ w : Word, exec (.ballot m d a) s = s.writesUniform x m d (fun _ => w) ∧
        ∀ j, w.getLsbD j = (part j).any (·.pred a.toNat)) ∧
    (OperandsPass x { vs := [d.toNat], us := [a.toNat] } (fun _ => true) →
      exec (.splat m d a) s = s.writesLane x m d tagRAW (fun _ => x.g.u a.toNat))

/-- R32, R133, R134, R139, R174, R175: a reduction brings every active lane the tree reduction over the participants,
in the class of the lowest one; a scan brings each the inclusive scan: the instruction completes, each active lane's
destination is marked pending (R32) and the flags of every step are ORed into its FPFLAGS at issue (R117, R139). The
integer sum is the sum modulo 2^32, whatever the tree. When the result is written is open (log 6). -/
def Obligations.ReductionScanResults : Prop :=
  ∀ (s : State) (x : Site) (m : Bool) (d a : BitVec 7), Issuing s x .plain →
    let o : Operands := { vs := [d.toNat, a.toNat] }
    let c := siteClass x o a.toNat
    let vals : List (Option Word) := values x x.mask fun l => (l.get a.toNat).bits
    let brings (i : Instr) (tag : BitVec 5) (w : Nat → Word) (flags : FpFlags) : Prop :=
      ∃ t g, exec i s = .next t ∧ t.mem = s.mem ∧ t.group? x.g.uid = some g ∧ ActiveLanes x fun k l =>
        (t.brings x.g.uid (some k) [l.window + d.toNat]
          (.value [{ reg := l.window + d.toNat, bits := w k, tag := tag }])) ∧
        ∀ l', g.lanes[k]? = some l' → l'.fpflags = l.fpflags ||| flags
    let tree (i : Instr) (f : Word → Word → Word × FpFlags) : Prop :=
      brings i c.tag (fun _ => (treeReduce f 5 vals).1.getD 0) (treeReduce f 5 vals).2
    let scan (i : Instr) (f : Word → Word → Word × FpFlags) : Prop :=
      brings i c.tag (fun k => ((scanFrom f none vals).1[k]?.join).getD 0) (scanFrom f none vals).2
    (OperandsPass x o (fun l => isReducible (l.get a.toNat).tag && c.fits (l.get a.toNat).tag) →
      tree (.redadd m d a) (RedOp.step .sum c) ∧
      tree (.redmin m d a) (RedOp.step .min c) ∧
      tree (.redmax m d a) (RedOp.step .max c) ∧
      scan (.scanadd m d a) (RedOp.step .sum c) ∧
      scan (.scanmax m d a) (RedOp.step .max c) ∧
      (c = .signed ∨ c = .unsigned →
        brings (.redadd m d a) c.tag (fun _ => (vals.filterMap id).foldl (· + ·) 0) 0 ∧
        brings (.scanadd m d a) c.tag (fun k => ((vals.take (k + 1)).filterMap id).foldl (· + ·) 0) 0)) ∧
    (OperandsPass x o (fun l => isAny (l.get a.toNat).tag) →
      brings (.redand m d a) tagRAW (fun _ => (vals.filterMap id).foldl (· &&& ·) (BitVec.allOnes 32)) 0 ∧
      brings (.redor m d a) tagRAW (fun _ => (vals.filterMap id).foldl (· ||| ·) 0) 0 ∧
      brings (.redxor m d a) tagRAW (fun _ => (vals.filterMap id).foldl (· ^^^ ·) 0) 0)

/-! ## Control (R180 to R189) -/

/-- R71, R180 to R184, R188: where BRA, CALL, RET and BRX leave each active lane, and what CALL, RET, WBASE and WADJ do
to the window; NOP changes nothing but the program counter. -/
def Obligations.BranchCallWindowResults : Prop :=
  ∀ (s : State) (x : Site) (m n : Bool) (p : BitVec 4) (off : BitVec 21) (wsh : BitVec 5) (a k : BitVec 7),
    Issuing s x .plain →
    let target : Addr := BitVec.ofInt 48 (x.pc.toNat + 4 * off.toInt)
    let lanes (f : Lane → Lane) : Result := .next (s.completed x m .plain (onActive x fun _ l => f l))
    exec (.nop m) s = lanes id ∧
    exec (.bra m n p off) s = lanes (fun l => if (l.pred p.toNat ^^ n) = true then { l with lpc := target } else l) ∧
    (ActiveLanes x (fun _ l =>
        let w := l.window + 8 * wsh.toNat
        w + 1 < x.img.va ∧ w ∉ l.pend ∧ w + 1 ∉ l.pend) →
      exec (.call m wsh off) s = lanes (fun l =>
        let l' : Lane := { l with window := l.window + 8 * wsh.toNat, lpc := target }
        (l'.put 0 (BitVec.ofNat 32 ((x.pc + 4).toNat % 2 ^ 32)) tagUI32).put 1 (BitVec.ofNat 32 l.window) tagUI32)) ∧
    (OperandsPass x { vs := [0, 1] } (fun l => isInt (l.get 0).tag && isInt (l.get 1).tag) →
      ActiveLanes x (fun _ l => (l.get 1).bits.toNat % 8 = 0 ∧ (l.get 1).bits.toNat < x.img.va) →
      exec (.ret m) s = lanes (fun l =>
        { l with window := (l.get 1).bits.toNat,
                 lpc := BitVec.ofNat 48 (x.pc.toNat / 2 ^ 32 * 2 ^ 32 + (l.get 0).bits.toNat / 4 * 4) })) ∧
    (OperandsPass x { vs := [a.toNat, a.toNat + 1] } (fun l => isWide l a.toNat) →
      exec (.brx m a) s = lanes (fun l =>
        { l with lpc := BitVec.ofNat 48 ((l.pair a.toNat).toNat % 2 ^ 48 / 4 * 4) })) ∧
    (OperandsPass x { vs := [a.toNat] } (fun l => isInt (l.get a.toNat).tag) →
      ActiveLanes x (fun _ l => (l.get a.toNat).bits.toNat % 8 = 0 ∧ (l.get a.toNat).bits.toNat < x.img.va) →
      exec (.wbase m a) s = lanes (fun l => { l with window := (l.get a.toNat).bits.toNat })) ∧
    (ActiveLanes x (fun _ l => 0 ≤ (l.window : Int) + 8 * k.toInt ∧ ((l.window : Int) + 8 * k.toInt) % 8 = 0 ∧
        (l.window : Int) + 8 * k.toInt < x.img.va) →
      exec (.wadj m k) s = lanes (fun l => { l with window := ((l.window : Int) + 8 * k.toInt).toNat }))

/-- R28, R185: JENR enrols its lanes, JSTK strikes them off, JCLR frees the register and the lanes parked on it, JARV
parks its enrolled lanes at itself and lets the others go on; each change is followed by the release test. JQRY reads
the register. That a parked lane keeps its LPC at the JARV is the model's choice (log 23).
R29: the release test. A register whose ENROL is nonempty and equals ARRIVED is cleared and every lane parked on it
goes on, past its JARV; otherwise nothing changes. -/
def Obligations.RejoinResults : Prop :=
  (∀ (s : State) (x : Site) (m : Bool) (d a : BitVec 7),
    (Issuing s x .plain →
      exec (.jenr m d) s = .next (s.completed x m .plain (onGroup x fun g =>
        g.changeJ d.toNat fun jm => ⟨jm.enrol ||| x.mask, jm.arrived⟩)) ∧
      exec (.jstk m d) s = .next (s.completed x m .plain (onGroup x fun g =>
        g.changeJ d.toNat fun jm => ⟨jm.enrol &&& ~~~x.mask, jm.arrived &&& ~~~x.mask⟩)) ∧
      exec (.jclr m d) s = .next (s.completed x m .plain (onGroup x fun g =>
        { g with
          lanes := g.lanes.map fun (l : Lane) => if l.state = .join d.toNat then { l with state := .run, lpc := l.lpc + 4 } else l,
          jmasks := setAt (fun _ => ⟨0, 0⟩) d.toNat g.jmasks })) ∧
      (OperandsPass x { vs := [d.toNat, d.toNat + 1] } (fun _ => true) →
        exec (.jqry m d a) s = .next (s.completed x m .plain (onActive x fun _ l =>
          let jm : JMask := (x.g.jmasks[a.toNat]?).getD ⟨0, 0⟩
          (l.put d.toNat jm.enrol tagUI32).put (d.toNat + 1) jm.arrived tagUI32)))) ∧
    (Issuing s x .safePoint →
      exec (.jarv m d) s = .next (s.completed x m .safePoint (onGroup x fun g =>
        let parked := x.mask &&& ((g.jmasks[d.toNat]?).map (·.enrol)).getD 0
        (g.onLanes parked fun _ l => { l with state := .join d.toNat, lpc := x.pc }).changeJ d.toNat
          fun jm => ⟨jm.enrol, jm.arrived ||| parked⟩)))) ∧
  (∀ (g : Group) (j : Nat) (jm : JMask), g.jmasks[j]? = some jm →
    (jm.enrol ≠ 0 ∧ jm.arrived = jm.enrol →
      (g.testRejoin j).jmasks[j]? = some ⟨0, 0⟩ ∧
      (∀ k, k ≠ j → (g.testRejoin j).jmasks[k]? = g.jmasks[k]?) ∧
      ∀ (i : Nat) (l : Lane), g.lanes[i]? = some l →
        (g.testRejoin j).lanes[i]? =
          some (if l.state = .join j then { l with state := .run, lpc := l.lpc + 4 } else l)) ∧
    (¬(jm.enrol ≠ 0 ∧ jm.arrived = jm.enrol) → g.testRejoin j = g))

/-- R26, R48, R49, R54, R56, R67, R186 to R189: SAFEPT has no effect beyond being a safe point; YIELD begins a rotation
at the least lane address above it, if there is one; EXIT moves its lanes to DONE and, where they were the last, hands
the group to the retirement tracker; RESUME ends its segment, and once the group's results have come its lanes go back to
where they stood and leave the stub; ACBASE gives the team the window of accumulator tiles that it has from the next cycle
on (R40). SPCOUNT is 0 after a safe point and RESUME. Where lanes
stand that wait or park is the model's choice (log 23), and so is that a lane in RUN stands at its safe point again
after RESUME (log 59). -/
def Obligations.SafePointExitResults : Prop :=
  ∀ (s : State) (x : Site) (m : Bool) (k : BitVec 7),
    let uid := x.g.uid
    x.g.redo? = none →
    (Issuing s x .safePoint →
      exec (.safept m) s = .next (s.completed x m .safePoint id) ∧
      ∃ g, (s.completed x m .safePoint id).group? uid = some g ∧ g.spcount = 0 ∧ g.segEnd = true) ∧
    (Issuing s x .yield →
      exec (.yield m) s = .next (s.completed x m .yield (onGroup x fun g =>
        { g with rotation := (g.leastAbove (x.pc + 4)).map fun b => { base := b, left := g.fairtime } })) ∧
      ∀ t, exec (.yield m) s = .next t → ∃ g, t.group? uid = some g ∧ g.spcount = 0 ∧ g.segEnd = true) ∧
    (Issuing s x .resume →
      exec (.resume m) s = .next (s.completed x m .resume (onActive x fun _ l => { l with leaving := true })) ∧
      ∀ t, exec (.resume m) s = .next t → ∃ g, t.group? uid = some g ∧ g.spcount = 0 ∧ g.segEnd = true) ∧
    (∀ (u : State) (g : Group), g.segEnd = true → u.awaits g.uid = false →
      (∀ l ∈ g.lanes, l.service = none ∧ l.redo = none) →
      (u.endSegment g).segEnd = false ∧ ∀ (i : Nat) (l : Lane), i < 32 → g.lanes[i]? = some l →
        ∃ l', (u.endSegment g).lanes[i]? = some l' ∧ l'.pend = [] ∧ l'.leaving = false ∧
          (l.leaving = true → ∀ p, l.stood = some p →
            l'.lpc = p.lpc ∧ l'.state = p.state ∧ l'.stood = none ∧
              ∀ st ∈ (u.endSegment g).stubs, st.lanes.getLsbD i = false)) ∧
    (Issuing s x .plain → 8 * k.toNat < x.img.ca →
      exec (.acbase m k) s = .next (s.completed x m .plain fun s' =>
        s'.modTeam x.g.team fun t => { t with accnext := some (8 * k.toNat) })) ∧
    (s.tickOn.teams = s.teams.map fun t => { t with accwin := t.accnext.getD t.accwin, accnext := none }) ∧
    (Issuing s x .exit → s.exitStalls x.g x.mask = false →
      ∃ t, exec (.exit m) s = .next t ∧
        (∀ g, t.group? uid = some g → ∀ i l, g.lanes[i]? = some l → x.mask.getLsbD i = true → l.state = .done) ∧
        ((s.team? x.g.team).isSome →
          (∀ i l, x.g.lanes[i]? = some l → x.mask.getLsbD i = false → l.state = .done) →
          t.group? uid = none ∧ ∃ r ∈ t.retiring, r.group = uid ∧ r.team = x.g.team))

/-! ## Special registers, services and handlers (R230 to R235) -/

/-- R47, R230: SREAD gives each active lane, or the group, the special register of its index: 32 bits with tag UI32, or a
pair for the registers of 64 bits. Every row of R47 is listed with its content.
R231: SWRITE of FPFLAGS writes each active lane's own flags; SWRITE of a group register writes it once, from a
uniform register or from the lowest active lane; a value with a reserved bit or out of range is an illegal operand of
every active lane, for FPFLAGS from vector registers of each lane whose own value it is, and changes nothing. -/
def Obligations.SpecialRegisterAccess : Prop :=
  (∀ (s : State) (x : Site) (m : Bool) (d b : BitVec 7), Issuing s x .plain →
    let value (i : Nat) (l : Lane) : DWord := BitVec.ofNat 64 (s.special x.g x.img i l b.toNat)
    let wide : Bool := b.toNat == 0x08 || b.toNat == 0x0A || b.toNat == 0x2A || b.toNat == 0x2C
    (wide = false → OperandsPass x { vs := [d.toNat] } (fun _ => true) →
      exec (.sread m d 0 b) s =
        .next (s.completed x m .plain (onActive x fun i l => l.put d.toNat (value i l).lo tagUI32))) ∧
    (wide = true → OperandsPass x { vs := [d.toNat, d.toNat + 1] } (fun _ => true) →
      exec (.sread m d 0 b) s = .next (s.completed x m .plain (onActive x fun i l =>
        (l.put d.toNat (value i l).lo tagI64L).put (d.toNat + 1) (value i l).hi tagI64H))) ∧
    (OperandsPass x { us := if wide then [d.toNat, d.toNat + 1] else [d.toNat] } (fun _ => true) →
      let v : DWord := match x.g.lanes with
        | [] => 0
        | l :: _ => value 0 l
      exec (.sread m d 1 b) s = .next (s.completed x m .plain (onGroup x fun g =>
        if wide then (g.setU d.toNat v.lo).setU (d.toNat + 1) v.hi else g.setU d.toNat v.lo))) ∧
    ∀ (i : Nat) (l : Lane),
      let r (k : Nat) : Nat := s.special x.g x.img i l k
      r 0x00 = i ∧ r 0x01 = x.g.index ∧ r 0x06 = s.chipId ∧ r 0x08 = s.clock.tick / 2 ∧ r 0x0A = l.lwct ∧
        r 0x10 = 0x00000FFF ∧ r 0x11 = 0x00003FFF ∧ r 0x12 = 0x83C6C480 ∧ r 0x13 = 0x0044200F ∧ r 0x14 = 0x03000300 ∧
        r 0x18 = x.g.fpmode.toNat ∧ r 0x19 = l.fpflags.toNat ∧ r 0x1A = x.g.pprom.toNat ∧ r 0x1B = x.g.fairtime ∧ r 0x1C = x.g.spcount ∧
        r 0x1D = x.g.leaseovr.toNat ∧ r 0x1E = l.window ∧ r 0x20 = x.g.atbank ∧ r 0x28 = l.tcause.toNat ∧
        r 0x2A = l.tpc.toNat ∧ r 0x2C = l.taddr.toNat ∧
        ∀ tm, s.team? x.g.team = some tm →
          r 0x02 = tm.index ∧ r 0x03 = tm.member + 2 ^ 4 * x.img.width + 2 ^ 8 * x.img.height ∧
          r 0x04 = tm.x + 2 ^ 16 * tm.y ∧ r 0x05 = tm.lcid ∧ r 0x1F = tm.accwin) ∧
  (∀ (s : State) (x : Site) (m : Bool) (a : BitVec 7), Issuing s x .plain →
    (OperandsPass x { vs := [a.toNat] } (fun l => isInt (l.get a.toNat).tag) →
      ActiveLanes x (fun _ l => (l.get a.toNat).bits.toNat < 32) →
      exec (.swrite m 0 a 0x19) s = .next (s.completed x m .plain (onActive x fun _ l =>
        { l with fpflags := (l.get a.toNat).bits.setWidth 5 }))) ∧
    let writesGroup (cls : BitVec 7) (w : Word) : Prop :=
      (w.toNat < 4 → exec (.swrite m cls a 0x18) s =
        .next (s.completed x m .plain (onGroup x fun g => { g with fpmode := w.setWidth 2 }))) ∧
      (w.toNat < 2 → exec (.swrite m cls a 0x1A) s =
        .next (s.completed x m .plain (onGroup x fun g => { g with pprom := w == 1 }))) ∧
      (16 ≤ w.toNat ∧ w.toNat ≤ 4096 → exec (.swrite m cls a 0x1B) s =
        .next (s.completed x m .plain (onGroup x fun g => { g with fairtime := w.toNat }))) ∧
      (w.toNat < 8 → exec (.swrite m cls a 0x1D) s =
        .next (s.completed x m .plain (onGroup x fun g => { g with leaseovr := w.setWidth 3 })))
    let bad (b : BitVec 7) (w : Word) : Prop :=
      (b = 0x18 ∧ 4 ≤ w.toNat) ∨ (b = 0x1A ∧ 2 ≤ w.toNat) ∨ (b = 0x1B ∧ (w.toNat < 16 ∨ 4096 < w.toNat)) ∨
        (b = 0x1D ∧ 8 ≤ w.toNat)
    let refuses (i : Instr) (which : Lane → Prop) : Prop :=
      x.g.redo? = none → ActiveLanes x (fun _ l => l.handler = false) → ∃ t g, exec i s = .next t ∧
        t.group? x.g.uid = some g ∧ g.fpmode = x.g.fpmode ∧ g.pprom = x.g.pprom ∧ g.fairtime = x.g.fairtime ∧
        g.leaseovr = x.g.leaseovr ∧ ∀ (j : Nat) (l l' : Lane), x.g.lanes[j]? = some l → g.lanes[j]? = some l' →
          x.mask.getLsbD j = true → which l →
          l'.state = .trap ∧ bitsOf l'.tcause.toNat 0 8 = 0x02 ∧ l'.fpflags = l.fpflags
    (OperandsPass x { us := [a.toNat] } (fun _ => true) →
      let w : Word := x.g.u a.toNat
      writesGroup 1 w ∧
      (w.toNat < 32 → exec (.swrite m 1 a 0x19) s =
        .next (s.completed x m .plain (onActive x fun _ l => { l with fpflags := w.setWidth 5 }))) ∧
      (32 ≤ w.toNat → refuses (.swrite m 1 a 0x19) fun _ => True) ∧
      ∀ b, bad b w → refuses (.swrite m 1 a b) fun _ => True) ∧
    (OperandsPass x { vs := [a.toNat] } (fun l => isInt (l.get a.toNat).tag) →
      refuses (.swrite m 0 a 0x19) (fun l => 32 ≤ (l.get a.toNat).bits.toNat) ∧
      ∀ (i : Nat) (l : Lane), i < 32 → x.g.lanes[i]? = some l → x.mask.getLsbD i = true →
        (∀ j, j < i → x.mask.getLsbD j = false) →
        let w : Word := (l.get a.toNat).bits
        writesGroup 0 w ∧ ∀ b, bad b w → refuses (.swrite m 0 a b) fun _ => True))

/-- R232, R318, R319 step 1: TRAP puts its active lanes into TRAP at the instruction, with cause 0x11, the number k as
sub-cause, the address of the TRAP in TPC and 0 in TADDR, and leaves their registers, predicates and window alone.
R193, R233, R234: a group that issues a service is held until firmware answers; then the services that the spec
names answer in s124: SVC 0 with 0; SVC 1 and SVC 2 with 0 or 1; SVC 3 with 0, having sent LOGWORD with s125 under the
launch's tag; the others with 0xFFFFFFFF. BKPT halts the group while a debugger is attached, and reports its number,
and does nothing otherwise. That firmware answers after a free time, and with a free status, is the model's choice (log
18), and so are what it makes of operands that the spec does not judge (log 63) and the form of the report (log 76). -/
def Obligations.TrapsServicesAndBreakpoints : Prop :=
  (∀ (s : State) (x : Site) (m : Bool) (k : BitVec 7), Issuing s x .plain →
    ActiveLanes x (fun _ l => l.handler = false) →
    ∃ t, exec (.trap m k) s = .next t ∧ t.mem = s.mem ∧
      ∃ g', t.group? x.g.uid = some g' ∧
        ∀ (i : Nat) (l l' : Lane), x.g.lanes[i]? = some l → g'.lanes[i]? = some l' → x.mask.getLsbD i = true →
          l'.state = .trap ∧
          l'.tcause = BitVec.ofNat 32 (0x11 + 2 ^ 8 * k.toNat + (if x.g.stubs.isEmpty then 0 else 2 ^ 17)) ∧
          l'.tpc = x.pc.setWidth 64 ∧ l'.taddr = 0 ∧ l'.vregs = l.vregs ∧ l'.preds = l.preds ∧
          l'.window = l.window ∧ l'.lpc = l.lpc) ∧
  (∀ (s : State) (x : Site) (m : Bool) (k : BitVec 7), Issuing s x .plain →
    let answers (i : Instr) (w : Word) : Prop :=
      exec i s = .next (s.completed x m .plain (onGroup x fun g => { g.setU 124 w with service := none }))
    (OperandsPass x { us := [124, 125, 126, 127] } (fun _ => true) → s.keepsBack x.g = false → x.g.service = none →
      ∀ i ∈ [Instr.svcNull m, .svcStack m, .svcMap m, .svcLog m, .svcUnprovided m k],
        ∃ t g due, exec i s = .next t ∧ t.group? x.g.uid = some g ∧ g.blocked = true ∧ g.service = some (x.pc, due) ∧
          s.clock.tick ≤ due ∧ g.lanes = x.g.lanes) ∧
    (OperandsPass x { us := [124, 125, 126, 127] } (fun _ => true) → s.keepsBack x.g = false →
      x.g.answered x.pc s.clock.tick = true →
      answers (.svcNull m) 0 ∧
      answers (.svcUnprovided m k) 0xFFFFFFFF ∧
      (∃ t, exec (.svcLog m) s = .next t ∧
        t.outbox = s.outbox ++ [{ mtype := 0x0115, len := 4, seq := s.seqOut, addr := 0, status := 0, reserved := 0,
                                  tag := ((s.grid? x.g.grid).map (·.launch.ltag)).getD 0,
                                  payload := natLe 4 (x.g.u 125).toNat }] ∧
        ∃ g, t.group? x.g.uid = some g ∧ g.u 124 = 0) ∧
      (∃ t g, exec (.svcStack m) s = .next t ∧ t.group? x.g.uid = some g ∧
        (g.u 124 = 1 ∨ (g.u 124 = 0 ∧ g.stackLimit = x.g.stackLimit + (x.g.u 125).toNat))) ∧
      ∃ t g, exec (.svcMap m) s = .next t ∧ t.group? x.g.uid = some g ∧ (g.u 124 = 0 ∨ g.u 124 = 1)) ∧
    (s.fw.debugger = true → exec (.bkpt m k) s =
      .next (s.completed x m .plain fun s' =>
        { onGroup x (fun g => { g with halted := some (some k.toNat) }) s' with
          breaks := s'.breaks ++ [(((s.team? x.g.team).map (·.lcid)).getD 0, x.g.place.getD 0, k.toNat)] })) ∧
    (s.fw.debugger = false → exec (.bkpt m k) s = .next (s.completed x m .plain id)))

/-- R235: in handler mode TRET goes back to the faulting instruction and TSKIP to the word after it, and the lane leaves
handler mode; TKILL ends the lane and posts its fault record. Outside handler mode each is an illegal operand. -/
def Obligations.HandlerReturns : Prop :=
  ∀ (s : State) (x : Site) (m : Bool), Issuing s x .plain →
    (ActiveLanes x (fun _ l => l.handler = true) →
      exec (.tret m) s = .next (s.completed x m .plain (onActive x fun _ l =>
        { l with handler := false, lpc := l.tpc.setWidth 48 })) ∧
      exec (.tskip m) s = .next (s.completed x m .plain (onActive x fun _ l =>
        { l with handler := false, lpc := l.tpc.setWidth 48 + 4 })) ∧
      (s.exitStalls x.g x.mask = false → ∃ t, exec (.tkill m) s = .next t ∧
        (∀ g, t.group? x.g.uid = some g →
          ∀ (i : Nat) (l : Lane), g.lanes[i]? = some l → x.mask.getLsbD i = true → l.state = .done) ∧
        ∀ tm, s.team? x.g.team = some tm → ∀ gr ∈ t.grids, gr.uid = x.g.grid →
          ActiveLanes x fun i l => faultRec tm x.g.index i l ∈ gr.records)) ∧
    (ActiveLanes x (fun _ l => l.handler = false) → ∀ i ∈ [Instr.tret m, Instr.tskip m, Instr.tkill m],
      ∃ t g, exec i s = .next t ∧ t.group? x.g.uid = some g ∧ ∀ (j : Nat) (l : Lane), g.lanes[j]? = some l →
        x.mask.getLsbD j = true → l.state = .trap ∧ bitsOf l.tcause.toNat 0 8 = 0x02)

/-! ## Loads, stores and atomics (R192 to R204) -/

/-- R32, R194, R196, R198: loads complete, each active lane's result on its way to its registers, which are marked
pending: from a page of this part it will be performed at its landing, with the lease class of the leaf or of LEASEOVR,
and not before the lane's own earlier updates of those bytes are visible (R282); from another chip or the node it has
been asked for and its answer is awaited. A lane whose page firmware is asked to map keeps its place (R272). LDU does
so once for uniform registers. LDP goes to its bank: the own core's accepts it in this cycle (R197), a member's when it
gets there. By the model's reading, not by a rule, LDU comes after the updates of every active lane (DEDUCED, log 62),
and the lane at a page that firmware is to map carries the access that it repeats (DEDUCED, log 17). That a load is
performed when it lands is the model's choice (log 8), and so is when the own core's bank accepts (log 91); when a
result lands is open (log 6). -/
def Obligations.LoadsAreOnTheirWay : Prop :=
  ∀ (s : State) (x : Site) (m : Bool) (acc : BitVec 5) (d a b : BitVec 7), Issuing s x .plain →
    let n := accBytes acc.toNat
    let count := accCount acc.toNat
    let asked (t : State) (id : Nat) (p : Place) : Prop :=
      ∃ q ∈ t.fabric.remotes, q.id = id ∧ q.kind = pkRead ∧ q.chip = p.chip ∧ q.address = p.pa ∧ q.len = n
    (OperandsPass x ((globalOperands a.toNat b.toNat).add { vs := regsFrom d.toNat count })
        (fun l => globalTags l a.toNat b.toNat) →
      let va (l : Lane) : Nat := globalAddr x.g l a.toNat b.toNat
      let meets (i : Nat) (l : Lane) : Met := s.meetLane x.g i (va l) n .load
      ActiveLanes x (fun i l => (meets i l).cause = none) →
      (s.keepsBack x.g = true → ActiveLanes x fun i l => ∀ p, meets i l = .place p → p.home = true) →
      ∃ t g, exec (.ldg m acc d a b) s = .next t ∧ t.mem.cells = s.mem.cells ∧ t.mem.updates = s.mem.updates ∧
        t.group? x.g.uid = some g ∧ ActiveLanes x fun i l =>
          let first := l.window + d.toNat
          (∀ p, meets i l = .place p → p.home = true → t.brings x.g.uid (some i) (regsFrom first count)
            (.load (va l) p.pa acc.toNat first (leaseClass p x.g.leaseovr)
              (s.ownAfter x.g (BitVec.ofNat 32 (2 ^ i)) p.pa n))) ∧
          (∀ p, meets i l = .place p → p.home = false → ∃ id, asked t id p ∧
            t.brings x.g.uid (some i) (regsFrom first count) (.answer id acc.toNat first)) ∧
          ∀ e l', meets i l = .service e → g.lanes[i]? = some l' →
            l'.lpc = x.pc ∧ l'.service = some (va l) ∧ l'.redo.isSome = true) ∧
    (OperandsPass x { us := [a.toNat, b.toNat, b.toNat + 1] ++ regsFrom d.toNat count } (fun _ => true) →
      let va := uniformAddr x.g a.toNat b.toNat
      ∀ p, va % n = 0 → s.meet x.g.grid (s.coreOf x.g.team) va n .load = .place p →
        (s.keepsBack x.g = true → p.home = true) →
        ∃ t, exec (.ldu m acc d a b) s = .next t ∧
          (p.home = true → t.brings x.g.uid none (regsFrom d.toNat count)
            (.load va p.pa acc.toNat d.toNat (leaseClass p x.g.leaseovr) (s.ownAfter x.g x.mask p.pa n))) ∧
          (p.home = false → ∃ id, asked t id p ∧
            t.brings x.g.uid none (regsFrom d.toNat count) (.answer id acc.toNat d.toNat))) ∧
    (OperandsPass x ((scratchOperands a.toNat b.toNat).add { vs := regsFrom d.toNat count })
        (fun l => scratchTags l a.toNat) →
      let address (l : Lane) : Nat := scratchAddr x.g l a.toNat b.toNat
      ActiveLanes x (fun _ l => s.scratchFault x (address l) n false = none) →
      ∃ t, exec (.ldp m acc d a b) s = .next t ∧ t.mem = s.mem ∧ t.teams = s.teams ∧ ActiveLanes x fun i l =>
        ∀ tm u off, s.team? x.g.team = some tm → s.scratchPlace x.img tm (address l) n = some (u, off) →
          let first := l.window + d.toNat
          t.marked x.g.uid (some i) (regsFrom first count) ∧
          ∃ p ∈ t.pend, p.group = x.g.uid ∧ p.lane = some i ∧ p.regs = regsFrom first count ∧
            p.what = .bankLoad u.uid off acc.toNat first ∧ (u.uid = tm.uid → p.due = s.clock.tick))

/-- R196, R199, R280: a store of global memory is received at once and changes no visible byte: every byte of every
active lane stands in an update with a write-completion time later than GTIME, which the lane's LWCT covers, and every
new update lies in the words of some lane's bytes. That the write-completion time is known at issue is the model's
choice (log 7).
R197, R199, R290, R298: each active lane's scratchpad store goes to its bank, a higher lane's after a lower one's:
the own core's bank accepts it in this cycle, a member's when it gets there. A bank that accepts a store writes its
bytes and no others; of one instruction's stores that meet the highest lane's is accepted last, and one lane's accesses
to one bank are accepted in issue order. Global memory is untouched. When a member's bank is reached is open (log 6);
that the own core's accepts in this cycle is the model's choice (log 91). -/
def Obligations.StoresAreReceivedOrAccepted : Prop :=
  (∀ (s : State) (x : Site) (m : Bool) (acc : BitVec 5) (d a b : BitVec 7), Issuing s x .plain →
    let n := accBytes acc.toNat
    let count := accCount acc.toNat
    let received (t : State) (i : Nat) (pa : Nat) (bytes : List Byte) : Prop :=
      ∀ (k : Nat) (v : Byte), bytes[k]? = some v → ∃ u ∈ t.mem.updates,
        u.word = (pa + k) / 4 * 4 ∧ ((pa + k) % 4, v) ∈ u.bytes ∧ s.gtime < u.wct ∧
        ∃ g, t.group? x.g.uid = some g ∧ ∀ l, g.lanes[i]? = some l → u.wct ≤ l.lwct
    s.undecided x.g = false → x.g.speculative = false →
    (OperandsPass x ((globalOperands a.toNat b.toNat).add { vs := regsFrom d.toNat count })
        (fun l => globalTags l a.toNat b.toNat && storeTags l acc.toNat d.toNat) →
      let meets (i : Nat) (l : Lane) : Met := s.meetLane x.g i (globalAddr x.g l a.toNat b.toNat) n .store
      ActiveLanes x (fun i l => ∃ p, meets i l = .place p ∧ p.home = true) →
      ∃ t, exec (.stg m acc d a b) s = .next t ∧ t.mem.cells = s.mem.cells ∧
        (ActiveLanes x fun i l => ∀ p, meets i l = .place p →
          received t i p.pa (storeBytes acc.toNat (l.words d.toNat count))) ∧
        ∀ u ∈ t.mem.updates, u ∈ s.mem.updates ∨ ∃ i l p, x.g.lanes[i]? = some l ∧ x.mask.getLsbD i = true ∧
          meets i l = .place p ∧ p.pa < u.word + 4 ∧ u.word < p.pa + n) ∧
    (OperandsPass x { us := [a.toNat, b.toNat, b.toNat + 1] ++ regsFrom d.toNat count } (fun _ => true) →
      let va := uniformAddr x.g a.toNat b.toNat
      ∀ p, s.uniformFault x va n .store = none →
        s.meet x.g.grid (s.coreOf x.g.team) va n .store = .place p → p.home = true →
        ∃ t, exec (.stu m acc d a b) s = .next t ∧ t.mem.cells = s.mem.cells ∧
          (ActiveLanes x fun i _ => received t i p.pa (storeBytes acc.toNat ((regsFrom d.toNat count).map x.g.u))) ∧
          ∀ u ∈ t.mem.updates, u ∈ s.mem.updates ∨ (p.pa < u.word + 4 ∧ u.word < p.pa + n))) ∧
  ((∀ (s : State) (x : Site) (m : Bool) (acc : BitVec 5) (d a b : BitVec 7), Issuing s x .plain →
    let n := accBytes acc.toNat
    let count := accCount acc.toNat
    let address (l : Lane) : Nat := scratchAddr x.g l a.toNat b.toNat
    OperandsPass x ((scratchOperands a.toNat b.toNat).add { vs := regsFrom d.toNat count })
      (fun l => scratchTags l a.toNat && storeTags l acc.toNat d.toNat) →
    ActiveLanes x (fun _ l => s.scratchFault x (address l) n true = none) →
    ∃ (t : State) (id : Nat → Nat), exec (.stp m acc d a b) s = .next t ∧ t.mem = s.mem ∧ t.teams = s.teams ∧
      (∀ i j, i < j → j < 32 → x.mask.getLsbD i = true → x.mask.getLsbD j = true → id i < id j) ∧
      ActiveLanes x fun i l => i < 32 →
        ∀ tm u off, s.team? x.g.team = some tm → s.scratchPlace x.img tm (address l) n = some (u, off) →
          ∃ p ∈ t.pend, p.id = id i ∧ p.group = x.g.uid ∧ p.lane = some i ∧
            p.what = .bankStore u.uid off s.clock.stamp (storeBytes acc.toNat (l.words d.toNat count)) ∧
            (u.uid = tm.uid → p.due = s.clock.tick)) ∧
  (∀ (s : State) (p : Pend) (tm : Team) (off issue : Nat) (bs : List Byte),
    p.what = .bankStore tm.uid off issue bs → s.team? tm.uid = some tm → cwf tm.scratch = true →
    scratchMerged tm off bs.length = none →
    (s.accept p).mem = s.mem ∧ ∃ u, (s.accept p).team? tm.uid = some u ∧
      (∀ (k : Nat) (v : Byte), bs[k]? = some v → cget u.scratch (off + k) = v) ∧
      ∀ e, e < off ∨ off + bs.length ≤ e → cget u.scratch e = cget tm.scratch e) ∧
  ∀ (s : State) (p q : Pend), q ∈ s.pend → q.id < p.id → q.group = p.group → p.what.bank.isSome = true →
    q.what.bank = p.what.bank →
    (q.what.overwrites p.what = true ∨ ∃ i, i < 32 ∧ p.actsFor i = true ∧ q.actsFor i = true) →
    s.acceptable p = false)

/-- R32, R202, R203, R286: an atomic of global memory completes with each active lane's old word on its way to its
register, which is marked pending and keeps d's tag; where the active lanes name one word, each receives what R135 or
R136 gives it of the word after every update received so far, and the word they leave is received as an update, a WCT
later than GTIME. An atomic on a peer's page asks the peer and awaits its answer. A scratchpad atomic goes to its bank,
each lane's register marked pending; the bank that accepts it leaves the new word and no other byte changed, and each
lane's result is the old word that R135 or R136 gives it. That an atomic of global memory is performed and its time
known at issue is the model's choice (log 7), and so is that the own core's bank accepts in the cycle of the issue
(DESIGN CHOICE, log 91). -/
def Obligations.AtomicsReturnTheOldWord : Prop :=
  (∀ (s : State) (x : Site) (m r : Bool) (op : BitVec 4) (d a b : BitVec 7), Issuing s x .plain →
    s.keepsBack x.g = false →
    let rs := atomRegs op.toNat d.toNat
    let reg (l : Lane) : Nat := l.window + d.toNat
    let result (l : Lane) (w : Word) : RegWrite := { reg := reg l, bits := w, tag := (l.get d.toNat).tag }
    (OperandsPass x ((globalOperands a.toNat b.toNat).add { vs := rs })
        (fun l => globalTags l a.toNat b.toNat && rs.all fun k => atomTag op.toNat (l.get k).tag) →
      let va (l : Lane) : Nat := globalAddr x.g l a.toNat b.toNat
      let meets (i : Nat) (l : Lane) : Met := s.meetLane x.g i (va l) 4 .rmw
      ActiveLanes x (fun i l => ∃ p, meets i l = .place p) →
      ∃ t g, exec (.atom m r op d a b) s = .next t ∧ t.mem.cells = s.mem.cells ∧ t.group? x.g.uid = some g ∧
        (ActiveLanes x fun i l => ∀ p, meets i l = .place p →
          (p.home = true → ∃ w, t.brings x.g.uid (some i) [reg l] (.atom p.pa (result l w))) ∧
          (p.home = false → ∃ id, (∃ q ∈ t.fabric.remotes, q.id = id ∧ q.kind = pkAtomic ∧ q.chip = p.chip ∧
              q.address = p.pa ∧ q.op = op.toNat ∧ q.r = r) ∧
            t.brings x.g.uid (some i) [reg l] (.oldValue id (reg l) (l.get d.toNat).tag))) ∧
        ∀ p A, p.home = true → p.pa % 4 = 0 → s.mem.wf = true →
          (ActiveLanes x fun i l => va l = A ∧ meets i l = .place p) →
          let vs := (laneList x.mask).map fun i => (i, atomOperands x d.toNat i)
          let done := applyAtom op.toNat r (s.mem.latest p.pa) vs
          (ActiveLanes x fun i l => ∀ w, (i, w) ∈ done.1 →
            t.hasComing x.g.uid (some i) [reg l] (.atom p.pa (result l w))) ∧
          (∃ u ∈ t.mem.updates, u.word = p.pa ∧ u.atomic = true ∧ s.gtime < u.wct ∧
            ∀ k v, (natLe 4 done.2.toNat)[k]? = some v → (k, v) ∈ u.bytes) ∧
          ActiveLanes x fun i _ => i < 32 → ∀ l', g.lanes[i]? = some l' → s.gtime < l'.lwct) ∧
    (OperandsPass x ((scratchOperands a.toNat b.toNat).add { vs := rs })
        (fun l => scratchTags l a.toNat && rs.all fun k => atomTag op.toNat (l.get k).tag) →
      let address (l : Lane) : Nat := scratchAddr x.g l a.toNat b.toNat
      ActiveLanes x (fun _ l => s.scratchFault x (address l) 4 true = none) →
      ∃ t, exec (.atomp m r op d a b) s = .next t ∧ t.mem = s.mem ∧ t.teams = s.teams ∧
        ActiveLanes x fun i l => i < 32 → ∀ tm u off, s.team? x.g.team = some tm →
          s.scratchPlace x.img tm (address l) 4 = some (u, off) →
          ∃ p vs, p ∈ t.pend ∧ p.group = x.g.uid ∧ p.what = .bankAtom u.uid off op.toNat r vs ∧
            (i, reg l, (l.get d.toNat).bits, (l.get (d.toNat + 1)).bits, (l.get d.toNat).tag) ∈ vs ∧
            (u.uid = tm.uid → p.due = s.clock.tick) ∧ t.brings x.g.uid (some i) [reg l] (.accepted p.id))) ∧
  ∀ (s : State) (p : Pend) (tm : Team) (off op : Nat) (r : Bool) (vs : List (Nat × Nat × Word × Word × BitVec 5)),
    p ∈ s.pend → (s.pend.map (·.id)).Nodup → p.what = .bankAtom tm.uid off op r vs → s.team? tm.uid = some tm →
    cwf tm.scratch = true → scratchDamaged tm off 4 = none → (vs.map (·.1)).Nodup →
    let done := applyAtom op r (tm.word off) (vs.map fun v => (v.1, v.2.2.1, v.2.2.2.1))
    ∃ u, (s.accept p).team? tm.uid = some u ∧ u.word off = done.2 ∧
      (∀ e, e < off ∨ off + 4 ≤ e → cget u.scratch e = cget tm.scratch e) ∧
      ∀ q ∈ s.pend, q.group = p.group → q.what = .accepted p.id →
        (∀ q' ∈ s.pend, q'.lane = q.lane → q'.what = .accepted p.id → q' = q) →
        ∀ v ∈ vs, q.lane = some v.1 → ∀ w, (v.1, w) ∈ done.1 →
          ∃ q' ∈ (s.accept p).pend, q'.id = q.id ∧ q'.what = .value [{ reg := v.2.1, bits := w, tag := v.2.2.2.2 }]

/-! ## Fences, barriers, trugs and events (R205 to R213) -/

/-- R205, R206, R208, R211, R213: FENCE, BAR, CBAR, BCWAIT, TGACQ, TGWAIT, EVWAIT and TWAIT put their active lanes into
WAIT at the instruction, each with what it waits for; all but FENCE and TWAIT are safe points. TGACQ and TGWAIT meet
their descriptor once the lanes' earlier accesses to its bank have been accepted (R290). That a waiting lane keeps its
LPC at its instruction is the model's choice (log 23).
R208, R211, R213: BCINIT sets EXPECTED from its operand and clears ARRIVED and ERR, BCEXP adds to EXPECTED modulo
2^32; TGINIT, TGCMT and TGREL make their one update of the descriptor at its home; EVSIG adds 1 to the counter of the
context that the launch names. -/
def Obligations.WaitsBarriersTrugsAndEvents : Prop :=
  (∀ (s : State) (x : Site) (m : Bool) (d a k : BitVec 7),
    let waitsAt (i : Instr) (w : Wait) (x : Site) : Prop := ∃ t g, exec i s = .next t ∧ t.mem = s.mem ∧
      t.group? x.g.uid = some g ∧ ∀ (j : Nat) (l : Lane), g.lanes[j]? = some l → x.mask.getLsbD j = true →
        l.state = .wait w ∧ l.lpc = x.pc
    let waits (i : Instr) (w : Wait) : Prop := waitsAt i w x
    (Issuing s x .plain →
      waits (.fence m k) (.fence k.toNat s.clock.uid) ∧
      (OperandsPass x { us := [a.toNat, a.toNat + 1] } (fun _ => true) →
        waits (.twait m a) (.twait (x.g.uPair a.toNat).toNat))) ∧
    (Issuing s x .safePoint →
      waits (.bar m) (.bar s.clock.uid) ∧ waits (.cbar m) (.cbar s.clock.uid) ∧
      (OperandsPass x { us := [a.toNat] } (fun _ => true) →
        waits (.evwait m a k) (.evwait k.toNat (x.g.u a.toNat)) ∧
        (s.barrierFault x a.toNat true = none →
          waits (.bcwait m a) (.bcwait ((x.g.u a.toNat).toNat % 2 ^ 21))))) ∧
    let r := s.atTrug a.toNat
    ∀ x : Site, Issuing r x .safePoint → OperandsPass x { us := [d.toNat, a.toNat] } (fun _ => true) →
      (r.trugFault x a.toNat (fun u off _ => [(0, 0x10), (0x40 + 4 * u.trugHead off, 4)]) (fun _ _ _ => false) = none →
        ∃ id, waitsAt (.tgacq m d a) (.tgacq (x.g.u a.toNat).toNat d.toNat id) x) ∧
      (r.trugFault x a.toNat consumerPieces (fun u off j => bitsOf (u.trugConsumers off) j 1 == 0) = none →
        ∃ id, waitsAt (.tgwait m d a) (.tgwait (x.g.u a.toNat).toNat d.toNat id) x)) ∧
  (∀ (s : State) (x : Site) (tm : Team) (m : Bool) (d a b : BitVec 7), Issuing s x .plain →
    s.team? x.g.team = some tm →
    let A := (x.g.u a.toNat).toNat
    let B := (x.g.u b.toNat).toNat
    let updates (i : Instr) (home : Team) (f : Team → Team) : Prop :=
      ∃ t, exec i s = .next t ∧ t.mem = s.mem ∧ t.team? home.uid = some (f home)
    (OperandsPass x { us := [a.toNat, b.toNat] } (fun _ => true) → ∀ off, barrierOffset x.img tm A = some off →
      updates (.bcinit m a b) tm (fun t => t.setBarrier off B 0 false) ∧
      (scratchDamaged tm off 8 = none → updates (.bcexp m a b) tm (fun t =>
        t.setBarrier off ((t.expected off + B) % 2 ^ 32) (t.arrivedBytes off) (t.barrierErr off)))) ∧
    (∀ u off, s.trugPlace x.img tm A = some (u, off) → s.team? u.uid = some u → u.scratchDamage = [] →
      (∀ p ∈ s.pend, p.group = x.g.uid → p.what.bank ≠ some u.uid) →
      (OperandsPass x { us := [a.toNat] } (fun _ => true) →
        (trugBad x.img u off = false → updates (.tginit m a) u (fun u => u.trugInit off)) ∧
        (bitsOf (u.trugConsumers off) tm.member 1 ≠ 0 → u.trugReady off tm.member = true →
          updates (.tgrel m a) u (fun u => u.trugRelease off tm.member))) ∧
      (OperandsPass x { us := [d.toNat, a.toNat, b.toNat] } (fun _ => true) →
        let i := (x.g.u d.toNat).toNat
        s.fenceHolds x.g x.mask 2 = true → i < u.trugSlots off → slotAcq (u.trugSlot off i) = true → slotBytes (u.trugSlot off i) < u.trugSize off →
        slotBytes (u.trugSlot off i) + B ≤ u.trugSize off →
        updates (.tgcmt m d a b) u (fun u => u.trugCount off i B))) ∧
    (∀ k : BitVec 7, s.keepsBack x.g = false → s.fenceHolds x.g x.mask 3 = true → s.sctx x.g.grid < s.ctxs.length →
      ∃ t, exec (.evsig m k) s = .next t ∧
        tget 0 (t.ctx (s.sctx x.g.grid)).k k.toNat = tget 0 (s.ctx (s.sctx x.g.grid)).k k.toNat + 1 ∧
        ∀ j, j ≠ s.sctx x.g.grid → t.ctx j = s.ctx j))

/-! ## Engine operations, tasks and cuttings at issue (R214 to R229) -/

/-- R214, R217, R219 to R223, R292, R364: an engine operation with good fields and addresses is numbered and starts, with
the range locks of its spans; an indexed GATH or SCAT and a BANKRED read their list first, and COLL its map, and are held
while a piece of it comes from another chip or the node; COLL is held too while its own chip's stores to the map are on
their way (R282, R359). CFLUSH and CINV start without locks.
Which spans an indexed operation locks is settled at issue (the model's choice, log 36). -/
def Obligations.EngineOperationsStart : Prop :=
  ∀ (s : State) (x : Site) (tm : Team) (m : Bool) (d a b : BitVec 7), Issuing s x .plain →
    s.team? x.g.team = some tm → s.keepsBack x.g = false →
    let ws := x.g.words16 a.toNat
    (OperandsPass x { us := d.toNat :: regsFrom a.toNat 16 } (fun _ => true) →
      (cpyBad x.img ws = false → s.cpyAddress x.img tm ws = none → s.cpyTrugBad x.img tm ws = false →
        s.startsLocked x (.cpy m d a) d.toNat 1 ws (s.cpySpans x.img tm ws)) ∧
      (∀ read, s.readList x (gsList ws).1 (gsList ws).2 = read → s.gsAddress x.img tm ws = none →
        (∀ bs, read = .bytes bs →
          (gsBad 2 ws = false → s.startsLocked x (.gath m d a) d.toNat 2 ws (gsSpans tm 2 ws bs)) ∧
          (gsBad 3 ws = false → s.startsLocked x (.scat m d a) d.toNat 3 ws (gsSpans tm 3 ws bs))) ∧
        ∀ got p va n, read = .ask got p va n →
          (gsBad 2 ws = false → s.asksFirst x (.gath m d a) got p n) ∧
          (gsBad 3 ws = false → s.asksFirst x (.scat m d a) got p n)) ∧
      (bankopBad ws = false → bankopAddress x.img tm ws = none →
        s.startsLocked x (.bankop m d a) d.toNat 5 ws (bankopSpans ws)) ∧
      (bankredBad ws = false → bankredAddress x.img tm ws = none →
        (∀ bs, s.readList x (wd64 ws 2) (8 * bredCount ws) = .bytes bs →
          s.startsLocked x (.bankred m d a) d.toNat 6 ws (bankredSpans ws bs)) ∧
        ∀ got p va n, s.readList x (wd64 ws 2) (8 * bredCount ws) = .ask got p va n →
          s.asksFirst x (.bankred m d a) got p n) ∧
      (collBad ws = false → collAddress x.img tm ws = none →
        (flagOf ws 15 = false → s.startsLocked x (.coll m d a) d.toNat 4 ws (collLocks ws [])) ∧
        (∀ map, s.readMap x.pc x.g ws = .bytes map → mapBad map (wd ws 4) = false → mapAddress map = none →
          s.startsLocked x (.coll m d a) d.toNat 4 ws (collLocks ws map)) ∧
        (∀ p, flagOf ws 15 = true → x.g.heldAt x.pc (wd64 ws 12) = none →
          s.meet x.g.grid (s.coreOf x.g.team) (wd64 ws 12) 64 .load = .place p →
          (p.home = true → let ready := max (s.ownAfter x.g (BitVec.allOnes 32) p.pa 64) (s.mem.ingressUntil p.pa 64)
            (ready ≤ s.gtime → s.readMap x.pc x.g ws = .bytes (s.peek p.pa 64)) ∧
            (s.gtime < ready → ∃ t g, exec (.coll m d a) s = .next t ∧ t.group? x.g.uid = some g ∧ g.blocked = true ∧
              g.lanes = x.g.lanes)) ∧
          (p.home = false → s.asksFirst x (.coll m d a) [] p 64)) ∧
        ∀ h, flagOf ws 15 = true → x.g.heldAt x.pc (wd64 ws 12) = some h → h.request = none → h.refused = 0 →
          s.readMap x.pc x.g ws = .bytes h.bytes)) ∧
    (OperandsPass x { us := [a.toNat, a.toNat + 1, b.toNat, d.toNat] } (fun _ => true) →
      s.startsOperation x (.cflush m d a b) d.toNat 8 [x.g.u a.toNat, x.g.u (a.toNat + 1), x.g.u b.toNat] [] ∧
      s.startsOperation x (.cinv m d a b) d.toNat 9 [x.g.u a.toNat, x.g.u (a.toNat + 1), x.g.u b.toNat] [])

/-- R216, R223: ENGST brings the status word of its handle, or the halves of the address of its error: PENDING while
the operation is under way, the kept status afterwards, UNKNOWN with address 0 for any other number and, after a save,
for a handle that completed before it (R333). PFETCH changes no byte of memory, no update and no register, whatever its
range; the fills that it leaves on their way (R279, R359) bring no register. When ENGST's result is written is open (log
6). -/
def Obligations.EngineStatusAndPrefetch : Prop :=
  ∀ (s : State) (x : Site) (m : Bool) (d a b k : BitVec 7), Issuing s x .plain →
    (OperandsPass x { us := [d.toNat, a.toNat] } (fun _ => true) →
      let core := s.core (s.coreOf x.g.team)
      let h := (x.g.u a.toNat).toNat
      let brings (k : BitVec 7) (v : Nat) : Prop := ∃ t, exec (.engst m d a k) s = .next t ∧ t.mem = s.mem ∧
        t.brings x.g.uid none [d.toNat] (.value [{ reg := d.toNat, bits := BitVec.ofNat 32 v, tag := 0 }])
      let known : Bool := 0 < h && h < 2 ^ 16 && !(((s.team? x.g.team).map (·.stale)).getD []).contains h
      let under := core.ops.find? fun o => o.handle == h && !o.silent
      (known = true → ∀ o, under = some o → brings 0 0 ∧ brings 1 0 ∧ brings 2 0) ∧
      (known = true → under = none → ∀ st, core.done.find? (·.handle == h) = some st →
        brings 0 (st.state.code + (if st.pred then 2 ^ 8 else 0) + 2 ^ 16 * (st.version % 2 ^ 16)) ∧
        brings 1 st.address ∧ brings 2 (st.address / 2 ^ 32)) ∧
      (known = false ∨ (under = none ∧ core.done.find? (·.handle == h) = none) →
        brings 0 15 ∧ brings 1 0 ∧ brings 2 0)) ∧
    (OperandsPass x { us := [a.toNat, a.toNat + 1, b.toNat] } (fun _ => true) → s.keepsBack x.g = false →
      ∃ t g, exec (.pfetch m k a b) s = .next t ∧ t.mem.cells = s.mem.cells ∧ t.mem.updates = s.mem.updates ∧
        (∀ q ∈ s.pend, q ∈ t.pend) ∧ (∀ q ∈ t.pend, q ∈ s.pend ∨ (q.regs = [] ∧ q.what.fills = true)) ∧
        t.teams = s.teams ∧ t.group? x.g.uid = some g ∧
        (∀ g0, s.group? x.g.uid = some g0 → g.uregs = g0.uregs) ∧
        g.lanes.map (·.vregs) = x.g.lanes.map (·.vregs))

/-- R58 to R61, R224: a TASK that is too deep gives 1; from a group that is not speculative a good record enters the
pool with one more depth and a visibility time that covers the LWCT of every lane not in DONE, or spills to the ring
while the pool is full, and S[d] is 0; a full ring gives 2; a ring page not mapped holds the push. A speculative
group's record is held with it.
R226, R332: TSTAT gives the records in the pool, those in the launch's ring, the ring's capacity, and the depth, 0
of a root group, with the depth limit: the launch's, or the one firmware has set. -/
def Obligations.TaskPushesAndStatus : Prop :=
  (∀ (s : State) (x : Site) (gr : Grid) (m : Bool) (d a : BitVec 7), Issuing s x .plain →
    OperandsPass x { us := d.toNat :: regsFrom a.toNat 16 } (fun _ => true) → s.grid? x.g.grid = some gr →
    s.recordBad gr (x.g.words16 a.toNat) = false → s.undecided x.g = false →
    let answers (status : Word) (also : State → Group → Prop) : Prop := ∃ t g, exec (.task m d a) s = .next t ∧
      t.mem = s.mem ∧ t.group? x.g.uid = some g ∧ g.u d.toNat = status ∧ also t g
    let rec_ (n : Nat) : Task := { pushedTask x.g a.toNat with uid := n, since := s.gtime, order := n }
    (s.tooDeep x.g = true → answers 1 fun t _ => t.pool = s.pool ∧ t.grids = s.grids) ∧
    (s.tooDeep x.g = false → x.g.speculative = false →
      (s.pool.length < 65536 → answers 0 fun t _ => ∃ n, t.pool = s.pool ++ [rec_ n]) ∧
      (65536 ≤ s.pool.length → gr.ring.length < gr.launch.ringCap → gr.ring.length < gr.ringMapped →
        answers 0 fun t _ => t.pool = s.pool ∧ ∃ n gr', t.grid? x.g.grid = some gr' ∧ gr'.ring = gr.ring ++ [rec_ n]) ∧
      (65536 ≤ s.pool.length → gr.launch.ringCap ≤ gr.ring.length →
        answers 2 fun t _ => t.pool = s.pool ∧ t.grids = s.grids) ∧
      (65536 ≤ s.pool.length → gr.ring.length < gr.launch.ringCap → gr.ringMapped ≤ gr.ring.length →
        (x.g.push.join = none → ∃ t g, exec (.task m d a) s = .next t ∧ t.group? x.g.uid = some g ∧ g.blocked = true ∧
          g.lanes = x.g.lanes ∧ (∀ g0, s.group? x.g.uid = some g0 → g.uregs = g0.uregs) ∧ g.push = some none) ∧
        ∀ n, x.g.push = some (some n) → answers (BitVec.ofNat 32 n) fun t g => t.pool = s.pool ∧ g.push = none)) ∧
    (s.tooDeep x.g = false → x.g.speculative = true → ∀ sp, x.g.spec = some sp → sp.held.length < 16 →
      answers 0 fun t g => t.pool = s.pool ∧
        ∃ sp', g.spec = some sp' ∧ sp'.held = sp.held ++ [pushedTask x.g a.toNat]) ∧
    (pushedTask x.g a.toNat).depth = x.g.depth + 1 ∧
    ∀ (i : Nat) (l : Lane), i < 32 → x.g.lanes[i]? = some l → l.isDone = false → l.lwct ≤ (pushedTask x.g a.toNat).vis) ∧
  (∀ (s : State) (x : Site) (gr : Grid) (m : Bool) (d : BitVec 7), Issuing s x .plain →
    OperandsPass x { us := [d.toNat] } (fun _ => true) → s.grid? x.g.grid = some gr →
    exec (.tstat m d 0) s = s.writesUniform x m d (fun _ => BitVec.ofNat 32 s.pool.length) ∧
    exec (.tstat m d 1) s = s.writesUniform x m d (fun _ => BitVec.ofNat 32 gr.ring.length) ∧
    exec (.tstat m d 2) s = s.writesUniform x m d (fun _ => BitVec.ofNat 32 gr.launch.ringCap) ∧
    let depth : Nat := (x.g.task.map (·.depth)).getD 0
    let limit : Nat := s.fw.depthLimit.getD gr.launch.depthLim
    (depth < 16 → limit < 16 →
      ∃ w : Word, exec (.tstat m d 3) s = s.writesUniform x m d (fun _ => w) ∧
        w.extractLsb' 0 4 = BitVec.ofNat 4 depth ∧ w.extractLsb' 4 4 = BitVec.ofNat 4 limit))

/-- R32, R63, R64, R225: TSUCC adds its operand to the count of its block, as one update of both words with a later WCT,
brings the old count to its marked registers, not before that WCT, and pushes the companion exactly when it brings a
nonzero count to 0; a negative sum leaves 0 and is reported. A block whose reserved bytes are not 0 is an illegal operand
(R12), and is left as it was.
A sum of 2^64 or more is a free value (log 28); that the reserved bytes are looked at so is the model's reading (log 68),
and the time of the update is known at issue (log 7). -/
def Obligations.SuccessorCounts : Prop :=
  ∀ (s : State) (x : Site) (m : Bool) (d a b : BitVec 7) (p : Place), Issuing s x .plain → s.keepsBack x.g = false →
    OperandsPass x { us := [a.toNat, a.toNat + 1, b.toNat, d.toNat, d.toNat + 1] } (fun _ => true) →
    let va := (x.g.uPair a.toNat).toNat
    let core := s.coreOf x.g.team
    va % 128 = 0 → va < 2 ^ 48 → s.meetBlock (s.core core).locks core x.g.grid va = .place p →
    (s.mem.blockReserved p.pa = true → ActiveLanes x (fun _ l => l.handler = false) →
      ∃ t g, exec (.tsucc m d a b) s = .next t ∧ t.mem = s.mem ∧ t.group? x.g.uid = some g ∧
        ∀ (i : Nat) (l : Lane), g.lanes[i]? = some l → x.mask.getLsbD i = true →
          l.state = .trap ∧ bitsOf l.tcause.toNat 0 8 = 0x02) ∧
    (s.mem.blockReserved p.pa = false →
    let old := s.mem.count p.pa
    let sum : Int := old + (x.g.u b.toNat).toInt
    ∃ t wct, exec (.tsucc m d a b) s = .next t ∧ t.mem.cells = s.mem.cells ∧ s.gtime < wct ∧
      t.marked x.g.uid none [d.toNat, d.toNat + 1] ∧
      (∃ q ∈ t.pend, q.group = x.g.uid ∧ q.lane = none ∧ q.regs = [d.toNat, d.toNat + 1] ∧ 2 * wct ≤ q.due ∧
        q.what = .value [{ reg := d.toNat, bits := BitVec.ofNat 32 old, tag := 0 },
                         { reg := d.toNat + 1, bits := BitVec.ofNat 32 (old / 2 ^ 32), tag := 0 }]) ∧
      (∀ k < 2, ∃ u ∈ t.mem.updates, u.word = p.pa + 4 * k ∧ u.wct = wct ∧ (sum < 2 ^ 64 →
        u.bytes = mapFrom (fun i b => (i, b)) 0 (natLe 4 (sum.toNat / 2 ^ (32 * k))))) ∧
      (∀ g, t.group? x.g.uid = some g → ∀ (i : Nat) (l : Lane), g.lanes[i]? = some l → x.mask.getLsbD i = true →
        wct ≤ l.lwct) ∧
      (old = 0 ∨ sum ≠ 0 → t.pool = s.pool) ∧
      (0 ≤ sum → old = 0 ∨ sum ≠ 0 → t.outbox = s.outbox) ∧
      (sum < 0 → ∃ msg, t.outbox = s.outbox ++ [msg] ∧ msg.mtype = mtEvent ∧ msg.status = 1 ∧ msg.addr = va) ∧
      (old ≠ 0 → sum = 0 → ∀ gr, s.grid? x.g.grid = some gr → s.pool.length < 65536 →
        let ws := wordsOf (t.mem.bytesAt wct (p.pa + 64) 64)
        let c := recordOf ws
        (c.entry ≠ 0 → s.recordBad gr ws = false → c.depth ≤ s.depthLimit gr → ∃ n,
          t.pool = s.pool ++ [{ c with grid := x.g.grid, vis := wct, uid := n, since := s.gtime, order := n }]) ∧
        (c.entry = 0 → t.pool = s.pool)))

/-- R227, R381: a declaration takes a slot that is free, which is the lowest by the model's choice (log 87), and gives
its number, the slot standing at version 0 with no speculative version; with every slot taken it gives 0xFFFFFFFF. A
free gives 0 and the slot is declared no longer; of a slot that the launch did not declare it gives 0xFFFFFFFF and
changes no slot. What the two mnemonics share is one instruction, which reads FREE from its words.
R228, R229, R292: CTPOST and CTGET start an operation of the engines on a declared slot, with a read or a write
lock of the slot's bytes at S[b]; CTSTAT gives the version, mode, level and flags of the slot, 0 where it is not
declared. That RESOLVING lasts until the resolution's header write is visible is the model's reading (log 39). -/
def Obligations.CuttingInstructions : Prop :=
  (∀ (s : State) (x : Site) (m : Bool) (d a : BitVec 7), Issuing s x .plain →
    OperandsPass x { us := d.toNat :: regsFrom a.toNat 16 } (fun _ => true) →
    let ws := x.g.words16 a.toNat
    ∀ i ∈ [Instr.ctdecl m d a, Instr.ctdeclFree m d a],
      let answers (w : Word) (also : State → Prop) : Prop :=
        ∃ t g, exec i s = .next t ∧ t.group? x.g.uid = some g ∧ g.u d.toNat = w ∧ also t
      (s.curBit a.toNat 31 = false → declBad ws = false →
        ∀ place, s.storePlace (s.coreOf x.g.team) x.g.grid (wd64 ws 5) (storeBytes3 (wd ws 1)) = .inl place →
          ((∀ n < 64, n ∈ s.cuts.map (·.1)) → answers 0xFFFFFFFF fun t => t.cuts = s.cuts) ∧
          ∀ n, n < 64 → n ∉ s.cuts.map (·.1) → (∀ k, k < n → k ∈ s.cuts.map (·.1)) →
            answers (BitVec.ofNat 32 n) fun t => ∃ c, t.slot? x.g.grid n = some c ∧ c.version = 0 ∧ c.specLevel = 0 ∧
              c.bytes = wd ws 1 ∧ c.mode = wd ws 2 ∧ c.waitNs = wd ws 7 ∧ c.store = place.1) ∧
      (s.curBit a.toNat 31 = true → freeBad ws = false →
        let n := bitsOf (wd ws 0) 0 6
        (s.slot? x.g.grid n = none → answers 0xFFFFFFFF fun t => t.cuts = s.cuts) ∧
        (s.slot? x.g.grid n ≠ none → answers 0 fun t => t.cuts.map (·.1) = (s.cuts.map (·.1)).erase n))) ∧
  (∀ (s : State) (x : Site) (tm : Team) (m : Bool) (d a b : BitVec 7), Issuing s x .plain →
    s.team? x.g.team = some tm →
    let A := (x.g.u a.toNat).toNat
    let B := (x.g.u b.toNat).toNat
    (OperandsPass x { us := [d.toNat, a.toNat, b.toNat] } (fun _ => true) →
      ∀ c off, s.slot? x.g.grid (A % 64) = some c → ownOffset tm B = some off → off % 16 = 0 → off + c.bytes ≤ x.img.scratch →
        let span (write : Bool) : Span := ⟨write, true, normScratch tm.member B, c.bytes⟩
        (A < 64 → s.startsLocked x (.ctpost m d a b) d.toNat 11 [x.g.u a.toNat, x.g.u b.toNat] [span false]) ∧
        (A / 64 % 1024 = 0 →
          s.startsLocked x (.ctget m d a b) d.toNat 12 [x.g.u a.toNat, x.g.u b.toNat] [span true])) ∧
    (OperandsPass x { us := [d.toNat, a.toNat] } (fun _ => true) → A < 64 →
      (s.slot? x.g.grid A = none → exec (.ctstat m d a) s = s.writesUniform x m d (fun _ => 0)) ∧
      ∀ c, s.slot? x.g.grid A = some c → c.mode < 4 → c.specLevel < 8 →
        ∃ w : Word, exec (.ctstat m d a) s = s.writesUniform x m d (fun _ => w) ∧
          w.extractLsb' 0 16 = BitVec.ofNat 16 c.version ∧ w.extractLsb' 16 2 = BitVec.ofNat 2 c.mode ∧
          w.extractLsb' 18 3 = BitVec.ofNat 3 c.specLevel ∧ w.getLsbD 21 = true ∧
          w.getLsbD 22 = decide (s.gtime < c.resolving) ∧
          w.extractLsb' 23 9 = 0))

/-! ## Matrix instructions (R238 to R266) -/

/-- R240, R248 to R250: TDSET writes one descriptor from its four words, VALID and with its sequence numbers 0, and
drops the packets pushed for it; SCPUSH queues a packet under the next PSEQ; MMA queues a step with the packets it
claims, which count as claimed from then on, and moves CSEQ past them. -/
def Obligations.TileScaleStepInstructions : Prop :=
  ∀ (s : State) (x : Site) (tm : Team) (m : Bool) (d a b : BitVec 7), Issuing s x .plain →
    s.team? x.g.team = some tm → tm.matrixError = none →
    let core := s.core (s.coreOf x.g.team)
    (OperandsPass x { us := regsFrom a.toNat 4 } (fun _ => true) →
      let td := descriptorOf (x.g.block a.toNat 4)
      descriptorBad td = false → badSpan x.img tm td.abase.toNat 64 td.span = none →
      ∀ c, s.cores[s.coreOf x.g.team]? = some c →
        ∃ t g c', exec (.tdset m d a) s = .next t ∧ t.mem = s.mem ∧ t.group? x.g.uid = some g ∧
          t.cores[s.coreOf x.g.team]? = some c' ∧
          g.td d.toNat = { abase := x.g.u a.toNat, rstride := x.g.u (a.toNat + 1), word2 := x.g.u (a.toNat + 2),
                           banda := x.g.u (a.toNat + 3), valid := true, pseq := 0, cseq := 0 } ∧
          (∀ k, k ≠ d.toNat → g.td k = x.g.td k) ∧ c'.matrix = c.matrix ∧
          ∀ p, p ∈ c'.packets ↔ p ∈ c.packets ∧ ¬ (p.group = x.g.uid ∧ p.td = d.toNat ∧ p.claimed = false)) ∧
    (OperandsPass x { us := [a.toNat, b.toNat] } (fun _ => true) →
      let td := x.g.td d.toNat
      let size := (x.g.u b.toNat).toNat
      let address := (x.g.u a.toNat).toNat
      td.valid = true → size % 64 = 0 → 64 ≤ size → size ≤ 4096 → badSpan x.img tm address 64 size = none →
      core.queueBytes td.qsel (fun _ => true) + size ≤ 8192 → core.queueBytes td.qsel (fun p => !p.claimed) + size ≤ 8192 →
      ∃ id, s.entersQueue x (.scpush m d a b) (.scpush id address) [ownSpan false address size] fun _ g c c' =>
        g.td d.toNat = { td with pseq := td.pseq + 1 } ∧
          ∃ p, c'.packets = c.packets ++ [p] ∧ p.id = id ∧ p.queue = td.qsel ∧ p.group = x.g.uid ∧ p.td = d.toNat ∧
            p.seq = td.pseq ∧ p.len = size ∧ p.claimed = false) ∧
    (OperandsPass x { us := [b.toNat] } (fun _ => true) →
      let td := x.g.td a.toNat
      let n := (x.g.u b.toNat).toNat
      td.valid = true → n < 512 → tm.accwin + d.toNat < x.img.ca → mmaFault core tm x.g.uid a.toNat td n = none →
      ∃ claim seq, core.claim x.g.uid a.toNat td = .ok claim seq ∧
        s.entersQueue x (.mma m d a b) (.mma (tm.accwin + d.toNat) td n (core.slot n).bandb claim)
          [ownSpan false td.abase.toNat td.span] fun _ g _ c' =>
            g.td a.toNat = { td with cseq := seq } ∧ ∀ p ∈ c'.packets, p.id ∈ claim → p.claimed = true)

/-- R241, R252: BLOAD queues the load of a span, whose slots are LOADING and the team's from then on; with FREE = 1 it
queues the span's release. What the two mnemonics share is one instruction, which reads FREE from its block (log 11). -/
def Obligations.WeightLoadInstructions : Prop :=
  ∀ (s : State) (x : Site) (tm : Team) (m : Bool) (a b : BitVec 7), Issuing s x .plain →
    s.team? x.g.team = some tm → tm.matrixError = none →
    OperandsPass x { us := a.toNat :: regsFrom b.toNat 4 } (fun _ => true) →
    let core := s.core (s.coreOf x.g.team)
    let ws := x.g.block b.toNat 4
    let n := (x.g.u a.toNat).toNat
    ∀ i ∈ [Instr.bload m a b, Instr.bloadFree m a b],
      (s.curBit (b.toNat + 2) 7 = false → loadBad ws = false → n < 512 → (loadSpk ws ≠ 0 → n % 4 = 0) →
        badSpans x.img tm (loadReads ws) = none →
        (∀ k ∈ spanSlots n (loadSpk ws), (core.slot k).owner = 0 ∨ (core.slot k).owner = tm.uid) →
        s.entersQueue x i (.bload n (loadTag ws) (loadSpk ws) (wd ws 0) (wd ws 1) (wd ws 3))
          ((loadReads ws).map fun (p, _, len) => ownSpan false p len) fun _ _ _ c' =>
            ∀ k ∈ spanSlots n (loadSpk ws), (c'.slot k).state = .loading ∧ (c'.slot k).owner = tm.uid ∧
              (c'.slot k).head = n ∧ (c'.slot k).tag.toNat = loadTag ws ∧ (c'.slot k).spk.toNat = loadSpk ws) ∧
      (s.curBit (b.toNat + 2) 7 = true → loadFreeBad ws = false → n < 512 → core.heads tm.uid n = true →
        s.entersQueue x i (.bfree n) [] fun _ _ c c' => c'.slots = c.slots)

/-- R242, R253, R254, R257: BSTAT gives a slot's status fields, a queue's bytes, or, once the team's operations are
done, the matrix error word, which it clears; with k = 3 it gives 0 once the group's operations are done; before that
it is not issued. ACOVF gives a tile's overflow counter, once the operations that write the tile are done, and queues
its clearing. -/
def Obligations.MatrixStatusResults : Prop :=
  ∀ (s : State) (x : Site) (tm : Team) (m : Bool) (d a : BitVec 7), Issuing s x .plain →
    s.team? x.g.team = some tm →
    let c := s.core (s.coreOf x.g.team)
    let n := (x.g.u a.toNat).toNat
    let answers (i : Instr) (w : Word) (u : Team) : Prop := ∃ t g, exec i s = .next t ∧ t.mem = s.mem ∧
      t.group? x.g.uid = some g ∧ g.u d.toNat = w ∧ s.onlyWrites x d.toNat g ∧ t.team? tm.uid = some u
    let held (i : Instr) : Prop := exec i s = .next (s.modGroup x.g.uid fun g => { g with blocked := true })
    (OperandsPass x { us := [d.toNat, a.toNat] } (fun _ => true) → tm.matrixError = none →
      (n < 512 → (∀ o ∈ c.matrix, n ∉ o.kind.touches) →
        ∃ w : Word, answers (.bstatSlot m d a) w tm ∧ w.extractLsb' 0 16 = (c.slot n).bandb ∧
          w.getLsbD 21 = ((c.slot n).owner != 0 && (c.slot n).head != n) ∧ w.extractLsb' 22 5 = (c.slot n).tag ∧
          w.extractLsb' 27 2 = (c.slot n).spk ∧ w.getLsbD 29 = ((c.slot n).owner == tm.uid) ∧
          w.extractLsb' 30 2 = BitVec.ofNat 2 (c.slot n).state.code) ∧
      (n < 512 → (∃ o ∈ c.matrix, n ∈ o.kind.touches) → held (.bstatSlot m d a)) ∧
      (n < 4 → answers (.bstatQueue m d a)
        (BitVec.ofNat 32 (c.queueBytes n (fun _ => true) + 2 ^ 16 * c.queueBytes n (fun p => !p.claimed))) tm)) ∧
    (OperandsPass x { us := [d.toNat] } (fun _ => true) →
      ((∀ o ∈ c.matrix, o.team ≠ tm.uid) →
        (tm.matrixError = none → answers (.bstatError m d) 0 tm) ∧
        ∀ k, tm.matrixError = some k →
          answers (.bstatError m d) (BitVec.ofNat 32 (2 ^ 31 + k % 512)) { tm with matrixError := none }) ∧
      ((∃ o ∈ c.matrix, o.team = tm.uid) → held (.bstatError m d)) ∧
      ((∀ o ∈ c.matrix, o.group ≠ x.g.uid) → answers (.bstatDrain m d) 0 tm) ∧
      ((∃ o ∈ c.matrix, o.group = x.g.uid) → held (.bstatDrain m d)) ∧
      (tm.matrixError = none → tm.accwin + a.toNat < x.img.ca →
        let tile := tm.accwin + a.toNat
        ((∃ o ∈ c.matrix, o.team = tm.uid ∧ o.kind.writes = some tile) → held (.acovf m d a)) ∧
        ((∀ o ∈ c.matrix, o.team = tm.uid → o.kind.writes ≠ some tile) → s.coreOf x.g.team < s.cores.length →
          ∃ t g c' o, exec (.acovf m d a) s = .next t ∧ t.mem = s.mem ∧ t.teams = s.teams ∧
            t.group? x.g.uid = some g ∧ g.u d.toNat = BitVec.ofNat 32 (tm.counter tile) ∧ s.onlyWrites x d.toNat g ∧
            t.cores[s.coreOf x.g.team]? = some c' ∧ c'.matrix = c.matrix ++ [o] ∧ o.kind = .acovf tile ∧
            o.team = tm.uid)))

/-- R242, R254 to R256: the ACC operations enter the matrix queue with the tiles above ACCWIN that they name, their
addresses and the locks of their spans. -/
def Obligations.AccumulatorInstructionsQueue : Prop :=
  ∀ (s : State) (x : Site) (tm : Team) (m : Bool) (d a b : BitVec 7), Issuing s x .plain →
    s.team? x.g.team = some tm → tm.matrixError = none →
    let D := tm.accwin + d.toNat
    let A := tm.accwin + a.toNat
    let B := tm.accwin + b.toNat
    let va := (x.g.u a.toNat).toNat
    let vb := (x.g.u b.toNat).toNat
    let enters (i : Instr) (kind : MatKind) (spans : List Span) : Prop := s.entersQueue x i kind spans fun _ _ c c' => c'.packets = c.packets
    D < x.img.ca →
    enters (.aczero m d) (.aczero D) [] ∧
    (A < x.img.ca → B < x.img.ca → enters (.acadd m d a b) (.acadd D A B) [] ∧ enters (.acmov m d a) (.acmov D A) []) ∧
    (OperandsPass x { us := [a.toNat, b.toNat] } (fun _ => true) →
      vb % 16 = 0 → 256 ≤ vb → vb ≤ 2 ^ 21 - 16 → badSpan x.img tm va 16 (63 * vb + 256) = none →
      enters (.acld m d a b) (.acld D va vb) [ownSpan false va (63 * vb + 256)]) ∧
    (OperandsPass x { us := [b.toNat] } (fun _ => true) → A < x.img.ca → badSpan x.img tm vb 16 256 = none →
      enters (.acmul m d a b) (.acmul D A vb) [ownSpan false vb 256]) ∧
    (OperandsPass x { us := regsFrom a.toNat 4 } (fun _ => true) →
      let ws := x.g.block a.toNat 4
      storeBad ws = false → badSpan x.img tm (wd ws 0) 16 (storeSpan ws) = none →
      (wd ws 3 = 0 ∨ badSpan x.img tm (wd ws 3) 8 8 = none) →
      enters (.acst m d a) (.acst D ws) [ownSpan true (wd ws 0) (storeSpan ws)])

/-- R127 to R129, R242, R251, R254, R255, R257: at its turn the first operation of the queue leaves it with its locks.
A step gives every element of the rows of its lanes its new value, and an ACC operation the value of R255; every other
element, and the team's scratchpad, stays as it was. The tile's overflow counter rises by the elements that overflowed
from finite operands, saturating; a whole ACZERO clears it, a whole ACMOV copies it, and an ACOVF's turn clears it; the
other counters stay. When a turn comes is open (log 6). -/
def Obligations.MatrixTurnsWriteTheirRows : Prop :=
  ∀ (s : State) (core : Nat) (c : Core) (o : MatOp) (rest : List MatOp) (tm : Team), s.cores[core]? = some c →
    c.matrix = o :: rest → o.due ≤ s.clock.tick → s.team? o.team = some tm → (∃ g ∈ s.groups, g.team = o.team) →
    c.parityMet o = none → o.damaged c tm = false →
    let rows := ownedRows o.lanes
    let full : Bool := o.lanes == BitVec.allOnes 32
    let leaves (i : Instr) (tile : Nat) (value : Nat → Nat → Nat) (counter : Nat) : Prop :=
      tm.counter tile < 2 ^ 32 → ∃ t c' u, exec i s = .next t ∧ t.mem = s.mem ∧ t.cores[core]? = some c' ∧
        c'.matrix = (o :: rest).filter (·.id != o.id) ∧ (∀ k ∈ c'.locks, k.matrix = true → k.owner ≠ o.id) ∧
        t.team? o.team = some u ∧ u.scratch = tm.scratch ∧ u.counter tile = counter ∧
        (∀ k, k ≠ tile → u.counter k = tm.counter k) ∧
        (∀ r ∈ rows, ∀ j < 64, tget 0 u.acc (accPlace tile r j) = BitVec.ofNat 32 (value r j)) ∧
        ∀ k, (∀ r ∈ rows, k < accPlace tile r 0 ∨ accPlace tile r 64 ≤ k) → tget 0 u.acc k = tget 0 tm.acc k
    let was (tile r j : Nat) : Nat := (tget 0 tm.acc (accPlace tile r j)).toNat
    let risen (tile : Nat) (ovf : Nat → Nat → Bool) : Nat :=
      min (tm.counter tile + (rows.map fun r => ((List.range 64).filter (ovf r)).length).sum) (2 ^ 32 - 1)
    let finite (v : Nat) : Bool := !fF32.isNan v && !fF32.isInf v
    (∀ tile td slot bandb claim, o.kind = .mma tile td slot bandb claim →
      let n := tileK td.tag td.spk / 8
      let scales := (claim.filterMap fun id => (c.packets.find? fun p => p.id == id).map fun p => p.bytes).flatten
      let cols := (tget WData.empty c.contents slot).columns td.tag td.spk
      let new (r j : Nat) : Nat × Bool := match cols[j]? with
        | none => (0, false)
        | some col => stepElement (was tile r j) (elementBlocks td.tag td.spk (elements td.tag (tm.aRow td r))
            (((scales.drop (n * r)).take n).map fun b => fE3M5.value b.toNat) col)
            (fBF16.value (td.banda.toNat % 2 ^ 16)) (fBF16.value bandb.toNat)
      leaves (.mmaStep core) tile (fun r j => (new r j).1) (risen tile fun r j => (new r j).2)) ∧
    (∀ tile, o.kind = .aczero tile →
      leaves (.matrixQueueTurn core) tile (fun _ _ => 0) (if full then 0 else tm.counter tile)) ∧
    (∀ tile address stride, o.kind = .acld tile address stride → leaves (.matrixQueueTurn core) tile
      (fun r j => (tm.word (address % 2 ^ 21 + r * stride + 4 * j)).toNat) (tm.counter tile)) ∧
    (∀ tile a b, o.kind = .acadd tile a b →
      let new (r j : Nat) : Nat := (fF32.add rne (was a r j) (was b r j)).1
      leaves (.matrixQueueTurn core) tile new
        (risen tile fun r j => fF32.isInf (new r j) && finite (was a r j) && finite (was b r j))) ∧
    (∀ tile a address, o.kind = .acmul tile a address →
      let by_ (r : Nat) : Nat := (tm.word (address % 2 ^ 21 + 4 * r)).toNat
      let new (r j : Nat) : Nat := (fF32.mul rne (was a r j) (by_ r)).1
      leaves (.matrixQueueTurn core) tile new
        (risen tile fun r j => fF32.isInf (new r j) && finite (was a r j) && finite (by_ r))) ∧
    (∀ tile a, o.kind = .acmov tile a → leaves (.matrixQueueTurn core) tile (fun r j => was a r j)
      (if full then tm.counter a else tm.counter tile)) ∧
    (∀ tile, o.kind = .acovf tile →
      ∃ t c' u, exec (.matrixQueueTurn core) s = .next t ∧ t.mem = s.mem ∧ t.cores[core]? = some c' ∧
        c'.matrix = (o :: rest).filter (·.id != o.id) ∧ t.team? o.team = some u ∧ u.acc = tm.acc ∧
        u.scratch = tm.scratch ∧ u.counter tile = 0 ∧ ∀ k, k ≠ tile → u.counter k = tm.counter k)

/-- R207, R241, R246, R249, R252, R254, R256, R262: a load fills its span, which becomes READY; an ACST leaves each row
of its lanes in the scratchpad in its format, its epilogue after the tile, and its bytes in its barrier's count, and
the tile's overflow counter rises by the elements that saturation replaced; the other operations of the queue fill
their packets or release their spans; an operation that meets a parity error or damage is not performed, nor are the
team's later ones, the span of a slot in error is ERROR, and the error word is set. Which slot the error word names for
damage outside the slots is a free value (log 42); when a turn comes is open (log 6). -/
def Obligations.MatrixTurnsMoveTheirData : Prop :=
  ∀ (s : State) (core : Nat) (c : Core) (o : MatOp) (rest : List MatOp) (tm : Team), s.cores[core]? = some c →
    c.matrix = o :: rest → o.due ≤ s.clock.tick → s.team? o.team = some tm → (∃ g ∈ s.groups, g.team = o.team) →
    let ends (i : Instr) (also : Core → Team → Prop) : Prop := ∃ t c' u, exec i s = .next t ∧ t.mem = s.mem ∧
      t.cores[core]? = some c' ∧ c'.matrix = (o :: rest).filter (·.id != o.id) ∧ t.team? o.team = some u ∧
      u.acc = tm.acc ∧ also c' u
    let later (head : Nat) : Prop := ∃ q ∈ rest, q.id ≠ o.id ∧ ∃ tag spk p q' r, q.kind = .bload head tag spk p q' r
    (c.parityMet o = none → o.damaged c tm = false →
      (∀ head tag spk baddr sbaddr iaddr, o.kind = .bload head tag spk baddr sbaddr iaddr → ends (.bloadTurn core) fun c' u =>
        u.scratch = tm.scratch ∧ (tget WData.empty c'.contents head).data = tm.bytes (baddr % 2 ^ 21) 4096 ∧
        (tget WData.empty c'.contents head).scales = tm.bytes (sbaddr % 2 ^ 21) (scaleBytes tag spk) ∧
        (spk ≠ 0 → (tget WData.empty c'.contents head).indices = tm.bytes (iaddr % 2 ^ 21) 8192) ∧
        (¬ later head → ∀ n w, (n, w) ∈ c'.slots → w.head = head → w.owner = o.team → w.state = .ready)) ∧
      (∀ head, o.kind = .bfree head → ¬ later head → ends (.matrixQueueTurn core) fun c' u =>
        u.scratch = tm.scratch ∧ ∀ n w, (n, w) ∈ c'.slots → w.head ≠ head) ∧
      (∀ id address, o.kind = .scpush id address → ends (.matrixQueueTurn core) fun c' u =>
        u.scratch = tm.scratch ∧ ∀ p ∈ c'.packets, p.id = id → p.bytes = tm.bytes (address % 2 ^ 21) p.len) ∧
      ∀ tile ws, o.kind = .acst tile ws → cwf tm.scratch = true → storeRowBytes ws ≤ wd ws 1 →
        let base := wd ws 0 % 2 ^ 21
        let rows := ownedRows o.lanes
        let bar := wd ws 3 % 2 ^ 21
        let stored (e : Nat) : Nat × Bool := storeElement (storeFMT ws) (storeRND ws) (storeSAT ws) e
        let clamped : Nat := (rows.map fun r => ((tm.accRow tile r).filter fun e => (stored e).2).length).sum
        let counter : Nat := min (tm.counter tile + clamped) (2 ^ 32 - 1)
        let count : Nat := rows.length * storeRowBytes ws + if storeOVW ws then 16 else 0
        (wd ws 3 ≠ 0 → bar + 8 ≤ base ∨ base + storeSpan ws ≤ bar) →
        ends (.acstTurn core) fun _ u =>
          u.counter tile = counter ∧ (∀ k, k ≠ tile → u.counter k = tm.counter k) ∧
          (∀ r ∈ rows, u.bytes (base + r * wd ws 1) (storeRowBytes ws) =
            ((tm.accRow tile r).map fun e => natLe (storeElemBytes (storeFMT ws)) (stored e).1).flatten) ∧
          (storeOVW ws = true → u.bytes (base + 64 * wd ws 1) 16 =
            natLe 4 counter ++ natLe 4 clamped ++ natLe 4 tile ++ natLe 4 0) ∧
          (wd ws 3 ≠ 0 → u.expected bar = tm.expected bar ∧ u.barrierErr bar = tm.barrierErr bar ∧
            u.arrivedBytes bar = min (tm.arrivedBytes bar + count) (2 ^ 31 - 1)) ∧
          ∀ e, (∀ r ∈ rows, e < base + r * wd ws 1 ∨ base + r * wd ws 1 + storeRowBytes ws ≤ e) →
            (storeOVW ws = true → e < base + 64 * wd ws 1 ∨ base + 64 * wd ws 1 + 16 ≤ e) →
            (wd ws 3 ≠ 0 → e < bar ∨ bar + 8 ≤ e) → cget u.scratch e = cget tm.scratch e) ∧
    ((c.parityMet o ≠ none ∨ o.damaged c tm = true) →
      let turn : Instr := match o.kind with
        | .bload _ _ _ _ _ _ => .bloadTurn core
        | .mma _ _ _ _ _ => .mmaStep core
        | .acst _ _ => .acstTurn core
        | _ => .matrixQueueTurn core
      ∃ t c' u, exec turn s = .next t ∧ t.cores[core]? = some c' ∧ t.team? o.team = some u ∧ u.matrixError ≠ none ∧
        u.acc = tm.acc ∧ (∀ n, c.parityMet o = some n → u.matrixError = some n ∧
          ((c.slot n).owner = o.team → ∀ k w, (k, w) ∈ c'.slots → w.owner = o.team → w.head = (c.slot n).head →
            w.state = .error)) ∧ ∀ q ∈ c'.matrix, q.team ≠ o.team)

/-! ## The trellis processor (R340 to R351) -/

/-- R343, R345: the scalar instructions write one register of their context and go to the next word; k0 keeps reading 0;
a branch goes to its target or to the next word; nothing else of the part changes. -/
def Obligations.ScriptScalarResults : Prop :=
  ∀ (s : State) (c : Ctx) (d a b : BitVec 4) (imm : BitVec 14), s.ctxs[s.curCtx]? = some c → c.ready s.gtime = true →
    let offset : DWord := imm.signExtend 64
    let goes (i : Instr) (pc : Addr) (v : Option DWord) : Prop := ∃ c', exec i s = .next (s.modCtx s.curCtx fun _ => c') ∧
      c'.pc = pc ∧ c'.running = true ∧ c'.wait = none ∧ c'.troot = c.troot ∧ c'.grid = c.grid ∧ c'.k = c.k ∧ c'.x = c.x ∧
      ∀ r : BitVec 4, c'.reg r = match v with
        | none => c.reg r
        | some w => if r = d ∧ d ≠ 0 then w else c.reg r
    let writes (i : Instr) (v : DWord) : Prop := goes i (c.pc + 4) (some v)
    let jumps (i : Instr) (taken : Bool) : Prop :=
      goes i (if taken then BitVec.ofInt 48 (c.pc.toNat + 4 * imm.toInt) else c.pc + 4) none
    c.reg 0 = 0 ∧
    writes (.kmov d a) (c.reg a) ∧ writes (.kmovi d imm) offset ∧
    writes (.kmoviSh d imm) (BitVec.ofNat 64 ((c.reg d).toNat * 2 ^ 14 + imm.toNat)) ∧
    writes (.kadd d a b imm) (c.reg a + c.reg b + offset) ∧ writes (.ksub d a b) (c.reg a - c.reg b) ∧
    writes (.kand d a b) (c.reg a &&& c.reg b) ∧ writes (.kor d a b) (c.reg a ||| c.reg b) ∧
    writes (.ktime d) (BitVec.ofNat 64 s.gtime) ∧ goes .knop (c.pc + 4) none ∧
    jumps (.kbeq a b imm) (c.reg a == c.reg b) ∧ jumps (.kbne a b imm) (c.reg a != c.reg b) ∧
    jumps (.kblt a b imm) ((c.reg a).slt (c.reg b)) ∧ jumps (.kjmp imm) true

/-- R345, R346, R359: KLD brings the eight bytes as they stand at GTIME, once the ingress atomic cache has written back
a line of them that it owns; KST is received as an update and holds its context until the update's WCT; KSLEEP holds it
until its time has come; KHALT ends it with SCRIPTHALT; an access that fails halts it at the instruction with
SCRIPTFAULT, and so does a word that is no instruction. That a page firmware may map makes the context wait is as log
44 says.
R345, R347: a context that sleeps goes on once GTIME has reached its time, and not before; one in CWAIT goes on
with its port's word once its deadline has passed, and not before. -/
def Obligations.ScriptMemoryWaitsAndTheirEnds : Prop :=
  (∀ (s : State) (c : Ctx) (d a : BitVec 4) (imm : BitVec 14), s.ctxs[s.curCtx]? = some c → c.ready s.gtime = true →
    let n := s.curCtx
    let va := (c.reg a + imm.signExtend 64).toNat % 2 ^ 48
    let becomes (i : Instr) (also : State → Ctx → Prop) : Prop := ∃ t c', exec i s = .next t ∧ t.ctxs[n]? = some c' ∧
      t.mem.cells = s.mem.cells ∧ also t c'
    (∀ p, s.meetCtx c va false = .place p →
      (s.mem.ingressUntil p.pa 8 ≤ s.gtime → becomes (.kld d a imm) fun t c' =>
        t.mem.updates = s.mem.updates ∧ c'.pc = c.pc + 4 ∧ c'.wait = none ∧
          ∀ r : BitVec 4, c'.reg r = if r = d ∧ d ≠ 0 then BitVec.ofNat 64 (s.peekNat p.pa 8) else c.reg r) ∧
      (s.gtime < s.mem.ingressUntil p.pa 8 → becomes (.kld d a imm) fun t c' =>
        t.mem.updates = s.mem.updates ∧ c'.pc = c.pc ∧ c'.regs = c.regs ∧
          c'.wait = some (.store (s.mem.ingressUntil p.pa 8)))) ∧
    (∀ p, s.meetCtx c va true = .place p → becomes (.kst d a imm) fun t c' => c'.pc = c.pc + 4 ∧ c'.regs = c.regs ∧
      ∃ wct, c'.wait = some (.store wct) ∧ t.mem.received p.pa (natLe 8 (c.reg d).toNat) s.gtime wct) ∧
    (∀ e, s.meetCtx c va false = .service e → becomes (.kld d a imm) fun t c' => t.mem = s.mem ∧ c'.pc = c.pc ∧
      c'.regs = c.regs ∧ c'.wait = some (.page va false)) ∧
    (∀ e, s.meetCtx c va true = .service e → becomes (.kst d a imm) fun t c' => t.mem = s.mem ∧ c'.pc = c.pc ∧
      c'.regs = c.regs ∧ c'.wait = some (.page va false)) ∧
    becomes (.ksleep a imm) (fun _ c' => c'.pc = c.pc ∧ c'.regs = c.regs ∧
      c'.wait = some (.sleep (s.gtime + (c.reg a).toNat + imm.toNat))) ∧
    becomes (.khalt imm) (fun t c' => c'.running = false ∧ c'.regs = c.regs ∧ ∃ msg, t.outbox = s.outbox ++ [msg] ∧
      msg.mtype = mtScriptHalt ∧ msg.addr = n ∧ msg.status = imm.toNat) ∧
    (∀ k, s.meetCtx c va false = .fault k → s.haltsScript (.kld d a imm) k) ∧
    (∀ k, s.meetCtx c va true = .fault k → s.haltsScript (.kst d a imm) k) ∧
    (∀ w, s.scriptFetch c = .word w →
      (decodeScript w = .illegalInstruction → s.haltsScript (.scriptIllegalWord n) Cause.illegalInstruction) ∧
      (decodeScript w = .illegalOperand → s.haltsScript (.scriptIllegalWord n) Cause.illegalOperand)) ∧
    ∀ k, s.scriptFetch c = .fault k → s.haltsScript (.scriptIllegalWord n) k) ∧
  (∀ (s : State) (n : Nat) (c : Ctx), s.ctxs[n]? = some c →
    (∀ time, c.wait = some (.sleep time) →
      (time ≤ s.gtime → exec (.ksleepExpiry n) s = .next (s.modCtx n fun _ => { c with pc := c.pc + 4, wait := none })) ∧
      (s.gtime < time → exec (.ksleepExpiry n) s = .next s)) ∧
    ∀ d port state deadline, d < 16 → c.wait = some (.cwait d port state deadline) →
      (deadline ≠ 0 → deadline ≤ s.gtime → ∃ c', exec (.cwaitTimeout n) s = .next (s.modCtx n fun _ => c') ∧
        c'.pc = c.pc + 4 ∧ c'.wait = none ∧ ∀ r : BitVec 4, c'.reg r =
          if r.toNat = d ∧ d ≠ 0 then BitVec.ofNat 64 ((s.port port).word port) else c.reg r) ∧
      (deadline = 0 ∨ s.gtime < deadline → exec (.cwaitTimeout n) s = .next s))

/-- R340, R341, R347: the circuit instructions answer in K[d] and go to the next word. CREQ of a DARK port enters
REQUESTED and writes the port's word at its address; that one whose address lies on a page that firmware may map waits
and executes again, and that the word's place is fixed at the CREQ, is the model's reading (DEDUCED, log 44). CREL enters
the state that R340 says, and the port writes its word of that state; CWAIT waits where no condition holds; CTOL sets
TOL; CSTAT gives a word of the port. Every write of a port's word has a WCT above that of its previous one. An operand
that names no port, no state, no TOL or no word of CSTAT is a script fault. -/
def Obligations.CircuitInstructionResults : Prop :=
  ∀ (s : State) (c : Ctx) (d a b : BitVec 4) (imm : BitVec 14), s.ctxs[s.curCtx]? = some c → c.ready s.gtime = true →
    let answers (i : Instr) (v : Nat) (also : State → Prop) : Prop := ∃ t c', exec i s = .next t ∧
      t.ctxs[s.curCtx]? = some c' ∧ c'.pc = c.pc + 4 ∧ c'.wait = none ∧
      (∀ r : BitVec 4, c'.reg r = if r = d ∧ d ≠ 0 then BitVec.ofNat 64 v else c.reg r) ∧ also t
    let kept (t : State) : Prop := t.fabric = s.fabric ∧ t.mem = s.mem
    (∀ port peer : Nat, port < 32 → peer < 2 ^ 12 → (c.reg a).toNat = peer + 2 ^ 16 * port →
      ∀ p, s.fabric.ports[port]? = some p →
        let place := s.barrierPlace c (c.reg b).toNat
        (p.state ≠ .dark → answers (.creq d a b) 1 kept) ∧
        (p.state = .dark → s.barrierAsks c (c.reg b).toNat = true → exec (.creq d a b) s = .next (s.modCtx s.curCtx fun c =>
          { c with wait := some (.barrier d.toNat (c.reg b).toNat) })) ∧
        (p.state = .dark → s.barrierAsks c (c.reg b).toNat = false → place = none → answers (.creq d a b) 2 kept) ∧
        (p.state = .dark → place ≠ none → peer = s.chipId → answers (.creq d a b) 3 kept) ∧
        (p.state = .dark → peer ≠ s.chipId → ∀ q, place = some q → answers (.creq d a b) 0 fun t =>
          t.fabric.broker = s.fabric.broker ++ [(port, 0)] ∧ ∃ p', t.fabric.ports[port]? = some p' ∧
            p'.state = .requested ∧ p'.peer = peer ∧ p'.barrier = some q.pa ∧ p'.granted = none ∧
            p'.generation = p.generation ∧ p.lastWct < p'.lastWct ∧ t.mem.cells = s.mem.cells ∧
            t.mem.received q.pa (natLe 8 (p'.word port)) s.gtime p'.lastWct)) ∧
    ((c.reg a).toNat ≠ (c.reg a).toNat % 2 ^ 12 + 2 ^ 16 * ((c.reg a).toNat / 2 ^ 16 % 32) →
      s.haltsScript (.creq d a b) Cause.illegalOperand) ∧
    (32 ≤ (c.reg a).toNat → ∀ i ∈ [Instr.crel d a, .cwait d a b imm, .ctol a b, .cstat d a imm],
      s.haltsScript i Cause.illegalOperand) ∧
    ((c.reg a).toNat < 32 →
      (imm.toNat = 0 ∨ 8 < imm.toNat → s.haltsScript (.cwait d a b imm) Cause.illegalOperand) ∧
      (2 ^ 20 ≤ (c.reg b).toNat → s.haltsScript (.ctol a b) Cause.illegalOperand) ∧
      (2 < imm.toNat → s.haltsScript (.cstat d a imm) Cause.illegalOperand)) ∧
    ∀ port : Nat, (c.reg a).toNat = port → ∀ p, s.fabric.ports[port]? = some p → port < 32 →
      (p.state = .dark → answers (.crel d a) 1 kept) ∧
      (p.state = .draining → answers (.crel d a) 2 kept) ∧
      (p.state = .live ∨ p.state = .doze ∨ p.state = .nap → answers (.crel d a) 0 fun t =>
        s.portEntered t port .draining ∧ t.fabric.broker = s.fabric.broker) ∧
      (p.state = .locking ∨ p.state = .trained → answers (.crel d a) 0 fun t =>
        s.portEntered t port .dark ∧ t.fabric.broker = s.fabric.broker ++ [(port, 1)]) ∧
      (p.state = .requested ∨ p.state = .fault → answers (.crel d a) 0 fun t =>
        s.portEntered t port .dark ∧ t.fabric.broker = s.fabric.broker) ∧
      (0 < imm.toNat → imm.toNat ≤ 8 →
        let met : Bool := p.state.code == imm.toNat || p.state.code == 0 || p.state.code == 8 ||
          (c.reg b != 0 && decide ((c.reg b).toNat ≤ s.gtime))
        (met = true → answers (.cwait d a b imm) (p.word port) kept) ∧
        (met = false → exec (.cwait d a b imm) s = .next (s.modCtx s.curCtx fun c =>
          { c with wait := some (.cwait d.toNat port imm.toNat (c.reg b).toNat) }))) ∧
      ((c.reg b).toNat < 2 ^ 20 → ∃ t c', exec (.ctol a b) s = .next t ∧ t.ctxs[s.curCtx]? = some c' ∧
        c'.pc = c.pc + 4 ∧ c'.regs = c.regs ∧ t.port port = { p with tol := (c.reg b).toNat }) ∧
      answers (.cstat d a 0) (p.word port) kept ∧ answers (.cstat d a 1) p.linkStatus kept ∧
      answers (.cstat d a 2) p.refusal kept

/-- R213, R348, R350, R351: CPATH writes or clears an entry, sets a rank that keeps the order of the table, whose channel
then sends what it withheld while the ranks disagreed, or clears the table, and answers 0; it answers 1 where the order would break and 2 for a bad request, and changes nothing then.
ESIG adds 1 to a counter X; EWAIT passes once its counter K is reached; a counter number above 63 is a script fault. -/
def Obligations.RouteTableAndEventResults : Prop :=
  ∀ (s : State) (c : Ctx) (d a : BitVec 4) (imm : BitVec 14), s.ctxs[s.curCtx]? = some c → c.ready s.gtime = true →
    let k := (c.reg a).toNat
    let input := k / 2 ^ 12 % 64
    let out := k / 2 ^ 18 % 64
    let dest := k % 2 ^ 12
    let opc := k / 2 ^ 62
    let lower (f : Fabric) (x y : Nat) : Prop := x = 63 ∨ y = 62 ∨ f.rank x < f.rank y
    (∀ i ∈ [Instr.cpathRoute d a, Instr.cpathRank d a, Instr.cpathClear d a],
      let answers (v : Nat) (also : Fabric → Prop) : Prop := ∃ t c', exec i s = .next t ∧ t.ctxs[s.curCtx]? = some c' ∧
        c'.pc = c.pc + 4 ∧ t.mem = s.mem ∧ (∀ r : BitVec 4, c'.reg r = if r = d ∧ d ≠ 0 then BitVec.ofNat 64 v else c.reg r) ∧
        also t.fabric
      (k / 2 ^ 32 % 2 ^ 30 ≠ 0 ∨ opc = 3 → answers 2 fun f => f = s.fabric) ∧
      (k / 2 ^ 32 % 2 ^ 30 = 0 →
        (opc = 0 →
          (¬ ((out < 36 ∨ out = 62) ∧ (input < 36 ∨ input = 63)) → answers 2 fun f => f = s.fabric) ∧
          ((out < 36 ∨ out = 62) → (input < 36 ∨ input = 63) →
            (¬ lower s.fabric input out → answers 1 fun f => f = s.fabric) ∧
            (lower s.fabric input out → answers 0 fun f =>
              f = { s.fabric with routes := f.routes } ∧ (out ≠ 62 ∨ (s.fabric.routes.filter (·.1 == 64 * dest + input)).length ≤ 1 → f.route dest input = out) ∧
                ∀ x y, 64 * x + y ≠ 64 * dest + input → f.route x y = s.fabric.route x y))) ∧
        (opc = 1 →
          (¬ input < 36 → answers 2 fun f => f = s.fabric) ∧
          (input < 36 →
            let ranked := (s.modChannel input fun ch => { ch with rank := k / 2 ^ 24 % 2 ^ 8 }).fabric
            ((∀ e ∈ s.fabric.routes, lower ranked (e.1 % 64) e.2) →
              answers 0 fun f =>
                f = ({ ranked with rankOut := ranked.rankOut ++ [(input, ranked.rank input)] } : Fabric).pump input s.gtime 256) ∧
            (¬ (∀ e ∈ s.fabric.routes, lower ranked (e.1 % 64) e.2) → answers 1 fun f => f = s.fabric))) ∧
        (opc = 2 → answers 0 fun f => f = { s.fabric with routes := [] }))) ∧
    (64 ≤ imm.toNat → s.haltsScript (.esig imm) Cause.illegalOperand ∧ s.haltsScript (.ewait a imm) Cause.illegalOperand) ∧
    (imm.toNat < 64 →
      exec (.esig imm) s = .next (s.modCtx s.curCtx fun _ =>
        { c with pc := c.pc + 4, wait := none, x := tput c.x imm.toNat (tget 0 c.x imm.toNat + 1) }) ∧
      let difference : Int := (tget 0 c.k imm.toNat - (c.reg a).setWidth 32).toInt
      (0 ≤ difference →
        exec (.ewait a imm) s = .next (s.modCtx s.curCtx fun _ => { c with pc := c.pc + 4, wait := none })) ∧
      (difference < 0 → exec (.ewait a imm) s = .next (s.modCtx s.curCtx fun _ =>
        { c with wait := some (.ewait imm.toNat ((c.reg a).setWidth 32)) })))

/-! ## The node's messages (R234, R322, R384 to R395) -/

/-- R273, R309, R385, R386, R389: once the part is ready, READ answers with the bytes as they stand, or with the STATUS
of a bad range; WRITE is received as an update and acknowledged when it is visible; TINVAL drops every cached
translation of its range, in every cache, and is acknowledged after the updates under way and the accesses held on the
range; TERMINATE ends the launches of its tag or answers STATUS 11; an unlisted message answers STATUS 2. Before
readiness each answers STATUS 13, after a failed check 12, with no other effect. The reply types before readiness and
of a malformed message are the model's choice (log 47), and so is that a TINVAL drops the entries when it is taken (log
14). -/
def Obligations.NodeMemoryMessages : Prop :=
  ∀ (s : State) (msg : CtlMsg),
    let answers (i : Instr) (mtype status : Nat) (payload : List Byte) : Prop :=
      exec i s = .next (s.send (outMsg mtype msg.seq 0 msg.tag status payload))
    let n := leNat msg.payload
    let top (k : Nat) : Nat := 576 * 2 ^ 30 - k * 2 ^ 30
    (s.boot.phase = .ready →
      (isKind msg .read = true →
        (n < 8 ∨ 4096 < n → answers (.read msg) 0x0101 3 []) ∧
        (8 ≤ n → n ≤ 4096 → top 0 < msg.addr + n → answers (.read msg) 0x0101 3 []) ∧
        (8 ≤ n → n ≤ 4096 → msg.addr + n ≤ top 0 → top s.fw.reservedGiB < msg.addr + n → answers (.read msg) 0x0101 5 []) ∧
        (8 ≤ n → n ≤ 4096 → msg.addr + n ≤ top s.fw.reservedGiB →
          (s.mem.damagedByte msg.addr n ≠ none → answers (.read msg) 0x0101 10 []) ∧
          (s.mem.damagedByte msg.addr n = none → ∃ (bs : List Byte) (mem : Memory),
            exec (.read msg) s = .next (({ s with mem := mem } : State).send (outMsg 0x0101 msg.seq 0 msg.tag 0 bs)) ∧
            mem.cells = s.mem.cells ∧ mem.updates = s.mem.updates ∧ bs.length = n ∧
            ∀ k < n, bs[k]? = some (cget s.mem.cells (msg.addr + k))))) ∧
      (isKind msg .write = true →
        let len := msg.payload.length
        (top 0 < msg.addr + len → answers (.write msg) 0x0102 3 []) ∧
        (msg.addr + len ≤ top 0 → top s.fw.reservedGiB < msg.addr + len → answers (.write msg) 0x0102 5 []) ∧
        (msg.addr + len ≤ top s.fw.reservedGiB → s.mem.mergedByte msg.addr len = none →
          ∃ t b, exec (.write msg) s = .next t ∧ t.outbox = s.outbox ∧ t.mem.cells = s.mem.cells ∧ t.busy = some b ∧
            b.reply = outMsg 0x0102 msg.seq 0 msg.tag 0 [] ∧ s.gtime < b.due ∧
            t.mem.received msg.addr msg.payload s.gtime b.due ∧
            ∀ u ∈ t.mem.updates, u ∈ s.mem.updates ∨ u.writer = Writer.control s.chipId) ∧
        (msg.addr + len ≤ top s.fw.reservedGiB → s.mem.mergedByte msg.addr len ≠ none → answers (.write msg) 0x0102 10 [])) ∧
      (isKind msg .tinval = true →
        (msg.addr % 65536 ≠ 0 ∨ n % 65536 ≠ 0 ∨ n < 65536 ∨ 2 ^ 48 < msg.addr + n → answers (.tinval msg) 0x0102 3 []) ∧
        (msg.addr % 65536 = 0 → n % 65536 = 0 → 65536 ≤ n → msg.addr + n ≤ 2 ^ 48 →
          ∃ t b, exec (.tinval msg) s = .next t ∧ t.outbox = s.outbox ∧ t.busy = some b ∧
            b.reply = outMsg 0x0102 msg.seq 0 msg.tag 0 [] ∧ (∀ u ∈ s.mem.updates, u.wct ≤ b.due) ∧
            (∀ g ∈ s.groups, ∀ (i : Nat) (l : Lane) (va : Nat), g.lanes[i]? = some l → l.service = some va →
              msg.addr ≤ va → va < msg.addr + n → (g.uid, i) ∈ b.held) ∧
            ∀ e, e ∈ t.mem.tlb ↔ e ∈ s.mem.tlb ∧ ¬ (e.base < msg.addr + n ∧ msg.addr < e.base + e.size))) ∧
      (isKind msg .terminate = true →
        let named : Bool := s.grids.any (·.launch.ltag == msg.tag) || s.queues.any fun q => q.any (·.launch.ltag == msg.tag)
        (named = false → answers (.terminate msg) 0x0102 11 []) ∧
        (named = true → ∃ t, exec (.terminate msg) s = .next t ∧ t.mem = s.mem ∧
          (∃ o, t.outbox = o ++ [outMsg 0x0102 msg.seq 0 msg.tag 0 []]) ∧
          (∀ q ∈ t.queues, ∀ e ∈ q, e.launch.ltag ≠ msg.tag) ∧
          ∀ g, s.grid? g.uid = some g → g.launch.ltag = msg.tag → g.terminating = false →
            (∀ g' ∈ t.grids, g'.uid = g.uid → g'.terminating = true) ∧ ∀ k ∈ t.groups, k.grid ≠ g.uid)) ∧
      (isKind msg .unknownMtype = true → msg.mtype ∉ [6, 7, 8, 10] → answers (.unknownMtype msg) 0x0102 2 [])) ∧
    ∀ i ∈ [Instr.read msg, .write msg, .tinval msg, .terminate msg, .launch msg, .debugAttach msg, .mgmtThresholds msg, .devrsp msg],
      ∀ (mtype : Nat), msg.mtype ∈ [1, 2, 3, 4, 5, 9] → mtype = (if msg.mtype = 2 then 0x0101 else 0x0102) →
        (s.boot.phase = .failed → answers i mtype 12 []) ∧
        (s.boot.phase ≠ .ready → s.boot.phase ≠ .failed → answers i mtype 13 [])

/-- R234, R322, R328, R389, R395: DEBUG attaches, detaches (every halted group goes on), halts a group where it stands,
lets it go on, and reads or writes a uniform register of a halted group; it answers STATUS 11 where no such group is
halted. MGMT takes a setting that is in its range and keeps the earlier one otherwise, reads counters, and raises the
fused version. The STATUS of a bad class is the model's choice (log 24). -/
def Obligations.DebugAndManagementMessages : Prop :=
  ∀ (s : State) (msg : CtlMsg), s.boot.phase = .ready →
    let answers (t : State) (i : Instr) (mtype status : Nat) (payload : List Byte) : Prop :=
      exec i s = .next (t.send (outMsg mtype msg.seq 0 msg.tag status payload))
    let cls := CtlMsg.dbg msg 32 8
    let idx := CtlMsg.dbg msg 24 8
    let v := CtlMsg.mgmtValue msg
    let sets (i : Instr) (ok : Bool) (fw : Firmware) : Prop :=
      answers (if ok then { s with fw := fw } else s) i 0x0104 (if ok then 0 else 3) []
    (isKind msg .debugAttach = true → answers { s with fw := { s.fw with debugger := true } } (.debugAttach msg) 0x0103 0 []) ∧
    (isKind msg .debugDetach = true →
      answers { s with fw := { s.fw with debugger := false }, groups := s.groups.map fun g => { g with halted := none } }
        (.debugDetach msg) 0x0103 0 []) ∧
    (isKind msg .debugHalt = true →
      (s.dbgGroup msg = none → answers s (.debugHalt msg) 0x0103 11 []) ∧
      ∀ g, s.dbgGroup msg = some g → g.halted = none → (∀ k ∈ s.groups, k.uid = g.uid → k = g) →
        answers (s.modGroup g.uid fun g => { g with halted := some none }) (.debugHalt msg) 0x0103 0 []) ∧
    (isKind msg .debugResume = true →
      (s.dbgHalted msg = none → answers s (.debugResume msg) 0x0103 11 []) ∧
      ∀ g, s.dbgHalted msg = some g →
        answers (s.modGroup g.uid fun g => { g with halted := none }) (.debugResume msg) 0x0103 0 []) ∧
    (isKind msg .debugReadRegister = true →
      (s.dbgHalted msg = none → answers s (.debugReadRegister msg) 0x0103 11 []) ∧
      ∀ g, s.dbgHalted msg = some g →
        (cls = 1 → idx < 128 → s.dbgImage g ≠ none →
          answers s (.debugReadRegister msg) 0x0103 0 (natLe 4 (g.u idx).toNat)) ∧
        (2 < cls → answers s (.debugReadRegister msg) 0x0103 2 [])) ∧
    (isKind msg .debugWriteRegister = true →
      (s.dbgHalted msg = none → answers s (.debugWriteRegister msg) 0x0103 11 []) ∧
      ∀ g, s.dbgHalted msg = some g → (∀ k ∈ s.groups, k.uid = g.uid → k = g) →
        (cls = 1 → idx < 128 → s.dbgImage g ≠ none →
          answers (s.modGroup g.uid fun g => g.setU idx (BitVec.ofNat 32 (leNat ((msg.payload.drop 8).take 4))))
            (.debugWriteRegister msg) 0x0103 0 []) ∧
        (2 < cls → answers s (.debugWriteRegister msg) 0x0103 2 [])) ∧
    (isKind msg .mgmtThresholds = true → v < 2 ^ 24 →
      let p := v % 256
      let m := v / 256 % 256
      let t := v / 65536
      sets (.mgmtThresholds msg)
        (decide (60 ≤ p ∧ p ≤ 100 ∧ 70 ≤ m ∧ m ≤ 104 ∧ 80 ≤ t ∧ t ≤ 104 ∧ p ≤ m ∧ m ≤ t))
        { s.fw with placement := p, migration := m, throttle := t }) ∧
    (isKind msg .mgmtAgeingQuantum = true →
      sets (.mgmtAgeingQuantum msg) (decide (10 ≤ v ∧ v ≤ 10000)) { s.fw with quantum := 1000 * v }) ∧
    (isKind msg .mgmtParkDelay = true → sets (.mgmtParkDelay msg) (decide (v ≤ 1000000)) { s.fw with parkDelay := v }) ∧
    (isKind msg .mgmtSpdistCap = true →
      sets (.mgmtSpdistCap msg) (decide (1 ≤ v ∧ v ≤ 1048576)) { s.fw with spdistCap := v }) ∧
    (isKind msg .mgmtPowerLimit = true →
      sets (.mgmtPowerLimit msg) (decide (600 ≤ v ∧ v ≤ 1800)) { s.fw with powerLimit := v }) ∧
    (isKind msg .mgmtReadCounters = true →
      (3 < v → answers s (.mgmtReadCounters msg) 0x0104 3 []) ∧
      ∃ t, t.mem = s.mem ∧ t.groups = s.groups ∧
        (v = 0 → answers t (.mgmtReadCounters msg) 0x0104 0 (natLe 8 s.fw.eccCorrections)) ∧
        (v = 1 → answers t (.mgmtReadCounters msg) 0x0104 0 (natLe 8 s.fw.linkRetries)) ∧
        (v = 2 → answers t (.mgmtReadCounters msg) 0x0104 0 (natLe 8 s.fw.laneDegrades)) ∧
        (v = 3 → ∃ bs : List Byte, bs.length = 24 ∧ answers t (.mgmtReadCounters msg) 0x0104 0 bs)) ∧
    (isKind msg .mgmtRaiseSvn = true →
      (s.boot.svnMin ≤ v → v ≤ s.boot.svnRun →
        answers { s with boot := { s.boot with svnMin := v } } (.mgmtRaiseSvn msg) 0x0104 0 []) ∧
      (v < s.boot.svnMin ∨ s.boot.svnRun < v → answers s (.mgmtRaiseSvn msg) 0x0104 3 [])) ∧
    (isKind msg .mgmtReservedBase = true →
      (v = 0 → answers s (.mgmtReservedBase msg) 0x0104 0 (natLe 8 (576 * 2 ^ 30 - s.fw.reservedGiB * 2 ^ 30))) ∧
      (v ≠ 0 → answers s (.mgmtReservedBase msg) 0x0104 3 []))

/-- R287, R388, R390 to R394, R398, R400: POWER_GOOD and BOARD_RESET begin a boot: GTIME 0, no launch, team or group,
the ROM's digest recorded, BOOTREQ sent; the one empties the log, the other keeps it. That POWER_GOOD empties HBM and
BOARD_RESET keeps it is the model's choice (log 2). A bundle that passes every check of R392 is recorded, loaded into
firmware-reserved memory and starts firmware, and one that fails a check fails the boot. FIRMWARE_READY records its
blocks and reports readiness. ATTEST quotes the log. A DEVRSP answers the access to the node's devices that its TAG
names, and the length that it is to have for a read is the model's choice (log 29); without one for 100 ms a read takes
the data error and a write is reported. The checks that the model adds to R392 and the one time at which firmware sizes its memory (log 56), the
place of the bundle (log 85), and the definitions of SHA-512 and ECDSA, which the rules name only (log 20), are the
model's choice. -/
def Obligations.BootAttestationAndDevices : Prop :=
  ∀ (s : State) (msg : CtlMsg),
    let bootreq : CtlMsg := outMsg 0x0106 0 0 0 0 []
    let rom : LogEntry := { kind := 1, index := 0, digest := sha512 Config.romImage }
    let begins (i : Instr) (log : List LogEntry) (cells : List Host.Cell) : Prop := ∃ t, exec i s = .next t ∧ t.clock.tick = 0 ∧
      t.groups = [] ∧ t.teams = [] ∧ t.grids = [] ∧ t.boot.phase = .bundle ∧ t.boot.log = log ++ [rom] ∧
      t.outbox = s.outbox ++ [bootreq] ∧ t.mem.cells = cells ∧ t.mem.updates = []
    begins .powerGood [] [] ∧
    begins .boardReset s.boot.log (s.mem.cells.filter fun (a, _) => a < 576 * 2 ^ 30) ∧
    (isKind msg .bootdata = true → s.boot.phase ≠ .bundle → exec (.bootdata msg) s = .next s) ∧
    (isKind msg .bootdata = true → s.boot.phase = .bundle → s.boot.buffer = [] → msg.addr = 0 → 320 ≤ msg.payload.length →
      let n := leNat ((msg.payload.drop 0x0C).take 4)
      (n % 64 ≠ 0 ∨ 2 ^ 24 < n → ∃ t, exec (.bootdata msg) s = .next t ∧ t.boot.phase = .failed ∧ t.outbox = s.outbox) ∧
      (n % 64 = 0 → msg.payload.length = 320 + n →
        let ok := bundleOk s.boot.svnMin (msg.payload.take 320) (msg.payload.drop 320)
        ∃ t, exec (.bootdata msg) s = .next t ∧ t.boot.phase = (if ok then .firmware else .failed) ∧
          t.boot.log = s.boot.log ++ (if ok then [{ kind := 2, index := 0, digest := sha512 msg.payload }] else []) ∧
          (t.boot.measure = if ok then sha512 (s.boot.measure ++ sha512 msg.payload) else s.boot.measure) ∧
          (ok = true → s.mem.wf = true → ∀ k v, msg.payload[k]? = some v → cget t.mem.cells (568 * 2 ^ 30 + k) = v) ∧
          (ok = false → t.mem = s.mem))) ∧
    (∀ gib blocks, 8 ≤ gib → gib ≤ 64 → s.boot.phase = .firmware → ∃ t, exec (.firmwareReady gib blocks) s = .next t ∧
      t.boot.phase = .ready ∧ t.outbox = s.outbox ++ [outMsg 0x0102 0 0 0 0 []] ∧
      t.boot.log = s.boot.log ++ mapFrom (fun i (b : List Byte) => { kind := 3, index := i, digest := sha512 b }) 0 blocks ∧
      t.boot.measure = blocks.foldl (fun m b => sha512 (m ++ sha512 b)) s.boot.measure ∧
      t.fw.reservedGiB = if (s.boot.log.filter (·.kind == 1)).length = 1 then gib else s.fw.reservedGiB) ∧
    (isKind msg .attest = true → ∃ qs : List (List Byte), qs ≠ [] ∧
      exec (.attest msg) s = .next { s with outbox := s.outbox ++ qs.map fun q => outMsg 0x0105 msg.seq 0 msg.tag 0 q } ∧
      (s.boot.log.length ≤ 52 →
        let measure := s.boot.log.foldl (fun m e => sha512 (m ++ e.digest)) (List.replicate 64 0)
        let head := natLe 2 1 ++ natLe 2 s.chipId ++ natLe 4 s.boot.log.length ++
          (msg.payload ++ List.replicate (64 - msg.payload.length) 0) ++ measure ++ natLe 4 0x03000300 ++
          (natLe 4 (Config.feat 0).toNat ++ natLe 4 (Config.feat 1).toNat ++ natLe 4 (Config.feat 2).toNat ++
            natLe 4 (Config.feat 3).toNat) ++ natLe 8 s.gtime
        qs = [head ++ ecdsaSign (sha512 head) ++
          (s.boot.log.map fun e => natLe 4 e.kind ++ natLe 4 e.index ++ e.digest).flatten])) ∧
    (s.boot.phase = .ready → isKind msg .devrsp = true →
      (s.devRequest msg = none → exec (.devrsp msg) s = .next s) ∧
      ∀ r, s.devRequest msg = some r → exec (.devrsp msg) s = .next (s.answer r.id true (.data msg.payload))) ∧
    ∀ req r, s.fabric.remotes.find? (fun r => r.id == req && r.node && !r.queued) = some r →
      (s.gtime < r.sent + 100000000 → exec (.devrspTimeout req) s = .next s) ∧
      (r.sent + 100000000 ≤ s.gtime → r.writes = false →
        exec (.devrspTimeout req) s = .next (s.answer req true (.refused Cause.dataError))) ∧
      (r.sent + 100000000 ≤ s.gtime → r.writes = true → ∃ t, exec (.devrspTimeout req) s = .next t ∧
        ∃ msg', s.outbox ++ [msg'] <+: t.outbox ∧ msg'.mtype = mtEvent)

/-! ## Launches, grids and placement (R305 to R316, R384) -/

/-- R17, R41, R62, R296, R305 to R309, R311 to R315, R343: a launch record joins its queue or is refused; a queue's
head whose image passes is accepted, as a grid with its teams unplaced, and with its script's context running; a grid
that is done leaves with its completion; the first candidate with room is placed: a cluster with all its groups at
ENTRY, a record as a group at its own entry with its registers of R62. The number and place of a record's team are the
model's choice where R310 leaves them open (log 45, 50), and so is the form of firmware's placement weights, which
choose among the places with room (log 74). -/
def Obligations.LaunchesGridsAndPlacement : Prop :=
  ∀ (s : State),
    let refused (seq ltag status : Nat) : CtlMsg := outMsg 0x0110 seq 0 ltag status (recordPayload 0 [])
    let accepts (i : Instr) (e : Queued) (rest : List Queued) (img : Image) : Prop :=
      let l := e.launch
      (l.script = true → (s.ctx l.sctx).running = true → ∃ t, exec i s = .next t ∧ t.queueOf l.queue = rest ∧
        t.outbox = s.outbox ++ [refused e.seq l.ltag 9] ∧ t.grids = s.grids ∧ t.teams = s.teams) ∧
      (l.script = false ∨ (s.ctx l.sctx).running = false → ∃ t uid new, exec i s = .next t ∧ t.queueOf l.queue = rest ∧
        t.outbox = s.outbox ∧ t.grids = s.grids ++ [newGrid uid l img] ∧ t.teams = s.teams ++ new ∧
        new.length = l.gridX * l.gridY ∧ t.groups = s.groups ∧
        (∀ tm ∈ new, tm.grid = uid ∧ tm.sched = .candidate ∧ tm.core = none ∧ tm.prio = l.prio) ∧
        (l.script = true → ∀ c, s.ctxs[l.sctx]? = some c → ∃ c', t.ctxs[l.sctx]? = some c' ∧ c'.running = true ∧
          c'.pc = BitVec.ofNat 48 l.scriptAddr ∧ (∀ r, c'.reg r = 0) ∧ c'.troot = l.troot ∧ c'.k = [] ∧ c'.x = []))
    (∀ msg : CtlMsg, s.boot.phase = .ready → isKind msg .launch = true →
      let l := launchOf msg.payload
      let far := l.outOfRange (576 * 2 ^ 30 - s.fw.reservedGiB * 2 ^ 30)
      let answers (st : Nat) : Prop := exec (.launch msg) s = .next (s.send (refused msg.seq l.ltag st))
      (recordReserved msg.payload = true → answers 2) ∧
      (recordReserved msg.payload = false → far = true → answers 3) ∧
      (recordReserved msg.payload = false → far = false → 64 ≤ (s.queueOf l.queue).length → answers 1) ∧
      (recordReserved msg.payload = false → far = false → ∀ q, s.queues[l.queue]? = some q → q.length < 64 →
        ∃ t, exec (.launch msg) s = .next t ∧ t.outbox = s.outbox ∧
          t.queues[l.queue]? = some (q ++ [{ launch := l, seq := msg.seq, waiting := none }]))) ∧
    (∀ (q : Nat) (e : Queued) (rest : List Queued), s.queues[q]? = some (e :: rest) → e.launch.queue = q →
      (s.queueFree q = true → e.waiting = none →
        (∀ st, s.checkImage e.launch = .refuse st → ∃ t, exec (.launchQueueHead q) s = .next t ∧ t.queueOf q = rest ∧
          t.outbox = s.outbox ++ [refused e.seq e.launch.ltag st]) ∧
        ∀ img, s.checkImage e.launch = .ok img →
          (s.carveFits e.launch = true → accepts (.launchQueueHead q) e rest img) ∧
          (s.carveFits e.launch = false → ∃ t, exec (.launchQueueHead q) s = .next t ∧ t.grids = s.grids ∧
            t.queueOf q = { e with waiting := some img } :: rest)) ∧
      ∀ img, e.waiting = some img → s.carveFits e.launch = true → accepts (.carveoutWaitEnd q) e rest img) ∧
    (∀ (uid : Nat) (g : Grid), s.grid? uid = some g →
      let ends (i : Instr) (mtype : Nat) : Prop := ∃ t, exec i s = .next t ∧
        t.outbox = s.outbox ++ [outMsg mtype s.seqOut 0 g.launch.ltag 0 (recordPayload g.nrec g.records)] ∧
        t.grids = s.grids.filter (·.uid != uid) ∧ ∀ e ∈ t.cuts, e.2.grid ≠ uid
      (s.gridDone g = true → ends (.gridCompletion uid) 0x0111) ∧
      (s.gridDone g = false → exec (.gridCompletion uid) s = .next s) ∧
      (g.terminating = true → s.gridBusy uid = false → ends (.gridTerminationDone uid) 0x0112)) ∧
    ∀ (c : Cand) (cores : List Nat), s.firstPlaceable = some (c, cores) →
      (c.task = false → ∀ tm gr, s.team? c.id = some tm → s.grid? tm.grid = some gr → tm.sched = .candidate →
        ∃ t new, exec (.candidatePlacement c.id) s = .next t ∧ t.groups = s.groups ++ new ∧
          new.length = (s.cluster tm).length * gr.image.teamGroups ∧
          (∀ g ∈ new, g.uregs = [] ∧ g.fpmode = 0 ∧ g.pprom = true ∧ g.spcount = 0 ∧ g.task = none ∧ g.lanes.length = 32 ∧
            ∀ l ∈ g.lanes, l.state = .run ∧ l.lpc = BitVec.ofNat 48 (gr.image.base + gr.image.entry) ∧ l.vregs = [] ∧
              l.preds = 0 ∧ l.fpflags = 0 ∧ l.window = 0 ∧ l.handler = false) ∧
          (∀ u ∈ t.teams, u.uid ∈ (s.cluster tm).map (·.uid) → u.sched = .resident ∧ u.core ≠ none) ∧
          (s.cluster tm = [tm] → ∃ u, t.team? tm.uid = some u ∧ u.core = some (cores.getD tm.member 0))) ∧
      (c.task = true → ∀ r gr k, s.pool.find? (fun r => r.uid == c.id) = some r → s.grid? r.grid = some gr →
        s.freeTaskSlot gr = some k → r.args.length = 8 →
        ∃ t tm g, exec (.taskDispatch c.id) s = .next t ∧ t.pool = s.pool.filter (·.uid != r.uid) ∧
          t.teams = s.teams ++ [tm] ∧ t.groups = s.groups ++ [g] ∧ g.team = tm.uid ∧ tm.core = some (cores.headD 0) ∧
          tm.index = gr.launch.gridX * gr.launch.gridY + k ∧ g.task = some r ∧ g.lanes.length = 32 ∧
          (∀ l ∈ g.lanes, l.state = .run ∧ l.lpc = BitVec.ofNat 48 r.entry ∧ l.vregs = [] ∧ l.preds = 0) ∧
          (∀ n < 8, g.u n = r.args.getD n 0) ∧ g.uPair 8 = r.argp ∧ g.uPair 10 = r.tile ∧
          g.uPair 12 = BitVec.ofNat 64 r.succ)

/-- R57, R59, R60, R63, R272, R334, R379: the oldest spilled record comes back into the pool; a mapped ring page takes
the pushes that wait, a refused one gives them UNMAPPED; a tracker entry is freed once its group's writes are visible,
its operations complete and its decrement made. The decrement takes 1 from the count, with a WCT later than the group's
own, and is no access that a range lock stops (R200): a count it brings to 0 releases the companion, which enters the
pool or, where it is no good, ends the grid with one record; a count of 0 stays 0 and is reported; a decrement that
fails changes no count and ends the grid. Kept records enter the pool; the lanes that wait for a page go on once it is
mapped. A ring page holds 1,024 records, and the decrement comes after the engines' writes, by the model's choice (log
19, 33); so are the reserved bytes that a decrement passes over, damaged count bytes, and LANE and TPC of the record
(log 69, 70 and 88). -/
def Obligations.TaskQueuesAndRetirement : Prop :=
  ∀ (s : State),
    (∀ r, s.oldestSpilled = some r → s.pool.length < 65536 → ∃ t, exec (.spillRefill r.grid) s = .next t ∧
      t.pool = s.pool ++ [{ r with since := s.gtime }] ∧
      ∀ g, t.grid? r.grid = some g → ∀ g0, s.grid? r.grid = some g0 → g.ring = g0.ring.tail) ∧
    (∀ (uid : Nat) (ok : Bool) (g : Grid), s.grid? uid = some g → g.ringWait = true →
      ∃ t g', exec (.ringPageMapped uid ok) s = .next t ∧ t.grid? uid = some g' ∧ g'.ringWait = false ∧
        g'.ringMapped = (if ok then min (g.ringMapped + 1024) g.launch.ringCap else g.ringMapped) ∧
        ∀ k ∈ t.groups, k.grid = uid → k.push ≠ some none) ∧
    (∀ (core uid : Nat) (r : Retiring), s.retiring.find? (fun r => r.core == core && r.group == uid) = some r →
      (r.decrement ≠ none → r.lwct ≤ s.gtime → s.remotesAcked r.group (BitVec.allOnes 32) = true → s.opsDone uid = true →
        ∃ t, exec (.trackerEntryFree core uid) s = .next t ∧ t.retiring = s.retiring.filter (·.group != uid)) ∧
      (r.decrement = none ∨ s.gtime < r.lwct ∨ s.opsDone uid = false → exec (.trackerEntryFree core uid) s = .next s) ∧
      (r.decrement = none → r.heldBack = false → s.remotesAcked r.group (BitVec.allOnes 32) = true → s.opsDone uid = true →
        (r.succ = 0 → exec (.successorDecrement core uid) s = .next { s with retiring := s.retiring.map fun q =>
          if q.group = uid then { q with decrement := some none } else q }) ∧
        (∀ p, r.succ ≠ 0 → s.meetBlock [] core r.grid r.succ = .place p →
          let n := s.mem.count p.pa
          ∃ t wct, exec (.successorDecrement core uid) s = .next t ∧ r.lwct < wct ∧ s.gtime < wct ∧
            (∀ k < 2, ∃ u ∈ t.mem.updates, u.word = p.pa + 4 * k ∧ u.wct = wct ∧
              u.bytes = mapFrom (fun i b => (i, b)) 0 (natLe 4 ((n - 1) / 2 ^ (32 * k)))) ∧
            (∀ q ∈ t.retiring, q.group = uid → q.decrement = some (some wct)) ∧
            (1 < n → t.pool = s.pool ∧ t.kept = s.kept ∧ t.outbox = s.outbox ∧ t.grids = s.grids) ∧
            (n = 0 → t.pool = s.pool ∧ t.kept = s.kept ∧ t.grids = s.grids ∧ ∃ msg, t.outbox = s.outbox ++ [msg] ∧
              msg.mtype = mtEvent ∧ msg.status = 1 ∧ msg.addr = r.succ) ∧
            (n = 1 → t.outbox = s.outbox ∧ ∀ gr, s.grid? r.grid = some gr → gr.terminating = false →
              let ws := wordsOf (t.mem.bytesAt wct (p.pa + 64) 64)
              let companion : Task := { recordOf ws with grid := r.grid, vis := wct }
              let bad : Prop := s.recordBad gr ws = true ∨ s.depthLimit gr < companion.depth
              (companion.entry = 0 → t.pool = s.pool ∧ t.kept = s.kept ∧ t.grids = s.grids) ∧
              (companion.entry ≠ 0 → ¬ bad → s.pool.length < 65536 → ∃ k,
                t.pool = s.pool ++ [{ companion with uid := k, since := s.gtime, order := k }]) ∧
              (companion.entry ≠ 0 → bad → ∃ gr' rec, t.grid? r.grid = some gr' ∧ gr'.terminating = true ∧
                gr'.records = gr.records ++ [rec] ∧ rec.tcause = Cause.illegalOperand.word false ∧ rec.lcid = r.lcid ∧
                rec.group = r.index ∧ rec.taddr = BitVec.ofNat 64 r.succ))) ∧
        ∀ k gr, r.succ ≠ 0 → s.meetBlock [] core r.grid r.succ = .fault k → s.grid? r.grid = some gr →
          gr.terminating = false → ∃ t gr' rec, exec (.successorDecrement core uid) s = .next t ∧ t.mem = s.mem ∧
            t.grid? r.grid = some gr' ∧ gr'.terminating = true ∧ gr'.records = gr.records ++ [rec] ∧
            rec.tcause = k.word false ∧ rec.lcid = r.lcid ∧ rec.group = r.index ∧ rec.taddr = BitVec.ofNat 64 r.succ)) ∧
    (s.pool.length < 65536 → ∀ k gr, s.grid? k.task.grid = some gr →
      (s.kept.find? (fun k' => k'.task.uid == k.task.uid && k'.companion) = some k → ∃ t n,
        exec (.companionRetry k.task.uid) s = .next t ∧ t.kept = s.kept.filter (·.task.uid != k.task.uid) ∧
        t.pool = s.pool ++ [{ k.task with uid := n, since := s.gtime, order := n }]) ∧
      (s.kept.find? (fun k' => k'.group == k.group && !k'.companion) = some k → ∃ t n,
        exec (.heldRecordRetry k.group) s = .next t ∧ t.kept = s.kept.filter (·.task.uid != k.task.uid) ∧
        t.pool = s.pool ++ [{ k.task with uid := n, since := s.gtime, order := n }])) ∧
    ∀ (uid va entryAt low len : Nat) (entry : DWord), uid ≠ 0 →
      (s.rootsAsked uid va).findSome? (fun root => s.serviceEntry va walkLevels root) = some (entryAt, low, len) →
      (entry.getLsbD 0 = true → s.mem.wf = true → ∃ t, exec (.serviceablePageMapped uid va true entry) s = .next t ∧
        cgets t.mem.cells entryAt 8 = natLe 8 entry.toNat ∧ t.mem.updates = s.mem.updates ∧
        ∀ g ∈ t.groups, g.grid = uid → g.lanes.length ≤ 32 → ∀ l ∈ g.lanes, ∀ a, l.service = some a →
          a < low ∨ low + len ≤ a) ∧
      ∃ t, exec (.serviceablePageMapped uid va false entry) s = .next t ∧ t.mem.cells = s.mem.cells ∧
        ∀ g ∈ t.groups, g.grid = uid → g.lanes.length ≤ 32 → ∀ l ∈ g.lanes, ∀ a, l.service = some a →
          a < low ∨ low + len ≤ a

/-! ## Between the issues of a group (R25, R34, R49, R205, R213, R317 to R320) -/

/-- R25, R205, R213, R317, R322: a rotation begins at the least LPC above the last issue once the fairness count
reaches FAIRTIME, and ends when its issues are used up or no lane stands at or above its base at the group's turn to
issue; a fence releases its lanes together once its condition holds, and a timed wait its lanes once GTIME has come,
each to the next word, and neither in a group that is frozen; a group that stands long enough parks, and wakes when a
lane runs. -/
def Obligations.RotationsReleasesAndParking : Prop :=
  ∀ (s : State) (g : Group), s.group? g.uid = some g →
    let becomes (i : Instr) (p : Group → Prop) : Prop := ∃ t g', exec i s = .next t ∧ t.mem = s.mem ∧
      t.group? g.uid = some g' ∧ p g'
    (g.pprom = true → g.stubs = [] → g.redo? = none → g.rotation = none → g.fairness ≠ 0 → g.fairtime ≤ g.fairness →
      becomes (.fairnessRotation g.uid) fun g' => g'.fairness = 0 ∧ g'.lanes = g.lanes ∧
        g'.rotation = (g.leastAbove g.lastAddr).map fun b => { base := b, left := g.fairtime }) ∧
    (g.fairness < g.fairtime → exec (.fairnessRotation g.uid) s = .next s) ∧
    (∀ r, g.rotation = some r → g.stubs = [] → g.redo? = none →
      let above : Prop := ∃ pc ∈ g.pcs g.counting, r.base.toNat ≤ pc
      (r.left = 0 ∨ (¬ above ∧ s.nextGroup = some g) → becomes (.rotationEnd g.uid) fun g' =>
        g' = { g with rotation := none, fairness := 0 }) ∧
      (0 < r.left → above ∨ (∀ k, s.nextGroup = some k → k.uid ≠ g.uid) → becomes (.rotationEnd g.uid) fun g' => g' = g)) ∧
    (∀ scope id, g.watched = true → (∃ l ∈ g.lanes, l.state = .wait (.fence scope id)) →
      (∀ l ∈ g.lanes, ∀ k, l.state = .wait (.fence k id) → k = scope) → g.lanes.length ≤ 32 →
      let mask := g.waiting fun w => w == .fence scope id
      (s.fenceHolds g mask scope = true → becomes (.fenceRelease g.uid id) fun g' => ∀ (i : Nat) (l : Lane),
        g.lanes[i]? = some l → g'.lanes[i]? = some
          (if (l.state = .wait (.fence scope id)) then { l with state := .run, lpc := l.lpc + 4 } else l)) ∧
      (s.fenceHolds g mask scope = false → exec (.fenceRelease g.uid id) s = .next s)) ∧
    (g.halted ≠ none → (∀ id, exec (.fenceRelease g.uid id) s = .next s) ∧
      becomes (.twaitRelease g.uid) fun g' => g' = g) ∧
    (g.watched = true → g.lanes.length ≤ 32 → becomes (.twaitRelease g.uid) fun g' => ∀ (i : Nat) (l : Lane), g.lanes[i]? = some l →
      (∀ time, l.state = .wait (.twait time) → time ≤ s.gtime →
        g'.lanes[i]? = some { l with state := .run, lpc := l.lpc + 4 }) ∧
      ((∀ time, l.state = .wait (.twait time) → s.gtime < time) → g'.lanes[i]? = some l)) ∧
    (s.mayPark g = true →
      let since := g.standing.getD s.gtime
      (since + s.fw.parkDelay ≤ s.gtime → becomes (.groupPark g.uid) fun g' => g'.sched = .parked ∧ g'.slot = none ∧
        g'.lanes = g.lanes ∧ g'.uregs = g.uregs) ∧
      (s.gtime < since + s.fw.parkDelay → becomes (.groupPark g.uid) fun g' => g' = { g with standing := some since })) ∧
    (g.sched = .parked → g.halted = none → (∃ l ∈ g.lanes, l.state = .run ∨ l.state = .trap) → becomes (.groupWake g.uid) fun g' => g'.sched = .resident ∧
      g'.lanes = g.lanes ∧ ∃ k, g'.slot = some k ∧ k < 4) ∧
    (g.sched ≠ .parked ∨ g.halted ≠ none → exec (.groupWake g.uid) s = .next s)

/-- R34, R49, R71, R318 to R320: a known result is written and leaves the list, and the group's other registers stay; a
load whose wait for earlier stores, a write-back and its lease is over lands with the bytes of memory at GTIME, or traps
its lanes where it meets a damaged byte that no L1 serves; a fetch that fails and
the distance fault put the lanes at the issue address into TRAP with their causes; the handler starts in the lanes in
TRAP, with SPCOUNT 0, or the grid is terminated where the image has none. That a load is performed when it lands, and
traps a lane that has gone on, is the model's choice (log 8, 55), and so is a wait for a lease (log 7). -/
def Obligations.LandingsFaultsAndHandlers : Prop :=
  ∀ (s : State),
    (∀ (p : Pend) (g : Group), s.pend.find? (fun q => q.id == p.id) = some p → p.due ≤ s.clock.tick →
      s.group? p.group = some g →
      let lands (ws : List RegWrite) : Prop := ∃ t g', exec (.pendingResultLands p.id) s = .next t ∧
        t.mem.cells = s.mem.cells ∧ t.mem.updates = s.mem.updates ∧ t.pend = s.pend.filter (·.id != p.id) ∧
        t.group? p.group = some g' ∧
        (p.lane = none → g'.lanes = g.lanes ∧ ∀ r, (∀ w ∈ ws, w.reg ≠ r) → g'.u r = g.u r) ∧
        (p.lane = none → ∀ w, ws = [w] → g'.u w.reg = w.bits) ∧
        ∀ (i : Nat) (l : Lane), p.lane = some i → g.lanes[i]? = some l → g'.uregs = g.uregs ∧ ∃ l',
          g'.lanes[i]? = some l' ∧ l'.state = l.state ∧ l'.preds = l.preds ∧
          (∀ r, (∀ w ∈ ws, w.reg ≠ r) → tget ⟨0, 0⟩ l'.vregs r = tget ⟨0, 0⟩ l.vregs r) ∧
          (∀ w, ws = [w] → tget ⟨0, 0⟩ l'.vregs w.reg = ⟨w.bits, w.tag⟩) ∧
          ∀ (j : Nat), j ≠ i → g'.lanes[j]? = g.lanes[j]?
      (∀ ws, p.what = .value ws → lands ws) ∧
      (∀ pa w, p.what = .atom pa w → lands [w]) ∧
      ∀ va pa acc d lease after, p.what = .load va pa acc d lease after →
        s.loadAfter p.group pa acc lease after ≤ s.gtime →
        (s.loadDamage p.group pa acc lease = none → g.spec = none →
          lands (loadWrites acc d (cgets s.mem.cells pa (accBytes acc)))) ∧
        ∀ b gr, s.loadDamage p.group pa acc lease = some b → s.grid? g.grid = some gr →
          ∃ t, exec (.pendingResultLands p.id) s = .next t ∧ t.mem = s.mem ∧ (∀ q ∈ t.pend, q.id ≠ p.id) ∧
            ∀ g', t.group? p.group = some g' → ∀ (i : Nat) (l : Lane), g.lanes[i]? = some l → p.lanes.getLsbD i = true →
              l.state ≠ .done → i < 32 → ∃ l', g'.lanes[i]? = some l' ∧ l'.state = .trap ∧ l'.tpc = p.pc.setWidth 64 ∧
                l'.lpc = p.pc ∧ l'.taddr = BitVec.ofNat 64 (va + (b - pa))) ∧
    (∀ (x : Site) (uid : Nat), s.siteOf uid = some x → x.g.redo? = none → ActiveLanes x (fun _ l => l.handler = false) →
      let traps (i : Instr) (c : Cause) : Prop := ∃ t g', exec i s = .next t ∧ t.mem = s.mem ∧ t.group? x.g.uid = some g' ∧
        g'.uregs = x.g.uregs ∧ ∀ (k : Nat) (l : Lane), x.g.lanes[k]? = some l → ∃ l', g'.lanes[k]? = some l' ∧
          l'.vregs = l.vregs ∧ l'.preds = l.preds ∧ l'.lpc = l.lpc ∧
          (x.mask.getLsbD k = true → l'.state = .trap ∧ l'.tcause = c.word (!x.g.stubs.isEmpty) ∧
            l'.tpc = x.pc.setWidth 64 ∧ l'.taddr = BitVec.ofNat 64 c.addr)
      (∀ c, s.fetchAt (s.coreOf x.g.team) x.g.grid x.pc = .fault c → traps (.fetchFault uid) c ∧ c.fetch = true) ∧
      ∀ w i, s.fetchAt (s.coreOf x.g.team) x.g.grid x.pc = .word w → decode w = .ok i → zeroesCount i = false → x.mask ≠ 0 →
        overDistance s.fw.spdistCap x .plain = true → traps (.safePointDistanceFault uid) (Cause.plain 0x0A)) ∧
    ∀ (g : Group) (gr : Grid), s.group? g.uid = some g → s.grid? g.grid = some gr → g.inTrap = true → g.inHandler = false →
      g.unheld = 0 → g.sched = .resident → g.halted = none → s.unresolved g = false → g.lanes.length ≤ 32 →
      (gr.image.handler ≠ 0 → ∃ t g', exec (.handlerStart g.uid) s = .next t ∧ t.mem = s.mem ∧
        t.group? g.uid = some g' ∧ g'.spcount = 0 ∧ g'.uregs = g.uregs ∧
        ∀ (i : Nat) (l : Lane), g.lanes[i]? = some l → g'.lanes[i]? = some
          (if l.state = .trap then { l with state := .run, handler := true, atSafe := false,
                                            lpc := (BitVec.ofNat 48 (gr.image.base + gr.image.handler)) } else l)) ∧
      (gr.image.handler = 0 → gr.terminating = false → ∀ tm, s.team? g.team = some tm →
        ∃ t gr', exec (.handlerStart g.uid) s = .next t ∧ t.grid? g.grid = some gr' ∧ gr'.terminating = true ∧
          (∀ k ∈ t.groups, k.grid ≠ g.grid) ∧ ∀ (i : Nat) (l : Lane), g.lanes[i]? = some l → l.state = .trap →
            faultRec tm g.index i l ∈ gr'.records)

/-! ## Saves, restores and migrations (R321 to R333) -/

/-- R51 to R54, R66, R263, R316, R321, R324 to R326, R329, R333: an expired slice or a candidate without room posts a
request to the team; a save begins when every group stands at a safe point, and ends SAVED with its core given up, or
MIGRATING. It keeps the save regions, the registers live at a safe point at which a lane of the group stands, the
accumulator tiles live at one of any group, and every lane's LPC, state, WINDOW, FPFLAGS and LWCT; what is not kept
reads 0. The team's spans become EMPTY and its scale packets are discarded. A saved team is RESTORING on the core
chosen for it and then RESIDENT: each lane at a safe point with a stub runs the stub, the stubs in ascending order,
with SPCOUNT 0. A migration that may begin marks both cores and asks the source's teams; at its end the cores exchange
their LCIDs and the moved teams' statuses go along. That the teams of a cluster are asked and saved together is the
model's choice (log 52), and so is the reading that a lane in RUN stands at the safe point before its LPC (log 23). -/
def Obligations.SavesRestoresAndMigrations : Prop :=
  ∀ (s : State) (tm : Team), s.team? tm.uid = some tm →
    let slice := ((s.grid? tm.grid).map (·.launch.tslice)).getD 0
    let asked (i : Instr) (r : Request) : Prop := ∃ t, exec i s = .next t ∧ t.groups = s.groups ∧ t.mem = s.mem ∧
      ∀ u ∈ t.teams, u.uid ∈ s.clusterTeams tm → r ∈ u.requests
    let entry? (gr : Grid) (l : Lane) : Option SafePoint :=
      if l.state = .done then none else gr.image.safePoint? (if l.state = .run then l.lpc - 4 else l.lpc)
    let live (gr : Grid) (g : Group) (bit : SafePoint → Bool) : Bool := (g.lanes.filterMap (entry? gr)).any bit
    (tm.sched = .resident → slice ≠ 0 → tm.slice + 1000 * slice ≤ s.gtime →
      ((∃ c ∈ s.candidates, tm.prio ≤ c.eff s.gtime s.fw.quantum) → asked (.timeSliceExpiry tm.uid) .slice) ∧
      ((∀ c ∈ s.candidates, c.eff s.gtime s.fw.quantum < tm.prio) → ∃ t u, exec (.timeSliceExpiry tm.uid) s = .next t ∧
        t.team? tm.uid = some u ∧ u = { tm with slice := s.gtime })) ∧
    (s.toPreempt.find? (fun u => u.uid == tm.uid) = some tm → asked (.preemptionRequest tm.uid) .preempt) ∧
    (s.maySave tm = true → ∃ t, exec (.teamSave tm.uid) s = .next t ∧ t.mem = s.mem ∧
      (∀ u ∈ t.teams, u.uid ∈ s.clusterTeams tm → u.sched = .saving) ∧
      ∀ g ∈ t.groups, g.team ∈ s.clusterTeams tm → g.sched = .saving ∧ g.slot = none) ∧
    (s.maySave tm = false → exec (.teamSave tm.uid) s = .next s) ∧
    (s.cluster tm = [tm] → s.saveReady tm = true → ∀ gr, s.grid? tm.grid = some gr →
      ∃ t u, exec (.saveComplete tm.uid) s = .next t ∧ t.team? tm.uid = some u ∧ t.mem = s.mem ∧
        (tm.target = none → u.sched = .saved ∧ u.core = none ∧ u.since = s.gtime) ∧
        (tm.target ≠ none → u.sched = .migrating ∧ u.core = tm.core) ∧
        (∀ a, inRegions gr.image.saveRegions a = true → cget u.scratch a = cget tm.scratch a) ∧
        (∀ a, inRegions gr.image.saveRegions a = false → cget u.scratch a = 0) ∧
        (∀ k, tget 0 u.acc k = (if tm.accwin ≤ k / 4096 ∧ (∃ g ∈ s.groups, g.team = tm.uid ∧
          live gr g (fun e => e.alive.getLsbD (k / 4096 - tm.accwin)) = true) then tget 0 tm.acc k else 0)) ∧
        u.accwin = tm.accwin ∧ u.matrixError = tm.matrixError ∧ u.context.ops = s.pausedOps tm ∧
        (∀ (g : Group), s.group? g.uid = some g → g.team = tm.uid → ∃ g', t.group? g.uid = some g' ∧
          (∀ r, g'.u r = if live gr g (fun e => e.ulive.getLsbD r) then g.u r else 0) ∧
          (∀ (r : Nat), g'.jmasks[r]? = g.jmasks[r]?.map fun j =>
            if live gr g (fun e => e.jlive.getLsbD r) then j else ⟨0, 0⟩) ∧
          (∀ r, g'.td r = if live gr g (fun e => e.tlive.getLsbD r) then { g.td r with pseq := (g.td r).cseq }
            else TileDesc.empty) ∧
          g'.fpmode = g.fpmode ∧ g'.leaseovr = g.leaseovr ∧ g'.atbank = g.atbank ∧ g'.pprom = g.pprom ∧
          g'.fairtime = g.fairtime ∧ ∀ (i : Nat) (l : Lane), g.lanes[i]? = some l → ∃ l', g'.lanes[i]? = some l' ∧
            l'.lpc = l.lpc ∧ l'.state = l.state ∧ l'.window = l.window ∧ l'.fpflags = l.fpflags ∧ l'.lwct = l.lwct ∧
            (∀ r, tget ⟨0, 0⟩ l'.vregs r = if live gr g (fun e => e.vlive.getLsbD r) then tget ⟨0, 0⟩ l.vregs r else ⟨0, 0⟩) ∧
            ∀ k < 15, l'.preds.getLsbD k = (l.preds.getLsbD k && live gr g (fun e => e.plive.getLsbD k))) ∧
        ∀ c' ∈ t.cores, (∀ w ∈ c'.slots, w.2.owner = tm.uid → w.2.state = .empty) ∧ ∀ q ∈ c'.packets, q.team ≠ tm.uid) ∧
    (∀ c cores gr, s.firstPlaceable = some (c, cores) → c.task = false → c.id = tm.uid → tm.sched = .saved →
      s.grid? tm.grid = some gr → s.cluster tm = [tm] → ∃ t u, exec (.teamRestore tm.uid) s = .next t ∧
        t.team? tm.uid = some u ∧ u.sched = .restoring ∧ u.core = some (cores.getD tm.member 0) ∧
        u.lcid = (s.core (cores.getD tm.member 0)).lcid ∧ u.scratch = tm.scratch ∧ u.acc = tm.acc ∧
        ∀ g ∈ t.groups, g.team = tm.uid → g.sched = .restoring) ∧
    (∀ gr, tm.sched = .restoring → tm.saveDue ≤ s.gtime → s.grid? tm.grid = some gr → s.cluster tm = [tm] →
      ∃ t u, exec (.teamRestore tm.uid) s = .next t ∧ t.mem = s.mem ∧ t.team? tm.uid = some u ∧ u.sched = .resident ∧
        u.scratch = tm.scratch ∧ u.acc = tm.acc ∧
        ∀ (g : Group), s.groups.filter (fun k => k.uid == g.uid) = [g] → g.team = tm.uid → g.lanes.length ≤ 32 →
          ∃ g', t.group? g.uid = some g' ∧ g'.sched = .resident ∧ g'.spcount = 0 ∧ g'.uregs = g.uregs ∧
            (∃ k, g'.slot = some k ∧ k < 4) ∧ (g'.stubs.map (·.pcoff)).Pairwise (· < ·) ∧
            ∀ (i : Nat) (l : Lane), g.lanes[i]? = some l → ∃ l', g'.lanes[i]? = some l' ∧
              (∀ e so, entry? gr l = some e → e.stub = some so → l' = { l with
                stood := some ⟨l.lpc, l.state⟩, state := .run, lpc := (BitVec.ofNat 48 (gr.image.base + so)), atSafe := false }) ∧
              ((∀ e, entry? gr l = some e → e.stub = none) → l' = l)) ∧
    ∀ src dst : Nat,
      (s.mayMigrate src dst = false → exec (.migrationRequest src dst) s = .next s) ∧
      (s.mayMigrate src dst = true → s.cores.length = 128 → ∃ t, exec (.migrationRequest src dst) s = .next t ∧
        (t.core src).migrating = some dst ∧ (t.core dst).migrating = some src ∧
        ∀ u ∈ s.movers src, ∀ v ∈ t.teams, v.uid = u.uid → Request.migrate dst ∈ v.requests) ∧
      ((s.core src).migrating = some dst → src ≠ dst → src < s.cores.length → dst < s.cores.length →
        (s.movers dst).isEmpty = true →
        (s.movers src = [] → ∃ t, exec (.migrationTransferDone src) s = .next t ∧ (t.core src).migrating = none ∧
          (t.core dst).migrating = none ∧ (t.core src).lcid = (s.core src).lcid) ∧
        (s.movers src ≠ [] → (∀ u ∈ s.movers src, u.sched = .migrating ∧ u.target = some dst) →
          ∃ t, exec (.migrationTransferDone src) s = .next t ∧ (t.core src).migrating = none ∧
            (t.core dst).migrating = none ∧ (t.core src).lcid = (s.core dst).lcid ∧ (t.core dst).lcid = (s.core src).lcid ∧
            (t.core dst).nextHandle = (s.core src).nextHandle ∧
            ∀ st, st ∈ (t.core dst).done ↔ st ∈ (s.core src).done ∧ ∃ u ∈ s.movers src, u.uid = st.team))

/-! ## Temperature, leases, engines (R215, R218, R279, R328 to R331, R359, R396) -/

/-- R279, R328, R330, R331, R359, R396: a sample sets the core's temperature, moves its clock at most one step by the
threshold in force when the cycle began, stops it at 105 degrees and lets it go on at 0.8 GHz at 100 or below; above
the power limit then in force a sample also lowers the clock of the hottest core, at most one in 10 us (log 53); the power stop holds
above 2,000 W until below 1,800 W; an expired lease takes its superblock out of the L1; an ingress line goes back 2 us
after its grant. -/
def Obligations.TemperaturePowerAndLeases : Prop :=
  ∀ (s : State),
    (∀ core temp watts c, s.cores[core]? = some c →
      watts ≤ s.fw.powerLimitWas ∨ (∃ time, s.fw.capAt = some time ∧ s.gtime < time + 10000) →
      ∃ t c', exec (.sensorSample core temp watts) s = .next t ∧ t.cores[core]? = some c' ∧ c'.temp = temp ∧
        (∀ k, k ≠ core → t.cores[k]? = s.cores[k]?) ∧ t.groups = s.groups ∧
        (c.stopped = true → temp ≤ 100 → c'.stopped = false ∧ c'.clock = 3) ∧
        (c.stopped = false → (c'.stopped = true ↔ 105 ≤ temp)) ∧
        (c.stopped = true → 100 < temp → c'.stopped = true) ∧
        (c.stopped = false ∨ 100 < temp →
          (s.fw.throttleWas < temp → c'.clock = min 3 (c.clock + 1)) ∧
          (temp ≤ s.fw.throttleWas → s.fw.throttleWas < temp + 5 → c'.clock = c.clock) ∧
          (temp + 5 ≤ s.fw.throttleWas → c'.clock = c.clock - 1)) ∧
        (c.stopped = c'.stopped → t.outbox = s.outbox) ∧
        (c.stopped ≠ c'.stopped → ∃ msg, t.outbox = s.outbox ++ [msg] ∧ msg.mtype = mtEvent ∧ msg.status = 5 ∧ msg.addr = core)) ∧
    (∀ core temp watts c k, s.cores[core]? = some c → s.fw.powerLimitWas < watts →
      (∀ time, s.fw.capAt = some time → time + 10000 ≤ s.gtime) →
      let sampled := s.modCore core fun c => c.sample temp s.fw.throttleWas
      sampled.hottest = some k → ∃ t ck, exec (.sensorSample core temp watts) s = .next t ∧ t.fw.capAt = some s.gtime ∧
        sampled.cores[k]? = some ck ∧ ck.clock < 3 ∧ t.cores[k]? = some { ck with clock := ck.clock + 1 } ∧
        (∀ (j : Nat), j ≠ k → t.cores[j]? = sampled.cores[j]?) ∧
        ∀ (j : Nat) (cj : Core), sampled.cores[j]? = some cj → cj.clock < 3 → cj.temp ≤ ck.temp) ∧
    (∀ watts,
      (2000 < watts → exec (.powerStop watts) s = .next { s with fw := { s.fw with powerStop := true } }) ∧
      (watts ≤ 2000 → exec (.powerStop watts) s = .next s) ∧
      (s.fw.powerStop = true → watts < 1800 → exec (.powerStopEnd watts) s = .next
        { s with fw := { s.fw with powerStop := false }, cores := s.cores.map fun c => { c with clock := 3 } }) ∧
      (s.fw.powerStop = false ∨ 1800 ≤ watts → exec (.powerStopEnd watts) s = .next s)) ∧
    (∀ core block c, s.cores[core]? = some c →
      ((∃ b ∈ c.l1, b.block = block ∧ b.expiry ≤ s.gtime) → ∃ t c', exec (.leaseExpiry core block) s = .next t ∧
        t.mem = s.mem ∧ t.cores[core]? = some c' ∧ ∀ b, b ∈ c'.l1 ↔ b ∈ c.l1 ∧ b.block ≠ block) ∧
      ((∀ b ∈ c.l1, b.block = block → s.gtime < b.expiry) → exec (.leaseExpiry core block) s = .next s)) ∧
    ∀ line,
      ((∃ l ∈ s.mem.ingress, l.line = line ∧ l.granted + 2000 ≤ s.gtime) → ∃ t, exec (.ingressWriteback line) s = .next t ∧
        t.mem.cells = s.mem.cells ∧ t.mem.updates = s.mem.updates ∧ ∀ l, l ∈ t.mem.ingress ↔ l ∈ s.mem.ingress ∧ l.line ≠ line) ∧
      ((∀ l ∈ s.mem.ingress, l.line = line → s.gtime < l.granted + 2000) → exec (.ingressWriteback line) s = .next s)

/-- R209, R212, R215, R216, R218, R291, R342, R363: an operation whose work is done and visible completes in one step:
its locks go, its status is kept, and its last bytes are counted in its barrier, whose ARRIVED saturates, with ERR
where it ended in error; a bank accepts a write that has come to it; a visible run is counted and the next may be read;
a waiting copy starts when its word says LIVE in its generation, bound to the port where a side lies on that peer's
pages, and ends STALEGEN when a later generation has begun; a table load that has read every line makes its bank VALID;
a collective's message is taken by the operation that it matches; a member's first message that matches none is kept for
the operation to come, unless it is late for one that has ended, and any other is dropped. That one run of an operation
is on its way at a time is the model's choice (log 38), and so are the form of a message and what becomes of one that
matches no operation (log 61). -/
def Obligations.EngineOperationsEnd : Prop :=
  ∀ (s : State) (core h : Nat) (c : Core) (op : EngOp), s.cores[core]? = some c → c.ops.find? (fun o => o.handle == h) = some op →
    let counted (t : State) (n : Nat) (err : Bool) : Prop :=
      ∀ off tm, s.opBarrier op = some off → s.team? op.team = some tm → cwf tm.scratch = true →
        (op.kind = 1 → cpyDTRUG op.words = false) → ∃ u, t.team? op.team = some u ∧
          u.bytes off 8 = natLe 4 (tm.expected off) ++
            natLe 4 (min (tm.arrivedBytes off + n) (2 ^ 31 - 1) + 2 ^ 31 * (tm.barrierErr off || err).toNat) ∧
          ∀ a, a < off ∨ off + 8 ≤ a → cget u.scratch a = cget tm.scratch a
    let inTrug (t : State) (n : Nat) : Prop :=
      ∀ v off i, op.kind = 1 → s.opBarrier op = none → s.opTrug op = some (v, off) → s.team? v.uid = some v →
        op.trugSlot = some i → n ≠ 0 → ∃ u, t.team? v.uid = some u ∧ u.scratch = (v.trugCount off i n).scratch
    (s.mayComplete op = true → s.countDamage op ((op.run.map (·.bytes)).getD 0) op.outcome.isSome = none →
      ∃ t c', exec (.engineCompletion core h) s = .next t ∧ t.mem = s.mem ∧ t.cores[core]? = some c' ∧
        c'.ops = c.ops.filter (·.handle != h) ∧ (∀ k ∈ c'.locks, k.matrix = false → k.owner ≠ h) ∧
        (∀ k ∈ c.locks, k.matrix = true ∨ k.owner ≠ h → k ∈ c'.locks) ∧
        (op.silent = false →
          c'.done.head? = some { handle := h, team := op.team, state := (op.outcome.getD (.ok, 0)).1,
                                 address := (op.outcome.getD (.ok, 0)).2, version := op.version, pred := op.pred } ∧
          c'.done.length ≤ 256) ∧
        counted t ((op.run.map (·.bytes)).getD 0) op.outcome.isSome ∧ inTrug t ((op.run.map (·.bytes)).getD 0)) ∧
    (s.mayComplete op = false → exec (.engineCompletion core h) s = .next s) ∧
    (∀ w tm, s.bankReady op = some w → s.team? w.team = some tm → scratchMerged tm w.offset w.bytes.length = none →
      ∃ t op' u, exec (.engineRunDelivered core h) s = .next t ∧ t.mem = s.mem ∧ t.op? core h = some op' ∧
        op'.run = op.run.map (fun r => { r with banks := r.banks.erase w }) ∧ op'.outcome = op.outcome ∧
        t.team? w.team = some u ∧ (cwf tm.scratch = true → u.bytes w.offset w.bytes.length = w.bytes) ∧
        ∀ a, a < w.offset ∨ w.offset + w.bytes.length ≤ a → cget u.scratch a = cget tm.scratch a) ∧
    (∀ r, op.run = some r → s.bankReady op = none → op.waiting = false → op.reading = none → op.exhausted = false →
      op.kind ≤ 10 → (op.kind = 4 → op.progress < op.total) →
      (s.runVisible r = true → s.countDamage op r.bytes false = none →
        ∃ t op', exec (.engineRunDelivered core h) s = .next t ∧ t.mem = s.mem ∧
          t.op? core h = some op' ∧ op'.run = none ∧ op'.progress = op.progress ∧ op'.outcome = op.outcome ∧
          counted t r.bytes false ∧ inTrug t r.bytes) ∧
      (s.runVisible r = false → exec (.engineRunDelivered core h) s = .next s)) ∧
    (op.run = none → op.begun = false → op.waiting = false → op.reading = none → op.exhausted = false →
      op.paused = false → op.kind ≤ 10 →
      (mayBegin c.ops op = true → ∃ t op', exec (.engineRunDelivered core h) s = .next t ∧ t.mem = s.mem ∧
        t.op? core h = some op' ∧ op'.begun = true ∧ op'.progress = op.progress) ∧
      (mayBegin c.ops op = false → exec (.engineRunDelivered core h) s = .next s)) ∧
    (op.kind = 1 → op.waiting = true → op.outcome = none → ∀ p, s.xlatG core op.grid (wd64 op.words 8) = .ok p →
      p.home = true → p.readable = true → s.mem.damagedByte p.pa 8 = none →
      let w := leNat (cgets s.mem.cells p.pa 8)
      let ahead : Int := (BitVec.ofNat 32 (w / 2 ^ 32) - BitVec.ofNat 32 (wd op.words 10)).toInt
      let port := w / 2 ^ 16 % 32
      let becomes (f : EngOp → Prop) : Prop := ∃ t op', exec (.circuitBarrierMatch core h) s = .next t ∧ t.mem = s.mem ∧
        t.op? core h = some op' ∧ f op'
      let sides := s.peerSides op
      (0 < ahead → becomes fun op' => op'.outcome = some (.staleGen, 0) ∧ op'.waiting = false) ∧
      (ahead < 0 → exec (.circuitBarrierMatch core h) s = .next s) ∧
      (ahead = 0 → w / 2 ^ 24 % 256 ≠ 4 → exec (.circuitBarrierMatch core h) s = .next s) ∧
      (ahead = 0 → w / 2 ^ 24 % 256 = 4 →
        (∀ side, sides.find? (fun k => k.2 != w % 2 ^ 12) = some side → becomes fun op' =>
          op'.outcome = some (.aperture, side.1)) ∧
        ((∀ k ∈ sides, k.2 = w % 2 ^ 12) → s.sideWaits op ≠ [] → exec (.circuitBarrierMatch core h) s = .next s) ∧
        (sides = [] → s.sideWaits op = [] → becomes fun op' => op'.waiting = false ∧ op'.bound = none ∧ op'.outcome = none) ∧
        (sides ≠ [] → (∀ k ∈ sides, k.2 = w % 2 ^ 12) → s.sideWaits op = [] →
          (s.fabric.circuitUp port = true → becomes fun op' =>
            op'.waiting = false ∧ op'.bound = some port ∧ op'.outcome = none) ∧
          (s.fabric.circuitUp port = false → becomes fun op' => op'.outcome = some (.circuitLost, 0))))) ∧
    (∀ k b load, c.banks[k]? = some b → b.load = some load → load.due ≤ s.clock.tick → load.waiting = [] →
      ∀ bs, s.readLines (((s.group? load.group).map (·.grid)).getD 0) core load 0 bankLines [] = .bytes bs →
        ∃ t c' b', exec (.atloadComplete core k) s = .next t ∧ t.mem.cells = s.mem.cells ∧
          t.mem.updates = s.mem.updates ∧ t.cores[core]? = some c' ∧
          c'.banks[k]? = some b' ∧ b'.state = .valid ∧ b'.load = none ∧ ∀ i v, bs[i]? = some v → cget b'.bytes i = v) ∧
    (∀ msg : CollMsg, c.ops.filter (fun o => o.hears msg) = [op] →
      (∀ (j : Nat) (k : Core), s.cores[j]? = some k → j ≠ core → ∀ o ∈ k.ops, o.hears msg = false) →
      let becomes (f : EngOp → Prop) : Prop := ∃ t op', exec (.collChunkReceive msg) s = .next t ∧ t.mem = s.mem ∧
        t.op? core h = some op' ∧ f op'
      (msg.kind = 1 → (∀ p ∈ op.peers, p.rank = msg.rank → msg.chunk ∉ p.got) → becomes fun op' =>
        op'.parts = op.parts ++ [((msg.rank, msg.chunk), msg.data)] ∧ op'.outcome = none) ∧
      (msg.kind = 0 → msg.fields = collFields (collOf op.words op.map) op.map → becomes fun op' => op'.outcome = none ∧
        ∀ p ∈ op'.peers, p.rank = msg.rank → p.fields = some msg.fields) ∧
      (msg.kind = 0 → msg.fields ≠ collFields (collOf op.words op.map) op.map → becomes fun op' =>
        op'.outcome = some (.unreachable, 0)) ∧
      (msg.kind = 2 → becomes fun op' => op'.outcome = none ∧ ∀ p ∈ op'.peers, p.rank = msg.rank → msg.chunk ∈ p.acked)) ∧
    ∀ msg : CollMsg, (∀ k ∈ s.cores, ∀ o ∈ k.ops, o.hears msg = false) →
      let key := (msg.members, msg.number, msg.rank)
      (msg.kind = 0 → key ∉ s.fabric.collOwed →
        exec (.collChunkReceive msg) s = .next { s with fabric := { s.fabric with collIn := s.fabric.collIn ++ [msg] } }) ∧
      (msg.kind = 0 → key ∈ s.fabric.collOwed → exec (.collChunkReceive msg) s =
        .next { s with fabric := { s.fabric with collOwed := s.fabric.collOwed.erase key } }) ∧
      (msg.kind ≠ 0 → exec (.collChunkReceive msg) s = .next s)

/-- R215, R217 to R223, R294, R361, R365: the bytes that one run of an operation reads and writes, where nothing stands
in its way on this part. A copy reads its source and writes its destination, every member's under MCAST, the slot and
every consumer of a trug; a gather reads the strided side and writes the contiguous one, a scatter the other way round;
a bank operation reads its operands and writes the element of each; a collective reads a chunk for a rank and writes a
chunk of a rank. A run goes up to the 512-byte boundaries of both sides. A write to memory is received after every
earlier one of the operation; a write to scratchpad goes to the bank of each member. CFLUSH and CINV go through their
range page by page. That one run is on its way at a time is the model's choice (log 38). -/
def Obligations.EngineRunsMoveBytes : Prop :=
  ∀ (s : State) (core h : Nat) (c : Core) (op : EngOp), s.cores[core]? = some c → c.ops.find? (fun o => o.handle == h) = some op →
    op.begun = true → op.waiting = false → op.reading = none → op.run = none → op.exhausted = false → op.paused = false →
    op.list.length = op.listSpan.2 →
    let ws := op.words
    let becomes (f : State → EngOp → Prop) : Prop := ∃ t op', exec (.engineRunDelivered core h) s = .next t ∧
      t.mem.cells = s.mem.cells ∧ t.teams = s.teams ∧ t.op? core h = some op' ∧ op'.outcome = none ∧ f t op'
    let reads (scratch : Bool) (a n : Nat) (bs : List Byte) : Prop :=
      if scratch then ∃ u off, s.engScratch op a n = some (u, off) ∧ scratchDamaged u off n = none ∧ bs = cgets u.scratch off n
      else ∃ p, s.engPlace op a false = .inl p ∧ p.home = true ∧ s.mem.ingressUntil p.pa n ≤ s.gtime ∧
        s.mem.damagedByte p.pa n = none ∧ bs = cgets s.mem.cells p.pa n
    let writes (a : Nat) (bs : List Byte) : Prop :=
      ∀ p, s.engPlace op a true = .inl p → p.home = true → s.mem.mergedByte p.pa bs.length = none →
        becomes fun t op' => op'.progress = op.progress + bs.length ∧ ∃ r, op'.run = some r ∧ r.bytes = bs.length ∧
          r.remote = [] ∧ r.banks = [] ∧ op'.lastWct = r.wct ∧ t.mem.received p.pa bs op.lastWct r.wct
    let sends (addrs : List Nat) (bs : List Byte) : Prop :=
      ∀ places : List (Team × Nat), (addrs.map fun a => s.engScratch op a bs.length) = places.map some →
        becomes fun t op' => op'.progress = op.progress + bs.length ∧ t.mem.updates = s.mem.updates ∧ ∃ r, op'.run = some r ∧
          r.bytes = bs.length ∧ r.remote = [] ∧ (∀ w ∈ r.banks, s.gtime ≤ w.due) ∧
          r.banks.map (fun w => (w.team, w.offset, w.bytes)) = places.map fun (u, off) => (u.uid, off, bs)
    let moves (from_ to_ : Bool × Nat) (n : Nat) : Prop := ∀ bs, reads from_.1 from_.2 n bs →
      if to_.1 then sends [to_.2] bs else writes to_.2 bs
    let left := op.total - op.progress
    (op.kind = 1 → op.data = [] →
      let src := wd64 ws 2 + op.progress
      let dst := wd64 ws 4 + op.progress
      let n := min (min (min left (toBoundary src)) (min left (toBoundary dst))) (512 - op.progress % 512)
      (cpyDTRUG ws = false →
        (cpyDSP ws = false ∨ cpyMCAST ws = false → moves (cpySSP ws, src) (cpyDSP ws, dst) n) ∧
        (cpyDSP ws = true → cpyMCAST ws = true → ∀ bs, reads (cpySSP ws) src n bs →
          sends ((membersOf (wd ws 11)).map fun m => m * 2 ^ 28 + dst % 2 ^ 28) bs)) ∧
      (cpyDTRUG ws = true → ∀ v off i, s.opTrug op = some (v, off) → op.trugSlot = some i →
        trugDamaged v off [(0, 16), (64 + 4 * i, 4)] = none →
        let n := min (min (min left (toBoundary src)) 512) (512 - op.progress % 512)
        let in_ := op.progress % v.trugSize off
        n ≤ v.trugSize off - in_ → ∀ bs, reads (cpySSP ws) src n bs →
          sends ((membersOf (v.trugConsumers off)).map fun m => m * 2 ^ 28 + (v.trugBase off + i * v.trugSize off + in_)) bs)) ∧
    (op.kind = 2 ∨ op.kind = 3 → op.data = [] →
      let size := gsSize ws
      let e := op.progress / size
      let i0 := e % wd ws 6
      let j := if gsIndex ws then leNat ((op.list.drop (4 * i0)).take 4) else i0
      let st (k : Nat) : Int := ((ws[k]?).getD 0).toInt
      let a : Int := wd64 ws 4 + j * st 11 + (e / wd ws 6 % wd ws 7 : Nat) * st 9 + (e / wd ws 6 / wd ws 7 : Nat) * st 10
      let strided := a.toNat + op.progress % size
      let contiguous := wd64 ws 2 + op.progress
      let n := min (min (min (size - op.progress % size) (toBoundary strided)) (min left (toBoundary contiguous)))
        (512 - op.progress % 512)
      0 ≤ a → a % (min size 4 : Nat) = 0 → wd64 ws 2 % min size 4 = 0 →
        (op.kind = 2 → moves (gsTSP ws, strided) (gsCSP ws, contiguous) n) ∧
        (op.kind = 3 → moves (gsCSP ws, contiguous) (gsTSP ws, strided) n)) ∧
    (op.kind = 5 ∨ op.kind = 6 →
      let sources := if op.kind = 5 then (if bopOp ws = 2 then [wd64 ws 2] else [wd64 ws 2, wd64 ws 4])
        else sourcesOf op.list (bredCount ws)
      let size := if op.kind = 5 then bankSize (flagOf ws 10) else bankSize (bredFmt ws == 1)
      let elem (xs : List Nat) : Nat :=
        if op.kind = 5 then bankopElem (bopOp ws) (flagOf ws 10) (wd ws 9) (xs.headD 0) (xs.getD 1 0)
        else xs.tail.foldl (reduceElem (bopOp ws) (bredFmt ws)) (xs.headD 0)
      let result := wd64 ws 6 + op.progress
      let n := (sources.foldl (fun n a => min n (toBoundary (a + op.progress))) (min left (toBoundary result))) / size * size
      (∀ a ∈ sources, a % size = 0 ∧ a < 2 ^ 48) → sources ≠ [] →
      ∀ (columns : List (List Byte)) (q : Place), columns.length = sources.length →
        (∀ (k a : Nat), sources[k]? = some a → ∃ p, s.engPlaceIn true op (a + op.progress) false = .inl p ∧
          s.mem.ingressUntil p.pa n ≤ s.gtime ∧ s.mem.damagedByte p.pa n = none ∧ columns[k]? = some (cgets s.mem.cells p.pa n)) →
        s.engPlaceIn true op result true = .inl q → s.mem.mergedByte q.pa n = none →
        let bs := ((List.range (n / size)).map fun i =>
          natLe size (elem (columns.map fun column => leNat ((column.drop (size * i)).take size)))).flatten
        becomes fun t op' => op'.progress = op.progress + n ∧ ∃ r, op'.run = some r ∧ r.bytes = n ∧ r.banks = [] ∧
          r.remote = [] ∧ t.mem.received q.pa bs op.lastWct r.wct) ∧
    (op.kind = 4 → op.peers ≠ [] →
      let coll := collOf ws op.map
      (∀ q k, op.work = some (.send q k) → op.data.length < chunkLen coll op.map coll.rank k →
        let piece := sendPiece coll op.map q (k * coll.chunk + op.data.length) (chunkLen coll op.map coll.rank k - op.data.length)
        (coll.esp = false → piece.1 = coll.send + (if coll.ckind = 0 ∨ coll.ckind = 2 then q * coll.bytes else 0) +
          (k * coll.chunk + op.data.length)) ∧
        ∀ bs, reads false piece.1 piece.2 bs → becomes fun t op' => t.mem.updates = s.mem.updates ∧
          op'.data = op.data ++ bs ∧ op'.progress = op.progress ∧ op'.run = none) ∧
      ∀ p k, op.work = some (.write p k) → op.data ≠ [] →
        let done := chunkLen coll op.map p k - op.data.length
        let piece := recvPiece coll op.map p (k * coll.chunk + done) op.data.length
        (coll.esp = false → piece.1 = coll.recv + (if coll.ckind = 0 ∨ coll.ckind = 1 then p * coll.bytes else 0) +
          (k * coll.chunk + done)) ∧
        writes piece.1 (op.data.take piece.2)) ∧
    (op.kind = 8 ∨ op.kind = 9 →
      let va := wd64 ws 0 + op.progress
      let n := min left (2 ^ 16 - va % 2 ^ 16)
      ∀ p, va < 2 ^ 48 → s.xlatG core op.grid va = .ok p → p.home = true →
        becomes fun t op' => op'.progress = op.progress + n ∧ t.mem.updates = s.mem.updates ∧
          (op.kind = 9 → ∀ b ∈ (t.core core).l1, 512 * b.block + 512 ≤ p.pa ∨ p.pa + n ≤ 512 * b.block) ∧
          (op.kind = 8 → ∀ b ∈ t.mem.llc, ∀ k < 4, p.pa < 512 * b.block + 128 * k + 128 → 512 * b.block + 128 * k < p.pa + n →
            b.dirty.getLsbD k = false))

/-! ## Cuttings (R371 to R383) -/

/-- R228, R372, R374 to R380, R383: a record whose wait is over may start on a cutting. CTGET brings V1 for the latest
version, V2 for the one before it and, to a group on a cutting for the next, the speculative version, one level up, or
else the prediction, at level 1; it waits for a version to come, and ends STALEGEN for one gone by. A real CTPOST moves
V1 to V2 and makes its tile V1 and the slot's next version: it withdraws a speculative version that is pending, whose
groups are squashed, and resolves a prediction, with RESULT, MAXERR and RESVER, whose groups commit or are squashed; a
speculative one writes SPEC at its group's level, and waits while another is pending. A commit whose write-back is
visible ends the group's speculation: its held records enter the pool with that time, and what it posted becomes real.
A squash, by the hardware too, empties what the groups hold and clears the versions they posted; their records come back
with the time by which the step's headers are written, as the run in 21_cuttings_notes.md has it. That a slot's versions
in between are waited for, or stale, by their order is the model's choice (log 40), and so is that a withdrawn SPEC
reads zeros (log 80). -/
def Obligations.CuttingTurns : Prop :=
  ∀ (s : State),
    let doomedAt (t : State) (u : Nat) (f : Nat → Prop) : Prop := ∃ sp time, t.specOf u = some sp ∧
      sp.doomed = some time ∧ s.gtime ≤ time ∧ f time ∧ sp.lines = [] ∧ sp.held = []
    let doomed (t : State) (u : Nat) : Prop := doomedAt t u fun _ => True
    (∀ r, exec (.cuttingWaitExpiry r) s = .next { s with pool := s.pool.map (fun t =>
      (if t.uid = r ∧ t.gated = true ∧ s.mayCutNow t = true then { t with gated := false, since := s.gtime } else t)) }) ∧
    (∀ (c : CutSlot) (p : List Byte), (∀ x ∈ elemsOf 4 4096 p, fF32.isNan x = false) → judge c p p = (true, 0)) ∧
    (∀ (core h : Nat) (c : Core) (op : EngOp) (slot : CutSlot), s.cores[core]? = some c →
      c.ops.find? (fun o => o.handle == h) = some op → op.outcome = none → s.slot? op.grid op.cutSlot = some slot →
      s.doomedOp op = false →
      let becomes (i : Instr) (f : State → EngOp → Prop) : Prop := ∃ t op', exec i s = .next t ∧ t.op? core h = some op' ∧ f t op'
      let at_ (off : Nat) : List Byte := s.slotRead slot off slot.bytes
      let foretold := predict slot.mode (at_ 128) (at_ (128 + slot.bytes))
      let v := slot.version
      let next := (v + 1) % 2 ^ 16
      (op.kind = 12 → op.paused = false → (op.waiting = true ∨ mayBegin c.ops op = true) →
        let want := op.cutWant
        let gets (bs : List Byte) (level : Nat) (producer : Option Nat) : Prop :=
          ∀ u off, s.engScratch op (wd op.words 1) bs.length = some (u, off) → becomes (.ctgetTurn core h) fun t op' =>
            op'.outcome = some (.ok, 0) ∧ op'.pred = decide (level ≠ 0) ∧ op'.version = want ∧ op'.waiting = false ∧
            t.mem = s.mem ∧ (∃ r, op'.run = some r ∧
              r.banks.map (fun w => (w.team, w.offset, w.bytes)) = [(u.uid, off, bs)]) ∧
            (level = 0 → t.specOf op.group = s.specOf op.group) ∧
            ∀ sp, level ≠ 0 → s.specOf op.group = some sp → ∃ sp', t.specOf op.group = some sp' ∧ sp'.level = level ∧
              (∀ u, producer = some u → sp'.producer = some u) ∧ (producer = none → sp'.predicted = true)
        let waits : Prop := (∀ g, s.grid? op.grid = some g → g.terminating = false) → becomes (.ctgetTurn core h) fun t op' =>
          op'.waiting = true ∧ op'.outcome = none ∧ t.specOf op.group = s.specOf op.group
        let cutting : Prop := op.waiting = false ∧ ∃ sp, s.specOf op.group = some sp ∧ sp.slot = op.cutSlot ∧ sp.want = want
        let posted : Prop := 0 < slot.specLevel ∧ slot.specVer = want ∧ slot.specLevel ≤ 2
        let least := if slot.mode = 0 then 1 else 2
        (v % 2 ^ 16 = want → gets (at_ 128) 0 none) ∧
        (v % 2 ^ 16 ≠ want → 2 ≤ v → (v - 1) % 2 ^ 16 = want → gets (at_ (128 + slot.bytes)) 0 none) ∧
        (want = next → cutting → posted → gets (at_ (128 + 2 * slot.bytes)) (slot.specLevel + 1) (some slot.specBy)) ∧
        (want = next → cutting → ¬ posted → least ≤ v → gets foretold 1 none) ∧
        (want = next → ¬ cutting ∨ (¬ posted ∧ v < least) → waits) ∧
        (v % 2 ^ 16 ≠ want → want ≠ next → ¬ (2 ≤ v ∧ (v - 1) % 2 ^ 16 = want) →
          let ahead : Int := (BitVec.ofNat 16 v - BitVec.ofNat 16 want).toInt
          (ahead ≤ 0 → waits) ∧
          (0 < ahead → becomes (.ctgetTurn core h) fun t op' => op'.outcome = some (.staleGen, 0) ∧ op'.run = op.run ∧
            t.specOf op.group = s.specOf op.group))) ∧
      (op.kind = 11 → mayBegin c.ops op = true → ∀ u off, s.engScratch op (wd op.words 1) slot.bytes = some (u, off) →
        scratchDamaged u off slot.bytes = none →
        let tile := u.bytes off slot.bytes
        let level := s.levelOf op.group
        let written (t : State) (slot' : CutSlot) (time : Nat) : Prop :=
          slot.store % 4 = 0 → slot.split % 4 = 0 → slot.store2 % 4 = 0 → t.slotReceived slot 0 slot'.header s.gtime time
        let posts (f : State → EngOp → CutSlot → Nat → Prop) : Prop := becomes (.ctpostTurn core h) fun t op' =>
          op'.outcome = some (.ok, 0) ∧ op'.version = next ∧ ∃ r slot', op'.run = some r ∧
            t.slot? op.grid op.cutSlot = some slot' ∧ f t op' slot' r.wct
        (level = 0 → slot.specLevel = 0 → slot.foretold = false → posts fun t _ slot' wct =>
          slot' = { slot with version := (v + 1) % 2 ^ 64 } ∧
          t.slotReceived slot 128 tile s.gtime wct ∧ t.slotReceived slot (128 + slot.bytes) (at_ 128) s.gtime wct ∧
          t.slotReceived slot 0 slot'.header s.gtime wct) ∧
        (level = 0 → slot.specLevel ≠ 0 → slot.foretold = false → posts fun t _ slot' _ =>
          slot'.version = (v + 1) % 2 ^ 64 ∧ slot'.specLevel = 0 ∧ slot'.specVer = 0 ∧
          ∀ k sp, s.specOf k = some sp → sp.live = true → k = slot.specBy ∨ sp.producer = some slot.specBy →
            doomedAt t k (written t slot')) ∧
        (level = 0 → slot.specLevel = 0 → slot.foretold = true →
          let ok := (judge slot foretold tile).1
          posts fun t _ slot' _ => slot'.version = (v + 1) % 2 ^ 64 ∧ slot'.foretold = false ∧
            slot'.result = (if ok then 1 else 2) ∧ slot'.maxErr = (judge slot foretold tile).2 ∧ slot'.resVer = v + 1 ∧
            ∀ k sp, s.specOf k = some sp → sp.live = true → sp.predicted = true → sp.slot = op.cutSlot → sp.want = next →
              (ok = true → ∃ sp', t.specOf k = some sp' ∧ sp'.committing ≠ none ∧ sp'.lines = [] ∧ sp'.held = sp.held) ∧
              (ok = false → doomedAt t k (written t slot'))) ∧
        (level ≠ 0 → slot.specLevel = 0 → posts fun t _ slot' wct =>
          slot' = { slot with specVer := next, specLevel := level, specBy := op.group } ∧
          t.slotReceived slot (128 + 2 * slot.bytes) tile s.gtime wct ∧ t.slotReceived slot 0 slot'.header s.gtime wct) ∧
        (level ≠ 0 → slot.specLevel ≠ 0 → becomes (.ctpostTurn core h) fun t op' => op'.outcome = none ∧ t.cuts = s.cuts ∧
          t.mem = s.mem))) ∧
    (∀ uid sp wct, s.specOf uid = some sp → sp.committing = some wct →
      (s.gtime < wct → exec (.commitWritebackDone uid) s = .next s) ∧
      (wct ≤ s.gtime → ∃ t, exec (.commitWritebackDone uid) s = .next t ∧ t.specOf uid = none ∧
        (s.pool.length + sp.held.length ≤ 65536 → (∀ k ∈ sp.held, s.grid? k.grid ≠ none) →
          let shape (k : Task) : Nat × Nat × List Word × DWord × DWord × Nat × Nat :=
            (k.grid, k.entry, k.args, k.argp, k.tile, k.succ, k.vis)
          t.pool.map shape = s.pool.map shape ++ sp.held.map fun k => shape { k with vis := wct }) ∧
        ((∀ e ∈ s.cuts, e.2.foretold = false) → ∀ n c, s.cuts.filter (fun e => e.1 == n) = [(n, c)] → 0 < c.specLevel →
          c.specBy = uid → (∃ c', t.slot? c.grid n = some c' ∧ c'.version = (c.version + 1) % 2 ^ 64 ∧ c'.specLevel = 0 ∧
            c'.specVer = 0) ∧
          ∀ k q, s.specOf k = some q → q.live = true → q.producer = some uid → q.slot = n →
            ∃ q', t.specOf k = some q' ∧ q'.committing ≠ none ∧ q'.lines = []))) ∧
    (∀ core uid sp, s.specOf uid = some sp → sp.live = true → sp.lines ≠ [] →
      ∃ t, exec (.speculativeLineError core uid) s = .next t ∧ doomed t uid ∧
        (∃ msg, t.outbox = s.outbox ++ [msg] ∧ msg.mtype = mtEvent ∧ msg.status = 6) ∧
        (∀ k q, s.specOf k = some q → q.live = true → q.producer = some uid → doomed t k) ∧
        ∀ n c, s.cuts.filter (fun e => e.1 == n) = [(n, c)] → 0 < c.specLevel → c.specBy = uid →
          ∃ c', t.slot? c.grid n = some c' ∧ c'.specLevel = 0 ∧ c'.specVer = 0 ∧ c'.version = c.version ∧
            ∃ wct, t.slotReceived c (128 + 2 * c.bytes) (List.replicate c.bytes 0) s.gtime wct) ∧
    ∀ core,
      let us := s.groups.filter fun g => s.coreOf g.team == core && g.spec.any (·.live)
      ((us = [] ∨ ∃ g ∈ us, g.noRoom = false) → exec (.speculativeRoomSquash core) s = .next s) ∧
      (us ≠ [] → (∀ g ∈ us, g.noRoom = true ∧ s.specOf g.uid = g.spec) → ∃ t, ∃ g ∈ us, exec (.speculativeRoomSquash core) s = .next t ∧
        doomed t g.uid ∧ ∀ k ∈ us, ∀ sp sp', k.spec = some sp → g.spec = some sp' → sp.level ≤ sp'.level)
/-! ## Ports, links and packets (R335 to R342, R349 to R359) -/

/-- R337 to R341, R350, R354, R355, R358, R367: a granted circuit goes through LOCKING, TRAINED and the handshake to
LIVE, with its generation raised, and sleeps and wakes; a wake asks the peer to wake, starts the stripe afresh, and
retrains without the lanes that failed meanwhile, or ends in FAULT where none is left; a refusal and the end of a drain
leave DARK. Each change of state writes the barrier word, once a CREQ has named one. That a drain takes a free time
within its bound and that a wake is one step is the model's choice (log 44). -/
def Obligations.PortsComeUpSleepAndWake : Prop :=
  ∀ (s : State) (n : Nat) (p : Port), s.fabric.ports[n]? = some p → n < 32 →
    let becomes (i : Instr) (f : State → Port → Prop) : Prop := ∃ t q, exec i s = .next t ∧ t.fabric.ports[n]? = some q ∧
      f t q
    let enters (i : Instr) (st : PortState) (f : Port → Prop) : Prop := becomes i fun t q => s.portEntered t n st ∧ f q
    (p.state = .requested → p.granted = none → ∀ peer setup code,
      (becomes (.circuitGrant n peer setup) fun t q => t.mem = s.mem ∧
        q = { p with granted := some s.gtime, peerPort := peer % 256, setup := min setup 65535 }) ∧
      enters (.brokerRefusal n code) .dark fun q => q.refusal = code % 256) ∧
    (p.state ≠ .requested → ∀ peer setup code, exec (.circuitGrant n peer setup) s = .next s ∧
      exec (.brokerRefusal n code) s = .next s ∧ exec (.lightDetected n) s = .next s) ∧
    (p.state = .requested → p.granted ≠ none → enters (.lightDetected n) .locking fun q => q.granted = p.granted) ∧
    (p.state = .locking → enters (.lockAchieved n) .trained fun q => q.trained = false ∧ q.channel.working = 0xFFFF) ∧
    (p.state ≠ .locking → exec (.lockAchieved n) s = .next s) ∧
    (p.state = .trained → p.trained = false → ∀ rank, becomes (.trainingDone n rank) fun t q =>
      t.mem = s.mem ∧ q.trained = true ∧ q.state = .trained ∧ q.due = s.gtime + 1000 ∧ q.channel.peerRank = some rank ∧
      q.channel.retry = [] ∧ q.channel.waiting = [] ∧ q.channel.credits = Channel.reset.credits ∧
      q.channel.working = p.channel.working ∧
      t.fabric.rankOut = s.fabric.rankOut ++ [(n, p.channel.rank)]) ∧
    (p.state = .trained → p.trained = true → p.due ≤ s.gtime →
      enters (.liveHandshakeDone n) .live fun q => q.generation = p.generation + 1 ∧ q.degrades = 0) ∧
    (s.gtime < p.due → exec (.liveHandshakeDone n) s = .next s) ∧
    (p.state = .live → 400 ≤ p.tol → p.idle + 2000 ≤ s.gtime → p.channel.waiting = [] → p.channel.retry = [] →
      p.channel.retrain = none → s.carriesCopy n = false → enters (.portDoze n) .doze fun q => q.channel = p.channel) ∧
    (p.tol < 400 ∨ s.gtime < p.idle + 2000 → exec (.portDoze n) s = .next s) ∧
    (p.state = .doze → 25000 ≤ p.tol → p.since + 100000 ≤ s.gtime → enters (.portNap n) .nap fun q => q.channel = p.channel) ∧
    (p.tol < 25000 ∨ s.gtime < p.since + 100000 → exec (.portNap n) s = .next s) ∧
    (p.state = .doze ∨ p.state = .nap →
      let left := p.channel.working &&& ~~~p.channel.lost
      let wakes (f : Port → Prop) : Prop := becomes (.portWake n) fun t q => s.portEntered t n .live ∧
        t.fabric.wakeOut = s.fabric.wakeOut ++ [n] ∧ q.generation = p.generation ∧ q.channel.working = left ∧ f q
      (p.channel.lost = 0 → wakes fun q => q.degrades = p.degrades ∧
        (p.channel.waiting = [] → p.channel.owed = (0, 0) → q.channel = { p.channel with stripe := 0 })) ∧
      (p.channel.lost ≠ 0 → left ≠ 0 → p.channel.retrain = none → wakes fun q => q.channel.retrain = some s.gtime ∧
        q.channel.lost = 0 ∧ q.degrades = min (p.degrades + 1) 65535) ∧
      (p.channel.lost ≠ 0 → left = 0 → ∃ t, exec (.portWake n) s = .next t ∧ s.portEntered t n .fault ∧ s.boundEnded t n ∧
        t.fabric.broker = s.fabric.broker ++ [(n, 2)])) ∧
    (p.state ≠ .doze → p.state ≠ .nap → exec (.portWake n) s = .next s) ∧
    (p.state = .draining → p.due ≤ s.gtime → ∃ t, exec (.drainEnd n) s = .next t ∧ s.portEntered t n .dark ∧
      s.boundEnded t n ∧ t.fabric.broker = s.fabric.broker ++ [(n, 1)]) ∧
    (s.gtime < p.due → exec (.drainEnd n) s = .next s)

/-- R337, R340, R353, R358: a bound that passes, lost light, a fault of the peer and a failed retrain take the port to
FAULT: copies bound to it end, the requests they carried over it are given up, a packet whose copy flits stand in the
retry buffer, a copy's own write or the data that it returns to a peer's, is reported as undelivered, the broker is told and an EVENT of kind 4 is posted; a release of the peer
begins the drain, and ends a circuit that was granted and is not up. That packets waiting for credits are treated as
those in the retry buffer, and a forwarded one's source is told, is the model's choice (log 43). -/
def Obligations.PortFaultsAndReleases : Prop :=
  ∀ (s : State) (n : Nat) (p : Port), s.fabric.ports[n]? = some p → n < 32 →
    let faults (i : Instr) : Prop := ∃ t msg, exec i s = .next t ∧ s.portEntered t n .fault ∧ s.boundEnded t n ∧
      t.fabric.broker = s.fabric.broker ++ [(n, 2)] ∧ t.outbox.getLast? = some msg ∧ msg.mtype = mtEvent ∧
      msg.status = 4 ∧ msg.addr = n ∧ (∃ q, t.fabric.ports[n]? = some q ∧ q.channel.retry = [] ∧ q.channel.waiting = []) ∧
      (∀ r ∈ s.fabric.remotes, r.port = some n → ∀ q ∈ t.fabric.remotes, q.id ≠ r.id) ∧
      ∀ k ∈ p.channel.retry, k.copy = true → (viewPacket k.whole).type ≠ 5 → ∃ m ∈ t.outbox, m.mtype = mtEvent ∧
        m.status = 3 ∧ m.addr = (viewPacket k.whole).addr ∧ m.payload = natLe 8 (viewPacket k.whole).dst
    let stays (i : Instr) : Prop := exec i s = .next s
    (∀ g, p.state = .requested → p.granted = some g →
      if g + 10000 < s.gtime then faults (.lightTimeout n) else stays (.lightTimeout n)) ∧
    (p.state = .locking → if p.since + 30000 < s.gtime then faults (.lockTimeout n) else stays (.lockTimeout n)) ∧
    (p.state = .trained → p.trained = false →
      if p.since + 6000 < s.gtime then faults (.trainingTimeout n) else stays (.trainingTimeout n)) ∧
    (p.state = .draining → if p.since + 2000 < s.gtime then faults (.drainTimeout n) else stays (.drainTimeout n)) ∧
    (∀ r, p.channel.retrain = some r →
      if r + 50000 < s.gtime then faults (.retrainTimeout n) else stays (.retrainTimeout n)) ∧
    (if p.state = .dark ∨ p.state = .requested ∨ p.state = .fault then stays (.lightLoss n) else faults (.lightLoss n)) ∧
    (if p.state = .dark ∨ p.state = .fault ∨ (p.state = .requested ∧ p.granted = none)
      then stays (.peerFault n) else faults (.peerFault n)) ∧
    (if p.state = .fault then stays (.ucieFailure n) else faults (.ucieFailure n)) ∧
    (p.state = .live ∨ p.state = .doze ∨ p.state = .nap → ∃ t, exec (.peerRelease n) s = .next t ∧
      s.portEntered t n .draining ∧ ∀ k, k ≠ n → t.fabric.ports[k]? = s.fabric.ports[k]?) ∧
    (p.state = .locking ∨ p.state = .trained ∨ (p.state = .requested ∧ p.granted ≠ none) →
      ∃ t, exec (.peerRelease n) s = .next t ∧ s.portEntered t n .dark ∧ t.fabric.broker = s.fabric.broker ++ [(n, 1)]) ∧
    (p.state = .dark ∨ p.state = .draining ∨ p.state = .fault ∨ (p.state = .requested ∧ p.granted = none) →
      stays (.peerRelease n))

/-- R335, R350, R354 to R358, R367: byte i of a channel's stream goes to the working lane i mod L, at position i / L.
Failed lanes leave the working set of a path that carries flits: it stops, tells the other end by a marker and
retrains; in TRAINED they stay out of the lane map, and a sleeping port finds them at its wake. With no lane left, or a
retrain that takes more than 50 us, the port faults or the link goes down. After a retrain the stripe starts afresh and
credit returns go first; once those of the other end have come the replay follows, and its flits take their credits from
the counts that came; a missing ACK replays, in a drain too; a trained link is up with all its lanes; a reported rank is
kept. That idle, credit and marker flits take no SEQ is the model's choice (log 44), and so is what a
marker says (log 83). -/
def Obligations.LanesLinksAndReplays : Prop :=
  (∀ (lanes : BitVec 16) (i : Nat), lanes ≠ 0 →
    let ls := (List.range 16).filter lanes.getLsbD
    ∃ l, stripeOf lanes i = some (l, i / ls.length) ∧ lanes.getLsbD l = true ∧ l < 16 ∧
      (ls.filter (· < l)).length = i % ls.length) ∧
  ∀ (s : State) (c : Nat) (ch : Channel), s.fabric.channel? c = some ch →
    let becomes (i : Instr) (f : State → Channel → Prop) : Prop := ∃ t ch', exec i s = .next t ∧
      t.fabric.channel? c = some ch' ∧ f t ch'
    let link (k : Nat) : Option ELink := s.fabric.links[k]?
    let announced (t : State) (n : Nat) : Prop := ∃ msg, t.outbox.getLast? = some msg ∧ msg.mtype = mtEvent ∧
      msg.status = 4 ∧ msg.addr = n
    let down (t : State) (n : Nat) : Prop := announced t n ∧ (n < 32 → s.portEntered t n .fault) ∧
      (32 ≤ n → ∃ l, t.fabric.links[n - 32]? = some l ∧ l.up = false)
    let wire (start : Nat) (lanes : BitVec 16) (flits : List (List Byte)) : List WireFlit :=
      mapFrom (fun k flit => ⟨c, start + 64 * k, lanes, flit⟩) 0 flits
    let replayed : List (List Byte) := ch.retry.map fun r => reAck ch.received r.flit
    let alive : Prop := (c < 32 ∧ ((s.port c).state = .live ∨ (s.port c).state = .draining)) ∨
      (32 ≤ c ∧ ∃ l, link (c - 32) = some l ∧ l.up = true)
    (∀ lanes,
      let left := ch.working &&& ~~~lanes
      (ch.working &&& lanes = 0 → exec (.laneFailure c lanes) s = .next s) ∧
      (ch.working &&& lanes ≠ 0 → alive →
        (left ≠ 0 → becomes (.laneFailure c lanes) fun t ch' => t.mem = s.mem ∧ ch'.working = left ∧
          ch'.retrain = some (ch.retrain.getD s.gtime) ∧ ch'.retry = ch.retry ∧
          t.fw.laneDegrades = s.fw.laneDegrades + 1 ∧ t.fabric.wire = s.fabric.wire ++
            wire ch.stripe left [flitBytes (natLe 2 left.toNat) 0 ch.received 4 0 0]) ∧
        (left = 0 → becomes (.laneFailure c lanes) fun t ch' => ch'.working = 0 ∧ down t c ∧
          t.fw.laneDegrades = s.fw.laneDegrades + 1)) ∧
      (ch.working &&& lanes ≠ 0 → c < 32 →
        ((s.port c).state = .trained → left ≠ 0 → becomes (.laneFailure c lanes) fun t ch' => t.mem = s.mem ∧
          ch' = { ch with working := left }) ∧
        ((s.port c).state = .trained → left = 0 → ∃ t, exec (.laneFailure c lanes) s = .next t ∧ down t c) ∧
        ((s.port c).state = .doze ∨ (s.port c).state = .nap → becomes (.laneFailure c lanes) fun t ch' => t.mem = s.mem ∧
          ch' = { ch with lost := ch.lost ||| lanes }))) ∧
    (ch.retrain ≠ none → becomes (.retrainEnd c) fun t ch' => t.mem = s.mem ∧ ch'.retrain = none ∧
      ch'.resync = (true, true) ∧ ch'.replayDue = !ch.retry.isEmpty ∧ ch'.retry = ch.retry ∧ ch'.working = ch.working ∧
      t.fabric.wire = s.fabric.wire ++ wire 0 ch.working [flitBytes [] 0 ch.received 3 0 (s.fabric.freeCount c 0),
        flitBytes [] 0 ch.received 3 1 (s.fabric.freeCount c 1)]) ∧
    (∀ flit, s.fabric.hears c = true → ch.retrain = none → ch.replayDue = true → ch.waiting = [] →
      let v := viewFlit flit
      let left := ch.retry.filter fun r => !covers16 v.ack (fieldAt r.flit 56 2)
      v.good = true → v.kind = 3 → ch.resync = (if v.vc = 0 then (true, false) else (false, true)) →
        becomes (.flitReceive c flit) fun t ch' => t.mem = s.mem ∧ ch'.replayDue = false ∧ ch'.resync = (false, false) ∧
          t.fabric.wire = s.fabric.wire ++ wire ch.stripe ch.working (left.map fun r => reAck ch.received r.flit) ∧
          ch'.credit v.vc = v.credit - (left.filter fun r => packetVc (viewPacket r.whole).type == v.vc).length) ∧
    (ch.retrain = none → exec (.retrainEnd c) s = .next s ∧ exec (.retrainTimeout c) s = .next s) ∧
    (∀ r, 32 ≤ c → ch.retrain = some r →
      if r + 50000 < s.gtime then ∃ t, exec (.retrainTimeout c) s = .next t ∧ down t c
      else exec (.retrainTimeout c) s = .next s) ∧
    (s.fabric.hears c = true → ch.retrain = none → ch.retry ≠ [] → ch.ackTime + 2000 ≤ s.gtime → becomes (.retryTimeout c) fun t ch' =>
      t.mem = s.mem ∧ t.fabric.wire = s.fabric.wire ++ wire ch.stripe ch.working replayed ∧ ch'.retry = ch.retry ∧
      ch'.ackTime = s.gtime ∧ ch'.retries = ch.retries + 1 ∧ t.fw.linkRetries = s.fw.linkRetries + 1) ∧
    (s.gtime < ch.ackTime + 2000 → exec (.retryTimeout c) s = .next s) ∧
    (∀ rank, becomes (.rankReport c rank) fun t ch' => t.mem = s.mem ∧ ch'.peerRank = some rank ∧
      (ch.waiting = [] → ch' = { ch with peerRank := some rank })) ∧
    ∀ k l, link k = some l →
      (l.up = true → ∃ t l', exec (.elinkDown k) s = .next t ∧ t.fabric.links[k]? = some l' ∧ l'.up = false ∧
        announced t (32 + k)) ∧
      (l.up = false → exec (.elinkDown k) s = .next s ∧ ∀ rank, ∃ t l', exec (.electricalLinkTrained k rank) s = .next t ∧
        t.mem = s.mem ∧ t.fabric.links[k]? = some l' ∧ l'.up = true ∧ l'.channel.working = 0xFFFF ∧
        l'.channel.peerRank = some rank ∧ l'.channel.retry = [] ∧
        t.fabric.rankOut = s.fabric.rankOut ++ [(32 + k, l.channel.rank)])

/-- R286, R287, R302, R336, R342, R349, R350, R351, R353, R355, R356, R359, R370: a flit in order is taken and answered by
an idle flit with its ACK; a bad one, or one already taken, has no effect but an idle flit; a marker stops this end too,
over the lanes that both can use. Each virtual channel's packets are taken in their order, whatever waits in the other,
and the credits of a packet's flits go back as it leaves the buffer. A packet for another chip waits at the channel of
the table's route, and where there is none its source is told. A READ, WRITE or ATOMIC of a peer is performed once, its
acknowledgement waits until it is visible, and its answer is kept, to be sent again; the data that a bound copy asked for
goes back over its circuit. That a credit return (KIND 3) is taken whatever its SEQ, which leaves the order as it was, and
that credits go back when a packet leaves the buffer, is the model's reading (DEDUCED, log 44), where R336 frees only idle
flits from a SEQ. A READ's LEN and the codes of a refusal are the model's choice (log 30), and so are RTAG (log 30, 89),
the circuit's answers (log 84), the marker (log 83) and an answer that waits for a route (log 93). -/
def Obligations.FlitsAndPacketsOfPeers : Prop :=
  ∀ (s : State) (c : Nat) (ch : Channel), s.fabric.channel? c = some ch →
    (∀ flit, s.fabric.hears c = false → exec (.flitReceive c flit) s = .next s) ∧
    (∀ flit, s.fabric.hears c = true →
      let v := viewFlit flit
      let key := v.vc + if v.kind = 2 then 2 else 0
      let have_ := tget [] ch.partials key ++ v.payload
      let ordered : Prop := v.good = true ∧ ((v.kind = 1 ∨ v.kind = 2) → v.seq = (ch.received + 1) % 65536)
      let becomes (f : State → Channel → Prop) : Prop := ∃ t ch', exec (.flitReceive c flit) s = .next t ∧ t.mem = s.mem ∧
        t.fabric.channel? c = some ch' ∧ f t ch'
      let both := ch.working &&& BitVec.ofNat 16 (fieldAt v.payload 0 2)
      (v.good = true → v.kind = 4 → both ≠ 0 → becomes fun t ch' => ch'.working = both ∧
        ch'.retrain = some (ch.retrain.getD s.gtime) ∧ ch'.received = ch.received ∧ t.fabric.arrived = s.fabric.arrived) ∧
      (ch.retrain ≠ none → v.good = false ∨ v.kind ≠ 4 → exec (.flitReceive c flit) s = .next s) ∧
      (ch.retrain = none → v.good = false ∨ v.kind ≠ 4 →
        (¬ ordered → becomes fun t ch' => ch' = { ch with stripe := ch.stripe + 64 } ∧
          t.fabric.arrived = s.fabric.arrived ∧
          t.fabric.wire = s.fabric.wire ++ [⟨c, ch.stripe, ch.working, flitBytes [] 0 ch.received 0 0 0⟩]) ∧
        (ordered → v.kind = 1 ∨ v.kind = 2 → becomes fun t ch' => ch'.received = v.seq ∧
          (∃ start, (ch.replayDue = false → start = ch.stripe) ∧
            ⟨c, start, ch.working, flitBytes [] 0 v.seq 0 0 0⟩ ∈ t.fabric.wire) ∧ t.fabric.arrived = s.fabric.arrived ++
            (if packetSize have_ ≤ have_.length then [(c, v.kind == 2, have_.take (packetSize have_))] else [])) ∧
        (ordered → v.kind = 0 ∨ v.kind = 3 → ch.waiting = [] → becomes fun t ch' =>
          let left := ch.retry.filter fun r => !covers16 v.ack (fieldAt r.flit 56 2)
          t.fabric.arrived = s.fabric.arrived ∧ ch'.received = ch.received ∧ ch'.retry = left ∧
          (v.kind = 3 → ch'.credit v.vc = if (if v.vc = 0 then ch.resync.1 else ch.resync.2)
            then v.credit - (left.filter fun r => packetVc (viewPacket r.whole).type == v.vc).length
            else ch.credit v.vc + v.credit)))) ∧
    ∀ before after copy bs, s.fabric.arrived = before ++ (c, copy, bs) :: after →
      (∀ e ∈ before, packetVc (viewPacket e.2.2).type ≠ packetVc (viewPacket bs).type) →
      let v := viewPacket bs
      let rest := before ++ after
      let taken : Fabric := { s.fabric with arrived := rest }.release c bs
      let out := s.fabric.route v.dst c
      let back := s.fabric.route v.src 63
      let stays : Prop := exec (.packetReceive c bs) s = .next { s with fabric := taken }
      let becomes (f : State → Prop) : Prop := ∃ t, exec (.packetReceive c bs) s = .next t ∧ t.fabric.arrived = rest ∧
        t.mem.cells = s.mem.cells ∧ f t
      let via : Option Via := if copy then some ⟨c, false⟩ else if v.type = 0 ∧ 2 ^ 63 ≤ v.rtag then some ⟨c, true⟩ else none
      let reply (type : Nat) (data : List Byte) (e : Nat) : Response :=
        ⟨v.src, v.e2e, packetBytes type false 0 s.chipId v.src e data.length v.addr v.rtag data, via⟩
      let known := s.fabric.responses.any fun r => r.chip == v.src && r.e2e == v.e2e
      let coming := s.fabric.acks.any fun a => a.response.chip == v.src && a.response.e2e == v.e2e
      let fresh : Prop := known = false ∧ coming = false
      let queues (t : State) (at_ : Nat) (whole : List Byte) : Prop := ∀ och, taken.channel? at_ = some och →
        t.fabric.channel? at_ = some { och with waiting := och.waiting ++ [⟨false, s.gtime, whole, 0⟩] }
      (s.fabric.hears c = true → ch.retrain = none → ch.owed = (0, 0) → 0 < bs.length → ∃ ch', taken.channel? c = some ch' ∧
        ch'.owed = (0, 0) ∧ taken.wire = s.fabric.wire ++ [⟨c, ch.stripe, ch.working, flitBytes [] 0 ch.received 3
          (packetVc v.type) (flitsOf bs)⟩]) ∧
      (v.dst = s.chipId → v.type = 0 → s.gtime < s.mem.ingressUntil v.addr v.len → exec (.packetReceive c bs) s = .next s) ∧
      (v.dst ≠ s.chipId → out ≠ 62 → s.fabric.carries out = true → s.fabric.sends out = false →
        becomes fun t => t.mem = s.mem ∧ queues t out bs) ∧
      (v.dst ≠ s.chipId → out = 62 ∨ s.fabric.carries out = false →
        let told := packetBytes 6 v.r v.aop v.dst v.src v.e2e 0 v.addr v.rtag []
        (v.type = 6 → stays) ∧
        (v.type ≠ 6 → v.src ≠ s.chipId → back ≠ 62 → s.fabric.carries back = true →
          s.fabric.sends back = false → becomes fun t => t.mem = s.mem ∧ queues t back told) ∧
        (v.type ≠ 6 → v.src ≠ s.chipId → back = 62 ∨ s.fabric.carries back = false → becomes fun t => t.mem = s.mem ∧
          t.fabric.stranded = s.fabric.stranded ++ [(v.src, told)])) ∧
      (v.dst = s.chipId → v.type = 1 ∨ v.type = 2 →
        (known = true → becomes fun t => t.mem = s.mem ∧ t.fabric.responses = s.fabric.responses) ∧
        (known = false → coming = true → stays)) ∧
      (v.dst = s.chipId → fresh → v.type = 0 → s.mem.ingressUntil v.addr v.len ≤ s.gtime → s.targetOk v.addr v.len = true →
        s.mem.damagedByte v.addr v.len = none → becomes fun t => t.mem.updates = s.mem.updates ∧
          ∃ e, reply 3 (cgets s.mem.cells v.addr v.len) e ∈ t.fabric.responses) ∧
      (v.dst = s.chipId → fresh → v.type = 1 → v.data ≠ [] → s.targetOk v.addr v.data.length = true →
        s.mem.mergedByte v.addr v.data.length = none → becomes fun t => ∃ wct e,
          t.mem.received v.addr v.data s.gtime wct ∧ t.fabric.acks = s.fabric.acks ++ [⟨wct, reply 4 [] e⟩]) ∧
      (v.dst = s.chipId → fresh → v.type = 2 → v.r = false → v.aop < 13 → v.data.length = 4 → v.addr % 4 = 0 →
        s.targetOk v.addr 4 = true → s.mem.damagedByte v.addr 4 = none →
        (∀ u ∈ s.mem.updates, u.word ≠ v.addr) → becomes fun t =>
          let old := BitVec.ofNat 32 (leNat (cgets s.mem.cells v.addr 4))
          ∃ e, ∃ u ∈ t.mem.updates, u.word = v.addr ∧ s.gtime < u.wct ∧
            u.bytes = mapFrom (fun i b => (i, b)) 0
              (natLe 4 (atomNew v.aop old (BitVec.ofNat 32 (leNat v.data)) 0).toNat) ∧
            t.fabric.acks = s.fabric.acks ++ [⟨u.wct, reply 4 (natLe 4 old.toNat) e⟩]) ∧
      (v.dst = s.chipId → v.type = 3 → v.aop = 0 → ∀ r,
        s.fabric.remotes.find? (fun r => r.tagged v.src v.rtag) = some r → r.engine = none →
        becomes fun t => t.fabric.remotes = s.fabric.remotes.filter (·.id != r.id) ∧
          ∀ p ∈ s.pend, ∀ acc d, p.what = .answer r.id acc d → { p with what := .value (loadWrites acc d v.data) } ∈ t.pend)
/-! ## What instructions leave alone (R21, R22, R33, R39, R113, R280) -/

/-- R21, R22, R32 to R35, R39, R113: an instruction that writes registers changes no byte of memory and no update, no
team, core, port, context or grid, and no other group; of its own group it writes only its destinations: every other
vector register, predicate and uniform register reads as before, FPFLAGS change only for the arithmetic of R113, and
TCAUSE, TPC and TADDR only in a lane that enters TRAP. Results on their way are written later (R34). -/
def Obligations.RegisterInstructionsLeaveTheRest : Prop :=
  ∀ (i : Instr) (dest : Dest) (s t : State) (g : Group), i.dest = some dest → s.group? s.cur = some g →
    (∀ l ∈ g.lanes, l.handler = false) → exec i s = .next t →
    t.mem = s.mem ∧ t.teams = s.teams ∧ t.cores = s.cores ∧ t.fabric = s.fabric ∧ t.ctxs = s.ctxs ∧ t.grids = s.grids ∧
    t.pool = s.pool ∧ t.outbox = s.outbox ∧ t.fw = s.fw ∧ (∀ p ∈ s.pend, p ∈ t.pend) ∧
    (∀ uid, uid ≠ s.cur → t.group? uid = s.group? uid) ∧
    ∃ g', t.group? s.cur = some g' ∧ g'.tdescs = g.tdescs ∧ g'.fpmode = g.fpmode ∧ g'.pprom = g.pprom ∧
      g'.fairtime = g.fairtime ∧ g'.leaseovr = g.leaseovr ∧ g'.atbank = g.atbank ∧ g'.stackLimit = g.stackLimit ∧
      (∀ r, r ∉ dest.uregs → g'.u r = g.u r) ∧ g'.lanes.length = g.lanes.length ∧
      ∀ (k : Nat) (l l' : Lane), g.lanes[k]? = some l → g'.lanes[k]? = some l' →
        (∀ r, (∀ d ∈ dest.vregs, r ≠ l.window + d) → tget ⟨0, 0⟩ l'.vregs r = tget ⟨0, 0⟩ l.vregs r) ∧
        (∀ p, p ∉ dest.preds → l'.pred p = l.pred p) ∧ (dest.flags = false → l'.fpflags = l.fpflags) ∧
        (l'.state ≠ .trap → l'.tcause = l.tcause ∧ l'.tpc = l.tpc ∧ l'.taddr = l.taddr) ∧ l'.lwct = l.lwct ∧
        l'.handler = l.handler

/-- R39, R41, R280, R281: no core instruction changes a byte of memory at once, for a store is received and becomes
visible at its WCT; the one exception is firmware's own write of a table entry in SVC 1 and SVC 2 (the model's choice,
log 18). Only the stores, atomics and slot instructions that R199 to R202, R225 and R227 name send updates, and no core
instruction takes one back. -/
def Obligations.CoreInstructionsLeaveMemory : Prop :=
  ∀ (i : Instr) (s t : State), i.isCore = true → exec i s = .next t →
    (i.mapsPage = false → t.mem.cells = s.mem.cells) ∧
    (i.sendsUpdate = false → t.mem.updates = s.mem.updates) ∧
    (∀ u ∈ s.mem.updates, u ∈ t.mem.updates) ∧
    t.mem.ingress.length ≤ s.mem.ingress.length ∧ t.fw = s.fw ∧ t.boot = s.boot ∧ t.clock.tick = s.clock.tick

/-! ## Faults of an issue (R21, R33, R37, R65, R74, R137, R318, R319) -/

/-- R21, R37, R65, R74, R137, R318, R319: where some active lanes of an IADD fail an operand check, they enter TRAP at
the instruction with the cause of R65's order, with their registers as they were, and the other active lanes complete;
a word that stands for no instruction traps every active lane with cause 1, an illegal field with cause 2. -/
def Obligations.FaultingLanesTrapAndOthersComplete : Prop :=
  ∀ (s : State) (x : Site), s.site? = some x → x.mask ≠ 0 → x.g.redo? = none →
    ActiveLanes x (fun _ l => l.handler = false) → overDistance s.fw.spdistCap x .plain = false →
    let trapped (c : Cause) (l l' : Lane) : Prop := l'.state = .trap ∧ l'.tcause = c.word (!x.g.stubs.isEmpty) ∧
      l'.tpc = x.pc.setWidth 64 ∧ l'.taddr = BitVec.ofNat 64 c.addr ∧ l'.vregs = l.vregs ∧ l'.preds = l.preds ∧
      l'.lpc = l.lpc
    let lanes (i : Instr) (f : Lane → Lane → Prop) : Prop := ∃ t g', exec i s = .next t ∧ t.mem = s.mem ∧
      t.group? x.g.uid = some g' ∧ g'.uregs = x.g.uregs ∧ ∀ (k : Nat) (l : Lane), x.g.lanes[k]? = some l →
        ∃ l', g'.lanes[k]? = some l' ∧ (x.mask.getLsbD k = true → f l l') ∧
          (x.mask.getLsbD k = false → l' = l)
    lanes .illegalInstruction (fun l l' => trapped (Cause.plain 1) l l') ∧
    (∀ m d a b, lanes (.iadd m d a b) fun l l' =>
      let past (r : BitVec 7) : Prop := x.img.va ≤ l.window + r.toNat
      let marked (r : BitVec 7) : Prop := l.window + r.toNat ∈ l.pend
      let plain (r : BitVec 7) : Prop := (l.get r.toNat).tag.toNat ≤ 2
      if past d ∨ past a ∨ past b then trapped (Cause.plain 6) l l'
      else if marked d ∨ marked a ∨ marked b then trapped (Cause.plain 8) l l'
      else if ¬(plain a ∧ plain b) then trapped (Cause.plain 9) l l'
      else l'.state = l.state ∧ l'.lpc = x.pc + 4 ∧
        l'.vregs = (l.put d.toNat ((l.get a.toNat).bits + (l.get b.toNat).bits) tagI32).vregs) ∧
    ∃ t g', execIllegalWord s = .next t ∧ t.group? x.g.uid = some g' ∧ ∀ (k : Nat) (l : Lane),
      x.g.lanes[k]? = some l → x.mask.getLsbD k = true → ∃ l', g'.lanes[k]? = some l' ∧ trapped (Cause.plain 2) l l'

/-! ## Steps, words and reset -/

/-- R20, R55, R71, R74, R273, R315, R343: where the bytes at the issue address of the next group decode to an
instruction, the step is that instruction's execution, the translation of its address being cached, with the slot's
turn passed on unless the group did not issue it; an illegal word takes its exception, and a fetch that fails its
fault; the same holds of a script context, whose turn comes after the cycle's inputs and packets. A word of two rows is
told apart by the registers it reads, and where inputs and packets stand among the turns of a cycle, by the model's
choice (log 11 and 5). -/
def Obligations.StepRunsTheDecodedInstruction : Prop :=
  ∀ (s : State),
    (∀ (g : Group) (pc : Addr) (p : Place), s.nextGroup = some g → g.issueAddr = some pc →
      s.xlatG (s.coreOf g.team) g.grid pc.toNat = .ok p → p.aper = 0 → p.executable = true →
      s.mem.damagedByte p.pa 4 = none → s.mem.ingressUntil p.pa 4 ≤ s.gtime →
      let w : Word := BitVec.ofNat 32 (leNat (cgets s.mem.cells p.pa 4))
      let now : State := ({ s with cur := g.uid } : State).cacheXlat (s.coreOf g.team) (s.rootOf g.grid) pc.toNat
      let ends (r : Result) : Prop := ∀ t, r = .next t →
        step s = .next (if (t.group? g.uid).any (·.blocked) then t else t.turnTo (s.slotOf g + 1))
      (∀ i, decode w = .ok i → ends (exec (now.refine i) now)) ∧
      (decode w = .illegalInstruction → ends (exec .illegalInstruction now)) ∧
      (decode w = .illegalOperand → ends (execIllegalWord now))) ∧
    (∀ (g : Group) (pc : Addr) (c : Cause), s.nextGroup = some g → g.issueAddr = some pc →
      s.fetchAt (s.coreOf g.team) g.grid pc = .fault c → ∀ t, execFetchFault g.uid { s with cur := g.uid } = .next t →
        step s = .next (if (t.group? g.uid).any (·.blocked) then t else t.turnTo (s.slotOf g + 1))) ∧
    (∀ i left t, s.nextGroup = none → s.splitInputs false s.inputs = some (i, left) →
      ({ s with inputs := left } : State).takeInput i = .next t → step s = .next (t.turnTo (max s.clock.turn 512))) ∧
    (∀ t, s.nextGroup = none → s.splitInputs false s.inputs = none → s.nextArrival = some t →
      step s = .next (t.turnTo (max s.clock.turn 512))) ∧
    ∀ (n : Nat) (p : Place), s.nextGroup = none → s.splitInputs false s.inputs = none → s.nextArrival = none →
      s.nextCtx = some n → s.xlatCtx (s.ctx n) (s.ctx n).pc.toNat = .ok p → p.aper = 0 → p.readable = true →
      s.mem.damagedByte p.pa 4 = none → s.mem.ingressUntil p.pa 4 ≤ s.gtime →
      let w : Word := BitVec.ofNat 32 (leNat (cgets s.mem.cells p.pa 4))
      let now : State := { s with curCtx := n }
      ∀ i, decodeScript w = .ok i → ∀ t, exec (now.refine i) now = .next t → step s = .next (t.turnTo (513 + n))

/-- R68 to R94, R344: the words that the spec writes for its example instructions, and words written out bit by bit from
the encoding tables, decode to their instructions; reserved words and fields are refused by name. -/
def Obligations.WordsDecodeByTheTables : Prop :=
  decode 0x00204103 = .ok (.iadd false 1 2 3) ∧
  decode 0x04050BFD = .ok (.iaddi false 5 5 (-3)) ∧
  decode 0x03C0C183 = .ok (.retag false 3 3 3) ∧
  decode 0x24214286 = .ok (.ualuIadd false false 5 5 6) ∧
  decode 0x26204106 = .ok (.ualuIadd false true 1 2 6) ∧
  decode 0x2D068092 = .ok (.movh false 3 0x8092) ∧
  decode 0x2F040001 = .ok (.movhUniform false 2 1) ∧
  decode 0x08404001 = .ok (.icmp false 2 1 0 1) ∧
  decode 0x0C210308 = .ok (.aadd false 4 6 8) ∧
  decode 0x90828103 = .ok (.ffma true 10 2 3) ∧
  decode 0x14C0C082 = .ok (.fcmp false 6 3 1 2) ∧
  decode 0x11C04101 = .ok (.frnd false 1 2 1) ∧
  decode 0x1C208080 = .ok (.frcp false 2 1) ∧
  decode 0x1CA00201 = .ok (.atload false 4 1) ∧
  decode 0x20804101 = .ok (.shflx false 1 2 1) ∧
  decode 0x2100C100 = .ok (.redadd false 3 2) ∧
  decode 0x30204103 = .ok (.pand false 1 2 3) ∧
  decode 0x36404184 = .ok (.sel false true 2 1 3 4) ∧
  decode 0x40200200 = .ok (.brx false 4) ∧
  decode 0x4080007E = .ok (.wadj false (-2)) ∧
  decode 0x41218080 = .ok (.jqry false 6 1) ∧
  decode 0x41E00002 = .ok (.acbase false 2) ∧
  decode 0x44200000 = .ok (.sread false 0 0 0) ∧
  decode 0x44404118 = .ok (.swrite false 1 2 0x18) ∧
  decode 0x44800001 = .ok (.svcStack false) ∧
  decode 0x62218104 = .ok (.atom false true 1 6 2 4) ∧
  decode 0x6400C47E = .ok (.atomp false false 0 3 8 126) ∧
  decode 0x68200003 = .ok (.fence false 3) ∧
  decode 0x6C2A0800 = .ok (.cpy false 40 16) ∧
  decode 0x6D4A5400 = .ok (.engst false 41 40 0) ∧
  decode 0x704F863D = .ok (.tsucc false 62 12 61) ∧
  decode 0x70AA1914 = .ok (.ctpost false 40 50 20) ∧
  decode 0x74208800 = .ok (.tdset false 2 16) ∧
  decode 0x74608C19 = .ok (.scpush false 2 24 25) ∧
  decode 0x74800108 = .ok (.mma false 0 2 8) ∧
  decode 0x74A78400 = .ok (.bstatSlot false 30 8) ∧
  decode 0b00111001111111111111111111111111 = .ok (.bra false false 15 0x1FFFFF) ∧
  decode 0b00111100010000000000000001100100 = .ok (.call false 2 100) ∧
  decode 0b01001010010000010000001100001000 = .ok (.ldg false 18 4 6 8) ∧
  decode 0b01010100100000010000001100001001 = .ok (.stp false 4 4 6 9) ∧
  decode 0b00011000100000001100001010010110 = .ok (.cvt false 4 3 5 1 false true 2) ∧
  decode 0b01000000110000001000000000000000 = .ok (.jarv false 2) ∧
  decode 0b01111000100000100000010010001010 = .ok (.acadd false 8 9 10) ∧
  decode 0b01111100001000000000000000000000 = .illegalInstruction ∧
  decode 0b00000000000000000000000000000000 = .illegalInstruction ∧
  decode 0b00000001011000000100000100000011 = .illegalOperand ∧
  decode 0b00001100001000001100001000000110 = .illegalOperand ∧
  decodeScript 0b00001100010010001100000000000101 = .ok (.kadd 1 2 3 5) ∧
  decodeScript 0b10000100010010001100000000000100 = .ok (.cwait 1 2 3 4) ∧
  decodeScript 0b00100100000010001111111111111111 = .ok (.kbeq 2 3 0x3FFF)

/-- R68 to R94, R344: every legal instruction that has a word of its own has an encoding, and its word decodes back to it
with every field; the forms that share a word decode to the plain form (log 11). -/
def Obligations.DecodeReadsBackEncode : Prop :=
  ∀ i : Instr, Laws.Encoding.Statement i

/-- R2, R49, R166, R213, R214, R328, R332, R337, R343, R347, R350, R391: what part reset leaves, of the values that the
spec gives; and memory is in its canonical form. That State.reset stands before the boot ROM's first action is the
model's choice (log 1); what HBM holds then is no part of this statement (log 2). -/
def Obligations.ResetValues : Prop :=
  let s := State.reset
  s.memWf ∧ s.boot.phase = .powerGood ∧ s.clock.tick = 0 ∧ s.seqOut = 0 ∧ s.fw.placement = 85 ∧ s.fw.migration = 95 ∧
  s.fw.throttle = 100 ∧ s.fw.quantum = 100000 ∧ s.fw.parkDelay = 2000 ∧ s.fw.spdistCap = 262144 ∧ s.fw.debugger = false ∧
  s.cores.length = 128 ∧ s.fabric.ports.length = 32 ∧ s.fabric.links.length = 4 ∧ s.ctxs.length = 4 ∧
  s.queues = List.replicate 8 [] ∧ s.grids = [] ∧ s.teams = [] ∧ s.groups = [] ∧ s.pool = [] ∧ s.cuts = [] ∧
  (∀ dest input, s.fabric.route dest input = 62) ∧
  (∀ (n : Nat) (c : Core), s.cores[n]? = some c → c.lcid = n ∧ c.nextHandle = 1 ∧ c.ops = [] ∧ c.slots = [] ∧
    ∀ b ∈ c.banks, b.state = .valid ∧ ∀ k, cget b.bytes k = 0) ∧
  (∀ p ∈ s.fabric.ports, p.state = .dark ∧ p.tol = 0 ∧ p.generation = 0 ∧ p.channel.rank = 0 ∧ p.channel.working = 0 ∧
    p.setup = 0 ∧ p.degrades = 0 ∧ p.peerPort = 0) ∧
  (∀ l ∈ s.fabric.links, l.up = false) ∧
  ∀ c ∈ s.ctxs, c.running = false ∧ (∀ r, c.reg r = 0) ∧ (∀ k, tget 0 c.k k = 0) ∧ ∀ k, tget 0 c.x k = 0

/-- R20, R280, R281, R343: from every state whose memory is in its canonical form, a step goes on, to a state whose
memory is in its canonical form: the part never stops, and no instruction, message or event of the table leaves memory
in another form. -/
def Obligations.EveryStepGoesOnAndKeepsMemoryCanonical : Prop :=
  ∀ s : State, s.memWf → ∃ t, step s = .next t ∧ t.memWf
end

