-- ==== Sys2Proof/Laws/Memory.lean ====
section
/-!
SUPPORT. Every operation on memory keeps its canonical form, and which of them leave its bytes as they are.
-/

namespace Sys2Proof.Machine

/-! ## What makes an update visible (R281) -/

theorem cwf_foldl_cput (word : Nat) (bs : List (Nat × Byte)) (t : List Host.Cell) (h : cwf t = true) :
    cwf (bs.foldl (fun c (k, b) => cput c (word + k) b) t) = true := by
  induction bs generalizing t with
  | nil => exact h
  | cons p bs ih => exact ih _ (cwf_cput t _ _ h)

theorem Update.apply_wf (u : Update) (t : List Host.Cell) (h : cwf t = true) : cwf (Update.apply t u) = true :=
  cwf_foldl_cput u.word u.bytes t h

theorem cwf_foldl_apply (us : List Update) (t : List Host.Cell) (h : cwf t = true) :
    cwf (us.foldl Update.apply t) = true := by
  induction us generalizing t with
  | nil => exact h
  | cons u us ih => exact ih _ (u.apply_wf t h)

/-! ## Damage and rewrites leave bytes and updates alone (R298) -/

@[simp] theorem Memory.heal_cells (mem : Memory) (h : Heal) : (mem.heal h).cells = mem.cells := rfl
@[simp] theorem Memory.heal_updates (mem : Memory) (h : Heal) : (mem.heal h).updates = mem.updates := rfl

/-- What every turn of a fold keeps, the fold keeps. -/
theorem foldl_keeps {α β γ : Type} (p : α → γ) (f : α → β → α) (hf : ∀ a b, p (f a b) = p a) (bs : List β) (a : α) :
    p (bs.foldl f a) = p a := by
  induction bs generalizing a with
  | nil => rfl
  | cons b bs ih => exact (ih _).trans (hf a b)

@[simp] theorem Memory.healed_cells (mem : Memory) (now : Nat) : (mem.healed now).cells = mem.cells :=
  foldl_keeps Memory.cells Memory.heal Memory.heal_cells _ mem
@[simp] theorem Memory.healed_updates (mem : Memory) (now : Nat) : (mem.healed now).updates = mem.updates :=
  foldl_keeps Memory.updates Memory.heal Memory.heal_updates _ mem
@[simp] theorem Memory.rewrites_cells (mem : Memory) (t pa n : Nat) : (mem.rewrites t pa n).cells = mem.cells := by
  unfold Memory.rewrites; split <;> rfl
@[simp] theorem Memory.rewrites_updates (mem : Memory) (t pa n : Nat) : (mem.rewrites t pa n).updates = mem.updates := by
  unfold Memory.rewrites; split <;> rfl

theorem Memory.fold_wf (mem : Memory) (now : Nat) (h : mem.wf = true) : (mem.fold now).wf = true := by
  simp only [Memory.fold, Memory.wf, Memory.healed_cells]
  exact cwf_foldl_apply _ mem.cells h

/-- No update left is due. -/
theorem Memory.fold_updates (mem : Memory) (now : Nat) : ∀ u ∈ (mem.fold now).updates, now < u.wct := by
  intro u hu
  simp only [Memory.fold, Memory.healed_updates] at hu
  simpa using (List.mem_filter.mp hu).2

/-! ## What receives updates: memory's bytes are as they were (R280) -/

@[simp] theorem Memory.reclaim_cells (mem : Memory) (pa n : Nat) : (mem.reclaim pa n).cells = mem.cells := rfl
@[simp] theorem Memory.reclaim_updates (mem : Memory) (pa n : Nat) : (mem.reclaim pa n).updates = mem.updates := rfl

@[simp] theorem Memory.receiveWords_cells (mem : Memory) (pa : Nat) (bs : List Byte) (w : Writer) (src : Nat)
    (atomic : Bool) (arr : Nat) : (mem.receiveWords pa bs w src atomic arr).1.cells = mem.cells := by
  unfold Memory.receiveWords
  refine (foldl_keeps (fun a : Memory × Nat => a.1.cells) _ ?_ _ _).trans (mem.reclaim_cells pa bs.length)
  exact fun _ _ => rfl

@[simp] theorem Memory.receive_cells (mem : Memory) (pa : Nat) (bs : List Byte) (w : Writer) (src : Nat) (atomic : Bool)
    (arr : Nat) : (mem.receive pa bs w src atomic arr).1.cells = mem.cells := by
  simp only [Memory.receive, Memory.rewrites_cells, Memory.receiveWords_cells]

@[simp] theorem State.storeAs_cells (s : State) (pa : Nat) (bs : List Byte) (w : Writer) (src : Nat) :
    (s.storeAs pa bs w src).1.mem.cells = s.mem.cells :=
  Memory.receive_cells s.mem pa bs w src false _

@[simp] theorem Memory.receiveLanes_cells (mem : Memory) (src : Nat) (w : Nat → Writer) (arr : Nat → Nat)
    (ws : List (Nat × Nat × List Byte)) : (mem.receiveLanes src w arr ws).1.cells = mem.cells := by
  refine (foldl_keeps Memory.cells _ (fun m (p : Nat × Nat × Nat × Nat) => m.rewrites_cells p.2.2.1 p.1 p.2.1) _ _).trans ?_
  exact foldl_keeps Memory.cells (fun mem (p : Nat × Nat × List Byte) => mem.reclaim p.2.1 p.2.2.length)
    (fun _ _ => rfl) ws mem

@[simp] theorem Memory.receiveCount_cells (mem : Memory) (pa new : Nat) (w : Writer) (src arr : Nat) :
    (mem.receiveCount pa new w src arr).1.cells = mem.cells := by
  simp only [Memory.receiveCount, Memory.rewrites_cells, Memory.reclaim_cells]

/-! ## What writes or drops bytes at once (R233, R272, R296, R391) -/

theorem State.writeEntry_wf (s : State) (entryAt e : Nat) (h : s.mem.wf = true) : (s.writeEntry entryAt e).mem.wf = true :=
  cwf_cputs _ _ _ h

theorem State.clearBank_wf (s : State) (grid : Nat) (h : s.mem.wf = true) : (s.clearBank grid).mem.wf = true := by
  simp only [State.clearBank, Memory.wf]
  exact cwf_filter _ _ h

theorem State.cleared_wf (s : State) (h : s.mem.wf = true) : s.cleared.mem.wf = true := by
  simp only [State.cleared, Memory.wf]
  exact cwf_filter _ _ h

theorem State.reset_wf : State.reset.mem.wf = true := rfl

theorem placedCells_wf (t : List Host.Cell) (w : Nat) (h : cwf t = true) : cwf (placedCells t w) = true :=
  cwf_cputs _ _ _ (cwf_cputs _ _ _ (cwf_cputs _ _ _ h))

theorem State.withFetchWord_wf (s : State) (n w : Nat) (h : s.mem.wf = true) : (s.withFetchWord n w).mem.wf = true := by
  simp only [State.withFetchWord, Memory.wf]
  exact placedCells_wf _ _ h

theorem cwf_foldl_put (bs : List (Nat × Byte)) (t : List Host.Cell) (h : cwf t = true) :
    cwf (bs.foldl (fun c (a, b) => cput c a b) t) = true := by
  induction bs generalizing t with
  | nil => exact h
  | cons p bs ih => exact ih _ (cwf_cput t _ _ h)

theorem Memory.loadBundle_wf (mem : Memory) (bs : List Byte) (h : mem.wf = true) : (mem.loadBundle bs).wf = true :=
  cwf_foldl_put _ _ h

theorem Team.write_wf (t : Team) (off : Nat) (bs : List Byte) (h : cwf t.scratch = true) :
    cwf (t.write off bs).scratch = true := cwf_cputs _ _ _ h

end Sys2Proof.Machine
end

