-- ==== Sys2Proof/Tests/Slice0.lean ====
section
/-!
SUPPORT. Tests: ill-formed terms, words and their instructions, states that meet the hypotheses of the statements, and
single steps whose results the spec gives.
-/

namespace Sys2Proof.Tests

open Sys2Proof.Machine

set_option Elab.async false

/-! ## Small states -/

/-- The part right after reset with one word placed: 32 lanes of one group in RUN at it, on core 0 (log 22). -/
def base : State := State.reset.withFetchWord 32 0x00204103

/-- A lane with some vector registers: number, bits, tag. -/
def putRegs (vs : List (Nat × Word × BitVec 5)) (l : Lane) : Lane :=
  { l with vregs := vs.foldl (fun t v => tput t v.1 ⟨v.2.1, v.2.2⟩) l.vregs }

/-- Changes the placed group, and its lanes. -/
def onGrp (f : Group → Group) (s : State) : State := s.modGroup 3 f
def onAll (f : Lane → Lane) (s : State) : State := onGrp (fun g => { g with lanes := g.lanes.map f }) s

/-- The placed group with a window, vector registers (by their place) and uniform registers. -/
def regs (w : Nat) (vs : List (Nat × Word × BitVec 5)) (us : List (Nat × Word)) : State :=
  onGrp (fun g => { g with uregs := us.foldl (fun t u => tput t u.1 u.2) g.uregs })
    (onAll (fun l => { putRegs vs l with window := w }) base)

/-- Lane 0 and the group after a next state. -/
def laneAfter (r : Result) (p : Lane → Bool) : Bool :=
  match r with
  | .next t => (t.group? 3).any fun g => (g.lanes[0]?).any p
  | _ => false
def groupAfter (r : Result) (p : Group → Bool) : Bool :=
  match r with
  | .next t => (t.group? 3).any p
  | _ => false
def stateAfter (r : Result) (p : State → Bool) : Bool :=
  match r with
  | .next t => p t
  | _ => false

/-- A register of lane 0 after an instruction: bits and tag. -/
def gives (r : Result) (v : Nat) (w : Word) (tag : BitVec 5) : Bool := laneAfter r fun l => l.get v == ⟨w, tag⟩
/-- A uniform register after an instruction. -/
def givesU (r : Result) (u : Nat) (w : Word) : Bool := groupAfter r fun g => g.u u == w

/-! ## Showing hypotheses -/

def laneHolds (p : Nat → Lane → Bool) (x : Site) : Bool :=
  (List.range x.g.lanes.length).all fun i =>
    !x.mask.getLsbD i || (match x.g.lanes[i]? with | some l => p i l | none => true)

theorem activeLanes_of {p : Nat → Lane → Bool} {x : Site} (h : laneHolds p x = true) :
    ActiveLanes x fun i l => p i l = true := by
  intro i l hl ha
  obtain ⟨hi, -⟩ := List.getElem?_eq_some_iff.mp hl
  simpa [ha, hl] using List.all_eq_true.mp h i (List.mem_range.mpr hi)

theorem activeLanes_decide {p : Nat → Lane → Prop} [∀ i l, Decidable (p i l)] {x : Site}
    (h : laneHolds (fun i l => decide (p i l)) x = true) : ActiveLanes x p := fun i l hl ha => by
  simpa using activeLanes_of h i l hl ha

def issues (s : State) (kind : IssueKind) (p : Site → Bool) : Bool :=
  match s.site? with
  | none => false
  | some x => x.mask != 0 && (kindFault x kind).isNone && !overDistance s.fw.spdistCap x kind && p x

theorem issuing_of {s : State} {kind : IssueKind} {p : Site → Bool} (h : issues s kind p = true) :
    ∃ x, Issuing s x kind ∧ p x = true := by
  unfold issues at h
  split at h
  · cases h
  · rename_i x hx
    simp only [Bool.and_eq_true, bne_iff_ne, ne_eq, Option.isNone_iff_eq_none, Bool.not_eq_true'] at h
    exact ⟨x, ⟨hx, h.1.1.1, h.1.1.2, h.1.2⟩, h.2⟩

theorem issuing {s : State} {kind : IssueKind} (h : issues s kind (fun _ => true) = true) : ∃ x, Issuing s x kind :=
  (issuing_of h).imp fun _ hx => hx.1

def passes (o : Operands) (tags : Lane → Bool) (x : Site) : Bool :=
  laneHolds (fun _ l => (operandFault x l o (tags l)).isNone) x

theorem operandsPass_of {o : Operands} {tags : Lane → Bool} {x : Site} (h : passes o tags x = true) :
    OperandsPass x o tags := fun i l hl ha => by simpa using activeLanes_of h i l hl ha

/-- A state that issues at a site whose active lanes pass a list of operand checks. -/
theorem witness {s : State} {kind : IssueKind} (ps : List (Operands × (Lane → Bool)))
    (h : issues s kind (fun x => ps.all fun p => passes p.1 p.2 x) = true) :
    ∃ x, Issuing s x kind ∧ ∀ p ∈ ps, OperandsPass x p.1 p.2 := by
  obtain ⟨x, hi, hp⟩ := issuing_of h
  exact ⟨x, hi, fun p hm => operandsPass_of (List.all_eq_true.mp hp p hm)⟩

/-- Likewise, with one more check of the site. -/
theorem witnessAnd {s : State} {kind : IssueKind} (ps : List (Operands × (Lane → Bool))) (q : Site → Prop)
    [∀ x, Decidable (q x)] (h : issues s kind (fun x => ps.all (fun p => passes p.1 p.2 x) && decide (q x)) = true) :
    ∃ x, Issuing s x kind ∧ (∀ p ∈ ps, OperandsPass x p.1 p.2) ∧ q x := by
  obtain ⟨x, hi, hp⟩ := issuing_of h
  rw [Bool.and_eq_true] at hp
  exact ⟨x, hi, fun p hm => operandsPass_of (List.all_eq_true.mp hp.1 p hm), of_decide_eq_true hp.2⟩

/-- Likewise, with a check of every active lane. -/
theorem witnessLanes {s : State} {kind : IssueKind} (ps : List (Operands × (Lane → Bool))) (q : Site → Nat → Lane → Prop)
    [∀ x i l, Decidable (q x i l)]
    (h : issues s kind (fun x => ps.all (fun p => passes p.1 p.2 x) && laneHolds (fun i l => decide (q x i l)) x) = true) :
    ∃ x, Issuing s x kind ∧ (∀ p ∈ ps, OperandsPass x p.1 p.2) ∧ ActiveLanes x (q x) := by
  obtain ⟨x, hi, hp⟩ := issuing_of h
  rw [Bool.and_eq_true] at hp
  exact ⟨x, hi, fun p hm => operandsPass_of (List.all_eq_true.mp hp.1 p hm), activeLanes_decide hp.2⟩

/-! ## Terms that are no instruction -/

/-- The checks of registers: pairs, quadruples, blocks, predicates, masks and descriptors. -/
theorem smoke_registers : Instr.wellFormed (.aadd false 3 4 6) = false ∧ Instr.wellFormed (.aadd false 4 5 6) = false ∧
    Instr.wellFormed (.aadd false 4 6 7) = false ∧ Instr.wellFormed (.tdset false 2 18) = false ∧ Instr.wellFormed (.cpy false 40 24) = false ∧
    Instr.wellFormed (.pand false 16 0 0) = false ∧ Instr.wellFormed (.pand false 0 16 0) = false ∧ Instr.wellFormed (.pand false 0 0 16) = false ∧
    Instr.wellFormed (.jenr false 8) = false ∧ Instr.wellFormed (.mma false 0 32 0) = false := by decide +kernel
/-- The checks of fields: conversion targets, access types, global addresses, atomics and special registers. -/
theorem smoke_fields : Instr.wellFormed (.cvt false 13 0 0 0 false false 0) = false ∧ Instr.wellFormed (.cvt false 1 0 0 0 true false 1) = false ∧
    Instr.wellFormed (.ldg false 31 0 0 0) = false ∧ Instr.wellFormed (.ldg false 25 2 0 0) = false ∧
    Instr.wellFormed (.ldg false 0 0 0 3) = false ∧ Instr.wellFormed (.ldg false 0 0 3 126) = false ∧
    Instr.wellFormed (.atom false false 15 0 0 0) = false ∧ Instr.wellFormed (.atom false true 12 0 0 0) = false ∧
    Instr.wellFormed (.atom false false 13 1 0 0) = false ∧ Instr.wellFormed (.sread false 0 0 7) = false ∧
    Instr.wellFormed (.sread false 0 1 0) = false ∧ Instr.wellFormed (.sread false 1 1 8) = false ∧ Instr.wellFormed (.sread false 0 2 1) = false ∧
    Instr.wellFormed (.swrite false 0 0 0) = false ∧ Instr.wellFormed (.swrite false 2 0 0x18) = false := by decide +kernel
/-- The checks of immediates. -/
theorem smoke_immediates : Instr.wellFormed (.shli false 0 0 32) = false ∧ Instr.wellFormed (.retag false 0 0 16) = false ∧
    Instr.wellFormed (.icmp false 10 0 0 0) = false ∧ Instr.wellFormed (.fcmp false 8 0 0 0) = false ∧ Instr.wellFormed (.frnd false 0 0 5) = false ∧
    Instr.wellFormed (.atbind false 2) = false ∧ Instr.wellFormed (.shflx false 0 0 32) = false ∧ Instr.wellFormed (.acbase false 32) = false ∧
    Instr.wellFormed (.svcUnprovided false 3) = false ∧ Instr.wellFormed (.fence false 5) = false ∧ Instr.wellFormed (.evsig false 64) = false ∧
    Instr.wellFormed (.engst false 0 0 3) = false ∧ Instr.wellFormed (.tstat false 0 4) = false ∧ Instr.wellFormed (.pfetch false 2 0 0) = false := by
  decide +kernel
/-- The ranges of the steps without a word. -/
theorem smoke_steps : Instr.wellFormed (.ksleepExpiry 4) = false ∧ Instr.wellFormed (.launchQueueHead 8) = false ∧
    Instr.wellFormed (.launch { mtype := 1, len := 1, seq := 0, addr := 0, tag := 0, status := 0, reserved := 0, payload := [] }) = false ∧
    Instr.wellFormed (.collChunkReceive { members := 0, number := 0, rank := 256, kind := 0, fields := [], chunk := 0, data := [] }) = false ∧
    Instr.wellFormed (.firmwareReady 7 []) = false ∧ Instr.wellFormed (.mmaStep 128) = false ∧ Instr.wellFormed (.portDoze 32) = false ∧
    Instr.wellFormed (.retrainEnd 36) = false ∧ Instr.wellFormed (.elinkDown 4) = false ∧ Instr.wellFormed (.flitReceive 0 []) = false := by
  decide +kernel

/-! ## Words

One word for every row with an encoding, from the table of operations: its fixed bits and a value in each field. -/

theorem test_words_1 :
    decode 0b10000000001100000001100001010000 = .ok (.iadd true 64 48 80) ∧
    decode 0b10000000010100000001100001010000 = .ok (.isub true 64 48 80) ∧
    decode 0b10000000011100000001100001010000 = .ok (.imul true 64 48 80) ∧
    decode 0b10000000100100000001100001010000 = .ok (.imulh true 64 48 80) ∧
    decode 0b10000000101100000001100001010000 = .ok (.imulhu true 64 48 80) ∧
    decode 0b10000000110100000001100001010000 = .ok (.imad true 64 48 80) ∧
    decode 0b10000000111100000001100001010000 = .ok (.imin true 64 48 80) ∧
    decode 0b10000001000100000001100001010000 = .ok (.imax true 64 48 80) ∧
    decode 0b10000001001100000001100001010000 = .ok (.iminu true 64 48 80) ∧
    decode 0b10000001010100000001100001010000 = .ok (.imaxu true 64 48 80) ∧
    decode 0b10000001011100000001100000000000 = .ok (.iabs true 64 48) ∧
    decode 0b10000001100100000001100000000000 = .ok (.ineg true 64 48) ∧
    decode 0b10000001101100000001100001010000 = .ok (.and true 64 48 80) ∧
    decode 0b10000001110100000001100001010000 = .ok (.or true 64 48 80) ∧
    decode 0b10000001111100000001100001010000 = .ok (.xor true 64 48 80) ∧
    decode 0b10000010000100000001100001010000 = .ok (.andn true 64 48 80) ∧
    decode 0b10000010001100000001100001010000 = .ok (.shl true 64 48 80) ∧
    decode 0b10000010010100000001100001010000 = .ok (.shr true 64 48 80) ∧
    decode 0b10000010011100000001100001010000 = .ok (.sar true 64 48 80) ∧
    decode 0b10000010100100000001100001010000 = .ok (.rotl true 64 48 80) ∧
    decode 0b10000010101100000001100000000000 = .ok (.popc true 64 48) ∧
    decode 0b10000010110100000001100000000000 = .ok (.clz true 64 48) :=
  ⟨rfl, rfl, rfl, rfl, rfl, rfl, rfl, rfl, rfl, rfl, rfl, rfl, rfl, rfl, rfl, rfl, rfl, rfl, rfl, rfl, rfl, rfl⟩
theorem test_words_2 :
    decode 0b10000010111100000001100000000000 = .ok (.brev true 64 48) ∧
    decode 0b10000011000100000001100001010000 = .ok (.bfx true 64 48 80) ∧
    decode 0b10000011001100000001100001010000 = .ok (.bfxs true 64 48 80) ∧
    decode 0b10000011010100000001100001010000 = .ok (.bfi true 64 48 80) ∧
    decode 0b10000011011100000001100001010000 = .ok (.iadds true 64 48 80) ∧
    decode 0b10000011100100000001100001010000 = .ok (.isubs true 64 48 80) ∧
    decode 0b10000011101100000001100000000000 = .ok (.mov true 64 48) ∧
    decode 0b10000011110100000001100000001101 = .ok (.retag true 64 48 13) ∧
    decode 0b10100110001100000001100001010000 = .ok (.ualuIadd true true 64 48 80) ∧
    decode 0b10100110010100000001100001010000 = .ok (.ualuIsub true true 64 48 80) ∧
    decode 0b10100110011100000001100001010000 = .ok (.ualuImul true true 64 48 80) ∧
    decode 0b10100110100100000001100001010000 = .ok (.ualuImin true true 64 48 80) ∧
    decode 0b10100110101100000001100001010000 = .ok (.ualuImax true true 64 48 80) ∧
    decode 0b10100110110100000001100001010000 = .ok (.ualuIminu true true 64 48 80) ∧
    decode 0b10100110111100000001100001010000 = .ok (.ualuImaxu true true 64 48 80) ∧
    decode 0b10100111000100000001100001010000 = .ok (.ualuAnd true true 64 48 80) ∧
    decode 0b10100111001100000001100001010000 = .ok (.ualuOr true true 64 48 80) ∧
    decode 0b10100111010100000001100001010000 = .ok (.ualuXor true true 64 48 80) ∧
    decode 0b10100111011100000001100001010000 = .ok (.ualuAndn true true 64 48 80) ∧
    decode 0b10100111100100000001100001010000 = .ok (.ualuShl true true 64 48 80) ∧
    decode 0b10100111101100000001100001010000 = .ok (.ualuShr true true 64 48 80) ∧
    decode 0b10100111110100000001100001010000 = .ok (.ualuSar true true 64 48 80) :=
  ⟨rfl, rfl, rfl, rfl, rfl, rfl, rfl, rfl, rfl, rfl, rfl, rfl, rfl, rfl, rfl, rfl, rfl, rfl, rfl, rfl, rfl, rfl⟩
theorem test_words_3 :
    decode 0b10100111111100000000000001010000 = .ok (.ualuMov true true 64 80) ∧
    decode 0b10000100010000000110000111010011 = .ok (.iaddi true 64 48 467) ∧
    decode 0b10000100110000000110000111010011 = .ok (.andi true 64 48 467) ∧
    decode 0b10000101010000000110000111010011 = .ok (.ori true 64 48 467) ∧
    decode 0b10000101110000000110000111010011 = .ok (.xori true 64 48 467) ∧
    decode 0b10000110010000000110000000010011 = .ok (.shli true 64 48 19) ∧
    decode 0b10000110110000000110000000010011 = .ok (.shri true 64 48 19) ∧
    decode 0b10000111010000000110000000010011 = .ok (.sari true 64 48 19) ∧
    decode 0b10000111110000000110000111010011 = .ok (.imuli true 64 48 467) ∧
    decode 0b10101000010000000110000111010011 = .ok (.ualuiIaddi true 64 48 467) ∧
    decode 0b10101000110000000110000111010011 = .ok (.ualuiAndi true 64 48 467) ∧
    decode 0b10101001010000000110000111010011 = .ok (.ualuiOri true 64 48 467) ∧
    decode 0b10101001110000000110000111010011 = .ok (.ualuiXori true 64 48 467) ∧
    decode 0b10101010010000000110000000010011 = .ok (.ualuiShli true 64 48 19) ∧
    decode 0b10101010110000000110000000010011 = .ok (.ualuiShri true 64 48 19) ∧
    decode 0b10101011010000000110000000010011 = .ok (.ualuiSari true 64 48 19) ∧
    decode 0b10101011110000000110000111010011 = .ok (.ualuiImuli true 64 48 467) ∧
    decode 0b10101100100000011000000001010011 = .ok (.movl true 64 98387) ∧
    decode 0b10101101100000011000000001010011 = .ok (.movh true 64 98387) ∧
    decode 0b10101110100000011000000001010011 = .ok (.movlUniform true 64 98387) ∧
    decode 0b10101111100000011000000001010011 = .ok (.movhUniform true 64 98387) ∧
    decode 0b10001001001000010101100001010000 = .ok (.icmp true 9 5 48 80) :=
  ⟨rfl, rfl, rfl, rfl, rfl, rfl, rfl, rfl, rfl, rfl, rfl, rfl, rfl, rfl, rfl, rfl, rfl, rfl, rfl, rfl, rfl, rfl⟩
theorem test_words_4 :
    decode 0b10001100001100000001100001010000 = .ok (.aadd true 64 48 80) ∧
    decode 0b10001100010100000001100001010000 = .ok (.aaddx true 64 48 80) ∧
    decode 0b10001100011100000001100001010000 = .ok (.asub true 64 48 80) ∧
    decode 0b10001100110100000001100001010000 = .ok (.alea true 2 64 48 80) ∧
    decode 0b10001101000000010101100001010000 = .ok (.acmpeq true 5 48 80) ∧
    decode 0b10001101001000010101100001010000 = .ok (.acmpltu true 5 48 80) ∧
    decode 0b10001101010100000001100000000000 = .ok (.afroms true 64 48) ∧
    decode 0b10010000001100000001100001010000 = .ok (.fadd true 64 48 80) ∧
    decode 0b10010000010100000001100001010000 = .ok (.fsub true 64 48 80) ∧
    decode 0b10010000011100000001100001010000 = .ok (.fmul true 64 48 80) ∧
    decode 0b10010000100100000001100001010000 = .ok (.ffma true 64 48 80) ∧
    decode 0b10010000101100000001100001010000 = .ok (.ffms true 64 48 80) ∧
    decode 0b10010000110100000001100001010000 = .ok (.fnma true 64 48 80) ∧
    decode 0b10010000111100000001100001010000 = .ok (.fmin true 64 48 80) ∧
    decode 0b10010001000100000001100001010000 = .ok (.fmax true 64 48 80) ∧
    decode 0b10010001001100000001100001010000 = .ok (.fminnum true 64 48 80) ∧
    decode 0b10010001010100000001100001010000 = .ok (.fmaxnum true 64 48 80) ∧
    decode 0b10010001011100000001100000000000 = .ok (.fabs true 64 48) ∧
    decode 0b10010001100100000001100000000000 = .ok (.fneg true 64 48) ∧
    decode 0b10010001101100000001100001010000 = .ok (.fcopysign true 64 48 80) ∧
    decode 0b10010001110100000001100000000100 = .ok (.frnd true 64 48 4) ∧
    decode 0b10010001111100000001100000000000 = .ok (.fclass true 64 48) :=
  ⟨rfl, rfl, rfl, rfl, rfl, rfl, rfl, rfl, rfl, rfl, rfl, rfl, rfl, rfl, rfl, rfl, rfl, rfl, rfl, rfl, rfl, rfl⟩
theorem test_words_5 :
    decode 0b10010010000100000001100001010000 = .ok (.fdot2 true 64 48 80) ∧
    decode 0b10010010001100000001100001010000 = .ok (.fdot4 true 64 48 80) ∧
    decode 0b10010010010100000001100001010000 = .ok (.fdiv true 64 48 80) ∧
    decode 0b10010010011100000001100001010000 = .ok (.fscale true 64 48 80) ∧
    decode 0b10010010100100000001100000000000 = .ok (.fgetexp true 64 48) ∧
    decode 0b10010010101100000001100000000000 = .ok (.fgetman true 64 48) ∧
    decode 0b10010100111000010101100001010000 = .ok (.fcmp true 7 5 48 80) ∧
    decode 0b10011001100100000001100001010110 = .ok (.cvt true 12 64 48 5 false true 2) ∧
    decode 0b10011100001100000001100000000000 = .ok (.frcp true 64 48) ∧
    decode 0b10011100010100000001100000000000 = .ok (.frsq true 64 48) ∧
    decode 0b10011100011100000001100000000000 = .ok (.fsqrt true 64 48) ∧
    decode 0b10011100100100000001100000000000 = .ok (.flut true 64 48) ∧
    decode 0b10011100101000000001100000000001 = .ok (.atload true 48 1) ∧
    decode 0b10011100110000000000000000000001 = .ok (.atbind true 1) ∧
    decode 0b10011100111100000000000000000000 = .ok (.atstat true 64) ∧
    decode 0b10100000001100000001100001010000 = .ok (.shfli true 64 48 80) ∧
    decode 0b10100000010100000001100000010101 = .ok (.shflu true 64 48 21) ∧
    decode 0b10100000011100000001100000010101 = .ok (.shfld true 64 48 21) ∧
    decode 0b10100000100100000001100000010101 = .ok (.shflx true 64 48 21) ∧
    decode 0b10100000101000010100010010000000 = .ok (.voteall true 5 9) ∧
    decode 0b10100000110000010100010010000000 = .ok (.voteany true 5 9) ∧
    decode 0b10100000111100000000010010000000 = .ok (.ballot true 64 9) :=
  ⟨rfl, rfl, rfl, rfl, rfl, rfl, rfl, rfl, rfl, rfl, rfl, rfl, rfl, rfl, rfl, rfl, rfl, rfl, rfl, rfl, rfl, rfl⟩
theorem test_words_6 :
    decode 0b10100001000100000001100000000000 = .ok (.redadd true 64 48) ∧
    decode 0b10100001001100000001100000000000 = .ok (.redmin true 64 48) ∧
    decode 0b10100001010100000001100000000000 = .ok (.redmax true 64 48) ∧
    decode 0b10100001011100000001100000000000 = .ok (.redand true 64 48) ∧
    decode 0b10100001100100000001100000000000 = .ok (.redor true 64 48) ∧
    decode 0b10100001101100000001100000000000 = .ok (.redxor true 64 48) ∧
    decode 0b10100001110100000001100000000000 = .ok (.scanadd true 64 48) ∧
    decode 0b10100001111100000001100000000000 = .ok (.scanmax true 64 48) ∧
    decode 0b10100010000100000001100000000000 = .ok (.matchLanes true 64 48) ∧
    decode 0b10100010001100000001100000010101 = .ok (.bcast true 64 48 21) ∧
    decode 0b10100010010100000001100000000000 = .ok (.splat true 64 48) ∧
    decode 0b10110000001000010100010010001110 = .ok (.pand true 5 9 14) ∧
    decode 0b10110000010000010100010010001110 = .ok (.por true 5 9 14) ∧
    decode 0b10110000011000010100010010001110 = .ok (.pxor true 5 9 14) ∧
    decode 0b10110000100000010100010010000000 = .ok (.pnot true 5 9) ∧
    decode 0b10110000101000010100010010000000 = .ok (.pmov true 5 9) ∧
    decode 0b10110000110000010100010010001110 = .ok (.pandn true 5 9 14) ∧
    decode 0b10110000111100000000010010000000 = .ok (.ptos true 64 9) ∧
    decode 0b10110001000000010101100000000000 = .ok (.pfroms true 5 48) ∧
    decode 0b10110111011100000001100001010000 = .ok (.sel true true 11 64 48 80) ∧
    decode 0b10111011101110000000000001010011 = .ok (.bra true true 13 1572947) ∧
    decode 0b10111111011110000000000001010011 = .ok (.call true 27 1572947) :=
  ⟨rfl, rfl, rfl, rfl, rfl, rfl, rfl, rfl, rfl, rfl, rfl, rfl, rfl, rfl, rfl, rfl, rfl, rfl, rfl, rfl, rfl, rfl⟩
theorem test_words_7 :
    decode 0b11000000001000000001100000000000 = .ok (.brx true 48) ∧
    decode 0b11000000010000000000000000000000 = .ok (.ret true) ∧
    decode 0b11000000011000000001100000000000 = .ok (.wbase true 48) ∧
    decode 0b11000000100000000000000001100011 = .ok (.wadj true 99) ∧
    decode 0b11000000101000011000000000000000 = .ok (.jenr true 6) ∧
    decode 0b11000000110000011000000000000000 = .ok (.jarv true 6) ∧
    decode 0b11000000111000011000000000000000 = .ok (.jstk true 6) ∧
    decode 0b11000001000000011000000000000000 = .ok (.jclr true 6) ∧
    decode 0b11000001001100000000001100000000 = .ok (.jqry true 64 6) ∧
    decode 0b11000001010000000000000000000000 = .ok (.yield true) ∧
    decode 0b11000001011000000000000000000000 = .ok (.safept true) ∧
    decode 0b11000001100000000000000000000000 = .ok (.exit true) ∧
    decode 0b11000001101000000000000000000000 = .ok (.nop true) ∧
    decode 0b11000001110000000000000000000000 = .ok (.resume true) ∧
    decode 0b11000001111000000000000000011101 = .ok (.acbase true 29) ∧
    decode 0b11000100001011000000000010001000 = .ok (.sread true 48 1 8) ∧
    decode 0b11000100010000000101100000011000 = .ok (.swrite true 1 48 24) ∧
    decode 0b11000100011000000000000001100100 = .ok (.trap true 100) ∧
    decode 0b11000100100000000000000000000000 = .ok (.svcNull true) ∧
    decode 0b11000100100000000000000000000001 = .ok (.svcStack true) ∧
    decode 0b11000100100000000000000000000010 = .ok (.svcMap true) ∧
    decode 0b11000100100000000000000000000011 = .ok (.svcLog true) :=
  ⟨rfl, rfl, rfl, rfl, rfl, rfl, rfl, rfl, rfl, rfl, rfl, rfl, rfl, rfl, rfl, rfl, rfl, rfl, rfl, rfl, rfl, rfl⟩
theorem test_words_8 :
    decode 0b11000100100000000000000001001101 = .ok (.svcUnprovided true 77) ∧
    decode 0b11000100101000000000000001100100 = .ok (.bkpt true 100) ∧
    decode 0b11000100110000000000000000000000 = .ok (.tret true) ∧
    decode 0b11000100111000000000000000000000 = .ok (.tskip true) ∧
    decode 0b11000101000000000000000000000000 = .ok (.tkill true) ∧
    decode 0b11001011001100000001100001010000 = .ok (.ldg true 25 64 48 80) ∧
    decode 0b11001111001100000001100001010000 = .ok (.stg true 25 64 48 80) ∧
    decode 0b11010011001100000001100001010000 = .ok (.ldp true 25 64 48 80) ∧
    decode 0b11010111001100000001100001010000 = .ok (.stp true 25 64 48 80) ∧
    decode 0b11011011001100000001100001010000 = .ok (.ldu true 25 64 48 80) ∧
    decode 0b11011111001100000001100001010000 = .ok (.stu true 25 64 48 80) ∧
    decode 0b11100011011100000001100001010000 = .ok (.atom true true 11 64 48 80) ∧
    decode 0b11100101101100000001100001010000 = .ok (.atomp true false 13 64 48 80) ∧
    decode 0b11101000001000000000000000000100 = .ok (.fence true 4) ∧
    decode 0b11101000010000000000000000000000 = .ok (.bar true) ∧
    decode 0b11101000011000000000000000000000 = .ok (.cbar true) ∧
    decode 0b11101000100000000001100001010000 = .ok (.bcinit true 48 80) ∧
    decode 0b11101000101000000001100001010000 = .ok (.bcexp true 48 80) ∧
    decode 0b11101000110000000001100000000000 = .ok (.bcwait true 48) ∧
    decode 0b11101000111000000001100000000000 = .ok (.tginit true 48) ∧
    decode 0b11101001000100000001100000000000 = .ok (.tgacq true 64 48) ∧
    decode 0b11101001001100000001100001010000 = .ok (.tgcmt true 64 48 80) :=
  ⟨rfl, rfl, rfl, rfl, rfl, rfl, rfl, rfl, rfl, rfl, rfl, rfl, rfl, rfl, rfl, rfl, rfl, rfl, rfl, rfl, rfl, rfl⟩
theorem test_words_9 :
    decode 0b11101001010100000001100000000000 = .ok (.tgwait true 64 48) ∧
    decode 0b11101001011000000001100000000000 = .ok (.tgrel true 48) ∧
    decode 0b11101001100000000000000000111101 = .ok (.evsig true 61) ∧
    decode 0b11101001101000000001100000111101 = .ok (.evwait true 48 61) ∧
    decode 0b11101001110000000001100000000000 = .ok (.twait true 48) ∧
    decode 0b11101100001100000001100000000000 = .ok (.cpy true 64 48) ∧
    decode 0b11101100010100000001100000000000 = .ok (.gath true 64 48) ∧
    decode 0b11101100011100000001100000000000 = .ok (.scat true 64 48) ∧
    decode 0b11101100100100000001100000000000 = .ok (.coll true 64 48) ∧
    decode 0b11101100101100000001100000000000 = .ok (.bankop true 64 48) ∧
    decode 0b11101100110100000001100000000000 = .ok (.bankred true 64 48) ∧
    decode 0b11101100111000000101100001010000 = .ok (.pfetch true 1 48 80) ∧
    decode 0b11101101000100000001100001010000 = .ok (.cflush true 64 48 80) ∧
    decode 0b11101101001100000001100001010000 = .ok (.cinv true 64 48 80) ∧
    decode 0b11101101010100000001100000000010 = .ok (.engst true 64 48 2) ∧
    decode 0b11110000001100000001100000000000 = .ok (.task true 64 48) ∧
    decode 0b11110000010100000001100001010000 = .ok (.tsucc true 64 48 80) ∧
    decode 0b11110000011100000000000000000011 = .ok (.tstat true 64 3) ∧
    decode 0b11110000100100000001100000000000 = .ok (.ctdecl true 64 48) ∧
    decode 0b11110000100100000001100000000000 = .ok (.ctdecl true 64 48) ∧
    decode 0b11110000101100000001100001010000 = .ok (.ctpost true 64 48 80) ∧
    decode 0b11110000110100000001100001010000 = .ok (.ctget true 64 48 80) :=
  ⟨rfl, rfl, rfl, rfl, rfl, rfl, rfl, rfl, rfl, rfl, rfl, rfl, rfl, rfl, rfl, rfl, rfl, rfl, rfl, rfl, rfl, rfl⟩
theorem test_words_10 :
    decode 0b11110000111100000001100000000000 = .ok (.ctstat true 64 48) ∧
    decode 0b11110100001001111001100000000000 = .ok (.tdset true 30 48) ∧
    decode 0b11110100010000000001100001010000 = .ok (.bload true 48 80) ∧
    decode 0b11110100010000000001100001010000 = .ok (.bload true 48 80) ∧
    decode 0b11110100011001111001100001010000 = .ok (.scpush true 30 48 80) ∧
    decode 0b11110100100100000000111101010000 = .ok (.mma true 64 30 80) ∧
    decode 0b11110100101100000001100000000000 = .ok (.bstatSlot true 64 48) ∧
    decode 0b11110100101100000001100000000001 = .ok (.bstatQueue true 64 48) ∧
    decode 0b11110100101100000000000000000010 = .ok (.bstatError true 64) ∧
    decode 0b11110100101100000000000000000011 = .ok (.bstatDrain true 64) ∧
    decode 0b11111000001100000000000000000000 = .ok (.aczero true 64) ∧
    decode 0b11111000010100000001100001010000 = .ok (.acld true 64 48 80) ∧
    decode 0b11111000011100000001100000000000 = .ok (.acst true 64 48) ∧
    decode 0b11111000100100000001100001010000 = .ok (.acadd true 64 48 80) ∧
    decode 0b11111000101100000001100001010000 = .ok (.acmul true 64 48 80) ∧
    decode 0b11111000110100000001100000000000 = .ok (.acovf true 64 48) ∧
    decode 0b11111000111100000001100000000000 = .ok (.acmov true 64 48) ∧
    decodeScript 0b00000111011011000000000000000000 = .ok (.kmov 13 11) ∧
    decodeScript 0b00001011010000000011000001010011 = .ok (.kmovi 13 12371) ∧
    decodeScript 0b00001011010000000111000001010011 = .ok (.kmoviSh 13 12371) ∧
    decodeScript 0b00001111011011100111000001010011 = .ok (.kadd 13 11 9 12371) ∧
    decodeScript 0b00010011011011100100000000000000 = .ok (.ksub 13 11 9) :=
  ⟨rfl, rfl, rfl, rfl, rfl, rfl, rfl, rfl, rfl, rfl, rfl, rfl, rfl, rfl, rfl, rfl, rfl, rfl, rfl, rfl, rfl, rfl⟩
theorem test_words_11 :
    decodeScript 0b00010111011011100100000000000000 = .ok (.kand 13 11 9) ∧
    decodeScript 0b00011011011011100100000000000000 = .ok (.kor 13 11 9) ∧
    decodeScript 0b00011111011011000011000001010011 = .ok (.kld 13 11 12371) ∧
    decodeScript 0b00100011011011000011000001010011 = .ok (.kst 13 11 12371) ∧
    decodeScript 0b00100100001011100111000001010011 = .ok (.kbeq 11 9 12371) ∧
    decodeScript 0b00101000001011100111000001010011 = .ok (.kbne 11 9 12371) ∧
    decodeScript 0b00101100001011100111000001010011 = .ok (.kblt 11 9 12371) ∧
    decodeScript 0b00110000000000000011000001010011 = .ok (.kjmp 12371) ∧
    decodeScript 0b00110111010000000000000000000000 = .ok (.ktime 13) ∧
    decodeScript 0b00111000001011000011000001010011 = .ok (.ksleep 11 12371) ∧
    decodeScript 0b00111100000000000011000001010011 = .ok (.khalt 12371) ∧
    decodeScript 0b01000000000000000000000000000000 = .ok (.knop) ∧
    decodeScript 0b10000011011011100100000000000000 = .ok (.creq 13 11 9) ∧
    decodeScript 0b10000111011011100111000001010011 = .ok (.cwait 13 11 9 12371) ∧
    decodeScript 0b10001011011011000000000000000000 = .ok (.crel 13 11) ∧
    decodeScript 0b10001100001011100100000000000000 = .ok (.ctol 11 9) ∧
    decodeScript 0b10010011011011000011000001010011 = .ok (.cstat 13 11 12371) ∧
    decodeScript 0b10010111011011000000000000000000 = .ok (.cpathRoute 13 11) ∧
    decodeScript 0b10010111011011000000000000000000 = .ok (.cpathRoute 13 11) ∧
    decodeScript 0b10010111011011000000000000000000 = .ok (.cpathRoute 13 11) ∧
    decodeScript 0b11000000001011000011000001010011 = .ok (.ewait 11 12371) ∧
    decodeScript 0b11000100000000000011000001010011 = .ok (.esig 12371) :=
  ⟨rfl, rfl, rfl, rfl, rfl, rfl, rfl, rfl, rfl, rfl, rfl, rfl, rfl, rfl, rfl, rfl, rfl, rfl, rfl, rfl, rfl, rfl⟩

/-! The words the spec writes for its example instructions, and words that stand for none. -/

theorem test_example_words_1 :
    decode 0x0C210308 = .ok (.aadd false 4 6 8) ∧
    decode 0x41E00002 = .ok (.acbase false 2) ∧
    decode 0x1CC00001 = .ok (.atbind false 1) ∧
    decode 0x1CA00201 = .ok (.atload false 4 1) ∧
    decode 0x61A18104 = .ok (.atom false false 13 6 2 4) ∧
    decode 0x62218104 = .ok (.atom false true 1 6 2 4) ∧
    decode 0x6400C47E = .ok (.atomp false false 0 3 8 126) ∧
    decode 0x1CE18000 = .ok (.atstat false 6) ∧
    decode 0x20E10100 = .ok (.ballot false 4 2) ∧
    decode 0x03004103 = .ok (.bfx false 1 2 3) ∧
    decode 0x44A00000 = .ok (.bkpt false 0) ∧
    decode 0x74400414 = .ok (.bload false 8 20) ∧
    decode 0x40200200 = .ok (.brx false 4) ∧
    decode 0x74A78003 = .ok (.bstatDrain false 30) ∧
    decode 0x74A78400 = .ok (.bstatSlot false 30 8) ∧
    decode 0x6C2A0800 = .ok (.cpy false 40 16) ∧
    decode 0x708C9000 = .ok (.ctdecl false 50 32) ∧
    decode 0x70CA1914 = .ok (.ctget false 40 50 20) ∧
    decode 0x70AA1914 = .ok (.ctpost false 40 50 20) ∧
    decode 0x70ECD900 = .ok (.ctstat false 51 50) ∧
    decode 0x6D4A5400 = .ok (.engst false 41 40 0) :=
  ⟨rfl, rfl, rfl, rfl, rfl, rfl, rfl, rfl, rfl, rfl, rfl, rfl, rfl, rfl, rfl, rfl, rfl, rfl, rfl, rfl, rfl⟩
theorem test_example_words_2 :
    decode 0x10204103 = .ok (.fadd false 1 2 3) ∧
    decode 0x14C0C082 = .ok (.fcmp false 6 3 1 2) ∧
    decode 0x12224205 = .ok (.fdot4 false 9 4 5) ∧
    decode 0x68200003 = .ok (.fence false 3) ∧
    decode 0x68200004 = .ok (.fence false 4) ∧
    decode 0x90828103 = .ok (.ffma true 10 2 3) ∧
    decode 0x1C808080 = .ok (.flut false 2 1) ∧
    decode 0x1C208080 = .ok (.frcp false 2 1) ∧
    decode 0x11C04101 = .ok (.frnd false 1 2 1) ∧
    decode 0x6C4A0800 = .ok (.gath false 40 16) ∧
    decode 0x24214286 = .ok (.ualuIadd false false 5 5 6) ∧
    decode 0x26204106 = .ok (.ualuIadd false true 1 2 6) ∧
    decode 0x00204103 = .ok (.iadd false 1 2 3) ∧
    decode 0x04050BFD = .ok (.iaddi false 5 5 (-3)) ∧
    decode 0x08404001 = .ok (.icmp false 2 1 0 1) ∧
    decode 0x00410206 = .ok (.isub false 4 4 6) ∧
    decode 0x40A00000 = .ok (.jenr false 0) ∧
    decode 0x41218080 = .ok (.jqry false 6 1) ∧
    decode 0x74800108 = .ok (.mma false 0 2 8) ∧
    decode 0x2F040001 = .ok (.movhUniform false 2 1) ∧
    decode 0x2D068092 = .ok (.movh false 3 0x8092) :=
  ⟨rfl, rfl, rfl, rfl, rfl, rfl, rfl, rfl, rfl, rfl, rfl, rfl, rfl, rfl, rfl, rfl, rfl, rfl, rfl, rfl, rfl⟩
theorem test_example_words_3 :
    decode 0x2C060FDB = .ok (.movl false 3 0x0FDB) ∧
    decode 0x30204103 = .ok (.pand false 1 2 3) ∧
    decode 0x30E10100 = .ok (.ptos false 4 2) ∧
    decode 0x2100C100 = .ok (.redadd false 3 2) ∧
    decode 0x40400000 = .ok (.ret false) ∧
    decode 0x03C0C183 = .ok (.retag false 3 3 3) ∧
    decode 0x74608C19 = .ok (.scpush false 2 24 25) ∧
    decode 0x36404184 = .ok (.sel false true 2 1 3 4) ∧
    decode 0x20804101 = .ok (.shflx false 1 2 1) ∧
    decode 0x02214307 = .ok (.shl false 5 6 7) ∧
    decode 0x22404200 = .ok (.splat false 1 4) ∧
    decode 0x44200000 = .ok (.sread false 0 0 0) ∧
    decode 0x44800001 = .ok (.svcStack false) ∧
    decode 0x44404118 = .ok (.swrite false 1 2 0x18) ∧
    decode 0x702F0800 = .ok (.task false 60 16) ∧
    decode 0x74208800 = .ok (.tdset false 2 16) ∧
    decode 0x44600005 = .ok (.trap false 5) ∧
    decode 0x704F863D = .ok (.tsucc false 62 12 61) ∧
    decode 0x4080007E = .ok (.wadj false (-2)) ∧
    decode 0x40600280 = .ok (.wbase false 5) :=
  ⟨rfl, rfl, rfl, rfl, rfl, rfl, rfl, rfl, rfl, rfl, rfl, rfl, rfl, rfl, rfl, rfl, rfl, rfl, rfl, rfl⟩

theorem test_words_refused :
    decode 0b01111100001000000000000000000000 = .illegalInstruction ∧
    decode 0b00000000000000000000000000000000 = .illegalInstruction ∧
    decode 0b00000001011000000100000100000011 = .illegalOperand ∧
    decode 0b00001100001000001100001000000110 = .illegalOperand ∧
    decodeScript 0b00000000000000000000000000000000 = .illegalInstruction ∧ decodeScript 0b01000000000000000000000000000001 = .illegalOperand :=
  ⟨rfl, rfl, rfl, rfl, rfl, rfl⟩

/-! ## Integer, logical and move instructions -/

/-- Registers of the top of the file: with window 384, v127 is physical register 511. -/
def intState : State := regs 384 [(509, 0x7FFFFFFF, tagI32), (510, 0x80000000, tagUI32), (511, 3, tagRAW)] [(126, 5), (127, 40)]

theorem hyp_IntegerArithmeticResults : ∃ x, Issuing intState x .plain ∧
    ∀ p ∈ [({ vs := [127, 126, 125] }, fun l => isInt (l.get 126).tag && isInt (l.get 125).tag),
      ({ vs := [127, 126, 125] }, fun l => isInt (l.get 126).tag && isInt (l.get 125).tag && isInt (l.get 127).tag),
      ({ vs := [127, 126] }, fun l => isInt (l.get 126).tag)], OperandsPass x p.1 p.2 := witness _ (by decide +kernel)

theorem hyp_LogicShiftFieldMoveResults : ∃ x, Issuing (regs 0 [(1, 7, 15), (2, 9, tagF32), (3, 1, tagI64H)] []) x .plain ∧
    ∀ p ∈ [({ vs := [3, 1, 2] }, fun l => isAny (l.get 1).tag && isAny (l.get 2).tag),
      ({ vs := [3, 1, 2] }, fun l => isAny (l.get 1).tag && isAny (l.get 2).tag && isAny (l.get 3).tag),
      ({ vs := [3, 1] }, fun l => isAny (l.get 1).tag)], OperandsPass x p.1 p.2 := witness _ (by decide +kernel)
theorem hyp_LogicShiftFieldMoveResults_retag : (15 : BitVec 7).toNat ≤ 15 := by decide

theorem hyp_UniformAndImmediateResults : ∃ x, Issuing intState x .plain ∧
    ∀ p ∈ [({ us := [127, 126, 125] }, fun _ => true), ({ us := [127, 126] }, fun _ => true),
      ({ vs := [127], us := [126] }, fun _ => true),
      ({ vs := [127, 126], us := [127] }, fun l => isInt (l.get 126).tag),
      ({ vs := [127, 126], us := [127] }, fun l => isAny (l.get 126).tag),
      ({ vs := [127, 126] }, fun l => isInt (l.get 126).tag), ({ vs := [127, 126] }, fun l => isAny (l.get 126).tag),
      ({ us := [127] }, fun _ => true), ({ vs := [127] }, fun _ => true)], OperandsPass x p.1 p.2 :=
  witness _ (by decide +kernel)
theorem hyp_UniformAndImmediateResults_shift : (31 : BitVec 9).toNat < 32 := by decide

theorem hyp_CompareAddressPredicateResults : ∃ x,
    Issuing (regs 0 [(2, 7, tagI64L), (3, 1, tagI64H), (4, 9, tagI64L), (5, 2, tagI64H), (6, 3, tagUI32), (7, 3, tagI32)] [])
      x .plain ∧
    ∀ p ∈ [({ vs := [6, 7] }, fun l => isInt (l.get 6).tag && isInt (l.get 7).tag),
      ({ vs := [8, 9, 2, 3, 4, 5] }, fun l => isWide l 2 && isWide l 4),
      ({ vs := [8, 9, 2, 3, 6] }, fun l => isWide l 2 && isInt (l.get 6).tag),
      ({ vs := [2, 3, 4, 5] }, fun l => isWide l 2 && isWide l 4),
      ({ vs := [8, 9], us := [126, 127] }, fun _ => true), ({ us := [127] }, fun _ => true),
      ({ vs := [8, 2, 4] }, fun _ => true)], OperandsPass x p.1 p.2 := witness _ (by decide +kernel)
theorem hyp_CompareAddressPredicateResults_cond : (9 : BitVec 5).toNat ≤ 9 := by decide

/-! R140: wraps, high halves, clamps. -/
theorem test_iadd_wraps : gives (execIadd false 1 126 127 intState) 1 0x80000003 tagI32 = true := by decide +kernel
theorem test_imulh_signed : gives (execImulh false 1 126 126 intState) 1 0x40000000 tagI32 = true := by decide +kernel
theorem test_imulhu : gives (execImulhu false 1 126 126 intState) 1 0x40000000 tagUI32 = true := by decide +kernel
theorem test_imin_signed : gives (execImin false 1 125 126 intState) 1 0x80000000 tagI32 = true := by decide +kernel
theorem test_iminu_unsigned : gives (execIminu false 1 125 126 intState) 1 0x7FFFFFFF tagUI32 = true := by decide +kernel
theorem test_iabs_most_negative : gives (execIabs false 1 126 intState) 1 0x80000000 tagI32 = true := by decide +kernel
theorem test_iadds_clamps : gives (execIadds false 1 125 127 intState) 1 0x7FFFFFFF tagI32 = true := by decide +kernel
theorem test_isubs_clamps : gives (execIsubs false 1 126 127 intState) 1 0x80000000 tagI32 = true := by decide +kernel
theorem test_imad_reads_d : gives (execImad false 127 127 127 intState) 127 12 tagI32 = true := by decide +kernel
/-! R141: shifts of 32 and more; R142: the table of BFX and BFXS for a = 0xF0F0_1234. -/
def shiftState : State := regs 0 [(1, 0x80000001, 15), (2, 32, 1), (3, 31, 1), (4, 33, 0)] []
theorem test_shl_32 : gives (execShl false 5 1 2 shiftState) 5 0 tagRAW = true := by decide +kernel
theorem test_sar_32 : gives (execSar false 5 1 2 shiftState) 5 0xFFFFFFFF tagRAW = true := by decide +kernel
theorem test_shr_31 : gives (execShr false 5 1 3 shiftState) 5 1 tagRAW = true := by decide +kernel
theorem test_rotl_33 : gives (execRotl false 5 1 4 shiftState) 5 3 tagRAW = true := by decide +kernel
theorem test_clz_zero : gives (execClz false 5 6 shiftState) 5 32 tagRAW = true := by decide +kernel
theorem test_brev : gives (execBrev false 5 2 shiftState) 5 0x04000000 tagRAW = true := by decide +kernel
def fieldState : State :=
  regs 0 [(1, 0xF0F01234, 0), (2, 0x080C, 0), (3, 0x0810, 0), (4, 0x081C, 0), (5, 0x0005, 0), (6, 0xFFFFFFFF, 0)] []
theorem test_bfx_table : (gives (execBfx false 7 1 2 fieldState) 7 0x00000001 0 &&
    gives (execBfx false 7 1 3 fieldState) 7 0x000000F0 0 && gives (execBfx false 7 1 4 fieldState) 7 0x0000000F 0 &&
    gives (execBfx false 7 1 5 fieldState) 7 0 0) = true := by decide +kernel
theorem test_bfxs_table : (gives (execBfxs false 7 1 2 fieldState) 7 0x00000001 0 &&
    gives (execBfxs false 7 1 3 fieldState) 7 0xFFFFFFF0 0 && gives (execBfxs false 7 1 4 fieldState) 7 0xFFFFFFFF 0 &&
    gives (execBfxs false 7 1 5 fieldState) 7 0 0) = true := by decide +kernel
theorem test_bfi_keeps_the_rest : gives (execBfi false 6 1 2 fieldState) 6 0xFFF34FFF 0 = true := by decide +kernel
/-! R143 to R148. -/
theorem test_retag : gives (execRetag false 3 1 3 fieldState) 3 0xF0F01234 tagF32 = true := by decide +kernel
theorem test_iaddi_negative : gives (execIaddi false 5 5 (-3) fieldState) 5 2 tagI32 = true := by decide +kernel
theorem test_movl_sign : gives (execMovl false 3 0x10000 fieldState) 3 0xFFFF0000 tagI32 = true := by decide +kernel
theorem test_movh_keeps_low : gives (execMovh false 1 0x8092 fieldState) 1 0x40491234 0 = true := by decide +kernel
theorem test_ualu_vector_form : gives (execUaluIadd false true 1 126 127 intState) 1 0x80000028 tagI32 = true := by
  decide +kernel
theorem test_ualu_uniform_form : givesU (execUaluIadd false false 1 126 127 intState) 1 45 = true := by decide +kernel
theorem test_icmp_signs : (laneAfter (execIcmp false 2 1 126 127 intState) (fun l => l.pred 1) &&
    laneAfter (execIcmp false 6 1 126 127 intState) (fun l => !l.pred 1)) = true := by decide +kernel
theorem test_icmp_p15 : laneAfter (execIcmp false 1 15 127 127 intState) (fun l => l.pred 15) = true := by decide +kernel
theorem test_aaddx_extends : (let s := regs 0 [(2, 0, tagI64L), (3, 1, tagI64H), (6, 0xFFFFFFFF, tagUI32), (7, 0xFFFFFFFF, tagI32)] []
    laneAfter (execAaddx false 8 2 6 s) (fun l => l.pair 8 == 0x1FFFFFFFF) &&
    laneAfter (execAaddx false 8 2 7 s) (fun l => l.pair 8 == 0xFFFFFFFF)) = true := by decide +kernel

/-! ## Float instructions, conversion, special functions -/

def floatState : State :=
  regs 0 [(0, 0x3F800000, tagF32), (1, 0x3E99999A, tagF32), (2, 0xC3E60000, tagF32), (3, 0x43FA0000, tagF32),
    (4, 2, tagI32), (5, 0x3C003C00, tagF16), (6, 0x38383838, tagE4), (7, 0x3C003C00, tagF16)] []

theorem hyp_FloatElementResults : ∃ x, Issuing floatState x .plain ∧
    ∀ p ∈ [({ vs := [10, 0, 1] }, fun l => isFloat (l.get 0).tag && (l.get 1).tag == (l.get 0).tag),
      ({ vs := [2, 0, 1] }, fun l => isFloat (l.get 0).tag && (l.get 1).tag == (l.get 0).tag &&
        (l.get 2).tag == (l.get 0).tag),
      ({ vs := [10, 0] }, fun l => isFloat (l.get 0).tag),
      ({ vs := [10, 0, 4] }, fun l => isFloat (l.get 0).tag && ((l.get 4).tag == tagI32 || (l.get 4).tag == tagRAW))],
      OperandsPass x p.1 p.2 := witness _ (by decide +kernel)
theorem hyp_FloatElementResults_mode : (4 : BitVec 7).toNat ≤ 4 := by decide

theorem hyp_FloatClassCompareDotConvertResults : ∃ x, Issuing floatState x .plain ∧
    ∀ p ∈ [({ vs := [10, 0] }, fun l => isFloat (l.get 0).tag),
      ({ vs := [0, 1] }, fun l => isFloat (l.get 0).tag && (l.get 1).tag == (l.get 0).tag),
      ({ vs := [0, 5, 7] }, fun l => ((l.get 5).tag == tagBF16 || (l.get 5).tag == tagF16) && (l.get 7).tag == (l.get 5).tag &&
        (l.get 0).tag == tagF32),
      ({ vs := [0, 6, 6] }, fun l => ((l.get 6).tag == tagE4 || (l.get 6).tag == tagE5) &&
        ((l.get 6).tag == tagE4 || (l.get 6).tag == tagE5) && (l.get 0).tag == tagF32)],
      OperandsPass x p.1 p.2 := witness _ (by decide +kernel)
theorem hyp_FloatClassCompareDotConvertResults_cvt : ∃ x, Issuing floatState x .plain ∧
    (∀ p ∈ [(({ vs := [8, 3] } : Operands), fun l : Lane => cvtTags tagE4 (l.get 3) (l.get 8))], OperandsPass x p.1 p.2) ∧
    ActiveLanes x fun _ l => cvtIllegal tagE4 3 (l.get 3) = false := witnessLanes _ _ (by decide +kernel)

theorem hyp_FloatWithoutInexactIsExact : fF32.finite 0x3F800000 ∧ fF32.finite 0x7F7FFFFF ∧ fF32.finite 0 ∧
    (fF32.fma rne false false 0x3F800000 0x7F7FFFFF 0).2 &&& ixe = 0 ∧ (fF32.add rne 0x3F800000 0).2 &&& ixe = 0 := by
  unfold Fmt.finite; decide +kernel

theorem hyp_SpecialFunctionResults : ∃ x, Issuing floatState x .plain ∧
    ∀ p ∈ [(({ vs := [10, 0] } : Operands), fun l : Lane => isFloat (l.get 0).tag)], OperandsPass x p.1 p.2 :=
  witness _ (by decide +kernel)

theorem hyp_ActivationTableResults_flut : ∃ x, Issuing floatState x .plain ∧
    (∀ p ∈ [(({ vs := [10, 0] } : Operands), fun l : Lane => (l.get 0).tag == tagF32)], OperandsPass x p.1 p.2) ∧
    (floatState.bank (floatState.coreOf x.g.team) x.g.atbank).state ≠ .loading := witnessAnd _ _ (by decide +kernel)
/-- A bank that is LOADING for another group. -/
def loadingState : State := floatState.modCore 0 fun c => { c with banks := c.banks.map fun b => { b with state := .loading } }
theorem hyp_ActivationTableResults_loading : ∃ x, Issuing loadingState x .plain ∧
    (∀ p ∈ ([] : List (Operands × (Lane → Bool))), OperandsPass x p.1 p.2) ∧
    (loadingState.bank (loadingState.coreOf x.g.team) x.g.atbank).state = .loading := witnessAnd _ _ (by decide +kernel)
theorem hyp_ActivationTableResults : ∃ x, Issuing (regs 0 [] [(4, 0x41000)]) x .plain ∧
    (∀ p ∈ [(({ us := [6] } : Operands), fun _ : Lane => true), ({ us := [4, 5] }, fun _ => true)], OperandsPass x p.1 p.2) ∧
    (let s := regs 0 [] [(4, 0x41000)]
     (1 : BitVec 7).toNat ≤ 1 ∧ s.coreOf x.g.team < s.cores.length ∧ x.g.atbank ≠ 1 ∧
      ((s.core (s.coreOf x.g.team)).banks[1]?).isSome = true ∧ (x.g.uPair 4).toNat % 2 ^ 48 % 128 = 0 ∧
      (∀ g ∈ s.boundTo (s.coreOf x.g.team) 1, g.uid = x.g.uid) ∧ (s.bank (s.coreOf x.g.team) 1).state ≠ .loading ∧
      s.keepsBack x.g = false ∧ x.g.redo? = none) := witnessAnd _ _ (by decide +kernel)

/-! The worked example of R163: four F32 values into the bytes of v8. -/
theorem test_cvt_bytes :
    (gives (execCvt false tagE4 8 0 0 false false 0 floatState) 8 0x00000038 tagE4 &&
     gives (execCvt false tagE4 8 1 1 false false 0 (regs 0 [(1, 0x3E99999A, tagF32), (8, 0x38, tagE4)] [])) 8 0x2A38 tagE4 &&
     gives (execCvt false tagE4 8 2 2 false false 0 (regs 0 [(2, 0xC3E60000, tagF32), (8, 0x2A38, tagE4)] [])) 8 0xFE2A38 tagE4) =
      true := by decide +kernel
theorem test_cvt_saturates : laneAfter
    (execCvt false tagE4 8 3 3 false true 0 (regs 0 [(3, 0x43FA0000, tagF32), (8, 0x00FE2A38, tagE4)] []))
    (fun l => l.get 8 == ⟨0x7EFE2A38, tagE4⟩ && l.fpflags == ofe ||| ixe) = true := by decide +kernel
/-! The tables of the chapter "Worked Arithmetic". -/
theorem test_conversions : conv (.float fF32) (.float fE4M3) 1 false 0x3E99999A = (0x29, ixe) ∧
    conv (.float fF32) (.float fE4M3) 2 false 0x43E60000 = (0x7F, ofe ||| ixe) ∧
    conv (.float fF32) (.float fE2M1) 0 false 0x40200000 = (4, ixe) ∧
    conv (.float fF32) (.float fE2M1) 0 false 0x40E00000 = (7, ofe ||| ixe) ∧
    conv (.float fF32) (.float fE2M1) 1 false 0x40E00000 = (7, ixe) ∧
    conv (.float fF32) (.float fE2M1) 0 false 0xBE4CCCCD = (8, ufe ||| ixe) ∧
    conv (.float fF32) (.float fE3M5) 0 false 0x41A20000 = (0xE8, ixe) ∧
    conv (.float fF32) (.float fE3M5) 0 false 0x3DCCCCCD = (0x0D, ufe ||| ixe) ∧
    conv (.float fF32) (.float fE3M5) 0 false 0x42200000 = (0xFF, ofe ||| ixe) ∧
    conv (.float fF32) (.float fE3M5) 0 false 0xC0400000 = (0, ive) := by decide +kernel
theorem test_reciprocals : fF32.rcp 0 0x00400000 = (0x7F000000, 0) ∧ fF32.rcp 0 0x00200000 = (0x7F800000, ofe ||| ixe) ∧
    fF32.rcp 1 1 = (0x7F7FFFFF, ofe ||| ixe) ∧ fF32.rcp 0 0x7F400000 = (0x002AAAAB, ufe ||| ixe) ∧
    fF32.rcp 1 0x7F400000 = (0x002AAAAA, ufe ||| ixe) ∧ fF32.rcp 0 0x80000000 = (0xFF800000, dze) := by decide +kernel
theorem test_roots : fF32.rsq 0 1 = (0x64B504F3, ixe) ∧ fF32.rsq 0 0x80000001 = (0x7FC00000, ive) ∧
    fF32.rsq 0 0x80000000 = (0xFF800000, dze) ∧ fF32.sqrt 0 0x80000000 = (0x80000000, 0) := by decide +kernel
/-! One F4S block, and a window sum that its sticky bit decides. -/
def blockA : List Machine.Num := (elements tileF4S [0x12#8, 0x5C#8, 0x07#8, 0x6B#8])
def blockB : List Machine.Num := (elements tileF4S [0x44#8, 0x92#8, 0x71#8, 0x32#8])
theorem test_f4_block : (stepElement 0 [⟨blockA.zip blockB, (fE3M5.value 0x68).mul (fE3M5.value 0x48)⟩] (fBF16.value 0x3F80)
    (fBF16.value 0x3F80)).1 = 0x40AF0000 := by decide +kernel
theorem test_window_sum : windowSum [(false, 1, 0), (false, 1, -24), (false, 1, -70)] = 0x3F800001 := by decide +kernel
/-! R119, R150 to R152, R160. -/
theorem test_fadd_nan : laneAfter (execFadd false 2 0 1 (regs 0 [(0, 0x7F800001, tagF32), (1, 0xFFC00000, tagF32)] []))
    (fun l => l.get 2 == ⟨0x7FC00001, tagF32⟩ && l.fpflags == ive) = true := by decide +kernel
theorem test_ffma_one_rounding : gives (execFfma false 2 0 1 (regs 0 [(0, 0x3F800001, tagF32), (1, 0x3F800001, tagF32),
    (2, 0xBF800002, tagF32)] [])) 2 0x28800000 tagF32 = true := by decide +kernel
theorem test_fcmp_unordered : laneAfter (execFcmp false 6 3 0 1 (regs 0 [(0, 0x7FC00000, tagF32), (1, 0, tagF32)] []))
    (fun l => l.pred 3) = true := by decide +kernel

/-! ## Cross-lane, predicate and control instructions -/

theorem hyp_ShuffleVoteBallotResults : ∃ x, Issuing (regs 384 [] []) x .plain ∧
    ∀ p ∈ [(({ vs := [127, 126, 125] } : Operands), fun _ : Lane => true), ({ vs := [127, 126] }, fun _ => true),
      ({ us := [127] }, fun _ => true), ({ vs := [127], us := [127] }, fun _ => true)], OperandsPass x p.1 p.2 :=
  witness _ (by decide +kernel)

theorem hyp_ReductionScanResults : ∃ x, Issuing floatState x .plain ∧
    ((∀ p ∈ [(({ vs := [10, 0] } : Operands), fun l : Lane => isAny (l.get 0).tag)], OperandsPass x p.1 p.2) ∧
      ActiveLanes x fun _ l => operandFault x l { vs := [10, 0] }
        (isReducible (l.get 0).tag && (siteClass x { vs := [10, 0] } 0).fits (l.get 0).tag) = none) :=
  witnessLanes _ _ (by decide +kernel)
theorem hyp_ReductionScanResults_integers : ∃ x, Issuing intState x .plain ∧
    (∀ p ∈ [(({ vs := [10, 127] } : Operands), fun l : Lane => isReducible (l.get 127).tag)], OperandsPass x p.1 p.2) ∧
    siteClass x { vs := [10, 127] } 127 = .signed := witnessAnd _ _ (by decide +kernel)

def callState : State := regs 504 [(504, 0x40084, tagUI32), (505, 504, tagUI32), (506, 0x40100, tagI64L), (507, 0, tagI64H)] []

theorem hyp_BranchCallWindowResults : ∃ x, Issuing callState x .plain ∧
    (∀ p ∈ [(({ vs := [0, 1] } : Operands), fun l : Lane => isInt (l.get 0).tag && isInt (l.get 1).tag),
      ({ vs := [2, 3] }, fun l => isWide l 2), ({ vs := [1] }, fun l => isInt (l.get 1).tag)], OperandsPass x p.1 p.2) ∧
    ActiveLanes x fun _ l => (l.get 1).bits.toNat % 8 = 0 ∧ (l.get 1).bits.toNat < x.img.va ∧ l.window + 8 * 0 + 1 < x.img.va ∧
      l.window ∉ l.pend ∧ l.window + 1 ∉ l.pend ∧ 0 ≤ (l.window : Int) + 8 * (-63) ∧ ((l.window : Int) + 8 * (-63)) % 8 = 0 ∧
      (l.window : Int) + 8 * (-63) < x.img.va := witnessLanes _ _ (by decide +kernel)

def joinState : State := onGrp (fun g => { g with jmasks := setAt (fun _ => ⟨0xFFFFFFFF, 0⟩) 7 g.jmasks }) base

theorem hyp_RejoinResults : ∃ x, Issuing joinState x .plain ∧
    ∀ p ∈ [(({ vs := [126, 127] } : Operands), fun _ : Lane => true)], OperandsPass x p.1 p.2 := witness _ (by decide +kernel)
theorem hyp_RejoinResults_jarv : ∃ x, Issuing joinState x .safePoint := issuing (by decide +kernel)
theorem hyp_RejoinResults_release : ∃ (g : Group) (jm : JMask), g.jmasks[7]? = some jm ∧ jm.enrol ≠ 0 ∧ jm.arrived = jm.enrol :=
  ⟨{ placedGroup with jmasks := List.replicate 8 ⟨1, 1⟩ }, ⟨1, 1⟩, by decide +kernel⟩
theorem hyp_RejoinResults_none : ∃ (g : Group) (jm : JMask), g.jmasks[0]? = some jm ∧ ¬(jm.enrol ≠ 0 ∧ jm.arrived = jm.enrol) :=
  ⟨placedGroup, ⟨0, 0⟩, by decide +kernel⟩

def stubState : State :=
  onGrp (fun g => { g with stubs := [{ pcoff := 0x80, start := 0x40080, lanes := 0xFFFFFFFF }] })
    (onAll (fun l => { l with stood := some { lpc := 0x40080, state := .run } }) base)

theorem hyp_SafePointExitResults : (∃ x, Issuing base x .safePoint) ∧ (∃ x, Issuing base x .yield) ∧
    (∃ x, Issuing stubState x .resume) ∧ (∃ x, Issuing base x .plain ∧ decide (8 * (31 : BitVec 7).toNat < x.img.ca) = true) :=
  ⟨issuing (by decide +kernel), issuing (by decide +kernel),
    issuing (by decide +kernel), issuing_of (by decide +kernel)⟩
/-- A segment that can end, with lanes that leave their stub. -/
theorem hyp_SafePointExitResults_leaving : (let s := onGrp (fun g => { g with segEnd := true }) (onAll (fun l => { l with leaving := true }) stubState)
    (s.group? 3).any (fun g => g.segEnd && !s.awaits g.uid && g.lanes.all fun l => l.service.isNone && l.redo.isNone && l.leaving && l.stood.isSome) =
      true) := by decide +kernel
theorem hyp_SafePointExitResults_exit : ∃ x, Issuing base x .exit ∧ (∀ p ∈ ([] : List (Operands × (Lane → Bool))), OperandsPass x p.1 p.2) ∧
    (base.exitStalls x.g x.mask = false ∧ (base.team? x.g.team).isSome = true ∧
      (List.range 32).all (fun i => x.mask.getLsbD i || (x.g.lanes[i]?).any (·.state == .done)) = true) :=
  witnessAnd _ _ (by decide +kernel)

/-! R172: a lane without a source keeps its own value. R173 to R176. -/
def laneNumbers : State :=
  onGrp (fun g => { g with lanes := mapFrom (fun i l => { l with vregs := [(1, ⟨BitVec.ofNat 32 i, tagI32⟩)] }) 0 g.lanes }) base
theorem test_shflu_lane0 : laneAfter (execShflu false 2 1 1 laneNumbers) (fun l => l.get 2 == ⟨0, tagI32⟩) = true := by decide +kernel
theorem test_shfld : laneAfter (execShfld false 2 1 31 laneNumbers) (fun l => l.get 2 == ⟨31, tagI32⟩) = true := by decide +kernel
theorem test_ballot : givesU (execBallot false 4 15 laneNumbers) 4 0xFFFFFFFF = true := by decide +kernel
theorem test_redadd_comes : stateAfter (execRedadd false 2 1 laneNumbers)
    (fun t => t.pend.any fun p => p.lane == some 5 && p.what == .value [⟨2, 496, tagI32⟩]) = true := by decide +kernel
theorem test_scanadd_comes : stateAfter (execScanadd false 2 1 laneNumbers)
    (fun t => t.pend.any fun p => p.lane == some 5 && p.what == .value [⟨2, 15, tagI32⟩]) = true := by decide +kernel
theorem test_bcast : laneAfter (execBcast false 2 1 31 laneNumbers) (fun l => l.get 2 == ⟨31, tagI32⟩) = true := by decide +kernel
theorem test_sel_not : gives (execSel false true 15 2 0 1 floatState) 2 0x3E99999A tagF32 = true := by decide +kernel
/-! R71, R181, R182: the worked call. -/
theorem test_call : laneAfter (execCall false 2 0x10 base) (fun l => l.window == 16 && l.lpc == 0x400C0 &&
    l.get 0 == ⟨0x40084, tagUI32⟩ && l.get 1 == ⟨0, tagUI32⟩) = true := by decide +kernel
theorem test_ret : laneAfter (execRet false callState) (fun l => l.window == 504 && l.lpc == 0x40084) = true := by decide +kernel
theorem test_call_past_the_file : laneAfter (execCall false 1 0 callState)
    (fun l => l.state == .trap && l.tcause == 7 && l.window == 504) = true := by decide +kernel
theorem test_bra_back : laneAfter (execBra false false 15 (-1) base) (fun l => l.lpc == 0x4007C) = true := by decide +kernel
theorem test_jarv_releases : laneAfter (execJarv false 7 joinState) (fun l => l.state == .run && l.lpc == 0x40084) = true := by
  decide +kernel
theorem test_jqry : laneAfter (execJqry false 6 7 joinState) (fun l => l.get 6 == ⟨0xFFFFFFFF, tagUI32⟩ && l.get 7 == ⟨0, tagUI32⟩) =
    true := by decide +kernel
theorem test_exit_retires : stateAfter (execExit false base) (fun t => t.groups.isEmpty && t.retiring.length == 1) = true := by
  decide +kernel
theorem test_wadj_out : laneAfter (execWadj false (-2) base) (fun l => l.state == .trap && l.tcause == 7) = true := by decide +kernel

/-! ## Special registers, memory, waits -/

/-- With pages: 0x40000000 read-write memory, 0x80000000 bank memory, 0xC0000000 the control node, and 0x100000000 one that
firmware may map (R269, R270). -/
def paged (s : State) : State :=
  { s with
    mem := { s.mem with cells := ([(0, 0x17), (8, 0x4000000F), (16, 0xCF), (24, 0x8F), (32, 0x1000)].foldl
      (fun c e => cputs c (placedTable + e.1) (natLe 8 e.2)) s.mem.cells) },
    grids := s.grids.map (fun g => { g with launch := { g.launch with bankmem := 2 ^ 20 } }) }

/-- Only lane 31 is in RUN. -/
def oneLane (s : State) : State :=
  onGrp (fun g => { g with lanes := mapFrom (fun i (l : Lane) => if i = 31 then l else { l with state := .done }) 0 g.lanes }) s

def onTeam (f : Team → Team) (s : State) : State := s.modTeam 2 f

/-- A trug of two slots of 128 bytes for member 0, described at 0x400, with its slots from 0x800 (R210). -/
def trugged (f : Team → Team) (s : State) : State :=
  onTeam (fun t => f (((((t.setField 0x400 4 0x800).setField 0x404 1 7).setField 0x405 1 1).setField 0x406 2 1).trugInit 0x400)) s

theorem hyp_SpecialRegisterAccess : ∃ x, Issuing intState x .plain ∧
    (∀ p ∈ [(({ vs := [127] } : Operands), fun _ : Lane => true), ({ vs := [126, 127] }, fun _ => true),
      ({ us := [126, 127] }, fun _ => true), ({ us := [127] }, fun _ => true)], OperandsPass x p.1 p.2) := witness _ (by decide +kernel)
theorem hyp_SpecialRegisterAccess_flags : ∃ x, Issuing (regs 0 [(4, 31, tagUI32)] []) x .plain ∧
    (∀ p ∈ [(({ vs := [4] } : Operands), fun l : Lane => isInt (l.get 4).tag)], OperandsPass x p.1 p.2) ∧
    ActiveLanes x fun _ l => (l.get 4).bits.toNat < 32 := witnessLanes _ _ (by decide +kernel)
theorem hyp_SpecialRegisterAccess_group : ∃ x, Issuing (regs 0 [] [(0, 3), (1, 31), (2, 1), (3, 16), (4, 4096), (5, 7)]) x .plain ∧
    (∀ p ∈ [(({ us := [0, 1, 2, 3, 4, 5] } : Operands), fun _ : Lane => true)], OperandsPass x p.1 p.2) ∧
    ((x.g.u 0).toNat < 4 ∧ (x.g.u 1).toNat < 32 ∧ (x.g.u 2).toNat < 2 ∧ 16 ≤ (x.g.u 3).toNat ∧ (x.g.u 4).toNat ≤ 4096 ∧
      (x.g.u 5).toNat < 8) := witnessAnd _ _ (by decide +kernel)

/-- Values that SWRITE refuses, in uniform registers and in v1, of which lane 0 is the lowest active lane. -/
def badSpecials : State := regs 0 [(1, 32, tagUI32)] [(0, 4), (1, 32), (2, 2), (3, 15), (4, 4097), (5, 8)]
theorem hyp_SpecialRegisterAccess_refused : ∃ x, Issuing badSpecials x .plain ∧
    (∀ p ∈ [(({ us := [0, 1, 2, 3, 4, 5] } : Operands), fun _ : Lane => true), ({ vs := [1] }, fun l => isInt (l.get 1).tag)],
      OperandsPass x p.1 p.2) ∧
    ((x.g.redo? = none ∧ x.mask.getLsbD 0 = true ∧ x.g.lanes.all (fun l => !l.handler) = true) ∧
      (4 ≤ (x.g.u 0).toNat ∧ 32 ≤ (x.g.u 1).toNat ∧ 2 ≤ (x.g.u 2).toNat ∧ (x.g.u 3).toNat < 16 ∧ 4096 < (x.g.u 4).toNat ∧
      8 ≤ (x.g.u 5).toNat) ∧ (x.g.lanes[0]?).any (fun l => 32 ≤ (l.get 1).bits.toNat) = true) :=
  witnessAnd _ _ (by decide +kernel)

theorem hyp_TrapsServicesAndBreakpoints : ∃ x, Issuing base x .plain ∧
    (∀ p ∈ [(({ us := [124, 125, 126, 127] } : Operands), fun _ : Lane => true)], OperandsPass x p.1 p.2) ∧
    (base.keepsBack x.g = false ∧ base.fw.debugger = false ∧ x.g.lanes.all (fun l => !l.handler) = true ∧
      x.g.service = none) := witnessAnd _ _ (by decide +kernel)
/-- Firmware has answered the group's service. -/
def answered : State := onGrp (fun g => { g with service := some (0x40080, 0) }) base
theorem hyp_TrapsServicesAndBreakpoints_answered : ∃ x, Issuing answered x .plain ∧
    (∀ p ∈ [(({ us := [124, 125, 126, 127] } : Operands), fun _ : Lane => true)], OperandsPass x p.1 p.2) ∧
    (answered.keepsBack x.g = false ∧ x.g.answered x.pc answered.clock.tick = true) := witnessAnd _ _ (by decide +kernel)
theorem hyp_TrapsServicesAndBreakpoints_attached :
    ∃ x, Issuing { base with fw := { base.fw with debugger := true } } x .plain := issuing (by decide +kernel)

def handling : State := onAll (fun l => { l with handler := true, tpc := 0x40100, tcause := 2 }) base
theorem hyp_HandlerReturns : ∃ x, Issuing handling x .plain ∧ (∀ p ∈ ([] : List (Operands × (Lane → Bool))), OperandsPass x p.1 p.2) ∧
    (handling.exitStalls x.g x.mask = false ∧ (handling.team? x.g.team).isSome = true ∧ (handling.grid? x.g.grid).isSome = true ∧
      x.g.lanes.all (·.handler) = true) := witnessAnd _ _ (by decide +kernel)
theorem hyp_HandlerReturns_outside : ∃ x, Issuing base x .plain ∧ (∀ p ∈ ([] : List (Operands × (Lane → Bool))), OperandsPass x p.1 p.2) ∧
    ActiveLanes x fun _ l => l.handler = false := witnessLanes _ _ (by decide +kernel)

/-- v2:v3 is 0x40000000, v4 is an index of 8, v5 one of 0x80000000 (to the control node), s2:s3 is 0x40000000. -/
def memState : State := paged (regs 0 [(2, 0x40000000, tagI64L), (3, 0, tagI64H), (4, 8, tagI32), (5, 0x80000000, tagUI32), (6, 7, tagI32)]
  [(2, 0x40000000), (6, 16), (8, 0x400), (10, 0x40000000), (11, 0xFFFFFFFF)])

/-- The place an access meets, on this part. -/
def atHome (m : Met) : Bool := m.place?.any (·.home)

theorem atHome_place {m : Met} (h : atHome m = true) : ∃ p, m = .place p ∧ p.home = true := by
  cases m with
  | place p => exact ⟨p, rfl, by simpa [atHome, Met.place?] using h⟩
  | fault c => cases h
  | service e => cases h

theorem hyp_LoadsAreOnTheirWay : ∃ x, Issuing memState x .plain ∧
    (∀ p ∈ [((globalOperands 4 2).add { vs := regsFrom 126 2 }, fun l : Lane => globalTags l 4 2),
      ((globalOperands 2 126).add { vs := regsFrom 126 2 }, fun l => globalTags l 2 126),
      ({ us := [6, 2, 3] ++ regsFrom 124 4 }, fun _ => true),
      ((scratchOperands 4 8).add { vs := regsFrom 124 4 }, fun l => scratchTags l 4)], OperandsPass x p.1 p.2) ∧
    ActiveLanes x fun i l => atHome (memState.meetLane x.g i (globalAddr x.g l 4 2) (accBytes 18) .load) = true ∧
      atHome (memState.meetLane x.g i (globalAddr x.g l 2 126) (accBytes 18) .load) = true ∧ memState.keepsBack x.g = false ∧
      uniformAddr x.g 6 2 % accBytes 25 = 0 ∧
      atHome (memState.meet x.g.grid (memState.coreOf x.g.team) (uniformAddr x.g 6 2) (accBytes 25) .load) = true ∧
      memState.scratchFault x (scratchAddr x.g l 4 8) (accBytes 18) false = none := witnessLanes _ _ (by decide +kernel)
theorem hyp_LoadsAreOnTheirWay_remote : ∃ x, Issuing (paged (regs 0 [(2, 0xC0000000, tagI64L), (3, 0, tagI64H)] [])) x .plain ∧
    (∀ p ∈ [((globalOperands 2 126).add { vs := regsFrom 4 1 }, fun l : Lane => globalTags l 2 126)], OperandsPass x p.1 p.2) ∧
    ActiveLanes x fun i l => ((paged (regs 0 [(2, 0xC0000000, tagI64L), (3, 0, tagI64H)] [])).meetLane x.g i
      (globalAddr x.g l 2 126) 4 .load).place?.any (fun p => !p.home) = true := witnessLanes _ _ (by decide +kernel)

/-- v2:v3 is 0x100000000. -/
def servState : State := paged (regs 0 [(2, 0, tagI64L), (3, 1, tagI64H)] [])
/-- Whether an access is held for firmware's service. -/
def serves (m : Met) : Bool :=
  match m with
  | .service _ => true
  | _ => false
theorem hyp_LoadsAreOnTheirWay_service : ∃ x, Issuing servState x .plain ∧
    (∀ p ∈ [((globalOperands 2 126).add { vs := regsFrom 4 1 }, fun l : Lane => globalTags l 2 126)], OperandsPass x p.1 p.2) ∧
    ActiveLanes x fun i l => serves (servState.meetLane x.g i (globalAddr x.g l 2 126) 4 .load) = true :=
  witnessLanes _ _ (by decide +kernel)

theorem hyp_StoresAreReceivedOrAccepted : ∃ x, Issuing memState x .plain ∧
    (∀ p ∈ [((globalOperands 4 2).add { vs := regsFrom 6 1 }, fun l : Lane => globalTags l 4 2 && storeTags l 4 6),
      ({ us := [6, 2, 3] ++ regsFrom 124 4 }, fun _ => true),
      ((scratchOperands 4 8).add { vs := regsFrom 6 1 }, fun l => scratchTags l 4 && storeTags l 4 6)], OperandsPass x p.1 p.2) ∧
    ActiveLanes x fun i l => memState.undecided x.g = false ∧ x.g.speculative = false ∧
      atHome (memState.meetLane x.g i (globalAddr x.g l 4 2) (accBytes 4) .store) = true ∧
      memState.uniformFault x (uniformAddr x.g 6 2) (accBytes 25) .store = none ∧
      atHome (memState.meet x.g.grid (memState.coreOf x.g.team) (uniformAddr x.g 6 2) (accBytes 25) .store) = true ∧
      memState.scratchFault x (scratchAddr x.g l 4 8) (accBytes 4) true = none ∧
      (memState.team? x.g.team).any (fun tm => cwf tm.scratch &&
        (memState.scratchPlace x.img tm (scratchAddr x.g l 4 8) (accBytes 4) == some (tm, 0x408))) = true :=
  witnessLanes _ _ (by decide +kernel)
/-- Accesses on their way to the bank of team 2. -/
def banked (id : Nat) (lane : Option Nat) (what : Awaited) : Pend :=
  { id := id, group := 3, lane := lane, lanes := 1, pc := 0x40080, va := 0x408, regs := [], due := 0, what := what }
theorem hyp_StoresAreReceivedOrAccepted_bank :
    (memState.team? 2).any (fun tm => cwf tm.scratch && (scratchMerged tm 0x408 4).isNone) = true ∧
    (let q := banked 5 (some 0) (.bankStore 2 0x408 0 [7, 0, 0, 0])
     let p := banked 6 (some 1) (.bankStore 2 0x40A 0 [8, 0, 0, 0])
     q.id < p.id ∧ q.group = p.group ∧ p.what.bank.isSome = true ∧ q.what.bank = p.what.bank ∧
       q.what.overwrites p.what = true ∧ q.actsFor 0 = true) := by decide +kernel

theorem hyp_AtomicsReturnTheOldWord : ∃ x, Issuing (oneLane memState) x .plain ∧
    (∀ p ∈ [((globalOperands 4 2).add { vs := atomRegs 0 6 }, fun l : Lane => globalTags l 4 2 && (atomRegs 0 6).all fun k => atomTag 0 (l.get k).tag),
      ((scratchOperands 4 8).add { vs := atomRegs 0 6 }, fun l => scratchTags l 4 && (atomRegs 0 6).all fun k => atomTag 0 (l.get k).tag)],
      OperandsPass x p.1 p.2) ∧
    ActiveLanes x fun i l => x.mask = BitVec.ofNat 32 (2 ^ i) ∧ (oneLane memState).keepsBack x.g = false ∧
      ((oneLane memState).meetLane x.g i (globalAddr x.g l 4 2) 4 .rmw).place?.any (fun p => p.home && p.pa % 4 == 0) = true ∧
      (oneLane memState).scratchFault x (scratchAddr x.g l 4 8) 4 true = none ∧
      ((oneLane memState).team? x.g.team).any (fun tm =>
        (oneLane memState).scratchPlace x.img tm (scratchAddr x.g l 4 8) 4 == some (tm, 0x408)) = true ∧
      (oneLane memState).mem.wf = true ∧ globalAddr x.g l 4 2 = 0x40000008 := witnessLanes _ _ (by decide +kernel)
def bankAtoms : State :=
  { memState with pend := [banked 5 none (.bankAtom 2 0x408 0 false [(0, 7, 1, 0, tagI32), (3, 7, 2, 0, tagI32)]),
    banked 6 (some 0) (.accepted 5), banked 7 (some 3) (.accepted 5)] }
theorem hyp_AtomicsReturnTheOldWord_bank : (bankAtoms.pend.map (·.id)).Nodup ∧
    (bankAtoms.team? 2).any (fun tm => cwf tm.scratch && (scratchDamaged tm 0x408 4).isNone) = true ∧
    (bankAtoms.pend.all fun q => bankAtoms.pend.all fun q' => q.lane != q'.lane || q.what != q'.what || q == q') = true ∧
    ([0, 3] : List Nat).Nodup := by decide +kernel

def trugState : State := trugged id memState
theorem hyp_WaitsBarriersTrugsAndEvents_trug : ∃ x, Issuing (trugState.atTrug 8) x .safePoint ∧
    (∀ p ∈ [(({ us := [9, 8] } : Operands), fun _ : Lane => true)], OperandsPass x p.1 p.2) ∧
    ((trugState.atTrug 8).trugFault x 8 (fun u off _ => [(0, 0x10), (0x40 + 4 * u.trugHead off, 4)]) (fun _ _ _ => false) = none ∧
      (trugState.atTrug 8).trugFault x 8 consumerPieces (fun u off j => bitsOf (u.trugConsumers off) j 1 == 0) = none) :=
  witnessAnd _ _ (by decide +kernel)
theorem hyp_WaitsBarriersTrugsAndEvents : ∃ x, Issuing trugState x .safePoint ∧
    (∀ p ∈ [(({ us := [8] } : Operands), fun _ : Lane => true), ({ us := [9, 8] }, fun _ => true)], OperandsPass x p.1 p.2) ∧
    trugState.barrierFault x 8 true = none := witnessAnd _ _ (by decide +kernel)
theorem hyp_WaitsBarriersTrugsAndEvents_plain : ∃ x, Issuing trugState x .plain ∧
    (∀ p ∈ [(({ us := [8] } : Operands), fun _ : Lane => true), ({ us := [8, 9] }, fun _ => true), ({ us := [8, 8, 6] }, fun _ => true)],
      OperandsPass x p.1 p.2) ∧
    ((trugState.team? x.g.team).any (fun tm => (barrierOffset x.img tm (x.g.u 8).toNat).isSome && (scratchDamaged tm 0x400 8).isNone &&
      (trugState.trugPlace x.img tm 0x400).any fun p => trugState.team? p.1.uid == some p.1 && p.1.scratchDamage.isEmpty &&
        !trugBad x.img p.1 p.2) = true ∧
      (∀ p ∈ trugState.pend, p.group = x.g.uid → p.what.bank ≠ some 2) ∧ trugState.keepsBack x.g = false ∧
      trugState.fenceHolds x.g x.mask 3 = true ∧ trugState.fenceHolds x.g x.mask 2 = true ∧
      trugState.sctx x.g.grid < trugState.ctxs.length) := witnessAnd _ _ (by decide +kernel)
/-- A slot that is acquired takes bytes up to its size; a filled one is ready for its member. -/
theorem hyp_WaitsBarriersTrugsAndEvents_slots :
    (let u := (newTeam 2 1 0 0 0 0 0 0 0)
     let t := ((((((u.setField 0x400 4 0x800).setField 0x404 1 7).setField 0x405 1 1).setField 0x406 2 1).trugInit 0x400).trugAcquire 0x400)
     0 < t.trugSlots 0x400 ∧ slotAcq (t.trugSlot 0x400 0) = true ∧ slotBytes (t.trugSlot 0x400 0) < t.trugSize 0x400 ∧
      slotBytes (t.trugSlot 0x400 0) + 128 ≤ t.trugSize 0x400 ∧ bitsOf (t.trugConsumers 0x400) 0 1 ≠ 0 ∧
      (t.trugCount 0x400 0 128).trugReady 0x400 0 = true) := by decide +kernel

/-! R47, R197, R199, R202, R207, R232, R235. -/
theorem test_sread_ctaf0 : gives (execSread false 1 0 0x10 base) 1 0x00000FFF tagUI32 = true := by decide +kernel
theorem test_swrite_reserved : laneAfter (execSwrite false 1 6 0x18 memState) (fun l => l.state == .trap && l.tcause == 2) = true := by
  decide +kernel
theorem test_trap_code : laneAfter (execTrap false 5 base) (fun l => l.state == .trap && l.tcause == 0x511 && l.tpc == 0x40080) = true := by
  decide +kernel
theorem test_tskip : laneAfter (execTskip false handling) (fun l => l.lpc == 0x40104 && !l.handler) = true := by decide +kernel
theorem test_stp_little_endian : stateAfter (execStp false 4 6 4 8 memState)
    (fun t => ((t.pend.foldl State.accept t).team? 2).any fun tm => tm.bytes 0x408 4 == [7, 0, 0, 0]) = true := by decide +kernel
theorem test_stg_waits_for_its_wct : stateAfter (execStg false 4 6 4 2 memState)
    (fun t => t.mem.cells == memState.mem.cells && t.mem.updates.any fun u => u.word == 0x40000008) = true := by decide +kernel
theorem test_ldg_misaligned : laneAfter (execLdg false 18 10 6 2 memState) (fun l => l.state == .trap && l.tcause == 4 && l.taddr == 0x40000007) =
    true := by decide +kernel
theorem test_atomp_iadd : stateAfter (execAtomp false false 0 6 4 8 (oneLane memState))
    (fun t => ((t.pend.foldl State.accept t).team? 2).any fun tm => tm.word 0x408 == 7) = true := by decide +kernel
theorem test_bcinit : stateAfter (execBcinit false 8 6 memState) (fun t => (t.team? 2).any fun tm => tm.expected 0x400 == 16) = true := by
  decide +kernel
theorem test_fence_waits : laneAfter (execFence false 4 memState) (fun l => l.lpc == 0x40080 && l.state != .run) = true := by decide +kernel
/-! The worked atomics of R135: 1.0, then 2^24, 1 and 1. -/
def addState : State :=
  onGrp (fun g => { g with lanes := mapFrom (fun i (l : Lane) =>
      if i = 0 then putRegs [(4, 8, tagI32), (7, 0x4B800000, tagF32)] l
      else if i = 3 ∨ i = 5 then putRegs [(4, 8, tagI32), (7, 0x3F800000, tagF32)] l else { l with state := .done }) 0 g.lanes })
    (onTeam (fun t => t.setField 0x408 4 0x3F800000) memState)
theorem test_atomp_reduced : stateAfter (execAtomp false true 1 7 4 8 addState)
    (fun t0 => let t := t0.pend.foldl State.accept t0
      (t.team? 2).any (fun tm => tm.word 0x408 == 0x4B800000) &&
      t.pend.any (fun p => p.lane == some 0 && p.what == .value [⟨7, 0x3F800000, tagF32⟩]) &&
      t.pend.any (fun p => p.lane == some 3 && p.what == .value [⟨7, 0x4B800000, tagF32⟩]) &&
      t.pend.any (fun p => p.lane == some 5 && p.what == .value [⟨7, 0x4B800000, tagF32⟩])) = true := by decide +kernel

/-! ## Engine operations, tasks, successor blocks and cuttings at issue -/

/-- Sixteen words in s16 to s31, over the pages of `paged`. -/
def block (ws : List Word) (us : List (Nat × Word)) : State :=
  paged (regs 0 [] (us ++ mapFrom (fun i w => (16 + i, w)) 0 ws))

def cpyWords : List Word := [1, 0, 0x40000000, 0, 0x40001000, 0, 16]
def gathWords : List Word := [0x20002, 0, 0x40000000, 0, 0x40001000, 0, 1, 1, 1]
def scatWords : List Word := [0x20003, 0, 0x40000000, 0, 0x40001000, 0, 1, 1, 1]
def bankopWords : List Word := [5, 0, 0x80000000, 0, 0x80000100, 0, 0x80000200, 0, 1]
def bankredWords : List Word := [6, 0, 0x80000000, 0, 2, 0, 0x80000200, 0, 1]
def collWords : List Word := [4, 0, 0x40000000, 0, 2, 0, 0x40001000, 0, 0x40002000, 0, 256, 256]
def espWords : List Word := [0x8004, 0, 0x40000000, 0, 2, 0, 0, 0, 0, 0, 0, 0, 0x40003000]
def espMap : List Byte := [2, 0, 0, 0, 2, 0, 0, 0, 1, 0, 0, 0, 1, 0, 0, 0, 2, 0, 2, 0, 0, 0xE4, 1, 0xE4] ++ List.replicate 17 0 ++ [1]
def espState : State :=
  let s := block espWords []
  { s with mem := { s.mem with cells := cputs s.mem.cells 0x40003000 espMap } }

def good16 : Operands := { us := 127 :: regsFrom 16 16 }

theorem hyp_EngineOperationsStart_cpy : ∃ x, Issuing (block cpyWords []) x .plain ∧
    (∀ p ∈ [(good16, fun _ : Lane => true)], OperandsPass x p.1 p.2) ∧
    ((block cpyWords []).team? x.g.team).any (fun tm => !(block cpyWords []).keepsBack x.g && !cpyBad x.img (x.g.words16 16) &&
      ((block cpyWords []).cpyAddress x.img tm (x.g.words16 16)).isNone && !(block cpyWords []).cpyTrugBad x.img tm (x.g.words16 16) &&
      !(block cpyWords []).lockFull 0 ((block cpyWords []).cpySpans x.img tm (x.g.words16 16))) = true :=
  witnessAnd _ _ (by decide +kernel)
/-- A list that is read, with bytes of a form. -/
def listReady (r : ListRead) (p : List Byte → Bool) : Bool :=
  match r with
  | .bytes bs => p bs
  | _ => false
/-- A list of which a piece is on another chip. -/
def listFar (r : ListRead) : Bool :=
  match r with
  | .ask _ _ _ _ => true
  | _ => false
theorem hyp_EngineOperationsStart_gath : ∃ x, Issuing (block gathWords []) x .plain ∧
    (∀ p ∈ [(good16, fun _ : Lane => true)], OperandsPass x p.1 p.2) ∧
    ((block gathWords []).team? x.g.team).any (fun tm => !gsBad 2 (x.g.words16 16) &&
      ((block gathWords []).gsAddress x.img tm (x.g.words16 16)).isNone &&
      listReady ((block gathWords []).readList x (gsList (x.g.words16 16)).1 (gsList (x.g.words16 16)).2) fun bs =>
        !(block gathWords []).lockFull 0 (gsSpans tm 2 (x.g.words16 16) bs)) = true :=
  witnessAnd _ _ (by decide +kernel)
theorem hyp_EngineOperationsStart_scat : ∃ x, Issuing (block scatWords []) x .plain ∧
    (∀ p ∈ [(good16, fun _ : Lane => true)], OperandsPass x p.1 p.2) ∧
    ((block scatWords []).team? x.g.team).any (fun tm => !gsBad 3 (x.g.words16 16) &&
      ((block scatWords []).gsAddress x.img tm (x.g.words16 16)).isNone &&
      listReady ((block scatWords []).readList x (gsList (x.g.words16 16)).1 (gsList (x.g.words16 16)).2) fun bs =>
        !(block scatWords []).lockFull 0 (gsSpans tm 3 (x.g.words16 16) bs)) = true :=
  witnessAnd _ _ (by decide +kernel)
theorem hyp_EngineOperationsStart_bankop : ∃ x, Issuing (block bankopWords []) x .plain ∧
    (∀ p ∈ [(good16, fun _ : Lane => true)], OperandsPass x p.1 p.2) ∧
    ((block bankopWords []).team? x.g.team).any (fun tm => !bankopBad (x.g.words16 16) &&
      (bankopAddress x.img tm (x.g.words16 16)).isNone &&
      !(block bankopWords []).lockFull 0 (bankopSpans (x.g.words16 16))) = true := witnessAnd _ _ (by decide +kernel)
theorem hyp_EngineOperationsStart_bankred : ∃ x, Issuing (block bankredWords []) x .plain ∧
    (∀ p ∈ [(good16, fun _ : Lane => true)], OperandsPass x p.1 p.2) ∧
    ((block bankredWords []).team? x.g.team).any (fun tm => !bankredBad (x.g.words16 16) &&
      (bankredAddress x.img tm (x.g.words16 16)).isNone &&
      listReady ((block bankredWords []).readList x (wd64 (x.g.words16 16) 2) (8 * bredCount (x.g.words16 16))) fun bs =>
        !(block bankredWords []).lockFull 0 (bankredSpans (x.g.words16 16) bs)) = true :=
  witnessAnd _ _ (by decide +kernel)
theorem hyp_EngineOperationsStart_coll : ∃ x, Issuing (block collWords []) x .plain ∧
    (∀ p ∈ [(good16, fun _ : Lane => true)], OperandsPass x p.1 p.2) ∧
    ((block collWords []).team? x.g.team).any (fun tm => !collBad (x.g.words16 16) &&
      (collAddress x.img tm (x.g.words16 16)).isNone && !flagOf (x.g.words16 16) 15 &&
      !(block collWords []).lockFull 0 (collLocks (x.g.words16 16) [])) = true := witnessAnd _ _ (by decide +kernel)
theorem hyp_EngineOperationsStart_map : ∃ x, Issuing espState x .plain ∧
    (∀ p ∈ [(good16, fun _ : Lane => true)], OperandsPass x p.1 p.2) ∧
    ((espState.team? x.g.team).any (fun tm => !collBad (x.g.words16 16) && (collAddress x.img tm (x.g.words16 16)).isNone &&
        flagOf (x.g.words16 16) 15) = true ∧ x.g.heldAt x.pc (wd64 (x.g.words16 16) 12) = none ∧
      (espState.meet x.g.grid (espState.coreOf x.g.team) (wd64 (x.g.words16 16) 12) 64 .load).place?.any (fun p => p.home &&
        !mapBad (x.g.overlay p.pa (espState.peek p.pa 64)) (wd (x.g.words16 16) 4) &&
        (mapAddress (x.g.overlay p.pa (espState.peek p.pa 64))).isNone) = true) := witnessAnd _ _ (by decide +kernel)
/-- A map with a store of the group's own on its way. -/
theorem hyp_EngineOperationsStart_mapLater : (let u : Update :=
      { word := 0x40003000, bytes := [(0, 2)], wct := 9, writer := ⟨0, 0, 0, 0, 0, 0, 1⟩, source := 3, atomic := false, arrival := 0 }
    let s : State := { espState with mem := { espState.mem with updates := [u] } }
    (s.group? 3).any (fun g => decide (s.gtime < s.ownAfter g (BitVec.allOnes 32) 0x40003000 64)) = true ∧
      (espState.group? 3).any (fun g => decide (max (espState.ownAfter g (BitVec.allOnes 32) 0x40003000 64)
        (espState.mem.ingressUntil 0x40003000 64) ≤ espState.gtime)) = true) := by decide +kernel
/-- A core whose range locks are all taken. -/
theorem hyp_EngineOperationsStart_full : (base.modCore 0 fun c => { c with locks := (List.replicate 64
    (Lock.mk false false 0 0 false 1)) }).lockFull 0 (bankopSpans bankopWords) = true := by
  decide +kernel
theorem hyp_EngineOperationsStart_flush : ∃ x, Issuing base x .plain ∧
    (∀ p ∈ [(({ us := [2, 3, 4, 5, 127] } : Operands), fun _ : Lane => true)], OperandsPass x p.1 p.2) ∧
    (base.keepsBack x.g = false ∧ (base.cores[base.coreOf x.g.team]?).any (fun c => c.nextHandle != 0 && decide (c.nextHandle < 2 ^ 16) &&
      c.ops.isEmpty) = true) := witnessAnd _ _ (by decide +kernel)

/-- After a CPY: its handle, 1, is under way; a kept status of handle 2. -/
def engState : State :=
  match execCpy false 40 16 (block cpyWords [(41, 2)]) with
  | .next t => t.modCore 0 fun c => { c with done := [{ handle := 2, state := .ok, team := 2, address := 0, version := 0, pred := false }] }
  | _ => base
theorem hyp_EngineStatusAndPrefetch : ∃ x, Issuing engState x .plain ∧
    (∀ p ∈ [(({ us := [127, 40] } : Operands), fun _ : Lane => true), ({ us := [127, 41] }, fun _ => true),
      ({ us := [2, 3, 4, 5] }, fun _ => true)], OperandsPass x p.1 p.2) ∧
    ((x.g.u 40 = 1 ∧ ((engState.core 0).ops.find? (·.handle == 1)).isSome = true) ∧
      (x.g.u 41 = 2 ∧ ((engState.core 0).ops.find? (·.handle == 2)).isNone = true ∧ ((engState.core 0).done.find? (·.handle == 2)).isSome = true) ∧
      (x.g.u 42 = 0 ∧ ((engState.core 0).ops.find? (·.handle == 0)).isNone = true ∧ ((engState.core 0).done.find? (·.handle == 0)).isNone = true) ∧
      engState.keepsBack x.g = false) := witnessAnd _ _ (by decide +kernel)

/-- A record for the placed image's code. -/
def taskWords : List Word := [0x40080]
def taskOk (s : State) (x : Site) : Bool :=
  (s.grid? x.g.grid).any fun gr => !s.recordBad gr (x.g.words16 16) && !s.undecided x.g
theorem hyp_TaskPushesAndStatus : ∃ x, Issuing (block taskWords []) x .plain ∧
    (∀ p ∈ [(good16, fun _ : Lane => true), ({ us := [127] }, fun _ => true)], OperandsPass x p.1 p.2) ∧
    (taskOk (block taskWords []) x = true ∧ (block taskWords []).tooDeep x.g = false ∧ x.g.speculative = false ∧
      (block taskWords []).pool.length < 65536) := witnessAnd _ _ (by decide +kernel)
def deepState : State := onGrp (fun g => { g with task := some { recordOf taskWords with grid := 1, depth := 15 } }) (block taskWords [])
theorem hyp_TaskPushesAndStatus_deep : ∃ x, Issuing deepState x .plain ∧
    (∀ p ∈ [(good16, fun _ : Lane => true)], OperandsPass x p.1 p.2) ∧
    (taskOk deepState x = true ∧ deepState.tooDeep x.g = true ∧
      x.g.task.any (fun t => decide (t.depth < 16)) = true ∧ (deepState.grid? x.g.grid).any (fun gr => decide (gr.launch.depthLim < 16)) = true) :=
  witnessAnd _ _ (by decide +kernel)
def specState : State :=
  let sp : Spec :=
    { level := 1, slot := 0, want := 1, producer := none, predicted := false, counted := false, lines := [], held := [], committing := none, doomed := none }
  onGrp (fun g => { g with spec := some sp }) (block taskWords [])
theorem hyp_TaskPushesAndStatus_held : ∃ x, Issuing specState x .plain ∧
    (∀ p ∈ [(good16, fun _ : Lane => true)], OperandsPass x p.1 p.2) ∧
    (taskOk specState x = true ∧ specState.tooDeep x.g = false ∧ x.g.speculative = true ∧
      x.g.spec.any (fun sp => decide (sp.held.length < 16)) = true) := witnessAnd _ _ (by decide +kernel)
/-- A full pool: the record goes to the ring, is refused, or waits for the ring's page. -/
theorem hyp_TaskPushesAndStatus_full : ∃ s : State, 65536 ≤ s.pool.length ∧
    (∃ gr ∈ s.grids, gr.ring.length < gr.launch.ringCap ∧ gr.ring.length < gr.ringMapped) ∧
    (∃ gr ∈ s.grids, gr.launch.ringCap ≤ gr.ring.length) ∧
    (∃ gr ∈ s.grids, gr.ring.length < gr.launch.ringCap ∧ gr.ringMapped ≤ gr.ring.length) :=
  ⟨{ base with pool := List.replicate 65536 (recordOf []),
               grids := [newGrid 1 { placedLaunch with ringCap := 8 } placedImage, newGrid 2 placedLaunch placedImage,
                         { newGrid 3 { placedLaunch with ringCap := 8 } placedImage with ringMapped := 8 }] },
    by simp only [List.length_replicate]; decide, by decide +kernel, by decide +kernel, by decide +kernel⟩
def waitedPush : State := onGrp (fun g => { g with push := some (some 2) }) (block taskWords [])
theorem hyp_TaskPushesAndStatus_answered : ∃ x, Issuing waitedPush x .plain ∧
    (∀ p ∈ [(good16, fun _ : Lane => true)], OperandsPass x p.1 p.2) ∧ (taskOk waitedPush x = true ∧ x.g.push = some (some 2)) :=
  witnessAnd _ _ (by decide +kernel)

/-- A successor block at 0x40000000 with count 1 and a companion record; s8 is −1 and s9 is 5. -/
def succState : State :=
  let s := paged (regs 0 [] [(2, 0x40000000), (8, 0xFFFFFFFF), (9, 5)])
  { s with mem := { s.mem with cells := cputs (cputs s.mem.cells 0x40000000 [1]) 0x40000040 (natLe 4 0x40080) } }
theorem hyp_SuccessorCounts : ∃ x, Issuing succState x .plain ∧
    (∀ p ∈ [(({ us := [2, 3, 8, 126, 127] } : Operands), fun _ : Lane => true), ({ us := [2, 3, 9, 126, 127] }, fun _ => true)],
      OperandsPass x p.1 p.2) ∧
    (succState.keepsBack x.g = false ∧ (x.g.uPair 2).toNat % 128 = 0 ∧ (x.g.uPair 2).toNat < 2 ^ 48 ∧
      (succState.meetBlock (succState.core (succState.coreOf x.g.team)).locks (succState.coreOf x.g.team) x.g.grid (x.g.uPair 2).toNat).place?.any (fun p =>
        succState.mem.count p.pa == 1) = true ∧ (1 : Int) + (x.g.u 8).toInt = 0 ∧
      (succState.grid? x.g.grid).any (fun gr => !succState.recordBad gr (wordsOf (succState.peek 0x40000040 64)) &&
        (recordOf (wordsOf (succState.peek 0x40000040 64))).entry != 0) = true ∧ succState.pool.length < 65536) :=
  witnessAnd _ _ (by decide +kernel)

/-- A declaration of 16 bytes at 0x80000000, and its free. -/
def declState : State := block [0, 16, 0, 0, 0, 0x80000000, 0, 0] []
def declared : State :=
  match execCtdecl false 127 16 declState with
  | .next t => t
  | _ => base
theorem hyp_CuttingInstructions : ∃ x, Issuing declState x .plain ∧
    (∀ p ∈ [(good16, fun _ : Lane => true)], OperandsPass x p.1 p.2) ∧
    (declState.curBit 16 31 = false ∧ declBad (x.g.words16 16) = false ∧
      (declState.storePlace (declState.coreOf x.g.team) x.g.grid (wd64 (x.g.words16 16) 5) (storeBytes3 (wd (x.g.words16 16) 1))).isLeft = true ∧
      (∀ k, k < 0 → k ∈ declState.cuts.map (·.1)) ∧ 0 ∉ declState.cuts.map (·.1)) := witnessAnd _ _ (by decide +kernel)
def freeState : State := onGrp (fun g => { g with uregs := tput (tdel (tdel g.uregs 17) 21) 16 0x80000000 }) declared
theorem hyp_CuttingInstructions_free : ∃ x, Issuing freeState x .plain ∧
    (∀ p ∈ [(good16, fun _ : Lane => true)], OperandsPass x p.1 p.2) ∧
    (freeState.curBit 16 31 = true ∧ freeBad (x.g.words16 16) = false ∧ freeState.slot? x.g.grid 0 ≠ none ∧
      freeState.slot? x.g.grid 63 = none) := witnessAnd _ _ (by decide +kernel)
def cutState : State := onGrp (fun g => { g with uregs := [(50, 0), (20, 0x400), (51, 63), (52, 0x10000)] }) declared
theorem hyp_CuttingInstructions_post : ∃ x, Issuing cutState x .plain ∧
    (∀ p ∈ [(({ us := [40, 50, 20] } : Operands), fun _ : Lane => true), ({ us := [40, 51] }, fun _ => true),
      ({ us := [40, 52, 20] }, fun _ => true)], OperandsPass x p.1 p.2) ∧
    ((cutState.slot? x.g.grid 0).any (fun c => decide (0x400 + c.bytes ≤ x.img.scratch) && decide (c.mode < 4) && decide (c.specLevel < 8)) = true ∧
      (cutState.team? x.g.team).any (fun tm => ownOffset tm (x.g.u 20).toNat == some 0x400) = true ∧
      cutState.slot? x.g.grid (x.g.u 51).toNat = none ∧ (x.g.u 51).toNat < 64 ∧ (x.g.u 52).toNat / 64 % 1024 = 0 ∧
      (x.g.u 52).toNat % 64 = 0) := witnessAnd _ _ (by decide +kernel)
/-- Every slot taken. -/
theorem hyp_CuttingInstructions_taken : ∀ n < 64, n ∈ ((List.range 64).map fun n => (n, ())).map (·.1) := by decide +kernel

/-! R214, R216, R224, R225, R227. -/
theorem test_cpy_handle : givesU (execCpy false 40 16 (block cpyWords [])) 40 1 = true := by decide +kernel
theorem test_cpy_alignment : laneAfter (execCpy false 40 16 (block [1, 0, 0x40000008, 0, 0x40001000, 0, 16] []))
    (fun l => l.state == .trap && l.tcause == 4 && l.taddr == 0x40000008) = true := by decide +kernel
theorem test_cpy_length : laneAfter (execCpy false 40 16 (block [1, 0, 0x40000000, 0, 0x40001000, 0, 8] []))
    (fun l => l.state == .trap && l.tcause == 2) = true := by decide +kernel
theorem test_engst_pending : stateAfter (execEngst false 42 40 0 engState)
    (fun t => t.pend.any fun p => p.what == .value [⟨42, 0, 0⟩]) = true := by decide +kernel
theorem test_engst_unknown : stateAfter (execEngst false 42 43 0 engState)
    (fun t => t.pend.any fun p => p.what == .value [⟨42, 15, 0⟩]) = true := by decide +kernel
theorem test_task_pushes : stateAfter (execTask false 60 16 (block taskWords [])) (fun t => t.pool.any fun r => r.depth == 1 && r.entry == 0x40080) =
    true := by decide +kernel
theorem test_task_depth : givesU (execTask false 60 16 deepState) 60 1 = true := by decide +kernel
theorem test_tsucc_adds : stateAfter (execTsucc false 62 2 9 succState) (fun t => t.pool.isEmpty && t.pend.any (fun p => p.what == .value [⟨62, 1, 0⟩, ⟨63, 0, 0⟩]) &&
    t.mem.updates.any fun u => u.word == 0x40000000 && u.bytes == [(0, 6), (1, 0), (2, 0), (3, 0)]) = true := by decide +kernel
theorem test_ctdecl_first_slot : (givesU (execCtdecl false 127 16 declState) 127 0 && stateAfter (execCtdecl false 127 16 declState)
    (fun t => t.cuts.map (·.1) == [0])) = true := by decide +kernel
theorem test_ctdecl_frees : stateAfter (execCtdeclFree false 127 16 freeState) (fun t => t.cuts.isEmpty) = true := by decide +kernel

/-! ## The matrix unit -/

def onCore (f : Core → Core) (s : State) : State := s.modCore 0 f

/-- A BF16 descriptor (tag 4) of 64-byte rows at 0x1000 in s16 to s19, a BF16 load for slot 511 in s20 to s23, a store of
F32 rows in s24 to s27; t31 is valid and slot 8 is READY and the team's. -/
def matState : State :=
  let td : TileDesc := { abase := 0x1000, rstride := 64, word2 := 4, banda := 0x3F80, valid := true, pseq := 0, cseq := 0 }
  onCore (fun c => { c with slots := [(8, { state := .ready, owner := 2, head := 8, tag := 4, spk := 0, bandb := 0x3F80 })] })
    (onGrp (fun g => { g with tdescs := [(31, td)] })
      (regs 0 [] [(2, 8), (3, 511), (4, 0x40), (5, 64), (6, 0x1000), (7, 256), (9, 3), (16, 0x1000), (17, 64), (18, 4), (19, 0x3F80),
        (20, 0x2000), (21, 0), (22, 0x3F800004), (23, 0), (24, 0x4000), (25, 256), (26, 0), (27, 0), (28, 0), (29, 0), (30, 128),
        (31, 0), (32, 4096)]))

theorem hyp_TileScaleStepInstructions : ∃ x, Issuing matState x .plain ∧
    (∀ p ∈ [(({ us := regsFrom 16 4 } : Operands), fun _ : Lane => true), ({ us := [6, 5] }, fun _ => true), ({ us := [6, 32] }, fun _ => true),
      ({ us := [2] }, fun _ => true)], OperandsPass x p.1 p.2) ∧
    (matState.team? x.g.team).any (fun tm => tm.matrixError.isNone && !descriptorBad (descriptorOf (x.g.block 16 4)) &&
      (badSpan x.img tm (descriptorOf (x.g.block 16 4)).abase.toNat 64 (descriptorOf (x.g.block 16 4)).span).isNone &&
      (x.g.td 31).valid && (badSpan x.img tm 0x1000 64 4096).isNone &&
      decide ((matState.core 0).queueBytes (x.g.td 31).qsel (fun _ => true) + 4096 ≤ 8192) &&
      decide ((matState.core 0).queueBytes (x.g.td 31).qsel (fun p => !p.claimed) + 4096 ≤ 8192) &&
      decide (tm.accwin + 127 < x.img.ca) && (mmaFault (matState.core 0) tm x.g.uid 31 (x.g.td 31) 8).isNone &&
      !matState.lockFull 0 [ownSpan false 0x1000 4096]) = true := witnessAnd _ _ (by decide +kernel)

theorem hyp_WeightLoadInstructions : ∃ x, Issuing matState x .plain ∧
    (∀ p ∈ [(({ us := 3 :: regsFrom 20 4 } : Operands), fun _ : Lane => true), ({ us := 2 :: regsFrom 28 4 }, fun _ => true)],
      OperandsPass x p.1 p.2) ∧
    (matState.team? x.g.team).any (fun tm => tm.matrixError.isNone && !matState.curBit 22 7 && !loadBad (x.g.block 20 4) &&
      (badSpans x.img tm (loadReads (x.g.block 20 4))).isNone &&
      (spanSlots 511 (loadSpk (x.g.block 20 4))).all (fun k => ((matState.core 0).slot k).owner == 0) && matState.curBit 30 7 &&
      !loadFreeBad (x.g.block 28 4) && (matState.core 0).heads tm.uid 8) = true := witnessAnd _ _ (by decide +kernel)

theorem hyp_MatrixStatusResults : ∃ x, Issuing matState x .plain ∧
    (∀ p ∈ [(({ us := [127, 2] } : Operands), fun _ : Lane => true), ({ us := [127, 3] }, fun _ => true), ({ us := [127, 9] }, fun _ => true),
      ({ us := [127] }, fun _ => true)], OperandsPass x p.1 p.2) ∧
    ((matState.team? x.g.team).any (fun tm => tm.matrixError.isNone && decide (tm.accwin + 127 < x.img.ca)) = true ∧
      ((matState.core 0).slot 511).owner = 0 ∧ ((matState.core 0).slot 8).owner ≠ 0 ∧ (x.g.u 9).toNat < 4 ∧
      (∀ o ∈ (matState.core 0).matrix, o.group ≠ x.g.uid)) := witnessAnd _ _ (by decide +kernel)
/-- A queue with an operation of the group at its head, due at once, for the lanes of a mask. -/
def queued (lanes : BitVec 32) (kind : MatKind) : State :=
  onCore (fun c => { c with matrix := [{ id := 7, group := 3, team := 2, grid := 1, lanes := lanes, due := 0, kind := kind }] }) matState
theorem hyp_MatrixStatusResults_busy : ∃ x, Issuing (queued 1 (.aczero 0)) x .plain ∧
    (∀ p ∈ [(({ us := [127] } : Operands), fun _ : Lane => true)], OperandsPass x p.1 p.2) ∧
    (∃ o ∈ ((queued 1 (.aczero 0)).core 0).matrix, o.group = x.g.uid) := witnessAnd _ _ (by decide +kernel)
theorem hyp_MatrixStatusResults_error : ∃ x, Issuing (onTeam (fun t => { t with matrixError := some 511 }) matState) x .plain ∧
    (∀ p ∈ [(({ us := [127] } : Operands), fun _ : Lane => true)], OperandsPass x p.1 p.2) ∧
    ((onTeam (fun t => { t with matrixError := some 511 }) matState).team? x.g.team).any (fun tm => tm.matrixError == some 511) = true :=
  witnessAnd _ _ (by decide +kernel)

theorem hyp_AccumulatorInstructionsQueue : ∃ x, Issuing matState x .plain ∧
    (∀ p ∈ [(({ us := [6, 7] } : Operands), fun _ : Lane => true), ({ us := [6] }, fun _ => true), ({ us := regsFrom 24 4 }, fun _ => true)],
      OperandsPass x p.1 p.2) ∧
    (matState.team? x.g.team).any (fun tm => tm.matrixError.isNone && decide (tm.accwin + 127 < x.img.ca) &&
      (badSpan x.img tm 0x1000 16 (63 * 256 + 256)).isNone && (badSpan x.img tm 0x1000 16 256).isNone && !storeBad (x.g.block 24 4) &&
      (badSpan x.img tm (wd (x.g.block 24 4) 0) 16 (storeSpan (x.g.block 24 4))).isNone && wd (x.g.block 24 4) 3 == 0) = true :=
  witnessAnd _ _ (by decide +kernel)

/-- Whether the operation at the head of core 0's queue has its turn and meets nothing. -/
def turnReady (s : State) (met : Bool) : Bool :=
  match (s.core 0).matrix with
  | [] => false
  | o :: _ => decide (o.due ≤ s.clock.tick) && (s.team? o.team).any (fun tm => s.groups.any (fun g => g.team == o.team) &&
      ((((s.core 0).parityMet o).isSome || o.damaged (s.core 0) tm) == met) && cwf tm.scratch)
def aTile : TileDesc := { abase := 0x1000, rstride := 64, word2 := 4, banda := 0x3F80, valid := true, pseq := 0, cseq := 0 }
theorem hyp_MatrixTurnsWriteTheirRows : ∀ k ∈ [MatKind.mma 0 aTile 8 0x3F80 [], .aczero 255, .acld 0 0x1000 256, .acadd 0 1 2,
    .acmul 0 1 0x1000, .acmov 0 1], turnReady (queued 0xFFFFFFFF k) false = true := by decide +kernel
theorem hyp_MatrixTurnsMoveTheirData : ∀ k ∈ [MatKind.bload 511 4 0 0x2000 0 0, .bfree 8, .scpush 1 0x1000, .acst 0 [0x4000, 256, 0, 0]],
    turnReady (queued 0xFFFFFFFF k) false = true := by decide +kernel
theorem hyp_MatrixTurnsMoveTheirData_store :
    storeRowBytes [0x4000, 256, 0, 0] ≤ wd [0x4000, 256, 0, 0] 1 ∧ wd [0x4000, 256, 0, 0] 3 = 0 := by decide +kernel
theorem hyp_MatrixTurnsMoveTheirData_parity :
    turnReady (onCore (fun c => { c with parity := [8] }) (queued 1 (.mma 0 aTile 8 0x3F80 []))) true = true := by decide +kernel

/-! R248, R249, R252, R253, R255, R257. -/
theorem test_tdset_stride : laneAfter (execTdset false 2 24 (onGrp (fun g => g.setU 25 63) matState))
    (fun l => l.state == .trap && l.tcause == 2) = true := by decide +kernel
theorem test_tdset_valid : groupAfter (execTdset false 2 16 matState) (fun g => g.td 2 == aTile) = true := by decide +kernel
theorem test_scpush_sequence : groupAfter (execScpush false 31 6 5 matState) (fun g => (g.td 31).pseq == 1) = true := by decide +kernel
theorem test_mma_slot_fault : laneAfter (execMma false 0 31 3 matState) (fun l => l.state == .trap && l.tcause == 0x0E && l.taddr == 511) =
    true := by decide +kernel
theorem test_mma_enters : stateAfter (execMma false 0 31 2 matState) (fun t => (t.core 0).matrix.length == 1) = true := by decide +kernel
theorem test_bload_loading : stateAfter (execBload false 3 20 matState) (fun t => ((t.core 0).slot 511).state == .loading) = true := by
  decide +kernel
theorem test_bstat_slot : givesU (execBstatSlot false 30 2 matState) 30 0xA1003F80 = true := by decide +kernel
theorem test_aczero_one_lane : stateAfter (execMatrixQueueTurn 0 (onTeam (fun t => { t with acc := [(0, 5), (128, 6)] }) (queued 1 (.aczero 0))))
    (fun t => (t.team? 2).any fun tm => tget 0 tm.acc 0 == 0 && tget 0 tm.acc 128 == 6) = true := by decide +kernel
theorem test_mma_step_window_sum :
    (let c := onTeam (fun t => { (t.setField 0x1000 2 0x3980).setField 0x1002 2 0x2E00 with acc := [(0, 0x3F800000)] })
        (onCore (fun c => { c with contents := [(8, { data := [0x80, 0x39, 0x00, 0x2E], scales := [], indices := [] })] })
          (queued 1 (.mma 0 aTile 8 0x3F80 [])))
     stateAfter (execMmaStep 0 c) (fun t => (t.team? 2).any fun tm => tget 0 tm.acc 0 == 0x3F800001)) = true := by decide +kernel

/-! ## Scripts and the node's messages -/

/-- Context 0 at a KADD, with registers, over the pages of `paged`. -/
def script (ks : List (Nat × DWord)) : State :=
  let s := paged (State.reset.withFetchWord 32 0b00001100010010001100000000000101)
  s.modCtx 0 fun c => { c with regs := ks }

def ctxReady (s : State) : Bool := (s.ctxs[s.curCtx]?).any (·.ready s.gtime)

theorem hyp_ScriptScalarResults : ctxReady (script [(1, 5)]) = true := by decide +kernel
theorem hyp_ScriptScalarResults_store : ctxReady ((script []).modCtx 0 fun c => { c with wait := some (.store 0) }) = true := by
  decide +kernel

theorem hyp_ScriptMemoryWaitsAndTheirEnds : (let s := script [(1, 0x40000000)]
    ctxReady s && atHome (s.meetCtx (s.ctx 0) 0x40000000 false) && atHome (s.meetCtx (s.ctx 0) 0x40000000 true) &&
      (s.meetCtx (s.ctx 0) 0x40000004 false).cause.isSome && (s.meetCtx (s.ctx 0) 0x40080 true).cause.isSome) = true := by
  decide +kernel
def illScript (w : Nat) : State := { script [] with mem := { (script []).mem with cells := cputs (script []).mem.cells placedPc (natLe 4 w) } }
def isWord (w : Nat) : ScriptWord → Bool
  | .word v => v.toNat == w
  | _ => false
def isScriptFault : ScriptWord → Bool
  | .fault _ => true
  | _ => false
theorem hyp_ScriptMemoryWaitsAndTheirEnds_words :
    isWord 0xFC000000 ((illScript 0xFC000000).scriptFetch ((illScript 0xFC000000).ctx 0)) = true ∧
    (match decodeScript 0xFC000000 with | .illegalInstruction => true | _ => false) = true ∧
    isWord 0x40000001 ((illScript 0x40000001).scriptFetch ((illScript 0x40000001).ctx 0)) = true ∧
    (match decodeScript 0x40000001 with | .illegalOperand => true | _ => false) = true ∧
    isScriptFault ((script []).scriptFetch { (script []).ctx 0 with pc := 0xFFFF00000000 }) = true := by decide +kernel
theorem hyp_ScriptMemoryWaitsAndTheirEnds_waits :
    (((script []).modCtx 0 fun c => { c with wait := some (.sleep 0) }).ctx 0).wait = some (.sleep 0) ∧
    (((script []).modCtx 0 fun c => { c with wait := some (.cwait 15 31 4 0) }).ctx 0).wait = some (.cwait 15 31 4 0) ∧
    (script []).gtime = 0 := by decide +kernel

/-- A port in a state. -/
def ported (p : Nat) (st : PortState) (s : State) : State := s.modPort p fun q => { q with state := st }
theorem hyp_CircuitInstructionResults : (let s := script [(1, 0x1F0005), (2, 0x40000000), (3, 31), (4, 0x1F0000)]
    ctxReady s && (s.port 31).state == .dark && (s.barrierPlace (s.ctx 0) 0x40000000).isSome &&
      (s.barrierPlace (s.ctx 0) 0x40000004).isNone && s.chipId == 0 && (s.fabric.ports[31]?).isSome) = true := by decide +kernel
theorem hyp_CircuitInstructionResults_states : ∀ st ∈ [PortState.draining, .live, .doze, .nap, .locking, .trained, .requested, .fault],
    ((ported 31 st (script [(3, 31)])).port 31).state = st ∧ ctxReady (ported 31 st (script [(3, 31)])) = true := by decide +kernel

theorem hyp_RouteTableAndEventResults : ctxReady (script [(1, 0xC00000000000003F)]) = true ∧
    (let k : Nat := 35 * 2 ^ 18 + 63 * 2 ^ 12 + 4095
     k / 2 ^ 12 % 64 = 63 ∧ k / 2 ^ 18 % 64 = 35 ∧ k / 2 ^ 62 = 0 ∧ k / 2 ^ 32 % 2 ^ 30 = 0) ∧
    ¬ ((script []).fabric.rank 0 < (script []).fabric.rank 1) ∧ (63 : BitVec 14).toNat < 64 ∧
    (let s := (script [(1, 1)]).modCtx 0 fun c => { c with k := [(63, 1)] }
     0 ≤ (tget 0 (s.ctx 0).k 63 - ((s.ctx 0).reg 1).setWidth 32).toInt ∧ (tget 0 (s.ctx 0).k 0 - ((s.ctx 0).reg 1).setWidth 32).toInt < 0) := by
  decide +kernel

/-! R345, R347, R351. -/
def ctxAfter (r : Result) (p : Ctx → Bool) : Bool := stateAfter r fun t => p (t.ctx 0)
theorem test_kadd : ctxAfter (execKadd 1 2 3 0x3FFF (script [(2, 5), (3, 7)])) (fun c => c.reg 1 == 11 && c.pc == 0x40084) = true := by
  decide +kernel
theorem test_k0_discards : ctxAfter (execKmovi 0 5 (script [])) (fun c => c.reg 0 == 0) = true := by decide +kernel
theorem test_kmovi_sh : ctxAfter (execKmoviSh 1 0x3FFF (script [(1, 1)])) (fun c => c.reg 1 == 0x7FFF) = true := by decide +kernel
theorem test_kblt_signed : ctxAfter (execKblt 1 2 2 (script [(1, 0xFFFFFFFFFFFFFFFF)])) (fun c => c.pc == 0x40088) = true := by decide +kernel
theorem test_kld : ctxAfter (execKld 1 2 8 (script [(2, placedTable)])) (fun c => c.reg 1 == 0x4000000F) = true := by decide +kernel
theorem test_kst_waits : ctxAfter (execKst 1 2 0 (script [(2, 0x40000000)])) (fun c => c.wait.isSome && c.pc == 0x40084) = true := by
  decide +kernel
theorem test_creq_own_chip : ctxAfter (execCreq 5 1 2 (script [(1, 0x1F0000), (2, 0x40000000)])) (fun c => c.reg 5 == 3) = true := by
  decide +kernel
theorem test_crel_dark : ctxAfter (execCrel 5 3 (script [(3, 31)])) (fun c => c.reg 5 == 1) = true := by decide +kernel
theorem test_cpath_order : ctxAfter (execCpathRoute 5 1 (script [(1, 1 * 2 ^ 18 + 0 * 2 ^ 12 + 7)])) (fun c => c.reg 5 == 1) = true := by
  decide +kernel
theorem test_cpath_route : stateAfter (execCpathRoute 5 1 (script [(1, 35 * 2 ^ 18 + 63 * 2 ^ 12 + 7)]))
    (fun t => t.fabric.route 7 63 == 35) = true := by decide +kernel

/-! Messages: a part that is ready. -/
def ready (phase : BootPhase) (s : State) : State := { s with boot := { s.boot with phase := phase } }
def msgOf (mtype addr : Nat) (payload : List Byte) : CtlMsg :=
  { mtype := mtype, len := payload.length, seq := 9, addr := addr, tag := 4, status := 0, reserved := 0, payload := payload }

theorem hyp_NodeMemoryMessages : (ready .ready base).boot.phase = .ready ∧ isKind (msgOf 2 0 (natLe 8 8)) .read = true ∧
    isKind (msgOf 2 0 (natLe 8 4097)) .read = true ∧ base.mem.damagedByte 0 4096 = none ∧
    { base.mem with damage := [0] }.damagedByte 0 4096 ≠ none ∧
    isKind (msgOf 3 (576 * 2 ^ 30) [1]) .write = true ∧ 576 * 2 ^ 30 - base.fw.reservedGiB * 2 ^ 30 < 576 * 2 ^ 30 ∧
    base.mem.mergedByte 0 1 = none ∧ { base.mem with damage := [0] }.mergedByte 1 1 ≠ none ∧ (576 * 2 ^ 30 - base.fw.reservedGiB * 2 ^ 30) + 8 ≤ 576 * 2 ^ 30 ∧ isKind (msgOf 4 0 (natLe 8 65536)) .tinval = true ∧ isKind (msgOf 4 0 (natLe 8 (2 ^ 48))) .tinval = true ∧
    isKind (msgOf 5 0 []) .terminate = true ∧ base.grids.any (·.launch.ltag == 0) = true ∧ base.grids.any (·.launch.ltag == 4) = false ∧
    (∀ g ∈ base.grids, base.grid? g.uid = some g ∧ g.terminating = false) ∧
    isKind (msgOf 0x77 0 []) .unknownMtype = true ∧ 0x77 ∉ [6, 7, 8, 10] ∧ (ready .failed base).boot.phase = .failed ∧
    (ready .bundle base).boot.phase ≠ .ready ∧ (ready .bundle base).boot.phase ≠ .failed := by decide +kernel

def dbgMsg (op reg cls : Nat) (more : List Byte) : CtlMsg := msgOf 6 0 (natLe 8 (op + 2 ^ 24 * reg + 2 ^ 32 * cls) ++ more)
def haltState : State := onGrp (fun g => { g with halted := some none }) (ready .ready base)
def mgmtMsg (op v : Nat) : CtlMsg := msgOf 7 0 (natLe 4 op ++ natLe 4 v)
theorem hyp_DebugAndManagementMessages : haltState.boot.phase = .ready ∧ isKind (dbgMsg 0 0 0 []) .debugAttach = true ∧
    isKind (dbgMsg 1 0 0 []) .debugDetach = true ∧ isKind (dbgMsg 2 0 0 []) .debugHalt = true ∧ isKind (dbgMsg 3 0 0 []) .debugResume = true ∧
    isKind (dbgMsg 4 127 1 []) .debugReadRegister = true ∧ isKind (dbgMsg 4 0 3 []) .debugReadRegister = true ∧
    isKind (dbgMsg 5 127 1 (natLe 4 7)) .debugWriteRegister = true ∧
    (haltState.dbgHalted (dbgMsg 4 127 1 [])).any (fun g => (haltState.dbgImage g).isSome && haltState.groups == [g]) = true ∧
    (base.dbgGroup (dbgMsg 2 0 0 [])).any (fun g => g.halted.isNone && base.groups == [g]) = true ∧
    base.dbgHalted (dbgMsg 3 0 0 []) = none ∧ State.reset.dbgGroup (dbgMsg 2 0 0 []) = none := by decide +kernel
theorem hyp_DebugAndManagementMessages_mgmt : isKind (mgmtMsg 1 0x645F55) .mgmtThresholds = true ∧ CtlMsg.mgmtValue (mgmtMsg 1 0x645F55) = 0x645F55 ∧
    (0x645F55 : Nat) < 2 ^ 24 := by decide +kernel


/-! Boot. -/
def bundle (n k : Nat) : CtlMsg := msgOf 10 0 (List.replicate 0xC 0 ++ natLe 4 n ++ List.replicate (304 + k) 0)
def devRead (id : Nat) (write : Bool) : Remote :=
  { id := id, node := true, chip := 0, kind := if write then pkWrite else pkRead, address := 0, len := 4, data := [], group := 3, lanes := 1,
    pc := 0, va := 0, writer := ⟨1, 0, 0, 0, 0, 0, 0⟩, op := 0, r := false, sent := 0, e2e := none, queued := false, engine := none,
    port := none }
def devState (t : Nat) (write : Bool) : State :=
  { ready .ready base with clock := { base.clock with tick := t }, fabric := { base.fabric with remotes := [devRead 4 write] } }
theorem hyp_BootAttestationAndDevices : isKind (bundle 0 0) .bootdata = true ∧ (ready .ready base).boot.phase ≠ .bundle ∧
    (ready .bundle base).boot.phase = .bundle ∧ (ready .bundle base).boot.buffer = [] ∧ (bundle 0 0).addr = 0 ∧
    isKind (bundle 1 0) .bootdata = true ∧ 320 ≤ (bundle 1 0).payload.length ∧
    leNat (((bundle 1 0).payload.drop 0x0C).take 4) % 64 ≠ 0 ∧
    2 ^ 24 < leNat (((bundle (2 ^ 24 + 64) 0).payload.drop 0x0C).take 4) ∧
    leNat (((bundle 64 64).payload.drop 0x0C).take 4) % 64 = 0 ∧ (bundle 64 64).payload.length = 320 + 64 ∧
    (ready .firmware base).boot.phase = .firmware ∧ isKind (msgOf 8 0 (List.replicate 64 1)) .attest = true ∧
    base.boot.log.length ≤ 52 ∧ isKind (msgOf 9 0 [1, 2, 3, 4]) .devrsp = true ∧
    (devState 0 false).devRequest (msgOf 9 0 [1, 2, 3, 4]) = some (devRead 4 false) ∧
    (devState 0 false).devRequest (msgOf 9 0 [1, 2, 3]) = none ∧
    (devState 0 true).fabric.remotes.find? (fun r => r.id == 4 && r.node && !r.queued) = some (devRead 4 true) ∧
    (devRead 4 true).writes = true ∧ (devRead 4 false).writes = false ∧ (devState 0 true).gtime < 100000000 ∧
    100000000 ≤ (devState 200000000 true).gtime := by decide +kernel
/-- The digest of "abc" of FIPS 180-4: its first eight bytes. -/
theorem test_sha512_abc : (sha512 [0x61, 0x62, 0x63]).take 8 = [0xDD, 0xAF, 0x35, 0xA1, 0x93, 0x61, 0x7A, 0xBA] := by decide +kernel

/-! ## Launches, tasks and the turns of groups -/

/-- Bytes with some fields set. -/
def blob (n : Nat) (fs : List (Nat × List Byte)) : List Byte :=
  (List.range n).map fun k => (fs.findSome? fun f => if f.1 ≤ k then f.2[k - f.1]? else none).getD 0

/-- A launch record on queue 1 for the image below, and others. -/
def recordWith (more : List (Nat × List Byte)) : List Byte :=
  blob 128 (more ++ [(0, [1, 0, 1]), (0x08, natLe 4 0x50000), (0x10, natLe 4 placedRoot), (0x18, [1, 0, 1])])
def launchMsg (more : List (Nat × List Byte)) : CtlMsg := msgOf 1 0 (recordWith more)

/-- A least image (R104): one group of 16 registers, one word of code. -/
def leastImage : List Byte :=
  blob 132 [(0, natLe 4 0x4B4D554C), (4, [0, 3, 128]), (0x18, [16, 0, 1, 0x11]), (0x28, [128]), (0x30, [128]), (0x34, [4])]
def withRecords (qs : List Queued) : State :=
  { ready .ready base with mem := { base.mem with cells := cputs base.mem.cells 0x50000 leastImage },
                           queues := [[], qs, [], [], [], [], [], []] }
def head (more : List (Nat × List Byte)) : Queued := { launch := launchOf (recordWith more), seq := 5, waiting := none }
def isImage : ImageCheck → Bool
  | .ok _ => true
  | _ => false

theorem hyp_LaunchesGridsAndPlacement_launch : (withRecords []).boot.phase = .ready ∧ isKind (launchMsg []) .launch = true ∧
    recordReserved (launchMsg [(0x03, [0x40])]).payload = true ∧ recordReserved (launchMsg [(0, [2])]).payload = true ∧
    recordReserved (launchMsg []).payload = false ∧
    (launchOf (launchMsg []).payload).outOfRange (568 * 2 ^ 30) = false ∧
    (launchOf (launchMsg [(0x02, [8])]).payload).outOfRange (568 * 2 ^ 30) = true ∧ recordReserved (launchMsg [(0x02, [8])]).payload = false ∧
    64 ≤ ((withRecords (List.replicate 64 (head []))).queueOf 1).length ∧
    (withRecords (List.replicate 63 (head []))).queues[1]? = some (List.replicate 63 (head [])) := by decide +kernel
theorem hyp_LaunchesGridsAndPlacement_head : (let s := withRecords [head []]
    s.queues[1]? = some [head []] ∧ (head []).launch.queue = 1 ∧ s.queueFree 1 = true ∧ (head []).waiting = none ∧
      isImage (s.checkImage (head []).launch) = true ∧ s.carveFits (head []).launch = true) ∧
    (withRecords []).checkImage (head [(0x09, [3, 4])]).launch = .refuse stImage ∧
    ({ withRecords [] with grids := [newGrid 9 { placedLaunch with bankmem := 2 ^ 28 } placedImage] } : State).carveFits
      (head [(0x1C, natLe 4 131072)]).launch = false ∧
    (head [(0x03, [8])]).launch.script = true ∧ (head []).launch.script = false ∧ ((withRecords []).ctx 0).running = false ∧
    (((withRecords []).modCtx 0 fun c => { c with running := true }).ctx 0).running = true := by decide +kernel
theorem hyp_LaunchesGridsAndPlacement_end :
    (let s : State := { base with teams := [], groups := [] }
     s.grid? 1 = some (newGrid 1 placedLaunch placedImage) ∧ s.gridDone (newGrid 1 placedLaunch placedImage) = true) ∧
    base.gridDone (newGrid 1 placedLaunch placedImage) = false ∧
    (base.modGrid 1 fun g => { g with terminating := true }).gridBusy 1 = false := by decide +kernel

/-- The placed team as a candidate of one group, and a task's record for its grid. -/
def someTask : Task := { recordOf taskWords with uid := 8, grid := 1, args := List.replicate 8 7 }
def waitingTeam : State := { base with groups := [], teams := [{ placedTeam with sched := .candidate, core := none }] }
def tasked (t : Task) : State := { base with pool := [t] }
theorem hyp_LaunchesGridsAndPlacement_team : (waitingTeam.firstPlaceable.any fun p => !p.1.task && p.1.id == 2) = true ∧
    (waitingTeam.team? 2).any (fun tm => tm.sched == .candidate && waitingTeam.cluster tm == [tm] && (waitingTeam.grid? tm.grid).isSome) =
      true := by decide +kernel
theorem hyp_LaunchesGridsAndPlacement_task : ((tasked someTask).firstPlaceable.any fun p => p.1.task && p.1.id == 8) = true ∧
    (tasked someTask).pool.find? (fun r => r.uid == 8) = some someTask ∧ someTask.args.length = 8 ∧
    ((tasked someTask).grid? 1).any (fun gr => (tasked someTask).freeTaskSlot gr == some 0) = true := by decide +kernel

theorem hyp_TaskQueuesAndRetirement : (let s := base.modGrid 1 fun g => { g with ring := [someTask], ringWait := true }
    s.oldestSpilled = some someTask ∧ s.pool.length < 65536 ∧ (s.grid? 1).any (·.ringWait) = true) := by decide +kernel
/-- A tracker entry of group 7. -/
def retire (succ lwct : Nat) (dec : Option (Option Nat)) : State :=
  let s := paged base
  { s with mem := { s.mem with cells := cputs s.mem.cells 0x40000000 [2] },
           retiring := [{ group := 7, core := 0, grid := 1, team := 2, index := 0, lcid := 0, lwct := lwct, succ := succ, decrement := dec,
                          task := none, spec := none }] }
theorem hyp_TaskQueuesAndRetirement_tracker :
    (let s := retire 0 0 (some none)
     (s.retiring.find? fun r => r.core == 0 && r.group == 7).any (fun r => r.decrement != none && decide (r.lwct ≤ s.gtime)) = true ∧
       s.remotesAcked 7 (BitVec.allOnes 32) = true ∧ s.opsDone 7 = true) ∧
    (retire 0 9 (some none)).gtime < 9 ∧
    (retire 0 0 none).retiring.all (fun r => r.decrement.isNone && !r.heldBack) = true ∧
    ((retire 0x40000000 0 none).meetBlock [] 0 1 0x40000000).place?.any (fun p => decide (1 < (retire 0x40000000 0 none).mem.count p.pa)) =
      true := by decide +kernel
theorem hyp_TaskQueuesAndRetirement_kept : ∀ c : Bool, (let s : State := { base with kept := [{ task := someTask, companion := c, group := 7 }] }
    (s.grid? someTask.grid).isSome ∧ s.pool.length < 65536 ∧ (s.kept.find? fun k => k.task.uid == 8 && k.companion).isSome = c ∧
      (s.kept.find? fun k => k.group == 7 && !k.companion).isSome = !c) := by decide +kernel
/-- A page that firmware is asked to map: bit 12 of an entry that is not valid (R272). -/
theorem hyp_TaskQueuesAndRetirement_page :
    (let s := { paged base with mem := { (paged base).mem with cells := cputs (paged base).mem.cells (placedTable + 32) (natLe 8 0x1000) } }
     ((s.rootsAsked 1 0x100000000).findSome? fun root => s.serviceEntry 0x100000000 walkLevels root) =
       some (placedTable + 32, 0x100000000, 2 ^ 30) ∧ s.mem.wf = true ∧ (0x17 : DWord).getLsbD 0 = true) := by decide +kernel

def only (f : Lane → Lane) : State := onAll f base
theorem hyp_RotationsReleasesAndParking : (let s := onGrp (fun g => { g with fairness := g.fairtime }) base
    (s.group? 3).any (fun g => g.pprom && g.rotation.isNone && g.fairness != 0 && decide (g.fairtime ≤ g.fairness)) = true) ∧
    (base.group? 3).any (fun g => decide (g.fairness < g.fairtime) && decide (g.lanes.length ≤ 32) && g.sched != .parked) = true ∧
    (let s := only fun l => { l with state := .wait (.fence 2 6) }
     (s.group? 3).any (fun g => g.lanes.any (·.state == .wait (.fence 2 6)) &&
       s.fenceHolds g (g.waiting fun w => w == .fence 2 6) 2) = true) ∧
    (let s := only fun l => { l with state := .wait (.fence 2 6), lwct := 9 }
     (s.group? 3).any (fun g => !s.fenceHolds g (g.waiting fun w => w == .fence 2 6) 2) = true) ∧
    (let s := only fun l => { l with state := .wait (.twait 0) }
     s.gtime = 0 ∧ (s.group? 3).any (fun g => g.lanes.all (·.state == .wait (.twait 0))) = true) ∧
    (let s := only fun l => { l with state := .wait (.bar 1) }
     (s.group? 3).any (fun g => s.mayPark g && decide (s.gtime < g.standing.getD s.gtime + s.fw.parkDelay)) = true) ∧
    (let s := onGrp (fun g => { g with standing := some 0 }) { only fun l => { l with state := .wait (.bar 1) } with
       clock := { base.clock with tick := 4000 } }
     (s.group? 3).any (fun g => s.mayPark g && decide (g.standing.getD s.gtime + s.fw.parkDelay ≤ s.gtime)) = true) ∧
    (let s := onGrp (fun g => { g with sched := .parked }) base
     (s.group? 3).any (fun g => g.sched == .parked && g.lanes.any (·.state == .run)) = true) := by decide +kernel

def pending (p : Pend) : State := { memState with pend := [p] }
def value (lane : Option Nat) : Pend :=
  { id := 6, group := 3, lane := lane, lanes := 1, pc := 0x40080, va := 0, regs := [5], due := 0, what := .value [⟨5, 7, tagI32⟩] }
def loading : Pend :=
  { id := 6, group := 3, lane := some 31, lanes := 2 ^ 31, pc := 0x40080, va := 0x40000000, regs := [5], due := 0, what := .load 0x40000000 0x40000000 4 5 0 0 }
theorem hyp_LandingsFaultsAndHandlers_land : ∀ p ∈ [value none, value (some 31), loading], (pending p).pend.find? (fun q => q.id == 6) = some p ∧
    p.due ≤ (pending p).clock.tick ∧ ((pending p).group? p.group).any (fun g => g.spec.isNone) = true ∧
    (pending p).loadAfter 3 0x40000000 4 0 0 ≤ (pending p).gtime ∧ (pending p).loadDamage 3 0x40000000 4 0 = none := by decide +kernel
def outside : State := onAll (fun l => { l with lpc := 0xFFFF00000000 }) base
def isFetchFault : Fetch → Bool
  | .fault _ => true
  | _ => false
theorem hyp_LandingsFaultsAndHandlers_fetch :
    (outside.siteOf 3).any (fun x => laneHolds (fun _ l => !l.handler) x && x.g.redo?.isNone && isFetchFault (outside.fetchAt (outside.coreOf x.g.team) x.g.grid x.pc)) = true := by
  decide +kernel
def fetchesWord (s : State) (x : Site) : Bool :=
  match s.fetchAt (s.coreOf x.g.team) x.g.grid x.pc with
  | .word w => (match decode w with | .ok i => !zeroesCount i | _ => false)
  | _ => false
def farState : State := onGrp (fun g => { g with spcount := 262144 }) base
theorem hyp_LandingsFaultsAndHandlers_far : (farState.siteOf 3).any (fun x => fetchesWord farState x && x.g.redo?.isNone && x.mask != 0 &&
    overDistance farState.fw.spdistCap x .plain && laneHolds (fun _ l => !l.handler) x) = true := by decide +kernel
def trappedState (handler : Nat) : State :=
  (only fun l => { l with state := .trap }).modGrid 1 fun g => { g with image := { g.image with handler := handler } }
theorem hyp_LandingsFaultsAndHandlers_handler : ∀ h ∈ [0, 0x80], (let s := trappedState h
    (s.group? 3).any (fun g => g.inTrap && !g.inHandler && g.unheld == 0 && g.sched == .resident && g.halted.isNone && !s.unresolved g &&
      decide (g.lanes.length ≤ 32) && (s.team? g.team).isSome &&
      (s.grid? g.grid).any fun gr => gr.image.handler == h && !gr.terminating) = true) := by decide +kernel

/-! ## Saves, temperature, engines and cuttings -/

/-- The placed team with a slice of 1 µs, at 1 µs, and a task of a priority waiting. -/
def sliced (t : Option Task) : State :=
  { (base.modGrid 1 fun g => { g with launch := { g.launch with tslice := 1 } }) with
    clock := { base.clock with tick := 2000 }, pool := t.toList }
theorem hyp_SavesRestoresAndMigrations_slice : (let s := sliced (some someTask)
    (s.team? 2).any (fun tm => tm.sched == .resident && decide (tm.slice + 1000 * ((s.grid? tm.grid).map (·.launch.tslice)).getD 0 ≤ s.gtime) &&
      s.candidates.any fun c => decide (tm.prio ≤ c.eff s.gtime s.fw.quantum)) = true ∧
    ((s.grid? 1).map (·.launch.tslice)).getD 0 ≠ 0) ∧
    (sliced none).candidates = [] := by decide +kernel
/-- A team of priority 7 that needs a whole scratchpad, every other core stopped. -/
def crowded : State :=
  let big : Grid := newGrid 9 { placedLaunch with queue := 1 } { placedImage with scratch := 1572864 }
  { base with grids := base.grids ++ [big], teams := base.teams ++ [newTeam 10 9 0 0 0 0 0 7 0],
              cores := mapFrom (fun i c => { c with stopped := i != 0 }) 0 base.cores }
theorem hyp_SavesRestoresAndMigrations_preempt : (crowded.toPreempt.find? fun u => u.uid == 2) = crowded.team? 2 ∧
    (crowded.team? 2).isSome = true := by decide +kernel
def asked (r : Request) (s : State) : State := onTeam (fun t => { t with requests := [r] }) s
def standing : State := only fun l => { l with atSafe := true, lpc := 0x40084 }
theorem hyp_SavesRestoresAndMigrations_save : ((base.team? 2).any fun tm => !base.maySave tm) = true ∧
    (((asked .preempt standing).team? 2).any (asked .preempt standing).maySave) = true ∧
    ∀ t ∈ [none, some 5], (let s := onTeam (fun tm => { tm with sched := .saving, target := t }) standing
      (s.team? 2).any (fun tm => s.cluster tm == [tm] && s.saveReady tm && tm.target == t && (s.grid? tm.grid).isSome) = true) := by
  decide +kernel
theorem hyp_SavesRestoresAndMigrations_restore : (let s := onTeam (fun tm => { tm with sched := .saved, core := none }) base
    (s.firstPlaceable.any fun p => !p.1.task && p.1.id == 2) = true ∧
      (s.team? 2).any (fun tm => tm.sched == .saved && s.cluster tm == [tm] && (s.grid? tm.grid).isSome) = true) := by decide +kernel
def hot : State := base.modCore 0 fun c => { c with temp := 104 }
def moving : State :=
  (hot.modCore 0 fun c => { c with migrating := some 5 }).modCore 5 fun c => { c with migrating := some 0 }
theorem hyp_SavesRestoresAndMigrations_migrate : hot.mayMigrate 0 5 = true ∧ hot.cores.length = 128 ∧ hot.mayMigrate 5 0 = false ∧
    (moving.core 0).migrating = some 5 ∧ (moving.movers 5).isEmpty = true ∧ moving.movers 0 ≠ [] ∧
    ({ moving with groups := [] } : State).movers 0 = [] ∧
    (let s := onTeam (fun tm => { tm with sched := .migrating, target := some 5 }) moving
     (s.movers 0).all (fun u => u.sched == .migrating && u.target == some 5) = true ∧ s.movers 0 ≠ []) := by decide +kernel

theorem hyp_TemperaturePowerAndLeases : (base.cores[127]?).any (fun c => !c.stopped) = true ∧ 1800 ≤ base.fw.powerLimitWas ∧
    ((base.modCore 127 fun c => { c with stopped := true }).cores[127]?).any (·.stopped) = true ∧ (1799 : Nat) < 1800 ∧
    ({ base with fw := { base.fw with powerStop := true } } : State).fw.powerStop = true ∧ base.fw.powerStop = false ∧
    ((base.modCore 5 fun c => { c with l1 := [{ block := 8, expiry := 0, lines := 15 }] }).cores[5]?).any (fun c =>
      c.l1.any fun b => b.block == 8 && decide (b.expiry ≤ base.gtime)) = true ∧
    (let l : IngressLine := { line := 3, granted := 0, wct := 0, last := [] }
     l.granted + 2000 ≤ ({ base with clock := { base.clock with tick := 4000 } } : State).gtime ∧ base.gtime < l.granted + 2000) := by
  decide +kernel

/-- The copy of `engState`, changed. -/
def withOp (f : EngOp → EngOp) : State := engState.modOp 0 1 f
theorem hyp_EngineOperationsEnd : (engState.cores[0]?).any (fun c => (c.ops.find? (fun o => o.handle == 1)).any fun o =>
      !engState.mayComplete o && o.run.isNone && !o.begun && !o.waiting && o.reading.isNone && !o.exhausted && !o.paused &&
      decide (o.kind ≤ 10) && mayBegin c.ops o) = true ∧
    ((withOp fun o => { o with outcome := some (.ok, 0) }).op? 0 1).any engState.mayComplete = true ∧
    (let r : EngRun := { bytes := 16, wct := 9, remote := [], banks := [] }
     ((withOp fun o => { o with begun := true, run := some r }).op? 0 1).any (fun o => o.run == some r && !o.waiting && !o.exhausted) = true ∧
       engState.runVisible r = false ∧ engState.runVisible { r with wct := 0 } = true) ∧
    (let other := ((engState.op? 0 1).map fun o => { o with handle := 9 }).toList
     let s := engState.modCore 0 fun c => { c with ops := other ++ c.ops }
     (s.op? 0 1).any (fun o => !mayBegin (s.core 0).ops o) = true) ∧
    (∀ k ∈ engState.cores, ∀ o ∈ k.ops, o.hears { members := 0, number := 0, rank := 0, kind := 0, fields := [], chunk := 0, data := [] } = false) ∧
    (0, 0, 0) ∉ engState.fabric.collOwed ∧
    (0, 0, 0) ∈ ({ engState.fabric with collOwed := [(0, 0, 0)] } : Fabric).collOwed := by
  decide +kernel
/-- A copy that waits on the word at 0x40000000 for generation 1. -/
def waitingCopy (w : Nat) : State :=
  let s := withOp fun o => { o with waiting := true, words := o.words.take 8 ++ [0x40000000, 0, 1] ++ o.words.drop 11 }
  { s with mem := { s.mem with cells := cputs s.mem.cells 0x40000000 (natLe 8 w) } }
theorem hyp_EngineOperationsEnd_barrier : ∀ w ∈ [2 ^ 32 + 2 ^ 26, 2 ^ 32, 2 ^ 33, 0], (let s := waitingCopy w
    (s.op? 0 1).any (fun o => o.kind == 1 && o.waiting && o.outcome.isNone && (s.peerSides o).isEmpty && (s.sideWaits o).isEmpty &&
      (match s.xlatG 0 o.grid (wd64 o.words 8) with
       | .ok p => p.home && p.readable && (s.mem.damagedByte p.pa 8).isNone && (cgets s.mem.cells p.pa 8 == natLe 8 w)
       | _ => false) && (wd o.words 10 == 1)) = true) := by decide +kernel
def tableLoad : TableLoad := { group := 3, lanes := 1, pc := 0x40080, address := 0x40010000, due := 0, asked := [], waiting := [] }
def isBytes : LineRead → Bool
  | .bytes _ => true
  | _ => false
theorem hyp_EngineOperationsEnd_table : (let s := engState.modBank 0 1 fun b => { b with state := .loading, load := some tableLoad }
    ((s.cores[0]?).bind fun c => c.banks[1]?).any (fun b => b.load == some tableLoad) = true ∧
      isBytes (s.readLines (((s.group? 3).map (·.grid)).getD 0) 0 tableLoad 0 bankLines []) = true) := by decide +kernel

/-- A CTGET or a CTPOST of the declared slot. -/
def cutOp (kind want : Nat) (slot : CutSlot → CutSlot) (sp : Option Spec) : State :=
  let s := onGrp (fun g => { g with spec := sp }) { declared with cuts := declared.cuts.map fun (n, c) => (n, slot c) }
  let op := ((engState.op? 0 1).map fun o => { o with kind := kind, words := [BitVec.ofNat 32 (2 ^ 16 * want), 0x400] }).toList
  s.modCore 0 fun c => { c with ops := op }
def specAt (level : Nat) (commit : Option Nat) : Spec :=
  { level := level, slot := 0, want := 1, producer := none, predicted := false, counted := false, lines := [(0x80, (1, 0))], held := [], committing := commit, doomed := none }
def isTile (l : Nat) : Cut → Bool
  | .tile _ k _ => k == l
  | _ => false
def isWait : Cut → Bool
  | .wait => true
  | _ => false
def isStale : Cut → Bool
  | .stale => true
  | _ => false
def cutAnswer (s : State) (p : Cut → Bool) : Bool :=
  (s.op? 0 1).any fun o => o.kind == 12 && !o.paused && o.outcome.isNone && mayBegin (s.core 0).ops o && !s.doomedOp o &&
    ((s.slot? o.grid o.cutSlot).any fun c => p (s.ctGet c o.cutWant (s.onCutting o.group o.cutSlot o.cutWant) o.waiting)) &&
    (s.team? o.team).any fun tm => cwf tm.scratch
theorem hyp_CuttingTurns_get : cutAnswer (cutOp 12 0 id none) (isTile 0) = true ∧
    cutAnswer (cutOp 12 1 (fun c => { c with version := 1 }) none) (isTile 0) = true ∧
    cutAnswer (cutOp 12 1 (fun c => { c with version := 0, mode := 0 }) (some (specAt 0 none))) (fun c => isTile 1 c || isWait c) = true ∧
    cutAnswer (cutOp 12 2 (fun c => { c with version := 1 }) none) isWait = true ∧
    cutAnswer (cutOp 12 1 (fun c => { c with version := 4 }) none) isStale = true ∧
    (∀ g ∈ (cutOp 12 0 id none).grids, g.terminating = false) := by decide +kernel
def postReads (s : State) : Bool :=
  (s.op? 0 1).any fun o => o.kind == 11 && o.outcome.isNone && mayBegin (s.core 0).ops o && !s.doomedOp o &&
    (s.slot? o.grid o.cutSlot).any fun c =>
      match s.engReadScratch o (wd o.words 1) c.bytes with
      | .bytes _ => true
      | _ => false
theorem hyp_CuttingTurns_post : postReads (cutOp 11 0 id none) = true ∧ (cutOp 11 0 id none).levelOf 3 = 0 ∧
    (cutOp 11 0 id none).cuts.all (fun e => e.2.specLevel == 0 && e.2.store % 4 == 0 && e.2.split % 4 == 0 && e.2.store2 % 4 == 0) = true ∧
    postReads (cutOp 11 0 (fun c => { c with specLevel := 1 }) (some (specAt 1 none))) = true ∧
    (cutOp 11 0 id (some (specAt 1 none))).levelOf 3 ≠ 0 := by decide +kernel
theorem hyp_CuttingTurns_speculation : ∀ c ∈ [none, some 0, some 9], (cutOp 12 0 id (some (specAt 1 c))).specOf 3 = some (specAt 1 c) ∧
    (specAt 1 none).live = true ∧ (specAt 1 none).lines ≠ [] ∧ (cutOp 12 0 id (some (specAt 1 none))).gtime = 0 := by decide +kernel
theorem hyp_CuttingTurns_room : ∀ b : Bool, (let s := onGrp (fun g => { g with noRoom := b }) (cutOp 12 0 id (some (specAt 1 none)))
    let us := s.groups.filter fun g => s.coreOf g.team == 0 && g.spec.any (·.live)
    us ≠ [] ∧ us.all (·.noRoom) = b ∧ us.all (fun g => s.specOf g.uid == g.spec) = true) := by decide +kernel

/-! ## Ports, links and packets -/

/-- Port 31 of a part at a time of 1 ms. -/
def late (f : Port → Port) : State :=
  ({ State.reset with clock := { State.reset.clock with tick := 2000000 } } : State).modPort 31 f
theorem hyp_PortsComeUpSleepAndWake : ∀ st ∈ [PortState.requested, .locking, .trained, .live, .doze, .nap, .draining, .dark, .fault],
    ∀ b : Bool, (let s := late fun p => { p with state := st, trained := b, tol := if b then 25000 else 0, granted := if b then some 9 else none }
    (s.fabric.ports[31]?).any (fun p => p.state == st && p.trained == b && decide (p.due ≤ s.gtime) && decide (p.idle + 2000 ≤ s.gtime) &&
      decide (p.since + 100000 ≤ s.gtime) && p.channel.waiting.isEmpty && p.channel.retry.isEmpty && p.channel.retrain.isNone &&
      (p.tol == if b then 25000 else 0) && p.granted.isSome == b &&
      p.channel.owed == (0, 0)) = true ∧ s.carriesCopy 31 = false) := by decide +kernel
theorem hyp_PortsComeUpSleepAndWake_early : (let s := late fun p => { p with due := 1000001, idle := 998001, since := 900001 }
    (s.fabric.ports[31]?).any (fun p => decide (s.gtime < p.due) && decide (s.gtime < p.idle + 2000) && decide (s.gtime < p.since + 100000)) =
      true) := by decide +kernel
theorem hyp_PortsComeUpSleepAndWake_lost : ((late fun p => { p with state := .nap, channel := { p.channel with lost := 1 } }).fabric.ports[31]?).any
    (fun p => p.state == .nap && p.channel.lost != 0) = true := by decide +kernel

theorem hyp_PortFaultsAndReleases : ∀ t ∈ [1000000 - 10000, 1000000 - 10001, 1000000 - 50000, 1000000 - 50001],
    (let s := late fun p => { p with state := .requested, granted := some t, channel := { p.channel with retrain := some t } }
     (s.fabric.ports[31]?).any (fun p => p.state == .requested && p.granted == some t && p.channel.retrain == some t) = true ∧ s.gtime = 1000000) := by
  decide +kernel
/-- A LIVE port that carries a bound copy. -/
theorem hyp_PortFaultsAndReleases_bound : (let s := ported 31 .live (withOp fun o => { o with bound := some 31 })
    (s.port 31).state = .live ∧ ((s.core 0).ops.any fun o => o.bound == some 31 && o.outcome.isNone) = true) := by decide +kernel

def channelOf (c : Nat) (f : Channel → Channel) (s : State) : State :=
  let fb := s.fabric
  let port (p : Port) : Port := { p with state := .live, channel := f p.channel }
  let link (l : ELink) : ELink := { l with up := true, channel := f l.channel }
  let ports := if c < 32 then setAt port c fb.ports else fb.ports
  let links := if c < 32 then fb.links else setAt link (c - 32) fb.links
  { s with fabric := { fb with ports := ports, links := links } }
def flitWaiting : RetryFlit := { flit := flitBytes [1] 1 0xFFFF 1 0 0, whole := [], copy := false }
def busyLink (c : Nat) : State :=
  channelOf c (fun ch => { ch with working := 0xFFFF, retry := [flitWaiting], retrain := some 5 }) (late id)
theorem hyp_LanesLinksAndReplays : ∀ c ∈ [31, 35], (let s := busyLink c
    (s.fabric.channel? c).any (fun ch => (ch.working &&& 1 != 0) && (ch.working &&& ~~~1 != 0) && (ch.working &&& ~~~0xFFFF == 0) &&
      (ch.working &&& 0 == 0) && ch.retrain.isSome && !ch.retry.isEmpty && decide (ch.ackTime + 2000 ≤ s.gtime)) = true ∧
    (s.port 31).state = (if c = 31 then .live else .dark) ∧ (s.fabric.links[3]?).any (·.up) = (decide (c = 35))) := by decide +kernel
theorem hyp_LanesLinksAndReplays_replays : (∀ c ∈ [31, 35], (let s := channelOf c (fun ch => { ch with retry := [flitWaiting] }) (late id)
    s.fabric.hears c = true ∧ (s.fabric.channel? c).any (fun ch => ch.retrain.isNone && !ch.retry.isEmpty &&
      decide (ch.ackTime + 2000 ≤ s.gtime)) = true)) ∧
    (let s := ported 31 .draining (channelOf 31 (fun ch => { ch with retry := [flitWaiting] }) (late id))
     s.fabric.hears 31 = true ∧ s.fabric.sends 31 = false) := by decide +kernel
/-- A channel that has heard one of the two credit returns of a retrain exit. -/
theorem hyp_LanesLinksAndReplays_credits : ∀ vc ∈ [0, 1], (let bs := flitBytes [] 0 0 3 vc 30
    let s := channelOf 31 (fun ch => { ch with retry := [flitWaiting], replayDue := true, resync := if vc = 0 then (true, false) else (false, true) }) (late id)
    s.fabric.hears 31 = true ∧ (viewFlit bs).good = true ∧ (viewFlit bs).kind = 3 ∧ (viewFlit bs).vc = vc ∧
      (s.fabric.channel? 31).any (fun ch => ch.retrain.isNone && ch.replayDue && ch.waiting.isEmpty &&
        ch.resync == (if (viewFlit bs).vc = 0 then (true, false) else (false, true)) &&
        !(ch.retry.filter fun r => !covers16 (viewFlit bs).ack (fieldAt r.flit 56 2)).isEmpty) = true) := by decide +kernel
theorem hyp_LanesLinksAndReplays_rest : ((ported 31 .doze base).port 31).state = .doze ∧ (base.fabric.links[0]?).any (fun l => !l.up) = true ∧
    (State.reset.fabric.channel? 35).any (fun ch => decide (State.reset.gtime < ch.ackTime + 2000)) = true := by decide +kernel

/-- A live port with what it received and has to deliver. -/
def live31 (f : Fabric → Fabric) (s : State) : State :=
  let t := channelOf 31 (fun ch => { ch with received := 0 }) s
  { t with fabric := f t.fabric }
def goodFlit (kind seq : Nat) (bs : List Byte) : List Byte := flitBytes bs seq 0xFFFF kind 0 1
theorem hyp_FlitsAndPacketsOfPeers_flits : (live31 id base).fabric.hears 31 = true ∧ base.fabric.hears 31 = false ∧
    ((live31 id base).fabric.channel? 31).any (fun ch => ch.received == 0 && ch.waiting.isEmpty) = true ∧
    (∀ k ∈ [1, 2, 3], ∀ n ∈ [1, 2], (viewFlit (goodFlit k n [7])).good = true ∧ (viewFlit (goodFlit k n [7])).kind = k ∧
      (viewFlit (goodFlit k n [7])).seq = n) ∧ (viewFlit []).good = false := by decide +kernel
def arrives (type : Nat) (r : Bool) (aop dst len addr : Nat) (data : List Byte) (f : Fabric → Fabric) : State × List Byte :=
  let bs := packetBytes type r aop 1 dst 7 len addr 4 data
  (live31 (fun fb => f { fb with arrived := [(31, false, bs)] }) (ready .ready base), bs)
def arrivesOk (p : State × List Byte) (q : State → PacketView → Bool) : Bool :=
  (p.1.fabric.arrived == [(31, false, p.2)]) && q p.1 (viewPacket p.2)
def freshPacket (s : State) (v : PacketView) : Bool :=
  v.dst == s.chipId && !(s.fabric.responses.any fun r => r.chip == v.src && r.e2e == v.e2e) &&
    !(s.fabric.acks.any fun a => a.response.chip == v.src && a.response.e2e == v.e2e)
theorem hyp_FlitsAndPacketsOfPeers_packets :
    arrivesOk (arrives 0 false 0 0 8 0x40000000 [] id) (fun s v => freshPacket s v && v.type == 0 && s.targetOk v.addr v.len &&
      (s.mem.damagedByte v.addr v.len).isNone) = true ∧
    arrivesOk (arrives 1 false 0 0 2 0x40000000 [1, 2] id) (fun s v => freshPacket s v && v.type == 1 && v.data == [1, 2] &&
      s.targetOk v.addr v.data.length && (s.mem.mergedByte v.addr v.data.length).isNone) = true ∧
    arrivesOk (arrives 2 false 12 0 4 0x40000000 [1, 2, 3, 4] id) (fun s v => freshPacket s v && v.type == 2 && !v.r && v.aop == 12 &&
      v.data.length == 4 && v.addr % 4 == 0 && s.targetOk v.addr 4 && (s.mem.updates.isEmpty)) = true ∧
    arrivesOk (arrives 3 false 0 0 4 0 [1, 2, 3, 4] fun f => { f with remotes := [{ devRead 4 false with node := false, chip := 1 }] }) (fun s v =>
      v.dst == s.chipId && v.type == 3 && v.aop == 0 &&
        (s.fabric.remotes.find? (·.tagged v.src v.rtag)).any (·.engine.isNone)) = true := by decide +kernel
/-- A response behind a request, on a channel that owes no credits. -/
theorem hyp_FlitsAndPacketsOfPeers_order :
    packetVc (viewPacket (arrives 0 false 0 0 8 0x40000000 [] id).2).type ≠ packetVc (viewPacket (arrives 4 false 0 0 0 0 [] id).2).type ∧
    ((live31 id base).fabric.channel? 31).any (fun ch => ch.retrain.isNone && ch.owed == (0, 0) && !ch.replayDue) = true ∧
    0 < (arrives 4 false 0 0 0 0 [] id).2.length := by decide +kernel
/-- Packets for chip 5 go out on link 3, which is up and retrains. -/
def retraining (f : Fabric) : Fabric :=
  let link (l : ELink) : ELink := { l with up := true, channel := { l.channel with retrain := some 0, peerRank := some 0 } }
  { f with routes := [(64 * 5 + 31, 35)], links := (setAt link 3 f.links) }
theorem hyp_FlitsAndPacketsOfPeers_others :
    arrivesOk (arrives 0 false 0 5 8 0x40000000 [] retraining)
      (fun s v => v.dst != s.chipId && s.fabric.route v.dst 31 == 35 && s.fabric.carries 35 && !s.fabric.sends 35 &&
        (s.fabric.channel? 35).isSome) = true ∧
    (∀ k ∈ [4, 6], arrivesOk (arrives k false 0 5 0 0 [] id) (fun s v => v.dst != s.chipId && v.type == k && v.src != s.chipId &&
      s.fabric.route v.dst 31 == 62 && s.fabric.route v.src 63 == 62) = true) ∧
    arrivesOk (arrives 2 false 0 0 4 0 [1, 2, 3, 4] fun f => { f with responses := [⟨1, 7, [9], none⟩] })
      (fun s v => v.dst == s.chipId && decide (v.type ≤ 2) && s.fabric.responses.any fun r => r.chip == v.src && r.e2e == v.e2e) = true := by
  decide +kernel

/-! ## What holds of every instruction and step -/

theorem hyp_RegisterInstructionsLeaveTheRest : (Instr.dest (.iadd false 1 2 3)).isSome = true ∧
    (base.group? base.cur).any (fun g => g.lanes.all fun l => !l.handler) = true ∧
    stateAfter (exec (.iadd false 1 2 3) base) (fun _ => true) = true := by decide +kernel
theorem hyp_CoreInstructionsLeaveMemory : Instr.isCore (.stg false 4 6 4 2) = true ∧ Instr.mapsPage (.stg false 4 6 4 2) = false ∧
    Instr.sendsUpdate (.iadd false 1 2 3) = false ∧ stateAfter (exec (.stg false 4 6 4 2) memState) (fun _ => true) = true ∧
    stateAfter (exec (.iadd false 1 2 3) base) (fun _ => true) = true := by decide +kernel
/-- Lanes past their allocation, with a pending register, and of another tag; and lanes that pass. -/
theorem hyp_FaultingLanesTrapAndOthersComplete : ∀ l ∈ [{ Lane.start 0x40080 with window := 512 },
      { Lane.start 0x40080 with pend := [2] }, putRegs [(2, 0, tagF32)] (Lane.start 0x40080), Lane.start 0x40080],
    (let s := onAll (fun _ => l) base
     s.site?.any (fun x => x.mask != 0 && x.g.redo?.isNone && laneHolds (fun _ l => !l.handler) x && !overDistance s.fw.spdistCap x .plain) = true) := by decide +kernel
theorem test_iadd_pending_first_lane : laneAfter (execIadd false 1 2 3 (onAll (fun l => { l with pend := [2] }) base))
    (fun l => l.state == .trap && l.tcause == 8 && l.tpc == 0x40080) = true := by decide +kernel

/-- The placed word is fetched by the next step, for a group and for a context. -/
theorem hyp_StepRunsTheDecodedInstruction : (base.nextGroup.any fun g => g.issueAddr == some (0x40080 : Addr) &&
    (match base.xlatG (base.coreOf g.team) g.grid 0x40080 with
     | .ok p => p.aper == 0 && p.executable && (base.mem.damagedByte p.pa 4).isNone && decide (base.mem.ingressUntil p.pa 4 ≤ base.gtime) && (cgets base.mem.cells p.pa 4 == natLe 4 0x00204103)
     | _ => false)) = true ∧ decode 0x00204103 = .ok (.iadd false 1 2 3) ∧ stateAfter (exec (.iadd false 1 2 3) base) (fun _ => true) = true := by
  decide +kernel
theorem hyp_StepRunsTheDecodedInstruction_script : (script []).nextGroup.isNone = true ∧ (script []).nextCtx = some 0 ∧
    (script []).splitInputs false (script []).inputs = none ∧ (script []).nextArrival = none ∧
    (match (script []).xlatCtx ((script []).ctx 0) 0x40080 with
     | .ok p => p.aper == 0 && p.readable && ((script []).mem.damagedByte p.pa 4).isNone &&
         decide ((script []).mem.ingressUntil p.pa 4 ≤ (script []).gtime)
     | _ => false) = true ∧ stateAfter (exec (.kadd 1 2 3 5) (script [])) (fun _ => true) = true := by decide +kernel
/-- An input that is due, and a packet that can be taken, once no group issues. -/
theorem hyp_StepRunsTheDecodedInstruction_comes :
    (let s : State := { script [] with inputs := [(0, .env (.powerStop 1))] }
     s.nextGroup.isNone = true ∧ (s.splitInputs false s.inputs).isSome = true ∧
       stateAfter (s.takeInput (.env (.powerStop 1))) (fun _ => true) = true) ∧
    (let s : State := { (arrives 4 false 0 0 0 0 [] id).1 with groups := [] }
     s.nextGroup.isNone = true ∧ s.splitInputs false s.inputs = none ∧ s.nextArrival.isSome = true) := by decide +kernel
theorem test_step_runs_the_word : stateAfter (step base) (fun t => (t.group? 3).any fun g => g.lanes.all (·.lpc == 0x40084)) = true := by
  decide +kernel
theorem test_first_step_begins_boot : stateAfter (step State.reset) (fun t => t.mem.wf && t.boot.phase == .bundle && t.outbox.length == 1) = true := by decide +kernel

theorem hyp_DecodeReadsBackEncode : Instr.hasWord (.iadd false 1 2 3) = true ∧ Instr.wellFormed (.iadd false 1 2 3) = true ∧
    Instr.hasWord (.kadd 1 2 3 5) = true ∧ Instr.wellFormed (.kadd 1 2 3 5) = true := by decide +kernel
theorem hyp_EveryStepGoesOnAndKeepsMemoryCanonical : State.reset.mem.wf = true ∧ memState.mem.wf = true := by decide +kernel

/-! ## Engine runs, and the further cases of engines, tasks and turns -/

/-- A list on another chip's or the node's page. -/
def farList (ws : List Word) : State := block ws []
theorem hyp_EngineOperationsStart_far :
    (let ws : List Word := [0x20402, 0, 0x40000000, 0, 0x40001000, 0, 1, 1, 1, 0, 0, 4, 0xC0000000]
     (farList ws).site?.any (fun x => listFar ((farList ws).readList x (gsList (x.g.words16 16)).1 (gsList (x.g.words16 16)).2) &&
       !gsBad 2 (x.g.words16 16)) = true) ∧
    (let ws : List Word := [6, 0, 0xC0000000, 0, 2, 0, 0x80000200, 0, 1]
     (farList ws).site?.any (fun x => listFar ((farList ws).readList x (wd64 (x.g.words16 16) 2) (8 * bredCount (x.g.words16 16))) &&
       !bankredBad (x.g.words16 16)) = true) := by decide +kernel

/-- An operation of some words that has begun, with its list read. -/
def running (kind : Nat) (ws : List Word) (f : EngOp → EngOp) : State :=
  withOp fun o => f { o with kind := kind, words := ws, begun := true, run := none, waiting := false }
def runs (s : State) (p : EngOp → Bool) : Bool :=
  (s.op? 0 1).any fun o => o.begun && !o.waiting && o.reading.isNone && o.run.isNone && !o.exhausted && !o.paused &&
    (o.list.length == o.listSpan.2) && p o
/-- Global memory that an engine may read or write on this part, undamaged. -/
def globalOk (s : State) (bank write : Bool) (o : EngOp) (a n : Nat) : Bool :=
  match s.engPlaceIn bank o a write with
  | .inl p => p.home && decide (s.mem.ingressUntil p.pa n ≤ s.gtime) && (s.mem.damagedByte p.pa n).isNone && (s.mem.mergedByte p.pa n).isNone
  | .inr _ => false
def scratchOk (s : State) (o : EngOp) (a n : Nat) : Bool :=
  (s.engScratch o a n).any fun p => (scratchDamaged p.1 p.2 n).isNone
theorem hyp_EngineRunsMoveBytes :
    (let s := running 1 cpyWords id
     runs s (fun o => globalOk s false false o 0x40000000 16 && globalOk s false true o 0x40001000 16)) = true ∧
    (let s := running 1 [0x101, 0, 0x400, 0, 0x40001000, 0, 16] id
     runs s (fun o => cpySSP o.words && scratchOk s o 0x400 16 && globalOk s false true o 0x40001000 16)) = true ∧
    (let s := running 1 [0x1201, 0, 0x40000000, 0, 0x400, 0, 16, 0, 0, 0, 0, 1] id
     runs s (fun o => cpyDSP o.words && cpyMCAST o.words && globalOk s false false o 0x40000000 16 &&
       (membersOf (wd o.words 11)).all (fun m => (s.engScratch o (m * 2 ^ 28 + 0x400) 16).isSome))) = true := by decide +kernel
theorem hyp_EngineRunsMoveBytes_trug :
    (let s := trugged (fun t => t.trugAcquire 0x400) (running 1 [0x601, 0, 0x40000000, 0, 0, 0, 128, 0, 0, 0, 0, 0, 0x400] fun o =>
       { o with trugSlot := some 0 })
     runs s (fun o => cpyDTRUG o.words && globalOk s false false o 0x40000000 128 && (s.opTrug o).any (fun p =>
       (trugDamaged p.1 p.2 [(0, 16), (64, 4)]).isNone && decide (128 ≤ p.1.trugSize p.2) &&
       (membersOf (p.1.trugConsumers p.2)).all fun m => (s.engScratch o (m * 2 ^ 28 + p.1.trugBase p.2) 128).isSome))) = true := by
  decide +kernel
theorem hyp_EngineRunsMoveBytes_gather : ∀ k ∈ [2, 3],
    (let s := running k [BitVec.ofNat 32 (0x20000 + k), 0, 0x40000000, 0, 0x40001000, 0, 1, 1, 1] id
     runs s (fun o => globalOk s false (k == 2) o 0x40000000 4 && globalOk s false (k == 3) o 0x40001000 4)) = true := by decide +kernel
theorem hyp_EngineRunsMoveBytes_bank :
    (let s := running 5 bankopWords id
     runs s (fun o => globalOk s true false o 0x80000000 4 && globalOk s true false o 0x80000100 4 && globalOk s true true o 0x80000200 4)) = true ∧
    (let s := running 6 bankredWords fun o => { o with list := natLe 8 0x80000000 ++ natLe 8 0x80000100 }
     runs s (fun o => (sourcesOf o.list 2 == [0x80000000, 0x80000100]) && globalOk s true false o 0x80000000 4 &&
       globalOk s true false o 0x80000100 4 && globalOk s true true o 0x80000200 4)) = true := by decide +kernel
def selfPeer (r : Nat) : CollPeer := { rank := r, fields := none, got := [], sent := 0, acked := [] }
theorem hyp_EngineRunsMoveBytes_collective :
    (let s := running 4 collWords fun o => { o with list := [0, 0, 1, 0], peers := [selfPeer 0, selfPeer 1], work := some (.send 1 0) }
     runs s (fun o => o.work == some (.send 1 0) && decide (o.data.length < chunkLen (collOf o.words o.map) o.map 0 0) &&
       globalOk s false false o (sendPiece (collOf o.words o.map) o.map 1 0 256).1 (sendPiece (collOf o.words o.map) o.map 1 0 256).2)) = true ∧
    (let s := running 4 collWords fun o =>
       { o with list := [0, 0, 1, 0], peers := [selfPeer 0, selfPeer 1], work := some (.write 1 0), data := List.replicate 256 7 }
     runs s (fun o => o.work == some (.write 1 0) &&
       globalOk s false true o (recvPiece (collOf o.words o.map) o.map 1 0 256).1 256)) = true := by decide +kernel
theorem hyp_EngineRunsMoveBytes_flush : ∀ k ∈ [8, 9],
    (let s := running k [0x40000000, 0, 4096] id
     runs s (fun o => match s.xlatG 0 o.grid 0x40000000 with | .ok p => p.home | _ => false)) = true := by decide +kernel

/-- A write that has come to its bank; a copy bound to a live port; a message that an operation hears. -/
theorem hyp_EngineOperationsEnd_bank :
    (let w : BankWrite := { due := 0, team := 2, offset := 0x400, address := 0x400, bytes := [1, 2] }
     let s := withOp fun o => { o with begun := true, run := some { bytes := 2, wct := 0, remote := [], banks := [w] } }
     (s.op? 0 1).any (fun o => s.bankReady o == some w && (s.team? 2).any fun tm =>
       (scratchMerged tm 0x400 2).isNone && cwf tm.scratch)) = true ∧
    (let s := withOp fun o => { o with words := [0x1, 0x400, 0x40000000, 0, 0x40001000, 0, 16], outcome := some (.ok, 0) }
     (s.op? 0 1).any (fun o => s.mayComplete o && s.opBarrier o == some 0x400 && (s.countDamage o 0 false).isNone)) = true := by decide +kernel
theorem hyp_EngineOperationsEnd_bound : ∀ up ∈ [true, false],
    (let s := withOp fun o => { o with waiting := true, words := [0x801, 0, 0x40000000, 0, 0, 1, 16, 0, 0x40000000, 0, 1] }
     let cells := cputs s.mem.cells 0x40000000 (natLe 8 (2 ^ 32 + 2 ^ 26 + 31 * 2 ^ 16 + 5))
     let s := { s with mem := { s.mem with cells := cputs cells (placedTable + 32) (natLe 8 (5 * 2 ^ 52 + 0x4F)) } }
     let s := if up then ported 31 .live s else s
     ((s.op? 0 1).any (fun o => o.kind == 1 && o.waiting && o.outcome.isNone && s.peerSides o == [(0x100000000, 5)] &&
       (s.sideWaits o).isEmpty) && (s.fabric.circuitUp 31 == up)) = true) := by decide +kernel
/-- A copy whose second page firmware is still to map. -/
theorem hyp_EngineOperationsEnd_side : (let s := withOp fun o =>
      { o with waiting := true, words := [0x801, 0, 0x40000000, 0, 0xFFFFFFF0, 0, 32, 0, 0x40000000, 0, 1] }
    let s : State := { s with mem := { s.mem with cells := cputs s.mem.cells 0x40000000 (natLe 8 (2 ^ 32 + 2 ^ 26)) } }
    (s.op? 0 1).any (fun o => (s.peerSides o).isEmpty && s.sideWaits o == [0x100000000]) = true) := by decide +kernel
theorem hyp_EngineOperationsEnd_message : ∀ kind ∈ [0, 1, 2],
    (let s := running 4 collWords fun o => { o with number := 3, peers := [selfPeer 0, selfPeer 1] }
     let msg : CollMsg := { members := 0x40000000, number := 3, rank := 1, kind := kind, fields := [9], chunk := 0, data := [] }
     ((s.core 0).ops.filter (fun o => o.hears msg)).length = 1 ∧ (mapFrom (fun j (k : Core) => j == 0 || k.ops.isEmpty) 0 s.cores).all id = true ∧
       (s.op? 0 1).any (fun o => msg.fields != collFields (collOf o.words o.map) o.map && o.peers.all (fun p => !p.got.contains msg.chunk) &&
         o.hears { msg with fields := collFields (collOf o.words o.map) o.map }) = true) := by
  decide +kernel

/-- A successor block with a reserved byte that is not 0, and a sum below 0. -/
theorem hyp_SuccessorCounts_reserved :
    (let s := { succState with mem := { succState.mem with cells := cputs succState.mem.cells 0x40000008 [1] } }
     s.mem.blockReserved 0x40000000 = true ∧ succState.mem.blockReserved 0x40000000 = false) ∧
    succState.site?.any (fun x => laneHolds (fun _ l => !l.handler) x) = true ∧ (1 : Int) + (0xFFFFFFFE : Word).toInt < 0 := by decide +kernel

/-- Decrements that find 0, 1 and 2; companions that are none, good and bad; a block that cannot be read. -/
def retireAt (count : Nat) (entry : Nat) (va : Nat) : State :=
  let s := retire va 0 none
  { s with mem := { s.mem with cells := cputs (cputs s.mem.cells 0x40000000 (natLe 8 count)) 0x40000040 (natLe 8 entry) } }
def decrements (s : State) (p : Retiring → Grid → List Word → Bool) : Bool :=
  (s.retiring.find? fun r => r.core == 0 && r.group == 7).any fun r => r.decrement.isNone && !r.heldBack &&
    s.remotesAcked 7 (BitVec.allOnes 32) && s.opsDone 7 && (s.grid? r.grid).any fun gr => !gr.terminating &&
      p r gr (wordsOf (s.peek 0x40000040 64))
def blockAt (s : State) (r : Retiring) : Option Nat := (s.meetBlock [] 0 r.grid r.succ).place?.map fun p => s.mem.count p.pa
theorem hyp_TaskQueuesAndRetirement_counts : (∀ n ∈ [0, 1, 2], decrements (retireAt n 0 0x40000000) (fun r _ _ =>
      blockAt (retireAt n 0 0x40000000) r == some n) = true) ∧
    decrements (retireAt 1 0x40080 0x40000000) (fun _ gr ws => !(retireAt 1 0x40080 0x40000000).recordBad gr ws && (recordOf ws).entry != 0) = true ∧
    decrements (retireAt 1 0x40082 0x40000000) (fun _ gr ws => (retireAt 1 0x40082 0x40000000).recordBad gr ws && (recordOf ws).entry != 0) = true ∧
    decrements (retireAt 1 0 0x8000000000) (fun r _ _ => ((retireAt 1 0 0x8000000000).meetBlock [] 0 r.grid r.succ).cause.isSome) = true ∧
    decrements (retireAt 1 0 0) (fun r _ _ => r.succ == 0) = true := by decide +kernel

/-- A rotation with a lane above its base, and one with none at its group's turn; a frozen group. -/
theorem hyp_RotationsReleasesAndParking_rotation :
    (let s := onGrp (fun g => { g with rotation := some { base := 0x40080, left := 1 } }) base
     s.nextGroup.isSome = true ∧ (s.group? 3).any (fun g => g.stubs.isEmpty && g.redo?.isNone && (g.pcs g.counting).any (fun a => decide (0x40080 ≤ a))) = true) ∧
    (let s := onGrp (fun g => { g with rotation := some { base := 0x50000, left := 1 } }) base
     (s.nextGroup == s.group? 3) = true ∧ (s.group? 3).any (fun g => (g.pcs g.counting).all (fun a => decide (a < 0x50000))) = true) ∧
    (let s := onGrp (fun g => { g with rotation := some { base := 0x40080, left := 0 } }) base
     (s.group? 3).any (fun g => g.stubs.isEmpty && g.redo?.isNone) = true) := by decide +kernel
theorem hyp_RotationsReleasesAndParking_frozen :
    ((onGrp (fun g => { g with halted := some none }) base).group? 3).any (·.halted.isSome) = true ∧
    (base.group? 3).any (fun g => g.watched && decide (g.lanes.length ≤ 32) && g.stubs.isEmpty && g.redo?.isNone) = true ∧
    ((onGrp (fun g => { g with sched := .parked }) base).group? 3).any (fun g => g.sched == .parked && g.halted.isNone &&
      g.lanes.any (·.state == .run)) = true := by decide +kernel

/-- The old word of an atomic that lands, and a load of damaged bytes. -/
theorem hyp_LandingsFaultsAndHandlers_atom :
    (let p : Pend := { value (some 31) with what := .atom 0x40000000 ⟨5, 7, tagI32⟩ }
     (pending p).pend.find? (fun q => q.id == 6) = some p ∧ p.due ≤ (pending p).clock.tick) ∧
    (let s : State := { pending loading with mem := { (pending loading).mem with damage := [0x40000000 / 32] } }
     s.loadAfter 3 0x40000000 4 0 0 ≤ s.gtime ∧ (s.loadDamage 3 0x40000000 4 0).isSome = true ∧ (s.grid? 1).isSome = true ∧
       (s.group? 3).any (fun g => (g.lanes[31]?).any fun l => loading.lanes.getLsbD 31 && l.state != .done) = true) := by decide +kernel

/-- A team that is being restored, one group at a safe point with a stub. -/
def restoring : State :=
  let sp : SafePoint := { pcoff := 0x80, stub := some 0x84, vlive := 1, ulive := 1, plive := 0, jlive := 1, tlive := 0, alive := 1 }
  (onTeam (fun t => { t with sched := .restoring }) (onGrp (fun g => { g with sched := .restoring }) standing)).modGrid 1 fun g =>
    { g with image := { g.image with safePoints := [sp] } }
theorem hyp_SavesRestoresAndMigrations_restoring : (restoring.team? 2).any (fun tm => tm.sched == .restoring &&
      decide (tm.saveDue ≤ restoring.gtime) && restoring.cluster tm == [tm]) = true ∧
    (restoring.group? 3).any (fun g => restoring.groups == [g] && g.team == 2 && decide (g.lanes.length ≤ 32) && (restoring.grid? 1).any fun gr =>
      g.lanes.all fun l => (gr.image.safePoint? (l.lpc - 4)).any (·.stub.isSome)) = true := by decide +kernel
theorem hyp_SavesRestoresAndMigrations_kept : (let s := onTeam (fun tm => { tm with sched := .saving }) (standing.modGrid 1 fun g =>
      { g with image := { g.image with saveRegions := [(0x400, 0x400)] } })
    (s.team? 2).any (fun tm => s.cluster tm == [tm] && s.saveReady tm && (s.grid? tm.grid).any fun gr =>
      inRegions gr.image.saveRegions 0x400 && !inRegions gr.image.saveRegions 0x3FF) = true) := by decide +kernel

theorem hyp_TemperaturePowerAndLeases_cap : (let s : State := { base with fw := { base.fw with powerLimitWas := 600 } }
    (s.cores[127]?).isSome = true ∧ s.fw.powerLimitWas < 601 ∧ (∀ time, s.fw.capAt = some time → time + 10000 ≤ s.gtime) ∧
      (s.modCore 127 fun c => c.sample 60 s.fw.throttleWas).hottest.isSome = true) ∧
    (let s : State := { base with fw := { base.fw with capAt := some 1, powerLimitWas := 600 } }
     ∃ time, s.fw.capAt = some time ∧ s.gtime < time + 10000) := by
  refine ⟨⟨by decide +kernel, by decide +kernel, fun time h => ?_, by decide +kernel⟩, ⟨1, rfl, by decide +kernel⟩⟩
  cases h

/-! ## Further cases of the matrix unit, scripts, cuttings, ports and packets -/

theorem hyp_MatrixStatusResults_held : ((queued 1 (.bload 511 4 0 0x2000 0 0)).core 0).matrix.any (fun o => o.kind.touches.contains 511) = true ∧
    ((queued 1 (.aczero 127)).core 0).matrix.any (fun o => o.team == 2 && o.kind.writes == some 127) = true ∧
    (matState.core 0).matrix = [] ∧ 0 < matState.cores.length := by decide +kernel
def counting (lanes : BitVec 32) (k : MatKind) : Bool :=
  turnReady (queued lanes k) false && ((queued lanes k).team? 2).any (fun tm => decide (tm.counter 255 < 2 ^ 32))
theorem hyp_MatrixTurnsWriteTheirRows_counter : counting 1 (.acovf 255) = true ∧ counting 0xFFFFFFFF (.acovf 255) = true ∧
    counting 0xFFFFFFFF (.acmov 0 1) = true := by decide +kernel
theorem hyp_MatrixTurnsMoveTheirData_epilogue : ∀ ws ∈ [[0x4000, 256, 0, 0x400], [0x4000, 256, 2 ^ 7, 0x8010]],
    turnReady (queued 0xFFFFFFFF (.acst 0 (ws.map (BitVec.ofNat 32)))) false = true ∧
      (let ws : List Word := ws.map (BitVec.ofNat 32)
       storeRowBytes ws ≤ wd ws 1 ∧ wd ws 3 ≠ 0 ∧
         (wd ws 3 % 2 ^ 21 + 8 ≤ wd ws 0 % 2 ^ 21 ∨ wd ws 0 % 2 ^ 21 + storeSpan ws ≤ wd ws 3 % 2 ^ 21)) := by decide +kernel
theorem hyp_MatrixTurnsMoveTheirData_damaged :
    turnReady (onTeam (fun t => { t with scratchDamage := [0x2000 / 8] }) (queued 1 (.bload 511 4 0 0x2000 0 0))) true = true ∧
    turnReady (onCore (fun c => { c with parity := [511] }) (queued 1 (.mma 0 aTile 511 0x3F80 []))) true = true := by decide +kernel

/-- Accesses of a script to a page that firmware may map, and to a line that the ingress atomic cache owns. -/
theorem hyp_ScriptMemoryWaitsAndTheirEnds_held : (let s := script [(1, 0x100000000)]
    ctxReady s && serves (s.meetCtx (s.ctx 0) 0x100000000 false) && serves (s.meetCtx (s.ctx 0) 0x100000000 true)) = true ∧
    (let s := script [(1, 0x40000000)]
     let mem := { s.mem with ingress := [{ line := 0x40000000 / 128, granted := 0, wct := 9, last := [] }] }
     let s := { s with mem := mem }
     (s.meetCtx (s.ctx 0) 0x40000000 false).place?.any fun p => decide (s.gtime < s.mem.ingressUntil p.pa 8)) = true := by decide +kernel
theorem hyp_CircuitInstructionResults_asks : (let s := script [(1, 0x1F0005), (2, 0x100000000)]
    s.barrierAsks (s.ctx 0) 0x100000000 && (s.port 31).state == .dark && ctxReady s) = true := by decide +kernel

/-- A lane held for firmware in the range of a TINVAL. -/
theorem hyp_NodeMemoryMessages_held : ((onAll (fun l => { l with service := some 0x100000000 }) base).group? 3).any (fun g =>
    g.lanes.any (·.service == some 0x100000000)) = true ∧ 0 ≤ 0x100000000 ∧ 0x100000000 < 0 + 2 ^ 48 := by decide +kernel

/-- What a CTGET meets: the version before, SPEC, a prediction, none of them; a version gone by. -/
def onCut (want : Nat) (slot : CutSlot → CutSlot) (sp : Option Spec) (p : State → EngOp → CutSlot → Bool) : Bool :=
  let s := cutOp 12 want slot sp
  (s.op? 0 1).any fun o => o.outcome.isNone && !o.paused && !o.waiting && mayBegin (s.core 0).ops o && !s.doomedOp o && o.cutWant == want &&
    (s.slot? o.grid o.cutSlot).any fun c => p s o c && (s.engScratch o 0x400 c.bytes).isSome
theorem hyp_CuttingTurns_cases :
    onCut 4 (fun c => { c with version := 5 }) none (fun _ _ c => decide (2 ≤ c.version) && (c.version - 1) % 2 ^ 16 == 4) = true ∧
    onCut 6 (fun c => { c with version := 5, specVer := 6, specLevel := 2, specBy := 9 }) (some { specAt 0 none with want := 6 })
      (fun s o c => decide (0 < c.specLevel) && c.specVer == 6 && decide (c.specLevel ≤ 2) &&
        (s.specOf o.group).any fun sp => sp.slot == o.cutSlot && sp.want == 6) = true ∧
    onCut 2 (fun c => { c with version := 1, mode := 0 }) (some { specAt 0 none with want := 2 })
      (fun _ _ c => c.specLevel == 0 && decide (1 ≤ c.version)) = true ∧
    onCut 3 (fun c => { c with version := 2, mode := 3 }) (some { specAt 0 none with want := 3 })
      (fun _ _ c => c.specLevel == 0 && decide (2 ≤ c.version)) = true ∧
    onCut 2 (fun c => { c with version := 1, mode := 3 }) (some { specAt 0 none with want := 2 })
      (fun _ _ c => c.specLevel == 0 && decide (c.version < 2)) = true ∧
    onCut 7 (fun c => { c with version := 5 }) none (fun _ _ c => decide ((BitVec.ofNat 16 c.version - BitVec.ofNat 16 7).toInt ≤ 0)) = true ∧
    onCut 3 (fun c => { c with version := 5 }) none (fun _ _ c => decide (0 < (BitVec.ofNat 16 c.version - BitVec.ofNat 16 3).toInt)) = true := by
  decide +kernel
theorem hyp_CuttingTurns_judged : (∀ x ∈ elemsOf 4 4096 [0, 0, 0x80, 0x3F], fF32.isNan x = false) ∧
    postReads (cutOp 11 0 (fun c => { c with foretold := true }) (some { specAt 0 none with predicted := true })) = true ∧
    (cutOp 11 0 (fun c => { c with foretold := true }) none).cuts.all (fun e => e.2.foretold && e.2.specLevel == 0) = true ∧
    (let s := cutOp 12 0 (fun c => { c with specLevel := 1, specBy := 3 }) (some (specAt 1 none))
     s.cuts.all (fun e => !e.2.foretold && e.2.specBy == 3 && decide (0 < e.2.specLevel)) = true ∧ s.cuts.length = 1) := by decide +kernel

/-- Ports that sleep with lanes lost, a circuit that was granted, and what a fault finds. -/
def asleepWith (st : PortState) (lost : BitVec 16) (all : Bool) : Bool :=
  let s := late fun p => { p with state := st, channel := { p.channel with working := 0xFFFF, lost := lost } }
  (s.fabric.ports[31]?).any fun p => p.state == st && p.channel.lost == lost && p.channel.retrain.isNone &&
    ((p.channel.working &&& ~~~p.channel.lost) == 0) == all
theorem hyp_PortsComeUpSleepAndWake_lanes : asleepWith .doze 0 false = true ∧ asleepWith .nap 1 false = true ∧
    asleepWith .doze 0xFFFF true = true ∧ asleepWith .nap 0xFFFF true = true := by decide +kernel
theorem hyp_PortFaultsAndReleases_copies :
    (let s := late fun p => { p with state := .live,
                                     channel := { p.channel with retry := [{ flit := [], whole := packetBytes 1 false 0 5 0 0 4 0 4 [], copy := true }] } }
     let s := { s with fabric := { s.fabric with remotes := [{ devRead 4 true with node := false, port := some 31 }] } }
     s.fabric.remotes.all (fun r => r.port == some 31) = true ∧ (s.port 31).channel.retry.any (fun k =>
       k.copy && (viewPacket k.whole).type != 5) = true) ∧
    ((late fun p => { p with state := .requested, granted := some 5 }).fabric.ports[31]?).any (fun p => p.state == .requested && p.granted.isSome) =
      true := by decide +kernel
def failing (st : PortState) (lanes : BitVec 16) : Bool :=
  let s := late fun p => { p with state := st, channel := { p.channel with working := 0xFFFF } }
  (s.port 31).state == st && (s.fabric.channel? 31).any fun ch => (ch.working &&& lanes) != 0 && ch.retrain.isNone
theorem hyp_LanesLinksAndReplays_lanes : failing .trained 1 = true ∧ failing .doze 0xFFFF = true ∧ failing .nap 1 = true := by
  decide +kernel
theorem hyp_LanesLinksAndReplays_bound : ∀ r ∈ [1000000 - 50000, 1000000 - 50001],
    (let s := channelOf 35 (fun ch => { ch with retrain := some r }) (late id)
     (s.fabric.channel? 35).any (fun ch => ch.retrain == some r) = true ∧ s.gtime = 1000000) := by decide +kernel
theorem hyp_LanesLinksAndReplays_stripe : (0x8001 : BitVec 16) ≠ 0 ∧ (1 : BitVec 16) ≠ 0 := by decide

/-- Flits that are no packet's: markers, idle flits and credit returns; and a link that retrains. -/
theorem hyp_FlitsAndPacketsOfPeers_markers : (live31 id base).fabric.hears 31 = true ∧
    (let s := channelOf 31 (fun ch => { ch with working := 0xFFFF }) base
     (s.fabric.channel? 31).any (fun ch => (ch.working &&& BitVec.ofNat 16 (fieldAt (viewFlit (goodFlit 4 0 (natLe 2 0x7FFF))).payload 0 2)) != 0) = true ∧
       (viewFlit (goodFlit 4 0 (natLe 2 0x7FFF))).kind = 4 ∧ (viewFlit (goodFlit 4 0 (natLe 2 0x7FFF))).good = true) ∧
    (∀ k ∈ [0, 3], (viewFlit (goodFlit k 0 [])).good = true ∧ (viewFlit (goodFlit k 0 [])).kind = k) ∧
    ((channelOf 31 (fun ch => { ch with retrain := some 0 }) base).fabric.channel? 31).any (fun ch => ch.retrain.isSome) = true ∧
    ((live31 id base).fabric.channel? 31).any (fun ch => ch.retrain.isNone && ch.waiting.isEmpty) = true := by decide +kernel
theorem hyp_FlitsAndPacketsOfPeers_waits :
    arrivesOk (arrives 0 false 0 0 8 0x40000000 [] id) (fun s v =>
      let mem := { s.mem with ingress := [{ line := 0x40000000 / 128, granted := 0, wct := 9, last := [] }] }
      v.dst == s.chipId && v.type == 0 && decide (s.gtime < mem.ingressUntil v.addr v.len)) = true ∧
    arrivesOk (arrives 0 false 0 9 8 0x40000000 [] fun f => { retraining f with routes := [(64 * 1 + 63, 35)] })
      (fun s v => v.dst != s.chipId && v.src == 1 && s.fabric.route v.dst 31 == 62 && s.fabric.route v.src 63 == 35 && s.fabric.carries 35 &&
        !s.fabric.sends 35) = true ∧
    arrivesOk (arrives 1 false 0 0 1 0x40000000 [1] fun f => { f with acks := [⟨9, ⟨1, 7, [], none⟩⟩] })
      (fun s v => v.dst == s.chipId && v.type == 1 && s.fabric.responses.isEmpty && s.fabric.acks.any fun a => a.response.chip == v.src && a.response.e2e == v.e2e) =
      true := by decide +kernel

/-! 19_fabric_notes.md, the run of R355 and R370: after ACK 42 and a free count of 29 the sender replays five flits, and holds
24 credits. R25: the base of a rotation is the least LPC above the last issue, the issuing lanes' own next address too. -/
theorem test_retrain_credits : (let flits := (List.range 8).map fun k =>
      ({ flit := flitBytes [] (40 + k) 0 1 0 0, whole := packetBytes 1 false 0 1 0 0 0 0 0 [], copy := false } : RetryFlit)
    let v := viewFlit (flitBytes [] 0 42 3 0 29)
    let ch := (({ Channel.reset with retry := flits, resync := (true, true) }).takeAck v.ack 9).takeCredit v
    ch.credit 0 = 24 ∧ ch.retry.map (fun r => fieldAt r.flit 56 2) = [43, 44, 45, 46, 47]) := by decide +kernel
theorem test_rotation_base : (let split (i : Nat) (l : Lane) : Lane := { l with lpc := if i % 2 = 0 then 0x400B0 else 0x400BC }
    let s := onGrp (fun g => { g with fairness := 256, fairtime := 256, lastAddr := 0x400AC, lanes := mapFrom split 0 g.lanes }) base
    groupAfter (execFairnessRotation 3 s) fun g => g.rotation == some { base := 0x400B0, left := 256 }) = true := by decide +kernel
/-! R65: a value that is refused comes before a pending register of the same block. R67: RESUME ends the segment, and its lanes
stay in the stub until the loads of it have come. -/
theorem test_tdset_value_before_pending : laneAfter (execTdset false 2 16 (onGrp (fun g => { g with upend := [17] }) (block [0, 64, 0x80000000, 0] [])))
    (fun l => l.state == .trap && l.tcause == 2) = true := by decide +kernel
theorem test_resume_waits_in_stub : groupAfter (execResume false stubState) (fun g => g.segEnd && !g.stubs.isEmpty &&
    g.lanes.all fun l => l.leaving && l.stood.isSome) = true := by decide +kernel

end Sys2Proof.Tests
end

section
/-!
PROOFS. What part reset leaves: the parts of `State.reset`, part by part, and the obligation assembled from them.
-/

namespace Sys2Proof.Machine

/-! ## What reset leaves unlisted reads as its default (R166, R213, R343, R350) -/

@[simp] theorem tget_nil {α : Type} (dflt : α) (k : Nat) : tget dflt [] k = dflt := rfl

@[simp] theorem cget_nil (k : Nat) : cget [] k = 0 := rfl

@[simp] theorem Ctx.reset_reg (r : BitVec 4) : Ctx.reset.reg r = 0 := ite_self _

@[simp] theorem State.reset_route (dest input : Nat) : State.reset.fabric.route dest input = 62 := rfl

/-! ## The cores (R2, R166, R214) -/

/-- The core in place `n` at part reset is the core reset of number `n`. -/
theorem State.reset_cores_getElem? {n : Nat} {c : Core} (h : State.reset.cores[n]? = some c) : c = Core.reset n := by
  obtain ⟨i, hi, rfl⟩ : ∃ i, (List.range 128)[n]? = some i ∧ Core.reset i = c := by
    simpa only [State.reset, List.getElem?_map, Option.map_eq_some_iff] using h
  rw [List.getElem?_eq_some_iff] at hi
  obtain ⟨_, rfl⟩ := hi
  simp

theorem Core.reset_banks_valid_and_zero (n : Nat) :
    ∀ b ∈ (Core.reset n).banks, b.state = .valid ∧ ∀ k, cget b.bytes k = 0 := by
  intro b hb
  cases List.eq_of_mem_replicate hb
  exact ⟨rfl, cget_nil⟩

/-! ## Ports, links and script contexts (R213, R337, R343, R347, R350) -/

theorem State.eq_reset_of_mem_reset_ports {p : Port} (h : p ∈ State.reset.fabric.ports) : p = Port.reset :=
  List.eq_of_mem_replicate h

theorem State.down_of_mem_reset_links : ∀ l ∈ State.reset.fabric.links, l.up = false := by
  intro l h
  cases List.eq_of_mem_replicate h
  rfl

theorem State.eq_reset_of_mem_reset_ctxs {c : Ctx} (h : c ∈ State.reset.ctxs) : c = Ctx.reset :=
  List.eq_of_mem_replicate h

end Sys2Proof.Machine

namespace Sys2Proof

open Machine

/-- Settles O59: the fields of `State.reset` by its definition, and what is said of every core, port, link and script
context by the one reset value each of them stands at. -/
theorem resetValues : Obligations.ResetValues := by
  refine ⟨State.reset_wf, rfl, rfl, rfl, rfl, rfl, rfl, rfl, rfl, rfl, rfl, ?cores, rfl, rfl, rfl, rfl, rfl, rfl, rfl, rfl,
    rfl, State.reset_route, ?core, ?port, State.down_of_mem_reset_links, ?ctx⟩
  case cores => simp [State.reset]
  case core =>
    intro n c h
    cases State.reset_cores_getElem? h
    exact ⟨rfl, rfl, rfl, rfl, Core.reset_banks_valid_and_zero n⟩
  case port =>
    intro p h
    cases State.eq_reset_of_mem_reset_ports h
    exact ⟨rfl, rfl, rfl, rfl, rfl, rfl, rfl, rfl⟩
  case ctx =>
    intro c h
    cases State.eq_reset_of_mem_reset_ctxs h
    exact ⟨rfl, Ctx.reset_reg, tget_nil 0, tget_nil 0⟩

end Sys2Proof
end

section
/-!
PROOFS. What the operations on the state leave of memory, of firmware's settings, of boot and of the clock: nothing of
them changes (`Held`), only what is cached of memory does (`Still`), the ingress atomic cache gives up lines too
(`Calm`), or updates are received (`Sends`).
-/

-- One proof after another: each that waits beside others holds a stack of its own.
set_option Elab.async false

namespace Sys2Proof.Machine

/-! ## Degrees of leaving memory alone -/

/-- Memory, firmware's settings, boot and the tick are as they were. -/
@[simp] abbrev State.Held (s t : State) : Prop :=
  t.mem = s.mem ∧ t.fw = s.fw ∧ t.boot = s.boot ∧ t.clock.tick = s.clock.tick

/-- Likewise, but for what the slices, the TLBs and the notes of damage hold. -/
@[simp] abbrev State.Still (s t : State) : Prop :=
  t.mem.cells = s.mem.cells ∧ t.mem.updates = s.mem.updates ∧ t.mem.ingress = s.mem.ingress ∧ t.fw = s.fw ∧
    t.boot = s.boot ∧ t.clock.tick = s.clock.tick

/-- The same of memory by itself. -/
@[simp] abbrev Memory.Still (m n : Memory) : Prop :=
  n.cells = m.cells ∧ n.updates = m.updates ∧ n.ingress = m.ingress

/-- Updates may be received and lines leave the ingress atomic cache; no byte changes and no update is taken back. -/
structure State.Sends (s t : State) : Prop where
  cells : t.mem.cells = s.mem.cells
  kept : ∀ u ∈ s.mem.updates, u ∈ t.mem.updates
  ingress : t.mem.ingress.length ≤ s.mem.ingress.length
  fw : t.fw = s.fw
  boot : t.boot = s.boot
  tick : t.clock.tick = s.clock.tick

/-- Lines may leave the ingress atomic cache; no byte changes and no update is received. -/
structure State.Calm (s t : State) : Prop extends State.Sends s t where
  updates : t.mem.updates = s.mem.updates

/-- A table entry may be written at once (R233); no update is received or taken back. -/
structure State.Maps (s t : State) : Prop where
  wf : s.mem.wf = true → t.mem.wf = true
  updates : t.mem.updates = s.mem.updates
  ingress : t.mem.ingress = s.mem.ingress
  fw : t.fw = s.fw
  boot : t.boot = s.boot
  tick : t.clock.tick = s.clock.tick

/-- A relation between a state and a later one that every operation keeps which leaves memory alone, and that steps
compose. -/
structure Frame (R : State → State → Prop) : Prop where
  held : ∀ {s t : State}, s.Held t → R s t
  trans : ∀ {s t u : State}, R s t → R t u → R s u

theorem Frame.refl {R : State → State → Prop} (hR : Frame R) (s : State) : R s s := hR.held (by simp)

/-- What every turn of a fold keeps, the fold keeps: a part of what it threads through, under a relation of which every
turn is a step. -/
theorem foldl_rel {σ α β : Type} (R : σ → σ → Prop) (refl : ∀ s, R s s) (trans : ∀ {s t u}, R s t → R t u → R s u)
    (p : β → σ) (f : β → α → β) (hf : ∀ b a, R (p b) (p (f b a))) (xs : List α) (b : β) :
    R (p b) (p (xs.foldl f b)) := by
  induction xs generalizing b with
  | nil => exact refl _
  | cons a xs ih => exact trans (hf b a) (ih _)

theorem Frame.foldl {R : State → State → Prop} (hR : Frame R) {α : Type} (f : State → α → State)
    (hf : ∀ s a, R s (f s a)) (xs : List α) (s : State) : R s (xs.foldl f s) :=
  foldl_rel R hR.refl hR.trans id f hf xs s

/-- The same where a count goes along with the state. -/
theorem Frame.foldl_snd {R : State → State → Prop} (hR : Frame R) {α γ : Type} (f : γ × State → α → γ × State)
    (hf : ∀ b a, R b.2 (f b a).2) (xs : List α) (b : γ × State) : R b.2 (xs.foldl f b).2 :=
  foldl_rel R hR.refl hR.trans Prod.snd f hf xs b

theorem Frame.foldl_fst {R : State → State → Prop} (hR : Frame R) {α γ : Type} (f : State × γ → α → State × γ)
    (hf : ∀ b a, R b.1 (f b a).1) (xs : List α) (b : State × γ) : R b.1 (xs.foldl f b).1 :=
  foldl_rel R hR.refl hR.trans Prod.fst f hf xs b

theorem State.Held.frame : Frame State.Held where
  held h := h
  trans h k := by simp_all

theorem State.Still.frame : Frame State.Still where
  held h := by simp_all
  trans h k := by simp_all

theorem State.Sends.frame : Frame State.Sends where
  held h := by obtain ⟨hm, hf, hb, ht⟩ := h; exact ⟨by rw [hm], by simp [hm], by rw [hm], hf, hb, ht⟩
  trans h k := ⟨k.cells.trans h.cells, fun u hu => k.kept u (h.kept u hu), k.ingress.trans h.ingress, k.fw.trans h.fw,
    k.boot.trans h.boot, k.tick.trans h.tick⟩

theorem State.Calm.frame : Frame State.Calm where
  held h := ⟨State.Sends.frame.held h, by rw [h.1]⟩
  trans h k := ⟨State.Sends.frame.trans h.toSends k.toSends, k.updates.trans h.updates⟩

theorem State.Maps.frame : Frame State.Maps where
  held h := by obtain ⟨hm, hf, hb, ht⟩ := h; exact ⟨by simp [hm], by rw [hm], by rw [hm], hf, hb, ht⟩
  trans h k := ⟨k.wf ∘ h.wf, k.updates.trans h.updates, k.ingress.trans h.ingress, k.fw.trans h.fw, k.boot.trans h.boot,
    k.tick.trans h.tick⟩

theorem State.Still.calm {s t : State} (h : s.Still t) : s.Calm t :=
  let ⟨hc, hu, hi, hf, hb, ht⟩ := h
  ⟨⟨hc, fun _ hm => hu ▸ hm, hi ▸ Nat.le_refl _, hf, hb, ht⟩, hu⟩

theorem State.Still.maps {s t : State} (h : s.Still t) : s.Maps t :=
  let ⟨hc, hu, hi, hf, hb, ht⟩ := h
  ⟨fun hw => by rwa [Memory.wf, hc], hu, hi, hf, hb, ht⟩

theorem State.Sends.wf {s t : State} (h : s.Sends t) (hw : s.mem.wf = true) : t.mem.wf = true := by
  rwa [Memory.wf, h.cells]

/-! ## The memory system (R273, R275, R276) -/

theorem Memory.Still.foldl {α : Type} (f : Memory → α → Memory) (hf : ∀ (m : Memory) a, m.Still (f m a)) (xs : List α)
    (m : Memory) : m.Still (xs.foldl f m) :=
  foldl_rel Memory.Still (fun _ => ⟨rfl, rfl, rfl⟩) (fun h k => by simp_all) id f hf xs m

theorem State.still_of_mem {s : State} {m : Memory} (h : s.mem.Still m) : s.Still { s with mem := m } :=
  ⟨h.1, h.2.1, h.2.2, rfl, rfl, rfl⟩

@[simp] theorem Memory.keepXlat_still (mem : Memory) (t : TlbEntry) : mem.Still (mem.keepXlat t) := by
  simp [Memory.keepXlat]

@[simp] theorem Memory.makeRoom_still (mem : Memory) (frames slice most : Nat) :
    mem.Still (mem.makeRoom frames slice most) := by
  induction most generalizing mem with
  | zero => simp [Memory.makeRoom]
  | succ most ih => simp only [Memory.makeRoom]; split <;> simp [ih, Memory.evict, Memory.writeBack]

@[simp] theorem Memory.holdLine_still (mem : Memory) (frames : Nat) (write : Bool) (line : Nat) :
    mem.Still (mem.holdLine frames write line) := by
  simp only [Memory.holdLine]
  (repeat' split) <;> simp

@[simp] theorem fillLine_still (now cls pa : Nat) (l1 : List L1Block) (mem : Memory) :
    mem.Still (fillLine now cls pa l1 mem).2 := by
  simp only [fillLine]
  (repeat' split) <;> simp

/-! ## The operations of the cores, in the order of the model -/

@[simp] theorem State.newUid_held (s : State) : s.Held s.newUid.2 := by simp [State.newUid]
@[simp] theorem State.newFresh_held (s : State) : s.Held s.newFresh.2 := by simp [State.newFresh]
@[simp] theorem State.addRecords_held (s : State) (grid : Nat) (rs : List FaultRec) :
    s.Held (s.addRecords grid rs) := by
  simp [State.addRecords]
@[simp] theorem State.runContext_held (s : State) (t : Team) : s.Held (s.runContext t) := by simp [State.runContext]
@[simp] theorem State.terminate_held (s : State) (grid : Nat) : s.Held (s.terminate grid) := by
  have h := State.Held.frame.foldl State.runContext State.runContext_held
  simp only [State.terminate]
  split <;> simp [h]
@[simp] theorem State.terminateWith_held (s : State) (grid : Nat) (rs : List FaultRec) :
    s.Held (s.terminateWith grid rs) := by
  unfold State.terminateWith
  split <;> simp
@[simp] theorem State.raise_held (s : State) (x : Site) (bad : BitVec 32) (fault : Nat → Lane → Option Cause) :
    s.Held (s.raise x bad fault) := by
  simp only [State.raise]
  (repeat' split) <;> simp
@[simp] theorem State.raiseLate_held (s : State) (group : Nat) (lanes : BitVec 32) (pc : Addr) (c : Cause) :
    s.Held (s.raiseLate group lanes pc c) := by
  simp only [State.raiseLate]
  (repeat' split) <;> simp
@[simp] theorem State.advance_held (s : State) (x : Site) (good : BitVec 32) : s.Held (s.advance x good) := by
  simp [State.advance]
@[simp] theorem State.retire_held (s : State) (uid : Nat) : s.Held (s.retire uid) := by
  simp only [State.retire]
  (repeat' split) <;> simp
@[simp] theorem State.cacheXlat_still (s : State) (core root va : Nat) : s.Still (s.cacheXlat core root va) := by
  unfold State.cacheXlat
  split
  · simp
  · cases s.mem.tlb.find? (·.covers (dieCache core) root va) with
    | some t => exact State.still_of_mem (Memory.keepXlat_still ..)
    | none =>
      cases s.walkFrom va walkLevels root with
      | leaf => exact State.still_of_mem (by simp)
      | _ => simp
@[simp] theorem State.arrival_held (s : State) : s.Held s.arrival.2 := by simp [State.arrival]
@[simp] theorem State.arrivals_held (s : State) : s.Held s.arrivals.2 := by simp [State.arrivals]

@[simp] theorem State.atHome_still (s : State) (cached write : Bool) (pa n : Nat) :
    s.Still (s.atHome cached write pa n) := by
  unfold State.atHome
  split
  · simp
  · have h := Memory.Still.foldl (fun mem k => mem.holdLine s.sliceFrames write (pa / 128 + k)) (fun _ _ => by simp)
    simp [h]
@[simp] theorem State.reachHome_still (s : State) (p : Place) (write : Bool) (n : Nat) :
    s.Still (s.reachHome p write n) := by
  simp [State.reachHome]
@[simp] theorem State.awaitAt_held (s : State) (from_ : Origin) (group : Nat) (lane : Option Nat)
    (regs : List Nat) (what : Awaited) (due : Nat) : s.Held (s.awaitAt from_ group lane regs what due) := by
  simp [State.awaitAt]
@[simp] theorem State.awaitFrom_held (s : State) (from_ : Origin) (after group : Nat) (lane : Option Nat)
    (regs : List Nat) (what : Awaited) : s.Held (s.awaitFrom from_ after group lane regs what) := by
  simp [State.awaitFrom]
@[simp] theorem State.awaitAccess_held (s : State) (from_ : Origin) (group : Nat) (lane : Option Nat)
    (regs : List Nat) (what : Awaited) : s.Held (s.awaitAccess from_ group lane regs what) := by
  simp [State.awaitAccess]
@[simp] theorem State.await_held (s : State) (group : Nat) (lane : Option Nat) (regs : List Nat) (what : Awaited) :
    s.Held (s.await group lane regs what) := by
  simp [State.await]
@[simp] theorem State.dropPends_held (s : State) (gone : Pend → Bool) : s.Held (s.dropPends gone) :=
  State.Held.frame.foldl _ (fun _ _ => by simp) _ _
@[simp] theorem State.failPend_held (s : State) (p : Pend) (c : Cause) : s.Held (s.failPend p c) := by
  simp [State.failPend]
theorem State.forLanes_held (s : State) (g : Group) (mask : BitVec 32) (f : Nat → Lane → State → State)
    (hf : ∀ i l (s : State), s.Held (f i l s)) : s.Held (s.forLanes g mask f) :=
  State.Held.frame.foldl _ (fun s i => by split <;> simp [hf]) _ _
@[simp] theorem State.awaitLanes_held (s : State) (g : Group) (mask : BitVec 32) (f : Nat → Lane → List RegWrite) :
    s.Held (s.awaitLanes g mask f) :=
  State.forLanes_held _ _ _ _ (fun _ _ _ => by simp)
@[simp] theorem State.post_held (s : State) (mtype addr tag status : Nat) (payload : List Byte) :
    s.Held (s.post mtype addr tag status payload) := by
  simp [State.post]
@[simp] theorem State.event_held (s : State) (kind addr : Nat) (payload : List Byte) :
    s.Held (s.event kind addr payload) := by
  simp [State.event]
@[simp] theorem State.transmit_held (s : State) (r : Remote) : s.Held (s.transmit r) := by
  simp only [State.transmit]
  (repeat' split) <;> simp
@[simp] theorem State.request_held (s : State) (r : Remote) : s.Held (s.request r).2 := by
  simp only [State.request]
  (repeat' split) <;> simp
@[simp] theorem State.noteNoRoom_held (s : State) (x : Site) (short : Bool) : s.Held (s.noteNoRoom x short) := by
  simp [State.noteNoRoom]
@[simp] theorem State.holdForService_held (s : State) (x : Site) (lanes : BitVec 32) (va : Nat) (marks : List Nat) :
    s.Held (s.holdForService x lanes va marks) := by
  simp [State.holdForService]
@[simp] theorem State.settleMeetings_still (s : State) (x : Site) (ms : List (Nat × Nat × Met)) :
    s.Still (s.settleMeetings x ms) :=
  State.Still.frame.foldl _ (fun s m => by rcases m with ⟨_, _, _ | _ | _⟩ <;> simp) _ _

@[simp] theorem State.startLoad_still (s : State) (x : Site) (lane : Option Nat) (lanes : BitVec 32)
    (first acc va after : Nat) (p : Place) : s.Still (s.startLoad x lane lanes first acc va after p) := by
  unfold State.startLoad
  split <;> simp
@[simp] theorem State.reachBank_held (s : State) (x : Site) (lane : Option Nat) (lanes : BitVec 32)
    (own : Bool) (address : Nat) (regs : List Nat)
    (what : Awaited) : s.Held (s.reachBank x lane lanes own address regs what) := by
  unfold State.reachBank
  split <;> simp
@[simp] theorem State.raiseLwcts_held (s : State) (group : Nat) (ts : List (Nat × Nat)) :
    s.Held (s.raiseLwcts group ts) := by simp [State.raiseLwcts]

@[simp] theorem State.modBank_held (s : State) (core k : Nat) (f : ActBank → ActBank) :
    s.Held (s.modBank core k f) := by
  simp [State.modBank]
@[simp] theorem State.askLines_held (s : State) (x : Site) (good : BitVec 32) (address : Nat)
    (ps : List (Nat × Place)) :
    s.Held (s.askLines x good address ps).1 := by
  induction ps generalizing s with
  | nil => simp [State.askLines]
  | cons p ps ih => simp [State.askLines, ih]

@[simp] theorem State.atomPeer_held (s : State) (x : Site) (op : Nat) (r : Bool) (d va : Nat) (p : Place)
    (lanes : List Nat) :
    s.Held (s.atomPeer x op r d va p lanes) :=
  State.Held.frame.trans (State.request_held s _) (State.Held.frame.foldl _ (fun s i => by split <;> simp) _ _)
@[simp] theorem State.atomBank_held (s : State) (team off op : Nat) (r : Bool) (vs : List (Nat × Word × Word)) :
    s.Held (s.atomBank team off op r vs).1 := by
  simp [State.atomBank]
@[simp] theorem State.atomScratch_held (s : State) (x : Site) (op : Nat) (r : Bool) (d : Nat) (own : Bool)
    (address team off : Nat) (lanes : List Nat) : s.Held (s.atomScratch x op r d own address team off lanes) :=
  State.Held.frame.trans (State.reachBank_held s ..) (State.Held.frame.foldl _ (fun s i => by split <;> simp) _ _)
@[simp] theorem State.becomes_held (s : State) (id : Nat) (ws : List RegWrite) : s.Held (s.becomes id ws) := by
  simp [State.becomes]
@[simp] theorem State.performBank_held (s : State) (p : Pend) : s.Held (s.performBank p) := by
  unfold State.performBank
  split
  · simp
  · simp
  · exact State.Held.frame.trans (by simp) (State.Held.frame.foldl _ (fun s ⟨i, _, _, _, _⟩ => by
      dsimp only
      split <;> simp) _ _)
  · simp
@[simp] theorem State.accept_held (s : State) (p : Pend) : s.Held (s.accept p) := by
  unfold State.accept
  split <;> simp
@[simp] theorem State.acceptEarlier_held (s : State) (group : Nat) (mask : BitVec 32) (team : Nat) :
    s.Held (s.acceptEarlier group mask team) :=
  State.Held.frame.foldl _ (fun _ _ => by split <;> simp) _ _
@[simp] theorem State.enterWait_held (s : State) (x : Site) (good : BitVec 32) (w : Lane → Wait) :
    s.Held (s.enterWait x good w) := by
  simp [State.enterWait]
@[simp] theorem State.onBarrier_held (s : State) (x : Site) (a : Nat) (f : Team → Nat → Team) :
    s.Held (s.onBarrier x a f) := by
  simp [State.onBarrier]
@[simp] theorem State.atTrug_held (s : State) (a : Nat) : s.Held (s.atTrug a) := by
  simp only [State.atTrug]
  (repeat' split) <;> simp
@[simp] theorem State.onTrug_held (s : State) (x : Site) (a : Nat) (f : Team → Nat → Nat → Team) :
    s.Held (s.onTrug x a f) := by
  unfold State.onTrug
  split <;> simp
@[simp] theorem State.stampTask_held (s : State) (t : Task) : s.Held (s.stampTask t).2 := by simp [State.stampTask]
@[simp] theorem State.enterPool_held (s : State) (room : Room) (t : Task) : s.Held (s.enterPool room t) := by
  simp only [State.enterPool]
  split <;> simp
@[simp] theorem State.keepTask_held (s : State) (t : Task) (companion : Bool) (group : Nat) :
    s.Held (s.keepTask t companion group) := by
  simp only [State.keepTask]
  (repeat' split) <;> simp
@[simp] theorem State.releaseCompanion_held (s : State) (r : Releaser) (va pa wct : Nat) :
    s.Held (s.releaseCompanion r va pa wct) := by
  simp only [State.releaseCompanion]
  (repeat' split) <;> simp

@[simp] theorem State.askHeld_held (s : State) (x : Site) (va : Nat) (got : List Byte) (p : Place) (a n : Nat) :
    s.Held (s.askHeld x va got p a n) := by
  simp [State.askHeld]
@[simp] theorem State.startOp_held (s : State) (x : Site) (d kind : Nat) (ws : List Word) (spans : List Span)
    (f : EngOp → EngOp) : s.Held (s.startOp x d kind ws spans f) := by
  unfold State.startOp
  split <;> simp

@[simp] theorem State.dropXlat_still (s : State) (low len : Nat) : s.Still (s.dropXlat low len) := by
  simp [State.dropXlat]

@[simp] theorem State.reportBreak_held (s : State) (g : Group) (tag : Nat) : s.Held (s.reportBreak g tag) := by
  simp [State.reportBreak]
@[simp] theorem State.modSlot_held (s : State) (n : Nat) (f : CutSlot → CutSlot) : s.Held (s.modSlot n f) := by
  simp [State.modSlot]

@[simp] theorem State.modSpec_held (s : State) (uid : Nat) (f : Spec → Option Spec) : s.Held (s.modSpec uid f) := by
  simp [State.modSpec]

@[simp] theorem State.roomAgain_held (s : State) : s.Held s.roomAgain := by simp [State.roomAgain]

@[simp] theorem State.queueMat_held (s : State) (x : Site) (good : BitVec 32) (kind : MatKind) (spans : List Span) :
    s.Held (s.queueMat x good kind spans) := by
  unfold State.queueMat
  split <;> simp

/-! ## Reading memory: lines leave the ingress atomic cache (R279, R359) -/

theorem Memory.reclaim_ingress_le (mem : Memory) (pa n : Nat) :
    (mem.reclaim pa n).ingress.length ≤ mem.ingress.length :=
  List.length_filter_le ..

theorem State.performLoad_calm (s : State) (core cls pa n : Nat) : s.Calm (s.performLoad core cls pa n).2 where
  cells := by simp [State.performLoad]
  kept := by simp [State.performLoad]
  ingress := by simpa [State.performLoad] using s.mem.reclaim_ingress_le pa n
  fw := by simp [State.performLoad]
  boot := by simp [State.performLoad]
  tick := by simp [State.performLoad]
  updates := by simp [State.performLoad]

theorem State.reclaim_calm (s : State) (pa n : Nat) : s.Calm { s with mem := s.mem.reclaim pa n } :=
  ⟨⟨rfl, fun _ h => h, s.mem.reclaim_ingress_le pa n, rfl, rfl, rfl⟩, rfl⟩

theorem State.fillBlock_calm (s : State) (core cls : Nat) (l1 : Bool) (pa : Nat) :
    s.Calm (s.fillBlock core cls l1 pa) :=
  State.Calm.frame.trans (s.reclaim_calm pa 512)
    (State.Calm.frame.foldl _ (fun s k => State.Still.calm (by simp)) _ _)

theorem State.prefetch_calm (s : State) (g : Group) (core : Nat) (l1 : Bool) (va : Nat) :
    s.Calm (s.prefetch g core l1 va) := by
  simp only [State.prefetch]
  split
  · split
    · split
      · exact State.Still.calm (by simp)
      · exact State.Calm.frame.trans (State.Still.calm (by simp)) (State.fillBlock_calm ..)
    · exact State.Calm.frame.refl s
  · exact State.Calm.frame.refl s

theorem State.loadNow_calm (s : State) (group pa acc d lease : Nat) : s.Calm (s.loadNow group pa acc d lease).2 :=
  State.performLoad_calm ..

theorem State.performEarlier_calm (s : State) (group : Nat) (who : Option Nat → Bool) (pa n : Nat) :
    s.Calm (s.performEarlier group who pa n).2 := by
  refine State.Calm.frame.foldl_snd _ (fun b p => ?_) _ (0, s)
  obtain ⟨top, s⟩ := b
  dsimp only
  split
  next _ _ pa' acc d lease after _ =>
    split
    · split
      · exact State.Still.calm (by simp)
      · exact State.Calm.frame.trans (s.loadNow_calm group pa' acc d _) (State.Calm.frame.held ⟨rfl, rfl, rfl, rfl⟩)
    · exact State.Calm.frame.refl s
  next => exact State.Calm.frame.refl s

theorem State.specStores_calm (s : State) (x : Site) (who : Nat → Option Nat → Bool)
    (ws : List (Nat × Nat × List Byte)) :
    s.Calm (s.specStores x who ws) :=
  State.Calm.frame.trans (State.Calm.frame.foldl _ (fun s _ => s.performEarlier_calm ..) ws s)
    (State.Calm.frame.held ⟨rfl, rfl, rfl, rfl⟩)

/-! ## Receiving updates (R280, R285, R286) -/

/-- What receiving updates leaves of memory by itself. -/
structure Memory.Sends (m n : Memory) : Prop where
  cells : n.cells = m.cells
  kept : ∀ u ∈ m.updates, u ∈ n.updates
  ingress : n.ingress.length ≤ m.ingress.length

theorem Memory.Sends.refl (m : Memory) : m.Sends m := ⟨rfl, fun _ h => h, Nat.le_refl _⟩
theorem Memory.Sends.trans {m n o : Memory} (h : m.Sends n) (k : n.Sends o) : m.Sends o :=
  ⟨k.cells.trans h.cells, fun u hu => k.kept u (h.kept u hu), k.ingress.trans h.ingress⟩

theorem State.Sends.receives {s t : State} {m : Memory} (h : s.Sends t) (k : t.mem.Sends m) :
    s.Sends { t with mem := m } :=
  State.Sends.frame.trans h ⟨k.cells, k.kept, k.ingress, rfl, rfl, rfl⟩

theorem State.Sends.held {s t u : State} (h : s.Sends t) (k : t.Held u) : s.Sends u :=
  State.Sends.frame.trans h (State.Sends.frame.held k)

theorem Memory.Still.sends {m n : Memory} (h : m.Still n) : m.Sends n :=
  ⟨h.1, fun _ hu => h.2.1 ▸ hu, h.2.2 ▸ Nat.le_refl _⟩

@[simp] theorem Memory.rewrites_ingress (mem : Memory) (t pa n : Nat) :
    (mem.rewrites t pa n).ingress = mem.ingress := by
  unfold Memory.rewrites; split <;> rfl

theorem Memory.rewrites_sends (mem : Memory) (t pa n : Nat) : mem.Sends (mem.rewrites t pa n) :=
  Memory.Still.sends (by simp)

theorem Memory.reclaim_sends (mem : Memory) (pa n : Nat) : mem.Sends (mem.reclaim pa n) :=
  ⟨rfl, fun _ h => h, mem.reclaim_ingress_le pa n⟩

theorem Memory.append_sends (mem : Memory) (us : List Update) : mem.Sends { mem with updates := mem.updates ++ us } :=
  ⟨rfl, fun _ h => List.mem_append_left _ h, Nat.le_refl _⟩

theorem Memory.receiveWords_sends (mem : Memory) (pa : Nat) (bs : List Byte) (w : Writer) (src : Nat) (atomic : Bool)
    (arr : Nat) : mem.Sends (mem.receiveWords pa bs w src atomic arr).1 :=
  (mem.reclaim_sends pa bs.length).trans
    (foldl_rel Memory.Sends Memory.Sends.refl Memory.Sends.trans Prod.fst _ (fun b _ => b.1.append_sends _) _
      (mem.reclaim pa bs.length, 0))

theorem Memory.receive_sends (mem : Memory) (pa : Nat) (bs : List Byte) (w : Writer) (src : Nat) (atomic : Bool)
    (arr : Nat) : mem.Sends (mem.receive pa bs w src atomic arr).1 :=
  (mem.receiveWords_sends pa bs w src atomic arr).trans (Memory.rewrites_sends ..)

theorem Memory.receiveLanes_sends (mem : Memory) (src : Nat) (w : Nat → Writer) (arr : Nat → Nat)
    (ws : List (Nat × Nat × List Byte)) : mem.Sends (mem.receiveLanes src w arr ws).1 :=
  (foldl_rel Memory.Sends Memory.Sends.refl Memory.Sends.trans id _
      (fun (m : Memory) (p : Nat × Nat × List Byte) => m.reclaim_sends p.2.1 p.2.2.length) ws mem).trans
    ((Memory.append_sends _ _).trans
      (foldl_rel Memory.Sends Memory.Sends.refl Memory.Sends.trans id _
        (fun (m : Memory) (p : Nat × Nat × Nat × Nat) => m.rewrites_sends p.2.2.1 p.1 p.2.1) _ _))

theorem Memory.receiveCount_sends (mem : Memory) (pa new : Nat) (w : Writer) (src arr : Nat) :
    mem.Sends (mem.receiveCount pa new w src arr).1 :=
  (mem.reclaim_sends pa 8).trans ((Memory.append_sends _ _).trans (Memory.rewrites_sends ..))

theorem State.storeLanes_sends (s : State) (x : Site) (who : Nat → Option Nat → Bool)
    (ws : List (Nat × Nat × List Byte)) :
    s.Sends (s.storeLanes x who ws) := by
  simp only [State.storeLanes]
  refine (State.Sends.receives (State.Sends.held (State.Calm.frame.foldl_snd _ ?_ ws (0, s)).toSends
    (State.arrivals_held _)) (Memory.receiveLanes_sends ..)).held (State.raiseLwcts_held ..)
  exact fun b w => b.2.performEarlier_calm ..

theorem State.atomUpdate_sends (s : State) (group top pa : Nat) (w : Word) (writer : Writer) :
    s.Sends (s.atomUpdate group top pa w writer).1 := by
  simp only [State.atomUpdate]
  exact ((State.Sends.frame.refl s).held s.arrival_held).receives (Memory.receive_sends ..)

theorem State.atomHome_sends (s : State) (x : Site) (op : Nat) (r : Bool) (pa : Nat) (vs : List (Nat × Word × Word)) :
    s.Sends (s.atomHome x op r pa vs).1 := by
  simp only [State.atomHome]
  split
  · refine ((State.Sends.frame.trans (State.Calm.frame.foldl_snd _ ?_ vs (0,
    s)).toSends (State.atomUpdate_sends ..))).held
      (State.raiseLwcts_held ..)
    exact fun b v => b.2.performEarlier_calm ..
  · refine State.Sends.frame.trans (State.Calm.frame.foldl_snd _ ?_ vs (0, s)).toSends
      (State.Sends.frame.foldl_fst _ ?_ vs (_, []))
    · exact fun b v => b.2.performEarlier_calm ..
    · exact fun b v => (State.atomUpdate_sends ..).held (State.raiseLwcts_held ..)

theorem State.addCount_sends (s : State) (r : Releaser) (va pa : Nat) (addend : Int) (writer : Writer) (arrival : Nat) :
    s.Sends (s.addCount r va pa addend writer arrival).1 := by
  simp only [State.addCount]
  have received (new : Nat) := ((State.Sends.frame.refl s).held s.newFresh_held).receives
    (Memory.receiveCount_sends s.newFresh.2.mem pa new writer r.group arrival)
  split <;> split
  · exact ((received _).held (State.event_held ..)).held (State.releaseCompanion_held ..)
  · exact (received _).held (State.releaseCompanion_held ..)
  · exact (received _).held (State.event_held ..)
  · exact received _

theorem State.slotWrite_sends (s : State) (c : CutSlot) (off : Nat) (bs : List Byte) (writer : Writer) :
    s.Sends (s.slotWrite c off bs writer).1 := by
  have put (s : State) (pa : Nat) (bs : List Byte) :
      s.Sends { s.arrival.2 with mem := (s.arrival.2.mem.receive pa bs writer 0 true s.arrival.1).1 } :=
    ((State.Sends.frame.refl s).held s.arrival_held).receives (Memory.receive_sends ..)
  simp only [State.slotWrite]
  split
  · exact State.Sends.frame.trans (put ..) (put ..)
  · exact put ..

theorem State.writeHeader_sends (s : State) (n : Nat) (writer : Writer) : s.Sends (s.writeHeader n writer).1 := by
  unfold State.writeHeader
  split
  · exact State.Sends.frame.refl s
  · exact State.slotWrite_sends ..

theorem State.withdraw_sends (s : State) (us : List Nat) (writer : Writer) : s.Sends (s.withdraw us writer) := by
  refine State.Sends.frame.foldl _ (fun s e => ?_) _ _
  obtain ⟨n, c⟩ := e
  dsimp only
  split
  · exact State.Sends.frame.trans (State.slotWrite_sends ..) (State.Sends.frame.trans
      (State.Sends.frame.held (State.modSlot_held ..)) (State.writeHeader_sends ..))
  · exact State.Sends.frame.refl s

theorem State.squash_sends (s : State) (all : List Nat) (n : Nat) (writer : Writer) : s.Sends (s.squash all n writer) :=
  ((State.Sends.frame.trans (State.Sends.frame.foldl _ (fun _ _ => State.Sends.frame.held (State.modSpec_held ..)) _ s)
    (State.withdraw_sends ..)).held (State.modSlot_held ..)).held (State.roomAgain_held _)

@[simp] theorem State.timeSquash_held (before s : State) : s.Held (before.timeSquash s) :=
  State.Held.frame.foldl _ (fun _ _ => by simp) _ _

end Sys2Proof.Machine
end

section
/-!
PROOFS. What an instruction of the cores may do to memory (R39, R41, R280, R281): the issue keeps what its effect keeps,
and each family of instructions is of one of the degrees above.
-/

-- One proof after another: each that waits beside others holds a stack of its own.
set_option Elab.async false

namespace Sys2Proof.Machine

/-! ## Issues, and the instructions of the cores -/

/-- The outcome goes on, to a state of which `p` holds. -/
def Answers (p : State → Prop) (r : Result) : Prop := ∃ t, r = .next t ∧ p t

theorem Answers.next {p : State → Prop} {t : State} (h : p t) : Answers p (.next t) := ⟨t, rfl, h⟩

theorem Answers.ite {p : State → Prop} {c : Prop} [Decidable c] {a b : Result} (ha : Answers p a) (hb : Answers p b) :
    Answers p (if c then a else b) := by
  split
  · exact ha
  · exact hb

theorem Answers.imp {p q : State → Prop} (h : ∀ t, p t → q t) {r : Result} (hr : Answers p r) : Answers q r :=
  let ⟨t, ht, hp⟩ := hr
  ⟨t, ht, h t hp⟩

/-- The books of an issue. -/
theorem Frame.booked {R : State → State → Prop} (hR : Frame R) {s t : State} (h : R s t) (uid n : Nat)
    (f : Group → Group) :
    R s { t.modGroup uid f with clock := { (t.modGroup uid f).clock with stamp := n } } :=
  hR.trans h (hR.held ⟨rfl, rfl, rfl, rfl⟩)

/-- What an operation's effect and what it does while it is held keep, its issue keeps. -/
theorem Frame.issue {R : State → State → Prop} (hR : Frame R) (o : Op) (s : State)
    (he : ∀ x good t, R t (o.effect x good t)) (hh : ∀ x good t, R t (o.onHold x good t)) :
    Answers (R s) (o.issue s) := by
  unfold Op.issue
  split
  · exact .next (hR.refl s)
  next x _ =>
    dsimp only
    split
    · exact .next (hR.trans (hR.held (by simp [State.modGroup])) (hh ..))
    · refine .next ?_
      simp only [Op.perform]
      refine hR.booked ?_ ..
      have raised : R s (if faultMask x (o.faultOf s.fw.spdistCap x) = 0 then s
          else s.raise x (faultMask x (o.faultOf s.fw.spdistCap x)) (o.faultOf s.fw.spdistCap x)) := by
        split
        · exact hR.refl s
        · exact hR.held (State.raise_held ..)
      split
      · exact raised
      · exact hR.trans raised (hR.trans (hR.held (State.advance_held ..)) (he ..))

/-- The same of an operation that does nothing while it is held. -/
theorem Frame.issue_plain {R : State → State → Prop} (hR : Frame R) (o : Op) (s : State)
    (he : ∀ x good t, R t (o.effect x good t)) (hh : o.onHold = fun _ _ s => s := by rfl) :
    Answers (R s) (o.issue s) :=
  hR.issue o s he fun x good t => by rw [hh]; exact hR.refl t

/-- An operation whose effect leaves memory alone, and that does nothing while it is held. -/
theorem Op.issue_held (o : Op) (s : State) (he : ∀ x good (t : State), t.Held (o.effect x good t))
    (hh : o.onHold = fun _ _ s => s := by rfl) : Answers s.Held (o.issue s) :=
  State.Held.frame.issue_plain o s he hh

theorem laneOp_held (m : Bool) (o : Operands) (tags : Site → Lane → Bool) (f : Site → Nat → Lane → Lane) (s : State) :
    Answers s.Held ((laneOp m o tags f).issue s) :=
  Op.issue_held _ s fun _ _ _ => by simp [laneOp, State.modGroup]

theorem groupOp_held (m : Bool) (us : List Nat) (f : Site → BitVec 32 → Group → Group) (s : State) :
    Answers s.Held ((groupOp m us f).issue s) :=
  Op.issue_held _ s fun _ _ _ => by simp [groupOp, State.modGroup]

theorem crossOp_held (m : Bool) (o : Operands) (tags : Site → Lane → Bool)
    (f : Site → BitVec 32 → Nat → Lane → Lane) (s : State) : Answers s.Held ((crossOp m o tags f).issue s) :=
  Op.issue_held _ s fun _ _ _ => by simp [crossOp, State.modGroup]

theorem ualuBinary_held (m vc : Bool) (d a b : BitVec 7) (ok : BitVec 5 → Bool) (tag : BitVec 5)
    (f : Word → Word → Word) (s : State) : Answers s.Held ((ualuBinary m vc d a b ok tag f).issue s) := by
  cases vc
  · exact groupOp_held ..
  · exact laneOp_held ..

/-- An instruction whose results are on their way, with its flags at issue. -/
theorem sfuOp_held (m : Bool) (d a : BitVec 7) (ok : BitVec 5 → Bool) (f : Site → VReg → Word × FpFlags) (s : State) :
    Answers s.Held ((sfuOp m d a ok f).issue s) :=
  Op.issue_held _ s fun _ _ _ => by simp [sfuOp, State.modGroup]

theorem reduceOp_held (m : Bool) (d a : BitVec 7) (tags : Site → Lane → Bool)
    (f : Site → BitVec 32 → List (Option Word) × BitVec 5 × FpFlags) (s : State) :
    Answers s.Held ((reduceOp m d a tags f).issue s) :=
  Op.issue_held _ s fun _ _ _ => by simp [reduceOp, State.modGroup]

theorem reduceArith_held (m : Bool) (d a : BitVec 7) (op : RedOp) (s : State) :
    Answers s.Held ((reduceArith m d a op).issue s) := by
  simp only [reduceArith]
  exact reduceOp_held ..

theorem reduceBits_held (m : Bool) (d a : BitVec 7) (f : Word → Word → Word) (s : State) :
    Answers s.Held ((reduceBits m d a f).issue s) := by
  simp only [reduceBits]
  exact reduceOp_held ..

theorem scanArith_held (m : Bool) (d a : BitVec 7) (op : RedOp) (s : State) :
    Answers s.Held ((scanArith m d a op).issue s) := by
  simp only [scanArith]
  exact reduceOp_held ..

/-- A group enters WAIT under a new uid. -/
theorem enterWait_newUid_held (x : Site) (good : BitVec 32) (w : Nat → Lane → Wait) (s : State) :
    s.Held (s.newUid.2.enterWait x good (w s.newUid.1)) := by simp

theorem issueHeld_of (o : Op) (s : State) (h : Answers s.Held (o.issue s)) : Answers s.Held (o.issueHeld s) := by
  obtain ⟨t, ht, hk⟩ := h
  simp only [Op.issueHeld, ht]
  exact .next (State.Held.frame.trans hk (by simp [State.modGroup]))

theorem descOp_held (m : Bool) (s : State) (d a kind : Nat) (bad : Site → List Word → Rules)
    (addr : Site → Team → List Word → Option Nat) (bad2 : Site → Team → List Word → Bool)
    (list : List Word → Nat × Nat) (spans : Site → Team → List Word → List Byte → List Span) :
    Answers s.Held ((descOp m s d a kind bad addr bad2 list spans).issueHeld s) := by
  refine issueHeld_of _ s (State.Held.frame.issue _ s (fun _ _ _ => ?_) fun _ _ _ => ?_)
  · simp [descOp]
  · simp only [descOp]
    split <;> simp

theorem coll_held (m : Bool) (d a : BitVec 7) (s : State) : Answers s.Held (execColl m d a s) := by
  refine issueHeld_of _ s (State.Held.frame.issue _ s (fun _ _ _ => ?_) fun _ _ _ => ?_) <;>
    (dsimp only; split) <;> simp [State.modGrid]

theorem cutOp_held (m : Bool) (s : State) (kind d a b : Nat) (reserved : Nat → Bool) (write : Bool) :
    Answers s.Held ((cutOp m s kind d a b reserved write).issue s) :=
  Op.issue_held _ s fun _ _ _ => by simp [cutOp]

theorem rangeOp_held (m : Bool) (s : State) (kind d a b : Nat) : Answers s.Held ((rangeOp m s kind d a b).issue s) :=
  Op.issue_held _ s fun _ _ _ => by simp [rangeOp]

theorem matOp_held (m : Bool) (s : State) (us cs : List Nat) (illegal : Site → Rules)
    (fault : Site → Team → Option Cause) (spans : Site → List Span) (hold : Site → Team → Bool)
    (effect : Site → BitVec 32 → Team → State → State) (he : ∀ x good t (u : State), u.Held (effect x good t u)) :
    Answers s.Held ((matOp m s us cs illegal fault spans hold effect).issue s) :=
  Op.issue_held _ s fun _ _ _ => by
    simp only [matOp]
    split
    · simp
    · exact he ..

theorem accOp_held (m : Bool) (s : State) (cs : List Nat) (kind : Team → MatKind) :
    Answers s.Held ((accOp m s cs kind).issue s) :=
  matOp_held _ _ _ _ _ _ _ _ _ fun _ _ _ _ => by simp

theorem svcOp_issue {R : State → State → Prop} (hR : Frame R) (m : Bool) (s : State) (f : Site → State → Word × State)
    (hf : ∀ x t, R t (f x t).2) : Answers (R s) ((svcOp m s f).issue s) := by
  refine hR.issue _ s (fun x _ t => hR.trans (hf x t) (hR.held ⟨rfl, rfl, rfl, rfl⟩)) fun _ _ t => hR.held ?_
  simp only [svcOp]
  split <;> simp [State.modGroup]

theorem bload_held (m : Bool) (a b : BitVec 7) (s : State) : Answers s.Held (execBload m a b s) :=
  .ite (matOp_held _ _ _ _ _ _ _ _ _ fun _ _ _ _ => by simp)
    (matOp_held _ _ _ _ _ _ _ _ _ fun _ _ _ _ => by simp [State.modCore])

theorem mma_held (m : Bool) (d a b : BitVec 7) (s : State) : Answers s.Held (execMma m d a b s) :=
  matOp_held _ _ _ _ _ _ _ _ _ fun _ _ _ _ => by
    dsimp only
    split <;> simp [State.modCore, State.modGroup]

theorem task_held (m : Bool) (d a : BitVec 7) (s : State) : Answers s.Held (execTask m d a s) := by
  refine State.Held.frame.issue _ s (fun _ _ _ => ?_) fun _ _ _ => ?_
  · dsimp only
    (repeat' split) <;> simp [State.modGroup]
  · dsimp only
    split <;> simp [State.modGroup, State.modGrid]

theorem sread_held (m : Bool) (d cls b : BitVec 7) (s : State) : Answers s.Held (execSread m d cls b s) :=
  .ite (laneOp_held ..) (groupOp_held ..)

theorem swrite_held (m : Bool) (cls a b : BitVec 7) (s : State) : Answers s.Held (execSwrite m cls a b s) :=
  .ite (Op.issue_held _ s fun _ _ _ => by simp [State.modGroup])
    (Op.issue_held _ s fun _ _ _ => by simp [State.modGroup])

theorem bkpt_held (m : Bool) (k : BitVec 7) (s : State) : Answers s.Held (execBkpt m k s) :=
  Op.issue_held _ s fun _ _ _ => by
    dsimp only
    split <;> simp [State.modGroup]

theorem atload_held (m : Bool) (a k : BitVec 7) (s : State) : Answers s.Held (execAtload m a k s) :=
  Op.issue_held _ s fun _ _ _ => by simp

/-- A scratchpad access goes to its bank. -/
theorem ldp_held (m : Bool) (acc : BitVec 5) (d a b : BitVec 7) (s : State) : Answers s.Held (execLdp m acc d a b s) :=
  Op.issue_held _ s fun _ _ _ => by
    refine State.forLanes_held _ _ _ _ fun _ _ _ => ?_
    (repeat' split) <;> simp

theorem stp_held (m : Bool) (acc : BitVec 5) (d a b : BitVec 7) (s : State) : Answers s.Held (execStp m acc d a b s) :=
  Op.issue_held _ s fun _ _ _ => by
    refine State.forLanes_held _ _ _ _ fun _ _ _ => ?_
    (repeat' split) <;> simp

theorem atomp_held (m r : Bool) (op : BitVec 4) (d a b : BitVec 7) (s : State) :
    Answers s.Held (execAtomp m r op d a b s) :=
  Op.issue_held _ s fun _ _ _ => by
    dsimp only
    split
    · simp
    · refine State.Held.frame.foldl _ (fun _ _ => ?_) _ _
      split <;> simp

/-- An instruction on a trug first takes in what has reached it. -/
theorem Answers.atTrug {s : State} {a : Nat} {r : Result} (h : Answers (s.atTrug a).Held r) : Answers s.Held r :=
  h.imp fun _ hk => State.Held.frame.trans (s.atTrug_held a) hk

theorem tginit_held (m : Bool) (a : BitVec 7) (s : State) : Answers s.Held (execTginit m a s) :=
  .atTrug (Op.issue_held _ _ fun _ _ _ => by simp)

theorem tgacq_held (m : Bool) (d a : BitVec 7) (s : State) : Answers s.Held (execTgacq m d a s) :=
  .atTrug (Op.issue_held _ _ fun _ _ _ => by simp)

theorem tgwait_held (m : Bool) (d a : BitVec 7) (s : State) : Answers s.Held (execTgwait m d a s) :=
  .atTrug (Op.issue_held _ _ fun _ _ _ => by simp)

theorem tgrel_held (m : Bool) (a : BitVec 7) (s : State) : Answers s.Held (execTgrel m a s) :=
  .atTrug (Op.issue_held _ _ fun _ _ _ => by simp)

theorem tgcmt_held (m : Bool) (d a b : BitVec 7) (s : State) : Answers s.Held (execTgcmt m d a b s) := by
  simp only [execTgcmt]
  refine (Op.issue_held _ _ fun _ _ _ => by simp).imp fun _ hk => State.Held.frame.trans ?_ hk
  split
  · exact s.atTrug_held _
  · exact State.Held.frame.refl s

theorem ldg_still (m : Bool) (acc : BitVec 5) (d a b : BitVec 7) (s : State) :
    Answers s.Still (execLdg m acc d a b s) :=
  State.Still.frame.issue_plain _ s fun _ _ _ => by
    refine State.Still.frame.trans (State.settleMeetings_still ..) (State.Still.frame.foldl _ (fun _ _ => ?_) _ _)
    dsimp only
    split <;> simp

theorem ldu_still (m : Bool) (acc : BitVec 5) (d a b : BitVec 7) (s : State) :
    Answers s.Still (execLdu m acc d a b s) :=
  State.Still.frame.issue_plain _ s fun _ _ _ => by
    dsimp only
    split
    · exact State.Still.frame.trans (State.cacheXlat_still ..) (State.startLoad_still ..)
    · simp
    · simp

theorem pfetch_calm (m : Bool) (lvl a b : BitVec 7) (s : State) : Answers s.Calm (execPfetch m lvl a b s) :=
  State.Calm.frame.issue_plain _ s fun _ _ _ => by
    dsimp only
    split
    · exact State.Calm.frame.refl _
    · refine State.Calm.frame.foldl _ (fun t _ => ?_) _ _
      split
      · exact State.Calm.frame.refl _
      · exact t.prefetch_calm ..

/-! ## The instructions that send updates (R199, R202, R225, R227) -/

theorem State.modGroup_held (s : State) (uid : Nat) (f : Group → Group) : s.Held (s.modGroup uid f) :=
  ⟨rfl, rfl, rfl, rfl⟩

theorem State.setCuts_held (s : State) (cuts : List (Nat × CutSlot)) : s.Held { s with cuts := cuts } :=
  ⟨rfl, rfl, rfl, rfl⟩

theorem stg_sends (m : Bool) (acc : BitVec 5) (d a b : BitVec 7) (s : State) :
    Answers s.Sends (execStg m acc d a b s) := by
  refine State.Sends.frame.issue _ s (fun _ _ t => ?_) fun _ _ _ => State.Sends.frame.held (State.noteNoRoom_held ..)
  dsimp only
  refine State.Sends.frame.trans ?_
    (State.Sends.frame.foldl _ (fun _ _ => State.Sends.frame.held (State.request_held ..)) _ _)
  split
  · exact (State.Calm.frame.trans (State.settleMeetings_still ..).calm (State.specStores_calm ..)).toSends
  · refine State.Sends.frame.trans (State.settleMeetings_still ..).calm.toSends (State.Sends.frame.trans
      (State.Sends.frame.foldl _ (fun _ _ => ?_) _ _) (State.storeLanes_sends ..))
    exact (State.reachHome_still ..).calm.toSends

theorem stu_sends (m : Bool) (acc : BitVec 5) (d a b : BitVec 7) (s : State) :
    Answers s.Sends (execStu m acc d a b s) := by
  refine State.Sends.frame.issue _ s (fun x _ t => ?_) fun _ _ _ => State.Sends.frame.held (State.noteNoRoom_held ..)
  dsimp only
  split
  · exact State.Sends.frame.refl t
  · exact State.Sends.frame.held (State.holdForService_held ..)
  · refine State.Sends.frame.trans (State.cacheXlat_still t (s.coreOf x.g.team) (s.rootOf x.g.grid)
      (uniformAddr x.g a.toNat b.toNat)).calm.toSends ?_
    split
    · exact State.Sends.frame.held (State.request_held ..)
    · split
      · exact (State.specStores_calm ..).toSends
      · exact State.Sends.frame.trans (State.Sends.receives (State.Sends.held (State.Calm.frame.trans
          (State.reachHome_still ..).calm (State.performEarlier_calm ..)).toSends (State.arrival_held _))
          (Memory.receive_sends ..)) (State.Sends.frame.held (State.modGroup_held ..))

theorem atom_sends (m r : Bool) (op : BitVec 4) (d a b : BitVec 7) (s : State) :
    Answers s.Sends (execAtom m r op d a b s) := by
  refine State.Sends.frame.issue_plain _ s fun _ _ t => ?_
  refine State.Sends.frame.trans (State.settleMeetings_still ..).calm.toSends
    (State.Sends.frame.foldl _ (fun u _ => ?_) _ _)
  dsimp only
  split
  · exact State.Sends.frame.refl u
  · split
    · refine State.Sends.frame.trans (State.Sends.frame.trans (State.reachHome_still ..).calm.toSends
        (State.atomHome_sends ..)) (State.Sends.frame.foldl _ (fun v _ => ?_) _ _)
      split
      · exact State.Sends.frame.refl v
      · exact State.Sends.frame.held (State.awaitAccess_held ..)
    · exact State.Sends.frame.held (State.atomPeer_held ..)

theorem tsucc_sends (m : Bool) (d a b : BitVec 7) (s : State) : Answers s.Sends (execTsucc m d a b s) := by
  refine State.Sends.frame.issue_plain _ s fun _ _ t => ?_
  dsimp only
  split
  · exact State.Sends.frame.refl t
  · exact State.Sends.frame.held (State.holdForService_held ..)
  · exact State.Sends.held (State.Sends.frame.trans (State.Sends.frame.trans (State.Sends.held (State.Calm.frame.trans
      (State.Still.frame.trans (State.cacheXlat_still ..) (State.reachHome_still ..)).calm
      (State.performEarlier_calm ..)).toSends (State.arrival_held _)) (State.addCount_sends ..))
      (State.Sends.frame.held (State.modGroup_held ..))) (State.awaitFrom_held ..)

theorem declareOp_sends (m : Bool) (d a : BitVec 7) (s : State) : Answers s.Sends ((declareOp m d a s).issue s) := by
  refine State.Sends.frame.issue_plain _ s fun _ _ t => ?_
  simp only [declareOp]
  split
  · exact State.Sends.frame.refl t
  · exact State.Sends.frame.held (State.holdForService_held ..)
  · split
    · exact State.Sends.frame.held (State.modGroup_held ..)
    · exact State.Sends.held (State.Sends.frame.trans (State.cacheXlat_still ..).calm.toSends
        (State.slotWrite_sends ..)) (State.Held.frame.trans (State.setCuts_held ..) (State.modGroup_held ..))

theorem undeclareOp_sends (m : Bool) (d a : BitVec 7) (s : State) :
    Answers s.Sends ((undeclareOp m d a s).issue s) := by
  refine State.Sends.frame.issue_plain _ s fun _ _ t => ?_
  simp only [undeclareOp]
  split
  · exact State.Sends.frame.held (State.modGroup_held ..)
  · exact State.Sends.held (State.Sends.held (State.squash_sends ..) (State.timeSquash_held ..))
      (State.Held.frame.trans (State.setCuts_held ..) (State.modGroup_held ..))

/-! ## Firmware's own writes of a table entry (R233) -/

theorem State.writeEntry_maps (s : State) (entryAt e : Nat) : s.Maps (s.writeEntry entryAt e) :=
  ⟨s.writeEntry_wf entryAt e, rfl, rfl, rfl, rfl, rfl⟩

theorem State.Maps.mapped {s t : State} (h : s.Held t) (entryAt e low len : Nat) :
    s.Maps ((t.writeEntry entryAt e).dropXlat low len) :=
  State.Maps.frame.trans (State.Maps.frame.held h)
    (State.Maps.frame.trans (State.writeEntry_maps ..) (State.dropXlat_still ..).maps)

theorem State.backPage_maps {s t : State} {core grid va : Nat} (h : s.backPage core grid va = some t) : s.Maps t := by
  simp only [State.backPage] at h
  split at h
  · split at h
    · exact Option.some.inj h ▸ State.Maps.frame.refl s
    · exact nomatch h
  · obtain ⟨⟨entryAt, size⟩, _, rfl⟩ := Option.map_eq_some_iff.mp h
    exact State.Maps.mapped s.newFresh_held ..

/-- The pages of a stack backed one after another, each in the state that the one before left. -/
theorem backPages_maps (core : State → Nat) (grid : Nat) (vas : List Nat) (s t : State)
    (h : vas.foldl (fun (o : Option State) va => o.bind fun s => s.backPage (core s) grid va) (some s) = some t) :
    s.Maps t := by
  induction vas generalizing s with
  | nil => exact Option.some.inj h ▸ State.Maps.frame.refl s
  | cons va vas ih =>
    rw [List.foldl_cons, Option.bind_some] at h
    cases hb : s.backPage (core s) grid va with
    | none =>
      have hn : vas.foldl (fun (o : Option State) va => o.bind fun s => s.backPage (core s) grid va) none = none := by
        clear h ih hb
        induction vas with
        | nil => rfl
        | cons _ _ ih => exact ih
      rw [hb, hn] at h
      exact nomatch h
    | some u => exact State.Maps.frame.trans (State.backPage_maps hb) (ih u (hb ▸ h))

theorem svcStack_maps (m : Bool) (s : State) : Answers s.Maps (execSvcStack m s) := by
  refine svcOp_issue State.Maps.frame m s _ fun x t => ?_
  have fresh : t.Maps t.newFresh.2 := State.Maps.frame.held t.newFresh_held
  dsimp only
  split
  · exact fresh
  · split
    · exact fresh
    · split
      · exact fresh
      next hb =>
        exact State.Maps.frame.trans (State.Maps.frame.trans fresh (backPages_maps (·.coreOf x.g.team) _ _ _ _ hb))
          (State.Maps.frame.held ⟨rfl, rfl, rfl, rfl⟩)

theorem svcMap_maps (m : Bool) (s : State) : Answers s.Maps (execSvcMap m s) := by
  refine svcOp_issue State.Maps.frame m s _ fun x t => ?_
  have fresh : t.Maps t.newFresh.2 := State.Maps.frame.held t.newFresh_held
  dsimp only
  split
  · exact fresh
  · split
    · exact State.Maps.mapped t.newFresh_held ..
    · split
      · split
        · exact fresh
        · exact fresh
      · exact fresh

/-! ## Every instruction of the cores -/

theorem State.Held.calm {s t : State} (h : s.Held t) : s.Calm t := State.Calm.frame.held h

/-- The instructions that write only registers, predicates, flags and the places of their lanes. -/
theorem exec_held_of_dest (i : Instr) (s : State) (hd : i.dest.isSome = true) : Answers s.Held (exec i s) := by
  cases i
  case iadd | isub | imul | imulh | imulhu | imad | imin | imax | iminu | imaxu | iabs | ineg | and | or | xor | andn |
      shl | shr | sar | rotl | popc | clz | brev | bfx | bfxs | bfi | iadds | isubs | mov | retag | iaddi | andi | ori |
      xori | shli | shri | sari | imuli | movl | movh | icmp | aadd | aaddx | asub | alea | acmpeq | acmpltu | afroms |
      fadd | fsub | fmul | ffma | ffms | fnma | fmin | fmax | fminnum | fmaxnum | fabs | fneg | fcopysign | frnd |
      fclass | fdot2 | fdot4 | fdiv | fscale | fgetexp | fgetman | fcmp | pand | por | pxor | pnot | pmov | pandn |
      pfroms | sel | bra | brx | jqry =>
    exact laneOp_held ..
  case ualuIadd | ualuIsub | ualuImul | ualuImin | ualuImax | ualuIminu | ualuImaxu | ualuAnd | ualuOr | ualuXor |
      ualuAndn | ualuShl | ualuShr | ualuSar =>
    exact ualuBinary_held ..
  case ualuMov m vc d b =>
    cases vc
    · exact groupOp_held ..
    · exact laneOp_held ..
  case ualuiIaddi | ualuiAndi | ualuiOri | ualuiXori | ualuiShli | ualuiShri | ualuiSari | ualuiImuli | movlUniform |
      movhUniform | ballot | ptos | jenr | jstk | jclr =>
    exact groupOp_held ..
  case shfli | shflu | shfld | shflx | voteall | voteany | matchLanes | bcast | splat => exact crossOp_held ..
  case frcp | frsq | fsqrt => exact sfuOp_held ..
  case redadd | redmin | redmax => exact reduceArith_held ..
  case redand | redor | redxor => exact reduceBits_held ..
  case scanadd | scanmax => exact scanArith_held ..
  case sread => exact sread_held ..
  case cvt | flut | atstat | call | ret | wbase | wadj | jarv | yield | safept | nop | resume =>
    exact Op.issue_held _ s fun _ _ _ => by simp [State.modGroup, sfuOp, laneOp, uniformLater]
  all_goals exact absurd hd Bool.false_ne_true

/-- The instructions that act on memory, on banks and tables, or hand work to the engines. -/
def ordersMemory : Instr → Bool
  | .ldg .. | .ldp .. | .stp .. | .ldu .. | .atomp .. | .atload .. | .pfetch .. | .cpy .. | .gath .. | .scat .. |
    .bankop .. | .bankred .. | .coll .. | .cflush .. | .cinv .. | .task .. | .ctpost .. | .ctget .. | .bload .. |
    .bloadFree .. | .mma .. | .tdset .. | .scpush .. | .bstatSlot .. | .bstatQueue .. | .bstatError .. |
    .bstatDrain .. | .acld .. | .acst .. | .acmul .. | .acovf .. | .aczero .. | .acadd .. | .acmov .. => true
  | _ => false

theorem exec_calm_of_orders (i : Instr) (s : State) (h : ordersMemory i = true) : Answers s.Calm (exec i s) := by
  cases i
  case ldp => exact (ldp_held ..).imp fun _ => State.Held.calm
  case stp => exact (stp_held ..).imp fun _ => State.Held.calm
  case atomp => exact (atomp_held ..).imp fun _ => State.Held.calm
  case atload m a k => exact (atload_held m a k s).imp fun _ => State.Held.calm
  case ldg => exact (ldg_still ..).imp fun _ => State.Still.calm
  case ldu => exact (ldu_still ..).imp fun _ => State.Still.calm
  case pfetch => exact pfetch_calm ..
  case cpy | gath | scat | bankop | bankred => exact (descOp_held ..).imp fun _ => State.Held.calm
  case coll => exact (coll_held ..).imp fun _ => State.Held.calm
  case cflush | cinv => exact (rangeOp_held ..).imp fun _ => State.Held.calm
  case task => exact (task_held ..).imp fun _ => State.Held.calm
  case ctpost | ctget => exact (cutOp_held ..).imp fun _ => State.Held.calm
  case bload | bloadFree => exact (bload_held ..).imp fun _ => State.Held.calm
  case mma => exact (mma_held ..).imp fun _ => State.Held.calm
  case tdset | scpush | bstatSlot | bstatQueue | bstatError | bstatDrain | acld | acst | acmul | acovf =>
    exact (matOp_held _ _ _ _ _ _ _ _ _ fun _ _ _ _ => by simp [State.modGroup, State.modCore, State.modTeam]).imp
      fun _ => State.Held.calm
  case aczero | acadd | acmov => exact (accOp_held ..).imp fun _ => State.Held.calm
  all_goals exact absurd h Bool.false_ne_true

/-- The other instructions of the cores that leave memory alone: waits, traps, services and the like. -/
def ordersNothing (i : Instr) : Bool :=
  i.isCore && !i.sendsUpdate && !i.mapsPage && !i.dest.isSome && !ordersMemory i

theorem exec_held_of_ordersNothing (i : Instr) (s : State) (h : ordersNothing i = true) :
    Answers s.Held (exec i s) := by
  cases i
  case atbind | tstat => exact groupOp_held ..
  case acbase | trap | tret | tskip | evwait | bcwait | twait | engst | ctstat | illegalInstruction | evsig | exit |
      tkill | fence | bar | cbar | bcinit | bcexp =>
    exact Op.issue_held _ s fun _ _ _ => by simp [State.modGroup, State.modTeam]
  case tginit => exact tginit_held ..
  case tgacq => exact tgacq_held ..
  case tgcmt => exact tgcmt_held ..
  case tgwait => exact tgwait_held ..
  case tgrel => exact tgrel_held ..
  case swrite => exact swrite_held ..
  case sread => exact sread_held ..
  case svcNull | svcLog | svcUnprovided =>
    exact svcOp_issue State.Held.frame _ _ _ fun _ _ => by simp
  case bkpt => exact bkpt_held ..
  all_goals exact absurd h Bool.false_ne_true

/-- An instruction of the cores that neither sends an update nor maps a page: memory's bytes and its updates are as they
were. -/
theorem exec_calm (i : Instr) (s : State) (hi : i.isCore = true) (hs : i.sendsUpdate = false)
    (hm : i.mapsPage = false) : Answers s.Calm (exec i s) := by
  cases hd : i.dest.isSome with
  | true => exact (exec_held_of_dest i s hd).imp fun _ => State.Held.calm
  | false =>
    cases ho : ordersMemory i with
    | true => exact exec_calm_of_orders i s ho
    | false =>
      exact (exec_held_of_ordersNothing i s (by simp [ordersNothing, hi, hs, hm, hd, ho])).imp fun _ => State.Held.calm

theorem exec_sends (i : Instr) (s : State) (hs : i.sendsUpdate = true) : Answers s.Sends (exec i s) := by
  cases i
  case stg => exact stg_sends ..
  case stu => exact stu_sends ..
  case atom => exact atom_sends ..
  case tsucc => exact tsucc_sends ..
  case ctdecl | ctdeclFree => exact .ite (undeclareOp_sends ..) (declareOp_sends ..)
  all_goals exact absurd hs Bool.false_ne_true

theorem exec_maps (i : Instr) (s : State) (hm : i.mapsPage = true) : Answers s.Maps (exec i s) := by
  cases i
  case svcStack => exact svcStack_maps ..
  case svcMap => exact svcMap_maps ..
  all_goals exact absurd hm Bool.false_ne_true

end Sys2Proof.Machine

namespace Sys2Proof

open Machine

/-- Settles O54: an instruction sends updates, maps a page, or leaves the bytes of memory and its updates as they
were. -/
theorem coreInstructionsLeaveMemory : Obligations.CoreInstructionsLeaveMemory := by
  unfold Obligations.CoreInstructionsLeaveMemory
  intro i s t hi ht
  have answered {p : State → Prop} (h : Answers p (exec i s)) : p t := by
    obtain ⟨u, hu, hp⟩ := h
    rw [ht] at hu
    cases hu
    exact hp
  cases hs : i.sendsUpdate with
  | true =>
    have k := answered (exec_sends i s hs)
    exact ⟨fun _ => k.cells, nofun, k.kept, k.ingress, k.fw, k.boot, k.tick⟩
  | false =>
    cases hm : i.mapsPage with
    | true =>
      have k := answered (exec_maps i s hm)
      exact ⟨nofun, fun _ => k.updates, fun u hu => k.updates ▸ hu, k.ingress ▸ Nat.le_refl _, k.fw, k.boot, k.tick⟩
    | false =>
      have k := answered (exec_calm i s hi hs hm)
      exact ⟨fun _ => k.cells, fun _ => k.updates, k.kept, k.ingress, k.fw, k.boot, k.tick⟩

end Sys2Proof
end

section
/-!
PROOFS. A step goes on and keeps memory's canonical form (R20, R280, R281,
    R343): which operations leave every byte as it
is, the few that write bytes at once, and the step over both.
-/

-- One proof after another: each that waits beside others holds a stack of its own.
set_option Elab.async false

namespace Sys2Proof.Machine

/-! ## Bytes that no operation writes but those of R233, R272, R296 and R391 -/

@[simp] theorem answers_next (p : State → Prop) (t : State) : Answers p (.next t) ↔ p t :=
  ⟨fun ⟨_, h, hp⟩ => by cases h; exact hp, .next⟩

/-- What every turn of a fold leaves of memory's bytes. -/
theorem cells_foldl {α : Type} (f : State → α → State) (hf : ∀ s a, (f s a).mem.cells = s.mem.cells) (xs : List α)
    (s : State) : (xs.foldl f s).mem.cells = s.mem.cells :=
  foldl_keeps (fun s : State => s.mem.cells) f hf xs s

theorem cells_foldl_snd {α γ : Type} (f : γ × State → α → γ × State) (hf : ∀ b a, (f b a).2.mem.cells = b.2.mem.cells)
    (xs : List α) (b : γ × State) : (xs.foldl f b).2.mem.cells = b.2.mem.cells :=
  foldl_keeps (fun b : γ × State => b.2.mem.cells) f hf xs b

theorem cells_foldl_fst {α γ : Type} (f : State × γ → α → State × γ) (hf : ∀ b a, (f b a).1.mem.cells = b.1.mem.cells)
    (xs : List α) (b : State × γ) : (xs.foldl f b).1.mem.cells = b.1.mem.cells :=
  foldl_keeps (fun b : State × γ => b.1.mem.cells) f hf xs b

theorem cells_ite {c : Prop} [Decidable c] {s a b : State} (ha : a.mem.cells = s.mem.cells)
    (hb : b.mem.cells = s.mem.cells) : (if c then a else b).mem.cells = s.mem.cells := by
  split
  · exact ha
  · exact hb

/-! ### The operations of the cores -/

@[simp] theorem State.performLoad_cells (s : State) (core cls pa n : Nat) :
    (s.performLoad core cls pa n).2.mem.cells = s.mem.cells := (s.performLoad_calm ..).cells
@[simp] theorem State.fillBlock_cells (s : State) (core cls : Nat) (l1 : Bool) (pa : Nat) :
    (s.fillBlock core cls l1 pa).mem.cells = s.mem.cells := (s.fillBlock_calm ..).cells
@[simp] theorem State.loadNow_cells (s : State) (group pa acc d lease : Nat) :
    (s.loadNow group pa acc d lease).2.mem.cells = s.mem.cells := (s.loadNow_calm ..).cells
@[simp] theorem State.performEarlier_cells (s : State) (group : Nat) (who : Option Nat → Bool) (pa n : Nat) :
    (s.performEarlier group who pa n).2.mem.cells = s.mem.cells := (s.performEarlier_calm ..).cells
@[simp] theorem State.addCount_cells (s : State) (r : Releaser) (va pa : Nat) (addend : Int) (writer : Writer)
    (arrival : Nat) :
    (s.addCount r va pa addend writer arrival).1.mem.cells = s.mem.cells := (s.addCount_sends ..).cells
@[simp] theorem State.slotWrite_cells (s : State) (c : CutSlot) (off : Nat) (bs : List Byte) (writer : Writer) :
    (s.slotWrite c off bs writer).1.mem.cells = s.mem.cells := (s.slotWrite_sends ..).cells
@[simp] theorem State.writeHeader_cells (s : State) (n : Nat) (writer : Writer) :
    (s.writeHeader n writer).1.mem.cells = s.mem.cells := (s.writeHeader_sends ..).cells
@[simp] theorem State.withdraw_cells (s : State) (us : List Nat) (writer : Writer) :
    (s.withdraw us writer).mem.cells = s.mem.cells := (s.withdraw_sends ..).cells
@[simp] theorem State.squash_cells (s : State) (all : List Nat) (n : Nat) (writer : Writer) :
    (s.squash all n writer).mem.cells = s.mem.cells := (s.squash_sends ..).cells
@[simp] theorem State.atomUpdate_cells (s : State) (group top pa : Nat) (w : Word) (writer : Writer) :
    (s.atomUpdate group top pa w writer).1.mem.cells = s.mem.cells := (s.atomUpdate_sends ..).cells

/-! ### The operations of the events, in the order of the model -/

@[simp] theorem State.placeCarve_cells (s : State) (grid : Nat) : (s.placeCarve grid).mem.cells = s.mem.cells :=
  (Memory.Still.foldl (fun (mem : Memory) slice => mem.makeRoom s.sliceFrames slice mem.llc.length)
    (fun _ _ => by simp) _ s.mem).1

@[simp] theorem State.writeResult_cells (s : State) (p : Pend) (ws : List RegWrite) :
    (s.writeResult p ws).mem.cells = s.mem.cells := by
  simp [State.writeResult]

@[simp] theorem State.send_cells (s : State) (msg : CtlMsg) : (s.send msg).mem.cells = s.mem.cells := by
  simp [State.send]

@[simp] theorem State.reply_cells (s : State) (req : CtlMsg) (mtype status : Nat) (payload : List Byte) :
    (s.reply req mtype status payload).mem.cells = s.mem.cells := by
  simp [State.reply]

@[simp] theorem State.flushQueued_cells (s : State) : s.flushQueued.mem.cells = s.mem.cells :=
  cells_foldl _ (fun _ _ => by (repeat' split) <;> simp) _ _

@[simp] theorem State.flushColl_cells (s : State) : s.flushColl.mem.cells = s.mem.cells :=
  cells_foldl _ (fun _ _ => by (repeat' split) <;> simp) _ _

@[simp] theorem State.sendColl_cells (s : State) (chip : Nat) (msg : CollMsg) :
    (s.sendColl chip msg).mem.cells = s.mem.cells := by
  simp [State.sendColl]

@[simp] theorem State.undeliveredAt_cells (s : State) (address chip : Nat) :
    (s.undeliveredAt address chip).mem.cells = s.mem.cells := by
  simp [State.undeliveredAt]

@[simp] theorem State.undelivered_cells (s : State) (r : Remote) : (s.undelivered r).mem.cells = s.mem.cells := by
  simp [State.undelivered]

@[simp] theorem State.failTable_cells (s : State) (core k : Nat) (t : TableLoad) (c : Cause) :
    (s.failTable core k t c).mem.cells = s.mem.cells := by
  simp [State.failTable]

@[simp] theorem State.tableRead_cells (s : State) (grid core : Nat) (t : TableLoad) :
    (s.tableRead grid core t).mem.cells = s.mem.cells := by
  unfold State.tableRead
  generalize List.range bankLines = ns
  induction ns generalizing s with
  | nil => rfl
  | cons n ns ih =>
    rw [List.foldl_cons, ih]
    generalize s.xlatG core grid (t.address + 128 * n) = x
    cases x with
    | ok p =>
      dsimp only
      exact cells_ite (by simp) rfl
    | _ => rfl

@[simp] theorem State.askLine_cells (s : State) (core k : Nat) (t : TableLoad) (n : Nat) (p : Place) :
    (s.askLine core k t n p).mem.cells = s.mem.cells := by
  simp only [State.askLine]
  (repeat' split) <;> simp

@[simp] theorem State.tryBarrier_cells (s : State) (teams : Nat → Bool) (p : Wait → Bool) (scope : Nat) :
    (s.tryBarrier teams p scope).mem.cells = s.mem.cells := by
  unfold State.tryBarrier
  split <;> simp

@[simp] theorem State.tryTrug_cells (s : State) (g : Group) (w : Nat × Nat × Nat × Bool) :
    (s.tryTrug g w).mem.cells = s.mem.cells := by
  simp only [State.tryTrug]
  (repeat' split) <;> simp

@[simp] theorem State.settleGroup_cells (s : State) (uid : Nat) : (s.settleGroup uid).mem.cells = s.mem.cells := by
  have trugs (s : State) (g : Group) : (g.trugWaits.foldl (fun s w => s.tryTrug g w) s).mem.cells = s.mem.cells :=
    cells_foldl _ (fun _ _ => by simp) _ s
  simp only [State.settleGroup]
  (repeat' split) <;> simp [trugs]

@[simp] theorem State.settleWaits_cells (s : State) : s.settleWaits.mem.cells = s.mem.cells :=
  cells_foldl _ (fun _ _ => by simp) _ _

@[simp] theorem State.retryKept_cells (s : State) (k : Kept) : (s.retryKept k).mem.cells = s.mem.cells := by
  simp only [State.retryKept]
  (repeat' split) <;> simp

@[simp] theorem State.settleDecrement_cells (s : State) (group : Nat) (out : Option Nat) :
    (s.settleDecrement group out).mem.cells = s.mem.cells := by
  simp [State.settleDecrement]

@[simp] theorem State.failDecrement_cells (s : State) (r : Retiring) (c : Cause) :
    (s.failDecrement r c).mem.cells = s.mem.cells := by
  simp [State.failDecrement]

@[simp] theorem State.removeTeams_cells (s : State) (teams : List Nat) :
    (s.removeTeams teams).mem.cells = s.mem.cells := by
  simp [State.removeTeams]

@[simp] theorem State.dropTeam_cells (s : State) (team : Nat) : (s.dropTeam team).mem.cells = s.mem.cells := by
  simp only [State.dropTeam]
  (repeat' split) <;> simp

@[simp] theorem State.modOp_cells (s : State) (core handle : Nat) (f : EngOp → EngOp) :
    (s.modOp core handle f).mem.cells = s.mem.cells := by
  simp [State.modOp]

@[simp] theorem State.failOp_cells (s : State) (core handle : Nat) (st : OpState) (addr : Nat) :
    (s.failOp core handle st addr).mem.cells = s.mem.cells := by
  simp [State.failOp]

@[simp] theorem State.engAsk_cells (s : State) (core : Nat) (op : EngOp) (p : Place) (va n : Nat) :
    (s.engAsk core op p va n).mem.cells = s.mem.cells := by
  simp [State.engAsk]

@[simp] theorem State.engStore_cells (s : State) (op : EngOp) (pa : Nat) (bs : List Byte) (alu : Bool) :
    (s.engStore op pa bs alu).1.mem.cells = s.mem.cells := by
  simp [State.engStore]

@[simp] theorem State.engWrite_cells (s : State) (core : Nat) (op : EngOp) (va : Nat) (bs : List Byte) :
    (s.engWrite core op va bs).mem.cells = s.mem.cells := by
  simp only [State.engWrite]
  (repeat' split) <;> simp

@[simp] theorem State.engWriteScratch_cells (s : State) (core : Nat) (op : EngOp) (addr : Nat) (bs : List Byte) :
    (s.engWriteScratch core op places addr bs).mem.cells = s.mem.cells := by
  unfold State.engWriteScratch
  split <;> simp

@[simp] theorem State.bankTake_cells (s : State) (core : Nat) (op : EngOp) (w : BankWrite) :
    (s.bankTake core op w).mem.cells = s.mem.cells := by
  unfold State.bankTake
  split <;> simp

@[simp] theorem State.countRun_cells (s : State) (op : EngOp) (n : Nat) (err : Bool) :
    (s.countRun op n err).mem.cells = s.mem.cells := by
  simp only [State.countRun]
  (repeat' split) <;> simp

@[simp] theorem State.slotFor_cells {s t : State} {core : Nat} {op : EngOp} {u : Team} {off i : Nat}
    (h : s.slotFor core op u off = some (i, t)) : t.mem.cells = s.mem.cells := by
  simp only [State.slotFor] at h
  split at h
  · cases h; rfl
  · split at h
    · exact nomatch h
    · cases h; simp

@[simp] theorem State.xferWrite_cells (s : State) (core : Nat) (op : EngOp) :
    (s.xferWrite core op).mem.cells = s.mem.cells := by
  simp only [State.xferWrite]
  split
  · split
    · simp
    · split
      · simp
      · split
        · rfl
        next h => simp [State.slotFor_cells h]
  · split
    · simp
    · (repeat' split) <;> simp

@[simp] theorem State.xferStep_cells (s : State) (core : Nat) (op : EngOp) :
    (s.xferStep core op).mem.cells = s.mem.cells := by
  simp only [State.xferStep]
  (repeat' split) <;> simp

@[simp] theorem State.listStep_cells (s : State) (core : Nat) (op : EngOp) :
    (s.listStep core op).mem.cells = s.mem.cells := by
  simp only [State.listStep]
  split <;> simp

@[simp] theorem State.bankStep_cells (s : State) (core : Nat) (op : EngOp) :
    (s.bankStep core op).mem.cells = s.mem.cells := by
  simp only [State.bankStep]
  (repeat' split) <;> simp

@[simp] theorem State.rangeStep_cells (s : State) (core : Nat) (op : EngOp) :
    (s.rangeStep core op).mem.cells = s.mem.cells := by
  have written (bs : List SliceBlock) (f : SliceBlock → BitVec 4) :
      (bs.foldl (fun (mem : Memory) b => mem.writeBack b.block (f b)) s.mem).cells = s.mem.cells :=
    foldl_keeps Memory.cells (fun (mem : Memory) b => mem.writeBack b.block (f b)) (fun _ _ => rfl) _ _
  simp only [State.rangeStep]
  split
  · simp
  · split
    · simp
    · rfl
    · rw [State.modOp_cells]
      refine cells_ite rfl (cells_ite rfl ?_)
      exact written ..

@[simp] theorem State.collSend_cells (s : State) (op : EngOp) (rank : Nat) (msg : CollMsg) :
    (s.collSend op rank msg).mem.cells = s.mem.cells := by
  simp [State.collSend]

@[simp] theorem State.collAck_cells (s : State) (core : Nat) (op : EngOp) (rank chunk : Nat) :
    (s.collAck core op rank chunk).mem.cells = s.mem.cells := by
  unfold State.collAck
  split <;> simp

@[simp] theorem State.collHold_cells (s : State) (core : Nat) (op : EngOp) (rank chunk : Nat) (data : List Byte) :
    (s.collHold core op rank chunk data).mem.cells = s.mem.cells := by
  simp only [State.collHold]
  (repeat' split) <;> simp

@[simp] theorem State.collHear_cells (s : State) (core : Nat) (op : EngOp) (msg : CollMsg) :
    (s.collHear core op msg).mem.cells = s.mem.cells := by
  simp only [State.collHear]
  (repeat' split) <;> simp

@[simp] theorem State.collTake_cells (s : State) (msg : CollMsg) : (s.collTake msg).mem.cells = s.mem.cells := by
  simp only [State.collTake]
  (repeat' split) <;> simp

@[simp] theorem State.collLeave_cells (s : State) (op : EngOp) : (s.collLeave op).mem.cells = s.mem.cells := by
  unfold State.collLeave
  split <;> simp

@[simp] theorem State.collDrain_cells (s : State) (core handle : Nat) :
    (s.collDrain core handle).mem.cells = s.mem.cells :=
  cells_foldl _ (fun _ _ => by (repeat' split) <;> simp) _ _

theorem State.collSends_cells (s : State) (op : EngOp) (ps : List CollPeer) (m : CollMsg) :
    (ps.foldl (fun s p => s.collSend op p.rank m) s).mem.cells = s.mem.cells := by
  induction ps generalizing s with
  | nil => rfl
  | cons p ps ih => rw [List.foldl_cons, ih, State.collSend_cells]

@[simp] theorem State.collStart_cells (s : State) (core : Nat) (op : EngOp) :
    (s.collStart core op).mem.cells = s.mem.cells := by
  unfold State.collStart
  refine cells_ite (by simp) ?_
  dsimp only
  rw [State.collDrain_cells, State.collSends_cells, State.modOp_cells]

@[simp] theorem State.collRead_cells (s : State) (core : Nat) (op : EngOp) (c : Coll) (q k : Nat) :
    (s.collRead core op c q k).mem.cells = s.mem.cells := by
  simp only [State.collRead]
  (repeat' split) <;> simp

@[simp] theorem State.collWrite_cells (s : State) (core : Nat) (op : EngOp) (c : Coll) (p k : Nat) :
    (s.collWrite core op c p k).mem.cells = s.mem.cells := by
  simp only [State.collWrite]
  (repeat' split) <;> simp

@[simp] theorem State.collStep_cells (s : State) (core : Nat) (op : EngOp) :
    (s.collStep core op).mem.cells = s.mem.cells := by
  simp only [State.collStep]
  (repeat' split) <;> simp

@[simp] theorem State.opStep_cells (s : State) (core : Nat) (op : EngOp) :
    (s.opStep core op).mem.cells = s.mem.cells := by
  simp only [State.opStep]
  (repeat' split) <;> simp

@[simp] theorem State.countVisible_cells (s : State) (core : Nat) (op : EngOp) (n : Nat) :
    (s.countVisible core op n).mem.cells = s.mem.cells := by
  unfold State.countVisible
  split <;> simp

@[simp] theorem State.opCache_cells (s : State) (core : Nat) (op : EngOp) :
    (s.opCache core op).mem.cells = s.mem.cells :=
  cells_foldl _ (fun _ _ => by (repeat' split) <;> simp) _ _

@[simp] theorem State.opGo_cells (s : State) (core : Nat) (op : EngOp) : (s.opGo core op).mem.cells = s.mem.cells := by
  simp only [State.opGo]
  (repeat' split) <;> simp

@[simp] theorem State.finishOp_cells (s : State) (core : Nat) (op : EngOp) :
    (s.finishOp core op).mem.cells = s.mem.cells := by
  simp only [State.finishOp]
  (repeat' split) <;> simp

@[simp] theorem State.modPort_cells (s : State) (n : Nat) (f : Port → Port) :
    (s.modPort n f).mem.cells = s.mem.cells := by
  simp [State.modPort]

@[simp] theorem State.modChannel_cells (s : State) (c : Nat) (f : Channel → Channel) :
    (s.modChannel c f).mem.cells = s.mem.cells := by
  simp [State.modChannel]

@[simp] theorem State.writeWord_cells (s : State) (n : Nat) : (s.writeWord n).mem.cells = s.mem.cells := by
  simp only [State.writeWord]
  split <;> simp

@[simp] theorem State.enterPort_cells (s : State) (n : Nat) (st : PortState) :
    (s.enterPort n st).mem.cells = s.mem.cells := by
  simp [State.enterPort]

@[simp] theorem State.tellBroker_cells (s : State) (n code : Nat) : (s.tellBroker n code).mem.cells = s.mem.cells := by
  simp [State.tellBroker]

@[simp] theorem State.freeDelay_cells (s : State) : s.freeDelay.2.mem.cells = s.mem.cells := by simp [State.freeDelay]

@[simp] theorem State.endBound_cells (s : State) (n : Nat) : (s.endBound n).mem.cells = s.mem.cells :=
  cells_foldl _ (fun _ _ => cells_foldl _ (fun _ _ => by simp) _ _) _ s

@[simp] theorem State.dropCarried_cells (s : State) (n : Nat) : (s.dropCarried n).mem.cells = s.mem.cells := by
  simp only [State.dropCarried]
  rw [cells_foldl _ (fun _ _ => by split <;> simp), cells_foldl _ (fun _ _ => by simp)]

@[simp] theorem State.interrupted_cells (s : State) (id : Nat) : (s.interrupted id).mem.cells = s.mem.cells := by
  simp only [State.interrupted]
  split
  · rfl
  · split
    · simp
    · exact cells_foldl _ (fun _ _ => cells_foldl _ (fun _ _ => by simp) _ _) _ s

@[simp] theorem State.meetNone_cells (s : State) (chip e2e tag : Nat) :
    (s.meetNone chip e2e tag).mem.cells = s.mem.cells := by
  simp only [State.meetNone]
  (repeat' split) <;> simp

@[simp] theorem State.routePacket_cells (s : State) (input : Nat) (bs : List Byte) :
    (s.routePacket input bs).mem.cells = s.mem.cells := by
  simp only [State.routePacket]
  (repeat' split) <;> simp

@[simp] theorem State.resend_cells (s : State) (bs : List Byte) : (s.resend bs).mem.cells = s.mem.cells := by
  simp [State.resend]

@[simp] theorem State.resendAll_cells (s : State) (c : Nat) : (s.resendAll c).mem.cells = s.mem.cells := by
  simp only [State.resendAll]
  split
  · rfl
  · rw [cells_foldl _ (fun _ _ => by simp), cells_foldl _ (fun _ _ => by simp)]
    simp

@[simp] theorem State.loseCircuit_cells (s : State) (n : Nat) : (s.loseCircuit n).mem.cells = s.mem.cells := by
  simp [State.loseCircuit]

@[simp] theorem State.portFault_cells (s : State) (n : Nat) : (s.portFault n).mem.cells = s.mem.cells := by
  simp [State.portFault]

@[simp] theorem State.startDrain_cells (s : State) (n : Nat) : (s.startDrain n).mem.cells = s.mem.cells := by
  simp [State.startDrain]

@[simp] theorem State.reportRank_cells (s : State) (c : Nat) : (s.reportRank c).mem.cells = s.mem.cells := by
  simp [State.reportRank]

@[simp] theorem State.linkDown_cells (s : State) (k : Nat) : (s.linkDown k).mem.cells = s.mem.cells := by
  simp [State.linkDown]

@[simp] theorem State.loseLanes_cells (s : State) (channel : Nat) (lanes : BitVec 16) :
    (s.loseLanes channel lanes).mem.cells = s.mem.cells := by
  simp only [State.loseLanes]
  (repeat' split) <;> simp

@[simp] theorem State.replay_cells (s : State) (c : Nat) : (s.replay c).mem.cells = s.mem.cells := by
  simp [State.replay]

@[simp] theorem State.scriptFault_cells (s : State) (n : Nat) (c : Cause) :
    (s.scriptFault n c).mem.cells = s.mem.cells := by
  simp [State.scriptFault]

theorem scriptStep_cells (s : State) (f : Nat → Ctx → State → State)
    (hf : ∀ n c (t : State), (f n c t).mem.cells = t.mem.cells) :
    Answers (fun t => t.mem.cells = s.mem.cells) (scriptStep s f) := by
  simp only [scriptStep]
  split <;> simp [hf]

theorem ctxStep_cells (s : State) (f : Ctx → Ctx) : Answers (fun t => t.mem.cells = s.mem.cells) (ctxStep s f) :=
  scriptStep_cells _ _ fun _ _ _ => by simp

theorem scriptAccess_cells (s : State) (a : BitVec 4) (imm : BitVec 14) (write : Bool)
    (f : Nat → Ctx → Nat → Place → State → State)
    (hf : ∀ n c va p (t : State), (f n c va p t).mem.cells = t.mem.cells) :
    Answers (fun t => t.mem.cells = s.mem.cells) (scriptAccess s a imm write f) :=
  scriptStep_cells _ _ fun _ _ _ => by
    dsimp only
    split <;> simp [hf]

theorem portStep_cells (s : State) (a : BitVec 4) (f : Nat → Ctx → Nat → State → State)
    (hf : ∀ n c p (t : State), (f n c p t).mem.cells = t.mem.cells) :
    Answers (fun t => t.mem.cells = s.mem.cells) (portStep s a f) :=
  scriptStep_cells _ _ fun _ _ _ => by split <;> simp [hf]

@[simp] theorem State.endCwait_cells (s : State) (n d port : Nat) : (s.endCwait n d port).mem.cells = s.mem.cells := by
  simp [State.endCwait]

@[simp] theorem State.cpath_cells (s : State) (x : Nat) : (s.cpath x).2.mem.cells = s.mem.cells := by
  simp only [State.cpath]
  (repeat' split) <;> simp

theorem cpathStep_cells (d a : BitVec 4) (s : State) :
    Answers (fun t => t.mem.cells = s.mem.cells) (cpathStep d a s) :=
  scriptStep_cells _ _ fun _ _ _ => by simp

@[simp] theorem State.settleCtx_cells (s : State) (n : Nat) : (s.settleCtx n).mem.cells = s.mem.cells := by
  simp only [State.settleCtx]
  (repeat' split) <;> simp

@[simp] theorem State.settleCtxs_cells (s : State) : s.settleCtxs.mem.cells = s.mem.cells :=
  cells_foldl _ (fun _ _ => by simp) _ _

theorem State.serve_cells (s : State) (msg : CtlMsg) (kind : MsgKind) (f : State → State)
    (hf : (f s).mem.cells = s.mem.cells) : Answers (fun t => t.mem.cells = s.mem.cells) (s.serve msg kind f) := by
  simp only [State.serve]
  (repeat' split) <;> simp [hf]

@[simp] theorem State.refuseLaunch_cells (s : State) (seq ltag status : Nat) :
    (s.refuseLaunch seq ltag status).mem.cells = s.mem.cells := by
  simp [State.refuseLaunch]

@[simp] theorem State.takeRecord_cells (s : State) (seq : Nat) (bs : List Byte) :
    (s.takeRecord seq bs).mem.cells = s.mem.cells := by
  simp only [State.takeRecord]
  (repeat' split) <;> simp

@[simp] theorem State.refuseHead_cells (s : State) (q : Queued) (status : Nat) :
    (s.refuseHead q status).mem.cells = s.mem.cells := by
  simp [State.refuseHead]

@[simp] theorem State.fillAwaited_cells (s : State) (r : Remote) (bs : List Byte) :
    (s.fillAwaited r bs).mem.cells = s.mem.cells := by
  simp [State.fillAwaited]

@[simp] theorem State.fillReads_cells (s : State) (id code : Nat) (bs : List Byte) :
    (s.fillReads id code bs).mem.cells = s.mem.cells := by
  simp [State.fillReads]

@[simp] theorem State.engAnswer_cells (s : State) (core handle : Nat) (r : Remote) (a : Answer) :
    (s.engAnswer core handle r a).mem.cells = s.mem.cells := by
  unfold State.engAnswer
  split <;> simp

@[simp] theorem State.settle_cells (s : State) (r : Remote) (a : Answer) : (s.settle r a).mem.cells = s.mem.cells := by
  simp only [State.settle]
  (repeat' split) <;> simp

@[simp] theorem State.answer_cells (s : State) (id : Nat) (node : Bool) (a : Answer) :
    (s.answer id node a).mem.cells = s.mem.cells := by
  unfold State.answer
  split <;> simp

@[simp] theorem State.respond_cells (s : State) (r : Response) : (s.respond r).mem.cells = s.mem.cells := by
  simp [State.respond]

@[simp] theorem State.responseTo_cells (s : State) (v : PacketView) (via : Option Via) (type aop : Nat)
    (data : List Byte) : (s.responseTo v via type aop data).2.mem.cells = s.mem.cells := by
  simp [State.responseTo]

@[simp] theorem State.answerPacket_cells (s : State) (v : PacketView) (via : Option Via) (type aop : Nat)
    (data : List Byte) : (s.answerPacket v via type aop data).mem.cells = s.mem.cells := by
  simp [State.answerPacket]

@[simp] theorem State.answerAt_cells (s : State) (wct : Nat) (v : PacketView) (via : Option Via) (data : List Byte) :
    (s.answerAt wct v via data).mem.cells = s.mem.cells := by
  simp [State.answerAt]

@[simp] theorem State.deliverRead_cells (s : State) (v : PacketView) (via : Option Via) :
    (s.deliverRead v via).mem.cells = s.mem.cells := by
  simp only [State.deliverRead]
  (repeat' split) <;> simp

@[simp] theorem State.deliverWrite_cells (s : State) (v : PacketView) (via : Option Via) :
    (s.deliverWrite v via).mem.cells = s.mem.cells := by
  simp only [State.deliverWrite]
  (repeat' split) <;> simp

@[simp] theorem Memory.ownLine_cells (mem : Memory) (line : Nat) (w : Writer) (now arrival : Nat) :
    (mem.ownLine line w now arrival).1.cells = mem.cells := by
  unfold Memory.ownLine
  split <;> simp

@[simp] theorem Memory.ingressUpdate_cells (mem : Memory) (line word : Nat) (new : Word) (w : Writer) (now : Nat) :
    (mem.ingressUpdate line word new w now).1.cells = mem.cells := by
  unfold Memory.ingressUpdate
  split <;> simp

@[simp] theorem State.deliverAtomic_cells (s : State) (v : PacketView) (via : Option Via) :
    (s.deliverAtomic v via).mem.cells = s.mem.cells := by
  have each (line : Nat) (vs : List (Nat × Word × Word)) (k : Nat) (b : Memory × Nat × List (Nat × Word)) :
      (vs.foldl (fun (mem, top, rs) ((i, x, y) : Nat × Word × Word) =>
        let old := mem.latest v.addr
        let (mem, t) := mem.ingressUpdate line v.addr (atomNew v.aop old x y) (Writer.peer v (k - 1 - i)) s.gtime
        (mem, max top t, rs ++ [(i, old)])) b).1.cells = b.1.cells :=
    foldl_keeps (fun b : Memory × Nat × List (Nat × Word) => b.1.cells) _ (fun _ _ => by simp) _ _
  simp only [State.deliverAtomic]
  split
  · simp
  · split
    · simp
    · split <;> simp [each]

@[simp] theorem State.deliverData_cells (s : State) (v : PacketView) : (s.deliverData v).mem.cells = s.mem.cells := by
  simp only [State.deliverData]
  (repeat' split) <;> simp

@[simp] theorem State.deliverPacket_cells (s : State) (channel : Nat) (copy : Bool) (v : PacketView) :
    (s.deliverPacket channel copy v).mem.cells = s.mem.cells := by
  simp only [State.deliverPacket]
  (repeat' split) <;> simp

@[simp] theorem State.flushAcks_cells (s : State) : s.flushAcks.mem.cells = s.mem.cells :=
  cells_foldl _ (fun _ _ => by (repeat' split) <;> simp) _ _

@[simp] theorem State.nodeRead_cells (s : State) (msg : CtlMsg) : (s.nodeRead msg).mem.cells = s.mem.cells := by
  simp only [State.nodeRead]
  (repeat' split) <;> simp

@[simp] theorem State.nodeWrite_cells (s : State) (msg : CtlMsg) : (s.nodeWrite msg).mem.cells = s.mem.cells := by
  simp only [State.nodeWrite]
  (repeat' split) <;> simp

@[simp] theorem State.invalidate_cells (s : State) (msg : CtlMsg) : (s.invalidate msg).mem.cells = s.mem.cells := by
  simp only [State.invalidate]
  split <;> simp

@[simp] theorem State.settleBusy_cells (s : State) : s.settleBusy.mem.cells = s.mem.cells := by
  simp only [State.settleBusy]
  (repeat' split) <;> simp

@[simp] theorem State.dropQueued_cells (s : State) (ltag : Nat) : (s.dropQueued ltag).mem.cells = s.mem.cells :=
  cells_foldl _ (fun _ _ => by simp) _ _

@[simp] theorem State.terminateTag_cells (s : State) (ltag : Nat) : (s.terminateTag ltag).mem.cells = s.mem.cells :=
  cells_foldl _ (fun _ _ => by simp) _ _

@[simp] theorem State.terminateAll_cells (s : State) (msg : CtlMsg) : (s.terminateAll msg).mem.cells = s.mem.cells := by
  simp only [State.terminateAll]
  split <;> simp

@[simp] theorem State.debugHalt_cells (s : State) (msg : CtlMsg) : (s.debugHalt msg).mem.cells = s.mem.cells := by
  unfold State.debugHalt
  split <;> simp

@[simp] theorem State.debugResume_cells (s : State) (msg : CtlMsg) : (s.debugResume msg).mem.cells = s.mem.cells := by
  unfold State.debugResume
  split <;> simp

@[simp] theorem State.debugRead_cells (s : State) (msg : CtlMsg) : (s.debugRead msg).mem.cells = s.mem.cells := by
  simp only [State.debugRead]
  (repeat' split) <;> simp

@[simp] theorem State.debugWrite_cells (s : State) (msg : CtlMsg) : (s.debugWrite msg).mem.cells = s.mem.cells := by
  simp only [State.debugWrite]
  (repeat' split) <;> simp

@[simp] theorem State.setting_cells (s : State) (msg : CtlMsg) (ok : Bool) (f : Firmware → Firmware) :
    (s.setting msg ok f).mem.cells = s.mem.cells := by
  unfold State.setting
  split <;> simp

@[simp] theorem State.takeDevrsp_cells (s : State) (msg : CtlMsg) : (s.takeDevrsp msg).mem.cells = s.mem.cells := by
  unfold State.takeDevrsp
  split <;> simp

@[simp] theorem State.repool_cells (s : State) (t : Option Task) (time : Nat) :
    (s.repool t time).mem.cells = s.mem.cells := by
  unfold State.repool
  split <;> simp

@[simp] theorem State.reap_cells (s : State) (uid : Nat) : (s.reap uid).mem.cells = s.mem.cells := by
  simp only [State.reap]
  (repeat' split) <;> simp

@[simp] theorem State.reapAll_cells (s : State) : s.reapAll.mem.cells = s.mem.cells :=
  cells_foldl _ (fun _ _ => by simp) _ _

@[simp] theorem State.ungate_cells (s : State) : s.ungate.mem.cells = s.mem.cells := by simp [State.ungate]

@[simp] theorem State.deliver_cells (s : State) (core : Nat) (op : EngOp) (bs : List Byte) (level : Nat)
    (producer : Option Nat) : (s.deliver core op bs level producer).mem.cells = s.mem.cells := by
  simp only [State.deliver]
  (repeat' split) <;> simp

@[simp] theorem State.beginCommit_cells (s : State) (uid : Nat) : (s.beginCommit uid).mem.cells = s.mem.cells := by
  simp only [State.beginCommit]
  (repeat' split) <;> simp

@[simp] theorem State.countCommits_cells (s : State) (n : Nat) (us : List Nat) :
    (s.countCommits n us).mem.cells = s.mem.cells :=
  cells_foldl _ (fun _ _ => by simp) _ _

@[simp] theorem State.resolve_cells (s : State) (n : Nat) (c : CutSlot) (tile : List Byte) (writer : Writer) :
    (s.resolve n c tile writer).mem.cells = s.mem.cells := by
  simp only [State.resolve]
  split
  · rfl
  · split
    · rw [cells_foldl _ (fun _ _ => by simp)]
      simp
    · simp

@[simp] theorem State.installTile_cells (s : State) (n : Nat) (tile : List Byte) (writer : Writer) (resolved : Bool) :
    (s.installTile n tile writer resolved).1.mem.cells = s.mem.cells := by
  unfold State.installTile
  split
  · rfl
  · dsimp only
    split <;> simp

@[simp] theorem State.realPost_cells (s : State) (n : Nat) (c : CutSlot) (tile : List Byte) (writer : Writer) :
    (s.realPost n c tile writer).1.mem.cells = s.mem.cells := by
  simp only [State.realPost]
  split <;> simp

@[simp] theorem State.specPost_cells (s : State) (n : Nat) (c : CutSlot) (level uid : Nat) (tile : List Byte)
    (writer : Writer) : (s.specPost n c level uid tile writer).1.mem.cells = s.mem.cells := by
  simp [State.specPost]

@[simp] theorem State.installPosted_cells (s : State) (uid : Nat) (writer : Writer) :
    (s.installPosted uid writer).mem.cells = s.mem.cells := by
  have committed (us : List Nat) (s : State) : (us.foldl State.beginCommit s).mem.cells = s.mem.cells :=
    cells_foldl _ (fun _ _ => by simp) _ _
  refine cells_foldl _ (fun s e => ?_) _ _
  obtain ⟨n, c⟩ := e
  dsimp only
  split <;> simp [committed]

theorem execCommitWritebackDone_cells (group : Nat) (s : State) :
    Answers (fun t => t.mem.cells = s.mem.cells) (execCommitWritebackDone group s) := by
  have kept (ts : List Task) (t : Nat) :
      (ts.foldl (fun s task => s.keepTask { task with vis := t } false group) s).mem.cells = s.mem.cells :=
    cells_foldl _ (fun _ _ => by simp) _ _
  simp only [execCommitWritebackDone]
  (repeat' split) <;> simp [kept]

@[simp] theorem State.hardSquash_cells (s : State) (uid : Nat) : (s.hardSquash uid).mem.cells = s.mem.cells := by
  simp [State.hardSquash]

@[simp] theorem State.failMat_cells (s : State) (core : Nat) (o : MatOp) (slot : Nat) :
    (s.failMat core o slot).mem.cells = s.mem.cells := by
  simp [State.failMat]

@[simp] theorem State.performMat_cells (s : State) (core : Nat) (o : MatOp) :
    (s.performMat core o).mem.cells = s.mem.cells := by
  simp only [State.performMat]
  (repeat' split) <;> simp

@[simp] theorem State.seatTeam_cells (s : State) (t : Team) (core : Nat) :
    (s.seatTeam t core).mem.cells = s.mem.cells := by
  simp [State.seatTeam]

@[simp] theorem State.startGroup_cells (s : State) (gr : Grid) (t : Team) (core index : Nat) :
    (s.startGroup gr t core index).mem.cells = s.mem.cells := by
  simp [State.startGroup]

@[simp] theorem State.takeSeat_cells (s : State) (gr : Grid) (t : Team) (core : Nat) :
    (s.takeSeat gr t core).mem.cells = s.mem.cells :=
  cells_foldl _ (fun _ _ => by simp) _ _

@[simp] theorem State.taskTeam_cells (s : State) (gr : Grid) (t : Task) (k core : Nat) :
    (s.taskTeam gr t k core).2.mem.cells = s.mem.cells := by
  simp [State.taskTeam]

@[simp] theorem State.dispatch_cells (s : State) (gr : Grid) (t : Task) (k core : Nat) :
    (s.dispatch gr t k core).mem.cells = s.mem.cells := by
  simp [State.dispatch]

@[simp] theorem State.postRequest_cells (s : State) (t : Team) (r : Request) :
    (s.postRequest t r).mem.cells = s.mem.cells :=
  cells_foldl _ (fun _ _ => by simp) _ _

@[simp] theorem State.beginSave_cells (s : State) (t : Team) (due : Nat) :
    (s.beginSave t due).mem.cells = s.mem.cells := by
  simp [State.beginSave]

@[simp] theorem State.endSave_cells (s : State) (t : Team) : (s.endSave t).mem.cells = s.mem.cells := by
  unfold State.endSave
  split <;> simp

@[simp] theorem State.bindGroups_cells (s : State) (t : Team) (core : Nat) (img : Image) :
    (s.bindGroups t core img).mem.cells = s.mem.cells :=
  cells_foldl _ (fun _ _ => by simp) _ _

@[simp] theorem State.bringOps_cells (s : State) (t : Team) (core : Nat) :
    (s.bringOps t core).mem.cells = s.mem.cells := by
  simp [State.bringOps]

@[simp] theorem State.restoreTeam_cells (s : State) (t : Team) (core due : Nat) :
    (s.restoreTeam t core due).mem.cells = s.mem.cells := by
  simp [State.restoreTeam]

@[simp] theorem State.endRestore_cells (s : State) (t : Team) : (s.endRestore t).mem.cells = s.mem.cells := by
  simp only [State.endRestore]
  split <;> simp [cells_foldl]

theorem execTeamRestore_cells (team : Nat) (s : State) :
    Answers (fun t => t.mem.cells = s.mem.cells) (execTeamRestore team s) := by
  simp only [execTeamRestore]
  (repeat' split) <;> simp
  refine (cells_foldl _ (fun _ _ => ?_) _ _).trans ?_ <;> simp

theorem execMigrationRequest_cells (src dst : Nat) (s : State) :
    Answers (fun t => t.mem.cells = s.mem.cells) (execMigrationRequest src dst s) := by
  have asked (ts : List Team) (s : State) :
      (ts.foldl (fun s t => s.modTeam t.uid (·.ask (.migrate dst))) s).mem.cells = s.mem.cells :=
    cells_foldl _ (fun _ _ => by simp) _ _
  simp only [execMigrationRequest]
  split <;> simp [asked]

@[simp] theorem State.landTeam_cells (s : State) (t : Team) (dst : Nat) :
    (s.landTeam t dst).mem.cells = s.mem.cells := by
  unfold State.landTeam
  split <;> simp

@[simp] theorem State.endMigration_cells (s : State) (src dst : Nat) :
    (s.endMigration src dst).mem.cells = s.mem.cells := by
  simp [State.endMigration]

@[simp] theorem State.disown_cells (s : State) (core : Nat) (o : EngOp) :
    (s.disown core o).mem.cells = s.mem.cells := by
  simp [State.disown]

@[simp] theorem State.exchange_cells (s : State) (src dst : Nat) (teams : List Nat) :
    (s.exchange src dst teams).mem.cells = s.mem.cells :=
  cells_foldl _ (fun _ _ => by simp) _ _

@[simp] theorem State.fetched_cells (s : State) (g : Group) (pc : Addr) : (s.fetched g pc).mem.cells = s.mem.cells := by
  simp [State.fetched]

theorem execIllegalWord_cells (s : State) : Answers (fun t => t.mem.cells = s.mem.cells) (execIllegalWord s) :=
  (Op.issue_held _ s fun _ _ _ => by simp).imp fun _ h => by rw [h.1]

theorem execSafePointDistanceFault_cells (group : Nat) (s : State) :
    Answers (fun t => t.mem.cells = s.mem.cells) (execSafePointDistanceFault group s) := by
  simp only [execSafePointDistanceFault]
  split
  · simp
  · split
    · split
      · refine .ite ((Op.issue_held _ _ fun _ _ _ => by simp).imp fun _ h => ?_) (.next rfl)
        rw [h.1]
      · simp
    · simp

@[simp] theorem State.landed_cells (s : State) (p : Pend) (ws : List RegWrite) :
    (s.landed p ws).mem.cells = s.mem.cells := by
  unfold State.landed
  split <;> simp

@[simp] theorem State.endSegments_cells (s : State) :
    s.endSegments.mem.cells = s.mem.cells := by simp [State.endSegments]

@[simp] theorem State.serveLanes_cells (s : State) (grid low len : Nat) (ok : Bool) :
    (s.serveLanes grid low len ok).mem.cells = s.mem.cells :=
  cells_foldl _ (fun s g => by
    dsimp only
    split
    · rfl
    · split
      · simp
      · rw [cells_foldl _ (fun _ _ => by (repeat' split) <;> simp)]
        simp) _ _

@[simp] theorem State.failOps_cells (s : State) (grid entryAt low len : Nat) :
    (s.failOps grid entryAt low len).mem.cells = s.mem.cells :=
  cells_foldl _ (fun _ _ => cells_foldl _ (fun _ _ => by split <;> simp) _ _) _ _

@[simp] theorem State.failTables_cells (s : State) (grid low len : Nat) :
    (s.failTables grid low len).mem.cells = s.mem.cells :=
  cells_foldl _ (fun _ _ => cells_foldl _ (fun _ _ => by (repeat' split) <;> simp) _ _) _ _

@[simp] theorem State.serveCtxs_cells (s : State) (grid low len : Nat) (ok : Bool) :
    (s.serveCtxs grid low len ok).mem.cells = s.mem.cells :=
  cells_foldl _ (fun _ _ => by (repeat' split) <;> simp) _ _

@[simp] theorem State.failDecrements_cells (s : State) (grid low len : Nat) :
    (s.failDecrements grid low len).mem.cells = s.mem.cells :=
  cells_foldl _ (fun _ _ => by simp) _ _

@[simp] theorem State.refuseHeads_cells (s : State) (entryAt low len : Nat) :
    (s.refuseHeads entryAt low len).mem.cells = s.mem.cells :=
  cells_foldl _ (fun _ _ => by (repeat' split) <;> simp) _ _

@[simp] theorem State.refuseRange_cells (s : State) (grid entryAt low len : Nat) :
    (s.refuseRange grid entryAt low len).mem.cells = s.mem.cells := by
  unfold State.refuseRange
  split <;> simp

@[simp] theorem State.capPower_cells (s : State) (watts : Nat) : (s.capPower watts).mem.cells = s.mem.cells := by
  simp only [State.capPower]
  (repeat' split) <;> simp

@[simp] theorem State.turnTo_cells (s : State) (k : Nat) : (s.turnTo k).mem.cells = s.mem.cells := by
  simp [State.turnTo]

@[simp] theorem State.waitForCode_cells (s : State) (group : Nat) : (s.waitForCode group).mem.cells = s.mem.cells := by
  unfold State.waitForCode
  split <;> simp

@[simp] theorem State.waitForScript_cells (s : State) (n va : Nat) :
    (s.waitForScript n va).mem.cells = s.mem.cells := by
  simp [State.waitForScript]

@[simp] theorem State.failAtoms_cells (s : State) (line : Nat) : (s.failAtoms line).mem.cells = s.mem.cells :=
  cells_foldl _ (fun _ _ => by simp) _ _

@[simp] theorem State.lineError_cells (s : State) (line : Nat) : (s.lineError line).mem.cells = s.mem.cells := by
  simp only [State.lineError]
  (repeat' split) <;> simp

@[simp] theorem State.soften_cells (s : State) (q1 : SoftError) : (s.soften q1).mem.cells = s.mem.cells := by
  unfold State.soften
  split <;> simp

@[simp] theorem State.settleAll_cells (s : State) : s.settleAll.mem.cells = s.mem.cells := by simp [State.settleAll]
@[simp] theorem Memory.dropPassing_cells (mem : Memory) :
    mem.dropPassing.cells = mem.cells := by simp [Memory.dropPassing]

/-! ### The instructions of the scripts and the events -/

theorem exec_cells_of_script (i : Instr) (s : State) (h : (i.hasWord && !i.isCore) = true) :
    Answers (fun t => t.mem.cells = s.mem.cells) (exec i s) := by
  cases i
  case kmov | kmovi | kmoviSh | kadd | ksub | kand | kor | kbeq | kbne | kblt | kjmp | ktime | ksleep | knop =>
    exact ctxStep_cells ..
  case cpathRoute | cpathRank | cpathClear => exact cpathStep_cells ..
  case kld | kst =>
    simp only [exec, execKld, execKst]
    refine scriptAccess_cells _ _ _ _ _ fun _ _ _ _ _ => ?_
    (repeat' split) <;> simp
  case khalt | creq | esig | ewait =>
    simp only [exec, execKhalt, execCreq, execEsig, execEwait]
    refine scriptStep_cells _ _ fun _ _ _ => ?_
    (repeat' split) <;> simp
  case crel | cstat | cwait | ctol =>
    simp only [exec, execCrel, execCstat, execCwait, execCtol]
    refine portStep_cells _ _ _ fun _ _ _ _ => ?_
    (repeat' split) <;> simp
  all_goals exact absurd h Bool.false_ne_true

/-- The messages and events by which bytes may change at once: a grid's bank memory is cleared, firmware maps a page,
HBM is cleared or takes the bundle (R272, R296, R391). -/
def writesBytes : Instr → Bool
  | .launchQueueHead _ | .carveoutWaitEnd _ | .gridCompletion _ | .gridTerminationDone _ | .serviceablePageMapped ..
  | .powerGood | .boardReset | .bootdata _ => true
  | _ => false

/-- The messages and events after the words of the table, but those that write bytes. -/
def keepsBytes (i : Instr) : Bool := !i.isCore && !i.hasWord && !writesBytes i

theorem exec_cells_of_event (i : Instr) (s : State) (h : keepsBytes i = true) :
    Answers (fun t => t.mem.cells = s.mem.cells) (exec i s) := by
  cases i
  case launch | read | write | tinval | terminate | debugAttach | debugDetach | debugHalt | debugResume |
      debugReadRegister | debugWriteRegister | mgmtAgeingQuantum | mgmtParkDelay | mgmtSpdistCap | mgmtPowerLimit |
      devrsp | mgmtThresholds | mgmtReadCounters | mgmtRaiseSvn | mgmtReservedBase =>
    simp only [exec, execLaunch, execRead, execWrite, execTinval, execTerminate, execDebugAttach, execDebugDetach,
      execDebugHalt, execDebugResume, execDebugReadRegister, execDebugWriteRegister, execMgmtAgeingQuantum,
      execMgmtParkDelay, execMgmtSpdistCap, execMgmtPowerLimit, execDevrsp, execMgmtThresholds, execMgmtReadCounters,
      execMgmtRaiseSvn, execMgmtReservedBase]
    refine State.serve_cells _ _ _ _ ?_
    (repeat' split) <;> simp
  case unknownMtype => exact .ite (by simp) (State.serve_cells _ _ _ _ (by simp))
  case attest => exact .ite (by simp) (.next (cells_foldl _ (fun _ _ => by simp) _ s))
  case atloadComplete | fenceRelease | spillRefill | successorDecrement | trackerEntryFree | engineRunDelivered |
      engineCompletion | circuitBarrierMatch | ringPageMapped | companionRetry | heldRecordRetry | twaitRelease |
      collChunkReceive =>
    simp only [exec, execAtloadComplete, execFenceRelease, execSpillRefill, execSuccessorDecrement,
      execTrackerEntryFree, execEngineRunDelivered, execEngineCompletion, execCircuitBarrierMatch, execRingPageMapped,
      execCompanionRetry, execHeldRecordRetry, execTwaitRelease, execCollChunkReceive]
    (repeat' split) <;> simp
  case portWake | peerRelease | peerFault | laneFailure | retrainEnd | retrainTimeout | circuitGrant | brokerRefusal |
      lightDetected | lightTimeout | lockAchieved | lockTimeout | trainingDone | trainingTimeout | liveHandshakeDone |
      portDoze | portNap | drainEnd | drainTimeout | lightLoss | ucieFailure | elinkDown | electricalLinkTrained |
      rankReport =>
    simp only [exec, execPortWake, execPeerRelease, execPeerFault, execLaneFailure, execRetrainEnd, execRetrainTimeout,
      execCircuitGrant, execBrokerRefusal, execLightDetected, execLightTimeout, execLockAchieved, execLockTimeout,
      execTrainingDone, execTrainingTimeout, execLiveHandshakeDone, execPortDoze, execPortNap, execDrainEnd,
      execDrainTimeout, execLightLoss, execUcieFailure, execElinkDown, execElectricalLinkTrained, execRankReport]
    (repeat' split) <;> simp
  case ksleepExpiry | cwaitTimeout | scriptIllegalWord | packetReceive | flitReceive | retryTimeout | devrspTimeout |
      firmwareReady | ingressWriteback =>
    simp only [exec, execKsleepExpiry, execCwaitTimeout, execScriptIllegalWord, execPacketReceive, execFlitReceive,
      execRetryTimeout, execDevrspTimeout, execFirmwareReady, execIngressWriteback]
    (repeat' split) <;> simp
  case ctgetTurn | ctpostTurn | speculativeRoomSquash | speculativeLineError | cuttingWaitExpiry | bloadTurn | mmaStep |
      acstTurn | matrixQueueTurn | taskDispatch | timeSliceExpiry | preemptionRequest =>
    simp only [exec, execCtgetTurn, execCtpostTurn, execSpeculativeRoomSquash, execSpeculativeLineError,
      execCuttingWaitExpiry, execBloadTurn, execMmaStep, execAcstTurn, execMatrixQueueTurn, execTaskDispatch,
      execTimeSliceExpiry, execPreemptionRequest]
    (repeat' split) <;> simp
  case commitWritebackDone => exact execCommitWritebackDone_cells ..
  case candidatePlacement | teamSave | saveComplete | migrationTransferDone =>
    simp only [exec, execCandidatePlacement, execTeamSave, execSaveComplete, execMigrationTransferDone]
    (repeat' split) <;> simp [cells_foldl]
  case teamRestore => exact execTeamRestore_cells ..
  case migrationRequest => exact execMigrationRequest_cells ..
  case fetchFault | fairnessRotation | pendingResultLands | handlerStart | groupPark | groupWake | rotationEnd |
      leaseExpiry | sensorSample | powerStop | powerStopEnd =>
    simp only [exec, execFetchFault, execFairnessRotation, execPendingResultLands, execHandlerStart, execGroupPark,
      execGroupWake, execRotationEnd, execLeaseExpiry, execSensorSample, execPowerStop, execPowerStopEnd]
    (repeat' split) <;> simp
  case safePointDistanceFault => exact execSafePointDistanceFault_cells ..
  all_goals exact absurd h Bool.false_ne_true

/-! ## Memory's canonical form -/

/-- Memory's form is kept from one state to a later one. -/
def State.KeepsForm (s t : State) : Prop := s.memWf → t.memWf

theorem State.KeepsForm.of_cells {s t : State} (h : t.mem.cells = s.mem.cells) : s.KeepsForm t :=
  fun hs => (congrArg cwf h).trans hs

theorem State.KeepsForm.trans {s t u : State} (h : s.KeepsForm t) (k : t.KeepsForm u) : s.KeepsForm u := k ∘ h

theorem Answers.form {s : State} {r : Result} (h : Answers (fun t => t.mem.cells = s.mem.cells) r) :
    Answers s.KeepsForm r :=
  h.imp fun _ => .of_cells

/-! ### What writes bytes (R272, R296, R391) -/

theorem State.clearBank_form (s : State) (grid : Nat) : s.KeepsForm (s.clearBank grid) := s.clearBank_wf grid

theorem State.acceptLaunch_form (s : State) (q : Queued) (img : Image) : s.KeepsForm (s.acceptLaunch q img) := by
  simp only [State.acceptLaunch]
  split
  · exact .of_cells (by simp)
  · refine State.KeepsForm.trans (.of_cells ?queued) (State.KeepsForm.trans
      (State.clearBank_form ({ s with queues := setAt List.tail q.launch.queue s.queues } : State).newUid.2 s.clock.uid)
      (.of_cells ?placed))
    case queued => rfl
    case placed =>
      simp only [State.placeCarve_cells]
      split <;> rfl

theorem State.dropGrid_form {s t : State} (h : t.mem.cells = s.mem.cells) (grid : Nat) :
    s.KeepsForm (t.dropGrid grid) :=
  fun hs => State.clearBank_wf t grid (State.KeepsForm.of_cells h hs)

theorem State.checkBundle_form (s : State) : s.KeepsForm s.checkBundle := by
  intro hs
  simp only [State.checkBundle]
  split
  · exact hs
  · split
    · exact hs
    · split
      · exact hs
      · split
        · exact Memory.loadBundle_wf _ _ hs
        · exact hs

theorem State.takeBundle_form (s : State) (msg : CtlMsg) : s.KeepsForm (s.takeBundle msg) := by
  simp only [State.takeBundle]
  exact fun hs => State.checkBundle_form _ hs

theorem exec_form_of_writesBytes (i : Instr) (s : State) (h : writesBytes i = true) :
    Answers s.KeepsForm (exec i s) := by
  have same : s.KeepsForm s := id
  cases i
  case launchQueueHead =>
    simp only [exec, execLaunchQueueHead]
    split
    · exact .next same
    · refine .ite (.next same) ?_
      split
      · exact .next (.of_cells (by simp))
      · exact .next same
      · exact .ite (.next (State.acceptLaunch_form s _ _)) (.next same)
  case carveoutWaitEnd =>
    simp only [exec, execCarveoutWaitEnd]
    split
    · exact .next same
    · split
      · exact .next same
      · exact .ite (.next (State.acceptLaunch_form s _ _)) (.next same)
  case gridCompletion =>
    simp only [exec, execGridCompletion]
    split
    · exact .next same
    · exact .ite (.next (State.dropGrid_form (by simp) _)) (.next same)
  case gridTerminationDone =>
    simp only [exec, execGridTerminationDone]
    split
    · exact .next same
    · exact .ite (.next (State.dropGrid_form (by simp) _)) (.next same)
  case serviceablePageMapped grid va ok entry =>
    simp only [exec, execServiceablePageMapped]
    split
    · exact .next same
    next entryAt low len _ =>
      refine .ite (.next ?_) (.next (.of_cells (by simp)))
      exact State.KeepsForm.trans (s.writeEntry_wf entryAt entry.toNat) (.of_cells (by simp))
  case powerGood => exact .next fun _ => State.reset_wf
  case boardReset => exact .next s.cleared_wf
  case bootdata =>
    simp only [exec, execBootdata]
    refine .ite (.next (.of_cells (by simp))) ?_
    split
    · exact .next (s.takeBundle_form _)
    · exact .next same
  all_goals exact absurd h Bool.false_ne_true

/-- R20, R280, R281, R343: every instruction, message and event goes on, and keeps memory's form. -/
theorem exec_form (i : Instr) (s : State) : Answers s.KeepsForm (exec i s) := by
  cases hc : i.isCore with
  | true =>
    cases hs : i.sendsUpdate with
    | true => exact ((exec_sends i s hs).imp fun _ => State.Sends.cells).form
    | false =>
      cases hm : i.mapsPage with
      | true => exact (exec_maps i s hm).imp fun _ => State.Maps.wf
      | false => exact ((exec_calm i s hc hs hm).imp fun _ k => k.cells).form
  | false =>
    cases hw : i.hasWord with
    | true => exact (exec_cells_of_script i s (by simp [hc, hw])).form
    | false =>
      cases hb : writesBytes i with
      | true => exact exec_form_of_writesBytes i s hb
      | false => exact (exec_cells_of_event i s (by simp [keepsBytes, hc, hw, hb])).form

/-! ### A step -/

theorem State.takeMessage_form (s : State) (msg : CtlMsg) : Answers s.KeepsForm (s.takeMessage msg) := by
  unfold State.takeMessage
  cases decodeMessage msg with
  | launch => exact exec_form (.launch msg) s
  | read => exact exec_form (.read msg) s
  | write => exact exec_form (.write msg) s
  | tinval => exact exec_form (.tinval msg) s
  | terminate => exact exec_form (.terminate msg) s
  | debugAttach => exact exec_form (.debugAttach msg) s
  | debugDetach => exact exec_form (.debugDetach msg) s
  | debugHalt => exact exec_form (.debugHalt msg) s
  | debugResume => exact exec_form (.debugResume msg) s
  | debugReadRegister => exact exec_form (.debugReadRegister msg) s
  | debugWriteRegister => exact exec_form (.debugWriteRegister msg) s
  | mgmtThresholds => exact exec_form (.mgmtThresholds msg) s
  | mgmtAgeingQuantum => exact exec_form (.mgmtAgeingQuantum msg) s
  | mgmtParkDelay => exact exec_form (.mgmtParkDelay msg) s
  | mgmtSpdistCap => exact exec_form (.mgmtSpdistCap msg) s
  | mgmtPowerLimit => exact exec_form (.mgmtPowerLimit msg) s
  | mgmtReadCounters => exact exec_form (.mgmtReadCounters msg) s
  | mgmtRaiseSvn => exact exec_form (.mgmtRaiseSvn msg) s
  | mgmtReservedBase => exact exec_form (.mgmtReservedBase msg) s
  | attest => exact exec_form (.attest msg) s
  | devrsp => exact exec_form (.devrsp msg) s
  | bootdata => exact exec_form (.bootdata msg) s
  | unknownMtype => exact exec_form (.unknownMtype msg) s

theorem State.takeEnv_form (s : State) : ∀ e : Env, Answers s.KeepsForm (s.takeEnv e)
  | .powerGood => exec_form .powerGood s
  | .boardReset => exec_form .boardReset s
  | .firmwareReady n blocks => exec_form (.firmwareReady n blocks) s
  | .ringPageMapped grid ok => exec_form (.ringPageMapped grid ok) s
  | .serviceablePageMapped grid va ok entry => exec_form (.serviceablePageMapped grid va ok entry) s
  | .firmwarePolicy _ _ => .next (.of_cells (by split <;> rfl))
  | .portTol _ _ => .next (.of_cells (by simp))
  | .sensorSample core temp watts => exec_form (.sensorSample core temp watts) s
  | .powerStop watts => exec_form (.powerStop watts) s
  | .powerStopEnd watts => exec_form (.powerStopEnd watts) s
  | .migrationRequest src dst => exec_form (.migrationRequest src dst) s
  | .circuitGrant port peerPort setup => exec_form (.circuitGrant port peerPort setup) s
  | .brokerRefusal port code => exec_form (.brokerRefusal port code) s
  | .lightDetected port => exec_form (.lightDetected port) s
  | .lockAchieved port => exec_form (.lockAchieved port) s
  | .trainingDone port rank => exec_form (.trainingDone port rank) s
  | .portWake port => exec_form (.portWake port) s
  | .laneFailure channel lanes => exec_form (.laneFailure channel lanes) s
  | .retrainEnd channel => exec_form (.retrainEnd channel) s
  | .lightLoss port => exec_form (.lightLoss port) s
  | .ucieFailure port => exec_form (.ucieFailure port) s
  | .elinkDown link => exec_form (.elinkDown link) s
  | .electricalLinkTrained link rank => exec_form (.electricalLinkTrained link rank) s
  | .flitReceive channel flit => exec_form (.flitReceive channel flit) s
  | .speculativeLineError core group => exec_form (.speculativeLineError core group) s
  | .peerRelease port => exec_form (.peerRelease port) s
  | .peerFault port => exec_form (.peerFault port) s
  | .rankReport channel rank => exec_form (.rankReport channel rank) s
  | .softError e => .next (.of_cells (s.soften_cells e))

theorem State.takeInput_form (s : State) : ∀ i : Input, Answers s.KeepsForm (s.takeInput i)
  | .message bs => s.takeMessage_form (CtlMsg.parse bs)
  | .env e => s.takeEnv_form e

theorem Ev.run_form (s : State) : ∀ e : Ev, Answers s.KeepsForm (e.run s)
  | .powerGood => exec_form .powerGood s
  | .settle => .next (.of_cells s.settleAll_cells)
  | .ksleepExpiry n => exec_form (.ksleepExpiry n) s
  | .cwaitTimeout n => exec_form (.cwaitTimeout n) s
  | .launchQueueHead q => exec_form (.launchQueueHead q) s
  | .carveoutWaitEnd q => exec_form (.carveoutWaitEnd q) s
  | .devrspTimeout r => exec_form (.devrspTimeout r) s
  | .gridCompletion g => exec_form (.gridCompletion g) s
  | .gridTerminationDone g => exec_form (.gridTerminationDone g) s
  | .candidatePlacement t => exec_form (.candidatePlacement t) s
  | .taskDispatch r => exec_form (.taskDispatch r) s
  | .spillRefill g => exec_form (.spillRefill g) s
  | .fairnessRotation g => exec_form (.fairnessRotation g) s
  | .rotationEnd g => exec_form (.rotationEnd g) s
  | .pendingResultLands r => exec_form (.pendingResultLands r) s
  | .fenceRelease g w => exec_form (.fenceRelease g w) s
  | .twaitRelease g => exec_form (.twaitRelease g) s
  | .handlerStart g => exec_form (.handlerStart g) s
  | .trackerEntryFree c g => exec_form (.trackerEntryFree c g) s
  | .successorDecrement c g => exec_form (.successorDecrement c g) s
  | .companionRetry r => exec_form (.companionRetry r) s
  | .heldRecordRetry g => exec_form (.heldRecordRetry g) s
  | .groupPark g => exec_form (.groupPark g) s
  | .groupWake g => exec_form (.groupWake g) s
  | .timeSliceExpiry t => exec_form (.timeSliceExpiry t) s
  | .preemptionRequest t => exec_form (.preemptionRequest t) s
  | .teamSave t => exec_form (.teamSave t) s
  | .saveComplete t => exec_form (.saveComplete t) s
  | .teamRestore t => exec_form (.teamRestore t) s
  | .migrationTransferDone c => exec_form (.migrationTransferDone c) s
  | .leaseExpiry c b => exec_form (.leaseExpiry c b) s
  | .ingressWriteback l => exec_form (.ingressWriteback l) s
  | .engineRunDelivered c h => exec_form (.engineRunDelivered c h) s
  | .engineCompletion c h => exec_form (.engineCompletion c h) s
  | .circuitBarrierMatch c h => exec_form (.circuitBarrierMatch c h) s
  | .atloadComplete c b => exec_form (.atloadComplete c b) s
  | .bloadTurn c => exec_form (.bloadTurn c) s
  | .mmaStep c => exec_form (.mmaStep c) s
  | .acstTurn c => exec_form (.acstTurn c) s
  | .matrixQueueTurn c => exec_form (.matrixQueueTurn c) s
  | .lightTimeout p => exec_form (.lightTimeout p) s
  | .lockTimeout p => exec_form (.lockTimeout p) s
  | .trainingTimeout p => exec_form (.trainingTimeout p) s
  | .liveHandshakeDone p => exec_form (.liveHandshakeDone p) s
  | .portDoze p => exec_form (.portDoze p) s
  | .portNap p => exec_form (.portNap p) s
  | .portWake p => .ite (exec_form (.portWake p) s) (.next id)
  | .drainEnd p => exec_form (.drainEnd p) s
  | .drainTimeout p => exec_form (.drainTimeout p) s
  | .retrainTimeout c => exec_form (.retrainTimeout c) s
  | .retryTimeout c => exec_form (.retryTimeout c) s
  | .packetReceive c bs => exec_form (.packetReceive c bs) s
  | .cuttingWaitExpiry r => exec_form (.cuttingWaitExpiry r) s
  | .ctgetTurn c h => exec_form (.ctgetTurn c h) s
  | .ctpostTurn c h => exec_form (.ctpostTurn c h) s
  | .commitWritebackDone g => exec_form (.commitWritebackDone g) s
  | .speculativeRoomSquash c => exec_form (.speculativeRoomSquash c) s

theorem State.tryEvent_form {s t : State} {e : Ev} (h : s.tryEvent e = some t) : s.KeepsForm t := by
  obtain ⟨u, hu, hk⟩ := e.run_form s
  rw [State.tryEvent, hu] at h
  dsimp only at h
  split at h
  · exact nomatch h
  · exact Option.some.inj h ▸ hk

theorem tryEvents_form {s t : State} {es : List Ev} (h : es.findSome? s.tryEvent = some t) : s.KeepsForm t := by
  obtain ⟨e, _, he⟩ := List.exists_of_findSome?_eq_some h
  exact State.tryEvent_form he

theorem State.tickOn_form (s : State) : s.KeepsForm s.tickOn := by
  intro hs
  have folded : cwf (s.mem.dropPassing.fold ((s.clock.tick + 1) / 2)).cells = true := Memory.fold_wf _ _ hs
  simpa [State.tickOn, State.memWf, Memory.wf, State.gtime] using folded

/-- The turn of the next slot is no part of memory's form. -/
theorem Answers.turned {s : State} {r : Result} (h : Answers s.KeepsForm r) (k : Nat) :
    Answers s.KeepsForm (turned k r) := by
  obtain ⟨t, rfl, ht⟩ := h
  exact .next (ht.trans (.of_cells rfl))

theorem afterIssue_form {s now : State} {g : Group} {r : Result} (h : Answers now.KeepsForm r)
    (hn : now.mem.cells = s.mem.cells) :
    Answers s.KeepsForm (afterIssue s g r) := by
  obtain ⟨t, rfl, ht⟩ := h
  refine .next (State.KeepsForm.trans (.of_cells hn) (ht.trans (.of_cells ?_)))
  split <;> rfl

theorem stepGroup_form (s : State) (g : Group) (pc : Addr) : Answers s.KeepsForm (stepGroup s g pc) := by
  simp only [stepGroup]
  split
  · exact .next (.of_cells (by simp))
  · exact .next (.of_cells rfl)
  · exact afterIssue_form (exec_form (.fetchFault g.uid) _) rfl
  · refine afterIssue_form (now := ({ s with cur := g.uid } : State).fetched g pc) ?_ (by simp)
    split
    · exact exec_form ..
    · exact exec_form .illegalInstruction _
    · exact (execIllegalWord_cells _).form

theorem stepCtx_form (s : State) (n : Nat) : Answers s.KeepsForm (stepCtx s n) := by
  have executed (i : Instr) : Answers s.KeepsForm (exec i { s with curCtx := n }) :=
    (exec_form i _).imp fun _ => State.KeepsForm.trans (.of_cells rfl)
  -- The function is unfolded by itself: of its value the kernel would reduce the fetch.
  generalize hf : stepCtx = turn
  delta stepCtx at hf
  subst hf
  dsimp only
  generalize State.scriptFetch _ _ = f
  cases f with
  | page va => exact .next (.of_cells (by simp))
  | later t => exact .next (.of_cells (by simp))
  | fault c => exact executed (.scriptIllegalWord n)
  | word w =>
    dsimp only
    generalize decodeScript w = d
    cases d with
    | ok i => exact executed _
    | _ => exact executed (.scriptIllegalWord n)

theorem stepComing_form {s : State} {r : Result} (h : stepComing s = some r) : Answers s.KeepsForm r := by
  simp only [stepComing] at h
  split at h
  next i left _ =>
    obtain rfl := Option.some.inj h
    exact (State.takeInput_form { s with inputs := left } i).turned _
  · obtain ⟨t, ht, rfl⟩ := Option.map_eq_some_iff.mp h
    exact .next (State.KeepsForm.trans (tryEvents_form ht) (.of_cells rfl))

theorem stepRest_form (s : State) : Answers s.KeepsForm (stepRest s) := by
  simp only [stepRest]
  split
  next ht => exact .next (State.KeepsForm.trans (tryEvents_form ht) (.of_cells rfl))
  · exact .next s.tickOn_form

theorem stepAfter_form (s : State) : Answers s.KeepsForm (stepAfter s) := by
  simp only [stepAfter]
  split
  next h => exact stepComing_form h
  · split
    · exact (stepCtx_form ..).turned _
    · exact stepRest_form s

theorem step_form (s : State) : Answers s.KeepsForm (step s) := by
  simp only [step]
  split
  · split
    · exact stepGroup_form ..
    · exact stepAfter_form s
  · exact stepAfter_form s

end Sys2Proof.Machine

namespace Sys2Proof

open Machine

/-- Settles O60: every instruction, message and event goes on and keeps memory's form, and so does the passing of
time. -/
theorem everyStepGoesOnAndKeepsMemoryCanonical : Obligations.EveryStepGoesOnAndKeepsMemoryCanonical := by
  unfold Obligations.EveryStepGoesOnAndKeepsMemoryCanonical
  intro s hs
  obtain ⟨t, ht, hk⟩ := step_form s
  exact ⟨t, ht, hk hs⟩

end Sys2Proof
end

section
/-!
PROOFS. The lanes of an issue: masks, the chosen group, what the books of an issue leave of it,
    and the lanes that fail a
check beside those that pass (R20, R21, R65, R318, R319).
-/

-- One proof after another: each that waits beside others holds a stack of its own.
set_option Elab.async false

namespace Sys2Proof.Machine

/-! ## Masks, lanes and groups -/

theorem ofNat_pow_getLsbD (i k : Nat) : (BitVec.ofNat 32 (2 ^ i)).getLsbD k = (decide (k < 32) && decide (i = k)) := by
  rw [BitVec.getLsbD_ofNat, Nat.testBit_two_pow]

theorem maskFrom_getLsbD (p : Nat → Lane → Bool) (ls : List Lane) (i k : Nat) :
    (maskFrom p i ls).getLsbD k = (decide (k < 32) && (decide (i ≤ k) && (ls[k - i]?).any (p k))) := by
  induction ls generalizing i with
  | nil => simp [maskFrom]
  | cons l ls ih =>
    have hl :
      (if p i l then BitVec.ofNat 32 (2 ^ i) else 0).getLsbD k = (p i l && (decide (k < 32) && decide (i = k))) := by
      cases p i l with
      | false => simp
      | true => rw [if_pos rfl, ofNat_pow_getLsbD, Bool.true_and]
    rw [maskFrom, BitVec.getLsbD_or, hl, ih]
    rcases Nat.lt_trichotomy i k with h | h | h
    · obtain ⟨j, rfl⟩ : ∃ j, k = i + 1 + j := ⟨k - (i + 1), by omega⟩
      have h1 : i + 1 + j - (i + 1) = j := by omega
      have h2 : i + 1 + j - i = j + 1 := by omega
      simp [h1, h2, show ¬ i = i + 1 + j by omega, show i ≤ i + 1 + j by omega]
    · subst h
      simp [show ¬ i + 1 ≤ i by omega, Bool.and_comm]
    · simp [show ¬ i = k by omega, show ¬ i ≤ k by omega, show ¬ i + 1 ≤ k by omega]

/-- The lanes of which `p` holds. -/
theorem Group.maskOf_getLsbD (g : Group) (p : Nat → Lane → Bool) (k : Nat) :
    (g.maskOf p).getLsbD k = (decide (k < 32) && (g.lanes[k]?).any (p k)) := by
  simp [Group.maskOf, maskFrom_getLsbD]

theorem Group.onLanes_lane (g : Group) (mask : BitVec 32) (f : Nat → Lane → Lane) (k : Nat) :
    (g.onLanes mask f).lanes[k]? = (g.lanes[k]?).map fun l => if mask.getLsbD k then f k l else l := by
  simp [Group.onLanes, mapFrom_getElem?]

theorem Group.onLanes_length (g : Group) (mask : BitVec 32) (f : Nat → Lane → Lane) :
    (g.onLanes mask f).lanes.length = g.lanes.length := mapFrom_length ..

@[simp] theorem Group.onLanes_none (g : Group) (f : Nat → Lane → Lane) : g.onLanes 0 f = g := by
  have h : (g.onLanes 0 f).lanes = g.lanes := by
    refine List.ext_getElem? fun k => ?_
    rw [Group.onLanes_lane]
    simp
  exact congrArg (fun ls => { g with lanes := ls }) h

/-! ## Groups by uid -/

theorem State.group?_uid {s : State} {u : Nat} {g : Group} (h : s.group? u = some g) : g.uid = u := by
  simpa using List.find?_some h

theorem find?_map_same {gs : List Group} {u : Nat} {f : Group → Group} {g : Group}
    (h : gs.find? (·.uid == u) = some g) (hf : (f g).uid = u) :
    (gs.map fun g => if g.uid = u then f g else g).find? (·.uid == u) = some (f g) := by
  induction gs with
  | nil => cases h
  | cons a gs ih =>
    rw [List.map_cons]
    by_cases ha : a.uid = u
    · rw [List.find?_cons_of_pos (by simpa using ha)] at h
      obtain rfl : a = g := Option.some.inj h
      rw [if_pos ha, List.find?_cons_of_pos (by simpa using hf)]
    · rw [List.find?_cons_of_neg (by simpa using ha)] at h
      rw [if_neg ha, List.find?_cons_of_neg (by simpa using ha)]
      exact ih h

theorem find?_map_other {gs : List Group} {u v : Nat} {f : Group → Group} (hf : ∀ g, g.uid = u → (f g).uid = u)
    (h : v ≠ u) : (gs.map fun g => if g.uid = u then f g else g).find? (·.uid == v) = gs.find? (·.uid == v) := by
  induction gs with
  | nil => rfl
  | cons a gs ih =>
    rw [List.map_cons]
    by_cases ha : a.uid = u
    · have hv : ¬ a.uid = v := fun he => h (he.symm.trans ha)
      rw [if_pos ha, List.find?_cons_of_neg (by simpa [hf a ha] using Ne.symm h),
        List.find?_cons_of_neg (by simpa using hv),
        ih]
    · rw [if_neg ha, List.find?_cons, List.find?_cons, ih]

theorem State.modGroup_group?_same {s : State} {u : Nat} {f : Group → Group} {g : Group} (h : s.group? u = some g)
    (hf : (f g).uid = u) : (s.modGroup u f).group? u = some (f g) := find?_map_same h hf

theorem State.modGroup_group?_other {s : State} {u v : Nat} {f : Group → Group} (hf : ∀ g, g.uid = u → (f g).uid = u)
    (h : v ≠ u) : (s.modGroup u f).group? v = s.group? v := find?_map_other hf h

/-! ## What the group of an issue shows -/

@[simp] theorem Group.seen_lanes (g : Group) : g.seen.lanes = g.lanes := by unfold Group.seen; split <;> rfl
@[simp] theorem Group.seen_uid (g : Group) : g.seen.uid = g.uid := by unfold Group.seen; split <;> rfl
@[simp] theorem Group.seen_team (g : Group) : g.seen.team = g.team := by unfold Group.seen; split <;> rfl
@[simp] theorem Group.seen_grid (g : Group) : g.seen.grid = g.grid := by unfold Group.seen; split <;> rfl
@[simp] theorem Group.seen_stubs (g : Group) : g.seen.stubs = g.stubs := by unfold Group.seen; split <;> rfl
@[simp] theorem Group.seen_redo? (g : Group) : g.seen.redo? = g.redo? := by simp [Group.redo?]

theorem Group.seen_of_no_redo {g : Group} (h : g.redo? = none) : g.seen = g := by simp [Group.seen, h]

/-- Where an issue takes place: the chosen group as it is seen, its address and its active lanes. -/
theorem State.site?_group {s : State} {x : Site} (h : s.site? = some x) :
    ∃ g, s.group? s.cur = some g ∧ x.g = g.seen ∧ x.mask = g.activeMask x.pc := by
  unfold State.site? at h
  split at h
  · cases h
  next g hg =>
    split at h
    · obtain rfl := Option.some.inj h
      exact ⟨g, hg, rfl, rfl⟩
    · cases h

theorem State.site?_uid {s : State} {x : Site} (h : s.site? = some x) : x.g.uid = s.cur := by
  obtain ⟨g, hg, hx, -⟩ := State.site?_group h
  rw [hx, Group.seen_uid, State.group?_uid hg]

/-- The chosen group, where no access of it is repeated. -/
theorem State.site?_group_plain {s : State} {x : Site} (h : s.site? = some x) (hr : x.g.redo? = none) :
    s.group? x.g.uid = some x.g := by
  obtain ⟨g, hg, hx, -⟩ := State.site?_group h
  rw [State.site?_uid h, hg]
  rw [hx, Group.seen_redo?] at hr
  rw [hx, Group.seen_of_no_redo hr]

/-- An active lane has a number below 32, stands in the group and is in RUN. -/
theorem State.site?_active {s : State} {x : Site} (h : s.site? = some x) {k : Nat} (hk : x.mask.getLsbD k = true) :
    k < 32 ∧ ∃ l, x.g.lanes[k]? = some l ∧ l.running = true := by
  obtain ⟨g, -, hx, hm⟩ := State.site?_group h
  rw [hm, Group.activeMask, Group.maskOf_getLsbD] at hk
  obtain ⟨hk, hl⟩ := Bool.and_eq_true_iff.mp hk
  obtain ⟨l, hl, hc⟩ := (Option.any_eq_true ..).mp hl
  refine ⟨of_decide_eq_true hk, l, by rw [hx, Group.seen_lanes, hl], ?_⟩
  simp only [Group.counts, Bool.and_eq_true] at hc
  exact hc.1.1.1.1.1

/-- A lane that fails is an active one with a cause. -/
theorem faultMask_getLsbD (x : Site) (f : Nat → Lane → Option Cause) (k : Nat) :
    (faultMask x f).getLsbD k =
      (decide (k < 32) && (x.g.lanes[k]?).any fun l => x.mask.getLsbD k && (f k l).isSome) := by
  simp [faultMask, Group.maskOf_getLsbD]

/-! ## What an issue does to its group -/

/-- What every instruction on registers leaves of a group: its name, its place in the grid and its settings. -/
structure Group.Settled (g g' : Group) : Prop where
  uid : g'.uid = g.uid
  team : g'.team = g.team
  grid : g'.grid = g.grid
  tdescs : g'.tdescs = g.tdescs
  fpmode : g'.fpmode = g.fpmode
  pprom : g'.pprom = g.pprom
  fairtime : g'.fairtime = g.fairtime
  leaseovr : g'.leaseovr = g.leaseovr
  atbank : g'.atbank = g.atbank
  stackLimit : g'.stackLimit = g.stackLimit
  length : g'.lanes.length = g.lanes.length

theorem Group.Settled.refl (g : Group) : g.Settled g := ⟨rfl, rfl, rfl, rfl, rfl, rfl, rfl, rfl, rfl, rfl, rfl⟩

theorem Group.Settled.trans {a b c : Group} (h : a.Settled b) (k : b.Settled c) : a.Settled c :=
  ⟨k.uid.trans h.uid, k.team.trans h.team, k.grid.trans h.grid, k.tdescs.trans h.tdescs, k.fpmode.trans h.fpmode,
    k.pprom.trans h.pprom, k.fairtime.trans h.fairtime, k.leaseovr.trans h.leaseovr, k.atbank.trans h.atbank,
    k.stackLimit.trans h.stackLimit, k.length.trans h.length⟩

theorem Group.onLanes_settled (g : Group) (mask : BitVec 32) (f : Nat → Lane → Lane) : g.Settled (g.onLanes mask f) :=
  ⟨rfl, rfl, rfl, rfl, rfl, rfl, rfl, rfl, rfl, rfl, g.onLanes_length mask f⟩

@[simp] theorem Group.onLanes_uid (g : Group) (mask : BitVec 32) (f : Nat → Lane → Lane) :
    (g.onLanes mask f).uid = g.uid := rfl

section
variable (g : Group) (pc : Addr) (mask : BitVec 32) (m : Bool) (kind : IssueKind) (past : Bool) (stamp : Nat)
  (now : Group)

theorem Group.fair_lanes : (g.fair pc kind now).lanes = now.lanes := by
  unfold Group.fair
  (repeat' split) <;> rfl

theorem Group.fair_uregs : (g.fair pc kind now).uregs = now.uregs := by
  unfold Group.fair
  (repeat' split) <;> rfl

theorem Group.fair_upend : (g.fair pc kind now).upend = now.upend := by
  unfold Group.fair
  (repeat' split) <;> rfl

theorem Group.fair_settled : now.Settled (g.fair pc kind now) := by
  unfold Group.fair
  (repeat' split) <;> exact ⟨rfl, rfl, rfl, rfl, rfl, rfl, rfl, rfl, rfl, rfl, rfl⟩

/-- The books of an issue keep what the group is and how it is set. -/
theorem Group.book_settled : now.Settled (g.book pc mask m kind past stamp now) := by
  let started : Group := { now with lastIssue := stamp, blocked := false, noRoom := false, standing := none }
  have start : now.Settled started := ⟨rfl, rfl, rfl, rfl, rfl, rfl, rfl, rfl, rfl, rfl, rfl⟩
  have fair : now.Settled (g.fair pc kind started) := start.trans (Group.fair_settled ..)
  unfold Group.book
  dsimp only
  split
  · exact start.trans (Group.onLanes_settled ..)
  · split
    · exact fair.trans ⟨rfl, rfl, rfl, rfl, rfl, rfl, rfl, rfl, rfl, rfl, rfl⟩
    · exact (fair.trans (Group.onLanes_settled ..)).trans ⟨rfl, rfl, rfl, rfl, rfl, rfl, rfl, rfl, rfl, rfl, rfl⟩

@[simp] theorem Group.book_uid : (g.book pc mask m kind past stamp now).uid = now.uid :=
  (Group.book_settled ..).uid

@[simp] theorem Group.book_uregs : (g.book pc mask m kind past stamp now).uregs = now.uregs := by
  unfold Group.book
  dsimp only
  split
  · rfl
  · split <;> exact Group.fair_uregs ..

@[simp] theorem Group.book_upend : (g.book pc mask m kind past stamp now).upend = now.upend := by
  unfold Group.book
  dsimp only
  split
  · rfl
  · split <;> exact Group.fair_upend ..

/-- Of its lanes, the books of an issue change what the active ones keep of safe points and of a repeated access. -/
theorem Group.book_lane (k : Nat) : ∃ (a : Lane → Bool) (r : Lane → Option Redo),
    (g.book pc mask m kind past stamp now).lanes[k]? =
      (now.lanes[k]?).map fun l => if mask.getLsbD k then { l with atSafe := a l, redo := r l } else l := by
  unfold Group.book
  dsimp only
  split
  · refine ⟨fun l => l.atSafe, fun l => if l.service.isSome then l.redo else none, ?_⟩
    rw [Group.onLanes_lane]
  · split
    · refine ⟨fun l => l.atSafe, fun l => l.redo, ?_⟩
      simp [Group.fair_lanes]
    · refine ⟨fun l => kind.safe && !l.trapped && !l.isDone, fun l => l.redo, ?_⟩
      rw [Group.onLanes_lane, Group.fair_lanes]

end

theorem State.modGroup_of_same (s : State) (u : Nat) {f : Group → Group} (h : ∀ g, f g = g) : s.modGroup u f = s := by
  have hid : (fun g : Group => if g.uid = u then f g else g) = id := funext fun g => by rw [h, ite_self, id]
  rw [State.modGroup, hid, List.map_id]

/-- What a fault makes of a lane of the site. -/
def Site.trapAt (x : Site) (fault : Nat → Lane → Option Cause) (i : Nat) (l : Lane) : Lane :=
  match fault i l with
  | none => l
  | some c => l.trap x.pc (!x.g.stubs.isEmpty) c

theorem maskFrom_none (p : Nat → Lane → Bool) (g : Group) (h : ∀ i l, g.lanes[i]? = some l → p i l = false) :
    g.maskOf p = 0 :=
  maskFrom_zero p _ 0 fun i l hl => by rw [Nat.zero_add]; exact h i l hl

/-- Faults outside handler mode put their lanes into TRAP, and nothing else (R319). -/
theorem State.raise_of_no_handler (s : State) (x : Site) (bad : BitVec 32) (fault : Nat → Lane → Option Cause)
    (h : ∀ i l, x.g.lanes[i]? = some l → bad.getLsbD i = true → l.handler = false) :
    s.raise x bad fault = s.modGroup x.g.uid fun g => g.onLanes bad (x.trapAt fault) := by
  have h0 : x.g.maskOf (fun i l => bad.getLsbD i && l.handler) = 0 := maskFrom_none _ _ fun i l hl => by
    cases hb : bad.getLsbD i with
    | false => rfl
    | true => exact h i l hl hb
  unfold State.raise
  simp only [h0, if_true]
  rfl

/-- The lanes of an operation's issue that fail, and those that pass. -/
def Op.bad (o : Op) (s : State) (x : Site) : BitVec 32 := faultMask x (o.faultOf s.fw.spdistCap x)

def Op.good (o : Op) (s : State) (x : Site) : BitVec 32 := x.mask &&& ~~~o.bad s x

/-- The state in which an operation has its effect: the lanes that fail stand in TRAP, the others have gone on. -/
def Op.faulted (o : Op) (s : State) (x : Site) : State :=
  s.modGroup x.g.uid fun g => g.onLanes (o.bad s x) (x.trapAt (o.faultOf s.fw.spdistCap x))

/-- The books of an issue, over the whole state. -/
def Op.booked (o : Op) (s : State) (x : Site) (t : State) : State :=
  let t := t.modGroup x.g.uid
    (x.g.book x.pc x.mask o.m o.kind (overDistance s.fw.spdistCap x o.kind) s.clock.stamp)
  { t with clock := { t.clock with stamp := t.clock.stamp + 1 } }

/-- No lane of the site is in handler mode. -/
def Site.NoHandler (x : Site) : Prop := ActiveLanes x fun _ l => l.handler = false

/-- The instruction is not issued (R193). -/
def Op.isHeld (o : Op) (s : State) (x : Site) : Bool := o.wait x || (o.good s x != 0 && o.hold x (o.good s x))

theorem Op.issue_held_eq (o : Op) {s : State} {x : Site} (hx : s.site? = some x) (hh : o.isHeld s x = true) :
    o.issue s = .next (o.onHold x (o.good s x) (s.modGroup x.g.uid fun g => { g with blocked := true })) := by
  rw [Op.isHeld, Op.good, Op.bad] at hh
  simp only [Op.issue, hx, hh, if_true]
  rfl

/-- An issue outside handler mode that is not held: faults, effect, books. -/
theorem Op.issue_not_held (o : Op) {s : State} {x : Site} (hx : s.site? = some x) (hn : x.NoHandler)
    (hh : o.isHeld s x = false) :
    o.issue s = .next (o.booked s x
      (if o.good s x = 0 then o.faulted s x else o.effect x (o.good s x)
        ((o.faulted s x).advance x (o.good s x)))) := by
  have hr : (if o.bad s x = 0 then s else s.raise x (o.bad s x) (o.faultOf s.fw.spdistCap x)) = o.faulted s x := by
    split
    next h0 =>
      exact (s.modGroup_of_same _ fun g => by rw [h0, Group.onLanes_none]).symm
    · refine s.raise_of_no_handler x _ _ fun i l hl hb => hn i l hl ?_
      rw [Op.bad, faultMask_getLsbD, hl] at hb
      simp only [Option.any_some, Bool.and_eq_true] at hb
      exact hb.2.1
  rw [Op.isHeld, Op.good, Op.bad] at hh
  simp only [Op.issue, hx, hh, Bool.false_eq_true, if_false]
  congr 1
  rw [← hr]
  rfl

theorem Op.issue_performed (o : Op) {s : State} {x : Site} (hx : s.site? = some x) (hn : x.NoHandler)
    (hw : o.wait x = false) (hh : o.hold x (o.good s x) = false) :
    o.issue s = .next (o.booked s x
      (if o.good s x = 0 then o.faulted s x else o.effect x (o.good s x) ((o.faulted s x).advance x (o.good s x)))) :=
  o.issue_not_held hx hn (by rw [Op.isHeld, hw, hh, Bool.and_false, Bool.or_false])

theorem State.onLanes_group? {s : State} {u : Nat} {g : Group} (h : s.group? u = some g) (mask : BitVec 32)
    (f : Nat → Lane → Lane) : (s.modGroup u fun g => g.onLanes mask f).group? u = some (g.onLanes mask f) :=
  State.modGroup_group?_same h (show g.uid = u from State.group?_uid h)

theorem State.advance_group? {s : State} {x : Site} {g : Group} (h : s.group? x.g.uid = some g) (mask : BitVec 32) :
    (s.advance x mask).group? x.g.uid = some (g.onLanes mask fun _ l => { l with lpc := x.pc + 4 }) :=
  State.onLanes_group? h ..

theorem Op.bad_lane (o : Op) {s : State} {x : Site} (hx : s.site? = some x) {k : Nat} {l : Lane}
    (hl : x.g.lanes[k]? = some l) :
    (o.bad s x).getLsbD k = (x.mask.getLsbD k && (o.faultOf s.fw.spdistCap x k l).isSome) := by
  rw [Op.bad, faultMask_getLsbD, hl, Option.any_some]
  cases hm : x.mask.getLsbD k with
  | false => simp
  | true => simp [(State.site?_active hx hm).1]

theorem Op.good_lane (o : Op) {s : State} {x : Site} (hx : s.site? = some x) {k : Nat} {l : Lane}
    (hl : x.g.lanes[k]? = some l) :
    (o.good s x).getLsbD k = (x.mask.getLsbD k && (o.faultOf s.fw.spdistCap x k l).isNone) := by
  rw [Op.good, BitVec.getLsbD_and, BitVec.getLsbD_not, o.bad_lane hx hl]
  cases hm : x.mask.getLsbD k with
  | false => simp
  | true =>
    cases o.faultOf s.fw.spdistCap x k l <;> simp [(State.site?_active hx hm).1]

/-- What an operation that acts lane by lane makes of an active lane: a lane that fails is trapped, another goes on and
is changed. -/
def Op.laneAfter (o : Op) (s : State) (x : Site) (f : Nat → Lane → Lane) (k : Nat) (l : Lane) : Lane :=
  match o.faultOf s.fw.spdistCap x k l with
  | some c => l.trap x.pc (!x.g.stubs.isEmpty) c
  | none => f k { l with lpc := x.pc + 4 }

/-- The group before the books of an issue that acts lane by lane. -/
def Op.groupAfter (o : Op) (s : State) (x : Site) (f : Nat → Lane → Lane) (g : Group) : Group :=
  ((g.onLanes (o.bad s x) (x.trapAt (o.faultOf s.fw.spdistCap x))).onLanes (o.good s x)
    fun _ l => { l with lpc := x.pc + 4 }).onLanes (o.good s x) f

theorem Op.groupAfter_lane (o : Op) {s : State} {x : Site} (hx : s.site? = some x) (f : Nat → Lane → Lane) {k : Nat}
    {l : Lane} (hl : x.g.lanes[k]? = some l) :
    (o.groupAfter s x f x.g).lanes[k]? = some (if x.mask.getLsbD k then o.laneAfter s x f k l else l) := by
  simp only [Op.groupAfter, Group.onLanes_lane, hl, Option.map_some, o.bad_lane hx hl, o.good_lane hx hl, Op.laneAfter,
    Site.trapAt]
  cases x.mask.getLsbD k with
  | false => simp
  | true => cases o.faultOf s.fw.spdistCap x k l <;> simp

/-- The issue of an operation that acts lane by lane, outside handler mode and for the first time: each active lane is
trapped or changed, the others stay. -/
theorem Op.issue_lanes (o : Op) {s : State} {x : Site} (f : Nat → Lane → Lane) (hx : s.site? = some x)
    (hn : x.NoHandler) (hr : x.g.redo? = none) (hw : o.wait x = false) (hh : o.hold x (o.good s x) = false)
    (he : ∀ good t, good ≠ 0 → good = o.good s x → o.effect x good t = t.modGroup x.g.uid fun g => g.onLanes good f) :
    ∃ t g', o.issue s = .next t ∧ t.group? x.g.uid = some g' ∧ g'.uregs = x.g.uregs ∧ x.g.Settled g' ∧
      ∀ (k : Nat) (l : Lane), x.g.lanes[k]? = some l → ∃ a r, g'.lanes[k]? =
        some (if x.mask.getLsbD k then { o.laneAfter s x f k l with atSafe := a, redo := r } else l) := by
  have hg := State.site?_group_plain hx hr
  let after := o.groupAfter s x f x.g
  have settled : x.g.Settled after :=
    ((Group.onLanes_settled ..).trans (Group.onLanes_settled ..)).trans (Group.onLanes_settled ..)
  have effect : (if o.good s x = 0 then o.faulted s x
      else o.effect x (o.good s x) ((o.faulted s x).advance x (o.good s x))).group? x.g.uid = some after := by
    have bad : (o.faulted s x).group? x.g.uid = some _ := State.modGroup_group?_same hg rfl
    split
    next h0 => rw [bad]; simp only [after, Op.groupAfter, h0, Group.onLanes_none]
    next h0 =>
      rw [he _ _ h0 rfl]
      exact State.modGroup_group?_same (State.modGroup_group?_same bad rfl) rfl
  refine ⟨_, _, o.issue_performed hx hn hw hh, State.modGroup_group?_same effect (Group.book_uid ..),
    Group.book_uregs ..,
    settled.trans (Group.book_settled ..), fun k l hl => ?_⟩
  obtain ⟨a, r, hlane⟩ := Group.book_lane x.g x.pc x.mask o.m o.kind (overDistance s.fw.spdistCap x o.kind)
    s.clock.stamp after k
  rw [hlane, o.groupAfter_lane hx f hl]
  refine ⟨a (o.laneAfter s x f k l), r (o.laneAfter s x f k l), ?_⟩
  cases x.mask.getLsbD k <;> rfl

/-- The operands of an instruction on three vector registers, as the checks of R65 read them. -/
theorem operandFault_vs (x : Site) (l : Lane) (d a b : Nat) (ok : Bool) :
    operandFault x l { vs := [d, a, b] } ok =
      if x.img.va ≤ l.window + d ∨ x.img.va ≤ l.window + a ∨ x.img.va ≤ l.window + b then some (Cause.plain 6)
      else if l.window + d ∈ l.pend ∨ l.window + a ∈ l.pend ∨ l.window + b ∈ l.pend then some (Cause.plain 8)
      else if ok = true then none else some (Cause.plain 9) := by
  simp only [operandFault, outOfBounds, isPending, List.any_cons, List.any_nil, Bool.or_false, Bool.or_eq_true,
    decide_eq_true_eq, List.contains_iff_mem]
  rfl

/-- What an operand check that passes says. -/
theorem operandFault_none {x : Site} {l : Lane} {o : Operands} {ok : Bool} :
    operandFault x l o ok = none ↔ outOfBounds x l o = false ∧ isPending x l o = false ∧ ok = true := by
  unfold operandFault
  cases outOfBounds x l o <;> cases isPending x l o <;> cases ok <;> simp

/-- A word that does not decode: every active lane takes its exception (R74). -/
theorem decodeFault_lanes (c : Cause) {s : State} {x : Site} (hx : s.site? = some x) (hn : x.NoHandler)
    (hr : x.g.redo? = none) :
    ∃ t g', decodeFault c s = .next t ∧ t.group? x.g.uid = some g' ∧ g'.uregs = x.g.uregs ∧ x.g.Settled g' ∧
      ∀ (k : Nat) (l : Lane), x.g.lanes[k]? = some l → ∃ a r, g'.lanes[k]? =
        some (if x.mask.getLsbD k then { l.trap x.pc (!x.g.stubs.isEmpty) c with atSafe := a, redo := r } else l) :=
  Op.issue_lanes { m := false, kind := .plain, check := fun _ _ _ => some c, effect := fun _ _ s => s } (fun _ l => l)
    hx hn hr rfl rfl fun good t _ _ => (t.modGroup_of_same _ fun g => by
      have h : (g.onLanes good fun _ l => l).lanes = g.lanes := List.ext_getElem? fun k => by
        rw [Group.onLanes_lane]; simp
      exact congrArg (fun ls => { g with lanes := ls }) h).symm

/-- IADD, with lanes that fail and lanes that pass. -/
theorem iadd_lanes (m : Bool) (d a b : BitVec 7) {s : State} {x : Site} (hx : s.site? = some x) (hn : x.NoHandler)
    (hr : x.g.redo? = none) (hd : overDistance s.fw.spdistCap x .plain = false) :
    ∃ t g', exec (.iadd m d a b) s = .next t ∧ t.group? x.g.uid = some g' ∧ g'.uregs = x.g.uregs ∧ x.g.Settled g' ∧
      ∀ (k : Nat) (l : Lane), x.g.lanes[k]? = some l → ∃ safe redo, g'.lanes[k]? =
        some (if x.mask.getLsbD k then
          { (match operandFault x l { vs := [d.toNat, a.toNat, b.toNat] }
                (isInt (l.get a.toNat).tag && isInt (l.get b.toNat).tag) with
              | some c => l.trap x.pc (!x.g.stubs.isEmpty) c
              | none => { l with lpc := x.pc + 4 }.put d.toNat ((l.get a.toNat).bits + (l.get b.toNat).bits) tagI32)
                with
            atSafe := safe, redo := redo } else l) := by
  obtain ⟨t, g', ht, hg, hu, hs, hl⟩ :=
    Op.issue_lanes (vecBinary m d a b isInt tagI32 intAdd)
      (fun _ l => l.put d.toNat (intAdd (l.get a.toNat).bits (l.get b.toNat).bits) tagI32)
      hx hn hr rfl rfl fun _ _ _ _ => rfl
  refine ⟨t, g', ht, hg, hu, hs, fun k l hk => ?_⟩
  obtain ⟨safe, redo, h⟩ := hl k l hk
  refine ⟨safe, redo, h.trans ?_⟩
  have fault : (vecBinary m d a b isInt tagI32 intAdd).faultOf s.fw.spdistCap x k l =
      operandFault x l { vs := [d.toNat, a.toNat, b.toNat] }
        (isInt (l.get a.toNat).tag && isInt (l.get b.toNat).tag) := by
    have hd' : overDistance s.fw.spdistCap x (vecBinary m d a b isInt tagI32 intAdd).kind = false := hd
    simp only [Op.faultOf, hd']
    cases h : (vecBinary m d a b isInt tagI32 intAdd).check x k l with
    | none => exact h.symm
    | some c => exact h.symm
  simp only [Op.laneAfter, fault]
  cases operandFault x l { vs := [d.toNat, a.toNat, b.toNat] }
    (isInt (l.get a.toNat).tag && isInt (l.get b.toNat).tag) with
  | some c => rfl
  | none => simp [intAdd, trunc32, BitVec.ofInt_add, Lane.get]

end Sys2Proof.Machine

namespace Sys2Proof
open Machine

/-- Settles O55: the lanes of an IADD that fail are trapped with the first cause of R65's order and the others complete;
a word without an instruction traps every active lane. -/
theorem faultingLanesTrapAndOthersComplete : Obligations.FaultingLanesTrapAndOthersComplete := by
  intro s x hx _ hr hn hd trapped lanes
  have trap (c : Cause) (l : Lane) (a : Bool) (r : Option Redo) :
      trapped c l { l.trap x.pc (!x.g.stubs.isEmpty) c with atSafe := a, redo := r } :=
    ⟨rfl, rfl, rfl, rfl, rfl, rfl, rfl⟩
  have kept {r : Result} {t : State} (h : Answers s.Held r) (ht : r = .next t) : t.mem = s.mem := by
    obtain ⟨u, hu, hk⟩ := h
    obtain rfl : u = t := Host.Outcome.next.inj (hu.symm.trans ht)
    exact hk.1
  refine ⟨?_, fun m d a b => ?_, ?_⟩
  · obtain ⟨t, g', ht, hg, hu, -, hl⟩ := decodeFault_lanes Cause.illegalInstruction hx hn hr
    refine ⟨t, g', ht, kept (Op.issue_held _ s fun _ _ t => State.Held.frame.refl t) ht, hg, hu, fun k l hk => ?_⟩
    obtain ⟨safe, redo, h⟩ := hl k l hk
    refine ⟨_, h, fun hm => ?_, fun hm => ?_⟩
    · rw [if_pos hm]; exact trap ..
    · rw [if_neg (by simp [hm])]
  · obtain ⟨t, g', ht, hg, hu, -, hl⟩ := iadd_lanes m d a b hx hn hr hd
    refine ⟨t, g', ht, kept (exec_held_of_dest (.iadd m d a b) s rfl) ht, hg, hu, fun k l hk => ?_⟩
    obtain ⟨safe, redo, h⟩ := hl k l hk
    refine ⟨_, h, fun hm => ?_, fun hm => ?_⟩
    · rw [if_pos hm, operandFault_vs]
      dsimp only
      by_cases past : x.img.va ≤ l.window + d.toNat ∨ x.img.va ≤ l.window + a.toNat ∨ x.img.va ≤ l.window + b.toNat
      · simp only [if_pos past]; exact trap ..
      · by_cases marked : l.window + d.toNat ∈ l.pend ∨ l.window + a.toNat ∈ l.pend ∨ l.window + b.toNat ∈ l.pend
        · simp only [if_neg past, if_pos marked]; exact trap ..
        · by_cases ok : (isInt (l.get a.toNat).tag && isInt (l.get b.toNat).tag) = true
          · have plain : (l.get a.toNat).tag.toNat ≤ 2 ∧ (l.get b.toNat).tag.toNat ≤ 2 := by simpa [isInt] using ok
            simp only [if_neg past, if_neg marked, if_pos ok, if_neg (not_not.mpr plain)]
            exact ⟨rfl, rfl, rfl⟩
          · have odd : ¬((l.get a.toNat).tag.toNat ≤ 2 ∧ (l.get b.toNat).tag.toNat ≤ 2) := by simpa [isInt] using ok
            simp only [if_neg past, if_neg marked, if_neg ok, if_pos odd]
            exact trap ..
    · rw [if_neg (by simp [hm])]
  · obtain ⟨t, g', ht, hg, -, -, hl⟩ := decodeFault_lanes Cause.illegalOperand hx hn hr
    refine ⟨t, g', ht, hg, fun k l hk hm => ?_⟩
    obtain ⟨safe, redo, h⟩ := hl k l hk
    rw [if_pos hm] at h
    exact ⟨_, h, trap ..⟩

end Sys2Proof
end

section
/-!
PROOFS. Results on their way (R32): what brings them marks registers and takes nothing back, through the books of the
issue; and the special functions, whose flags are raised at issue (R121, R139, R164).
-/

-- One proof after another: each that waits beside others holds a stack of its own.
set_option Elab.async false

namespace Sys2Proof.Machine

/-! ## Results that come to be on their way (R32) -/

/-- A lane of which at most more registers are marked pending. -/
def Lane.Marked (l l' : Lane) : Prop := l' = { l with pend := l'.pend } ∧ l.pend ⊆ l'.pend

theorem Lane.Marked.refl (l : Lane) : l.Marked l := ⟨rfl, List.Subset.refl _⟩

theorem Lane.Marked.trans {a b c : Lane} (h : a.Marked b) (k : b.Marked c) : a.Marked c :=
  ⟨by rw [k.1, h.1], fun _ hr => k.2 (h.2 hr)⟩

/-- A group of which at most more registers are marked pending. -/
structure Group.Marked (g g' : Group) : Prop where
  rest : g' = { g with lanes := g'.lanes, upend := g'.upend }
  upend : g.upend ⊆ g'.upend
  length : g'.lanes.length = g.lanes.length
  lanes : ∀ (k : Nat) (l : Lane), g.lanes[k]? = some l → ∃ l', g'.lanes[k]? = some l' ∧ l.Marked l'

theorem Group.Marked.refl (g : Group) : g.Marked g := ⟨rfl, List.Subset.refl _, rfl, fun _ l h => ⟨l, h, .refl l⟩⟩

theorem Group.Marked.trans {a b c : Group} (h : a.Marked b) (k : b.Marked c) : a.Marked c where
  rest := by rw [k.rest, h.rest]
  upend := fun _ hr => k.upend (h.upend hr)
  length := k.length.trans h.length
  lanes i l hl :=
    let ⟨_, hl', hm⟩ := h.lanes i l hl
    let ⟨l'', hl'', hm'⟩ := k.lanes i _ hl'
    ⟨l'', hl'', hm.trans hm'⟩

theorem Group.Marked.settled {g g' : Group} (h : g.Marked g') : g.Settled g' := by
  obtain ⟨hr, -, hn, -⟩ := h
  rw [hr]
  exact ⟨rfl, rfl, rfl, rfl, rfl, rfl, rfl, rfl, rfl, rfl, hn⟩

/-- What brings results to the group `u` alone: what was on its way stays, and no register is freed. -/
structure State.Marks (u : Nat) (s t : State) : Prop where
  grows : Grows s t
  others : ∀ v, v ≠ u → t.group? v = s.group? v
  own : ∀ g, s.group? u = some g → ∃ g', t.group? u = some g' ∧ g.Marked g'

theorem State.Marks.refl (u : Nat) (s : State) : s.Marks u s :=
  ⟨.refl s, fun _ _ => rfl, fun g h => ⟨g, h, .refl g⟩⟩

theorem State.Marks.trans {u : Nat} {s t v : State} (h : s.Marks u t) (k : t.Marks u v) : s.Marks u v where
  grows := h.grows.trans k.grows
  others w hw := (k.others w hw).trans (h.others w hw)
  own g hg :=
    let ⟨_, hg', hm⟩ := h.own g hg
    let ⟨g'', hg'', hm'⟩ := k.own _ hg'
    ⟨g'', hg'', hm.trans hm'⟩

theorem State.Marks.foldl {α : Type} {u : Nat} (f : State → α → State) (hf : ∀ (s : State) a, s.Marks u (f s a))
    (xs : List α)
    (s : State) : s.Marks u (xs.foldl f s) := by
  induction xs generalizing s with
  | nil => exact .refl u s
  | cons a xs ih => exact (hf s a).trans (ih _)

/-- What changes neither the groups nor what is on its way. -/
theorem State.Marks.of_eq {u : Nat} {s t : State} (hg : t.groups = s.groups) (hp : t.pend = s.pend) : s.Marks u t :=
  have h : ∀ v, t.group? v = s.group? v := fun v => by simp only [State.group?, hg]
  ⟨.of_eq hp, fun v _ => h v, fun g k => ⟨g, (h u).trans k, .refl g⟩⟩

theorem State.Marks.marked {u : Nat} {s t : State} (h : s.Marks u t) {g : Group} (hg : s.group? u = some g)
    {lane : Option Nat} {regs : List Nat} (hm : s.marked u lane regs) : t.marked u lane regs := by
  obtain ⟨g', hg', hk⟩ := h.own g hg
  intro g'' hg''
  obtain rfl : g' = g'' := Option.some.inj (hg'.symm.trans hg'')
  have hs := hm g hg
  cases lane with
  | none => exact fun r hr => hk.upend (hs r hr)
  | some i =>
    intro l' hl' r hr
    cases hl : g.lanes[i]? with
    | none =>
      have := (List.getElem?_eq_some_iff.mp hl').1
      rw [hk.length] at this
      exact absurd hl (by simp [this])
    | some l =>
      obtain ⟨l'', hl'', hle⟩ := hk.lanes i l hl
      obtain rfl : l'' = l' := Option.some.inj (hl''.symm.trans hl')
      exact hle.2 (hs l hl r hr)

/-- Marking registers of a lane. -/
theorem Group.setAt_marked (g : Group) (i : Nat) (regs : List Nat) :
    g.Marked { g with lanes := setAt (fun l => { l with pend := l.pend ++ regs }) i g.lanes } where
  rest := rfl
  upend := List.Subset.refl _
  length := setAt_length ..
  lanes k l hl := by
    by_cases hk : k = i
    · subst hk
      refine ⟨{ l with pend := l.pend ++ regs }, ?_, rfl, List.subset_append_left ..⟩
      rw [setAt_getElem?_same, hl, Option.map_some]
    · exact ⟨l, (setAt_getElem?_other _ i k _ hk).trans hl, .refl l⟩

/-- What a result that comes to be on its way marks in its group. -/
def markResult (lane : Option Nat) (regs : List Nat) (g : Group) : Group :=
  match lane with
  | none => { g with upend := g.upend ++ regs }
  | some i => { g with lanes := setAt (fun l => { l with pend := l.pend ++ regs }) i g.lanes }

theorem markResult_marked (lane : Option Nat) (regs : List Nat) (g : Group) : g.Marked (markResult lane regs g) := by
  cases lane with
  | none => exact ⟨rfl, List.subset_append_left .., rfl, fun _ l h => ⟨l, h, .refl l⟩⟩
  | some i => exact g.setAt_marked i regs

theorem markResult_uid (lane : Option Nat) (regs : List Nat) (g : Group) : (markResult lane regs g).uid = g.uid :=
  (markResult_marked lane regs g).settled.uid

section
variable (s : State) (o : Origin) (u : Nat) (lane : Option Nat) (regs : List Nat) (what : Awaited) (due : Nat)

theorem State.awaitAt_marks : s.Marks u (s.awaitAt o u lane regs what due) where
  grows := fun _ hp => List.mem_append_left _ hp
  others _ hv := State.modGroup_group?_other (f := markResult lane regs)
    (fun g hg => (markResult_uid lane regs g).trans hg) hv
  own g hg := ⟨_, State.modGroup_group?_same (f := markResult lane regs) hg
    ((markResult_uid lane regs g).trans (State.group?_uid hg)), markResult_marked lane regs g⟩

theorem State.awaitAt_coming : (s.awaitAt o u lane regs what due).hasComing u lane regs what :=
  ⟨_, List.mem_append_right _ (List.mem_singleton.mpr rfl), rfl, rfl, rfl, rfl⟩

theorem State.awaitAt_marked {g : Group} (hg : s.group? u = some g) :
    (s.awaitAt o u lane regs what due).marked u lane regs := by
  have h := State.modGroup_group?_same (f := markResult lane regs) hg
    ((markResult_uid lane regs g).trans (State.group?_uid hg))
  intro g' hg'
  obtain rfl : markResult lane regs g = g' := Option.some.inj (h.symm.trans hg')
  cases lane with
  | none => exact fun r hr => List.mem_append_right _ hr
  | some i =>
    intro l' hl' r hr
    simp only [markResult, setAt_getElem?_same] at hl'
    obtain ⟨l, -, rfl⟩ := Option.map_eq_some_iff.mp hl'
    exact List.mem_append_right _ hr

theorem State.awaitAt_brings {g : Group} (hg : s.group? u = some g) :
    (s.awaitAt o u lane regs what due).brings u lane regs what :=
  ⟨s.awaitAt_coming .., s.awaitAt_marked o u lane regs what due hg⟩

end

section
variable (s : State) (o : Origin) (after u : Nat) (lane : Option Nat) (regs : List Nat) (what : Awaited)

theorem State.awaitFrom_marks : s.Marks u (s.awaitFrom o after u lane regs what) :=
  State.Marks.trans (.of_eq (t := s.newFresh.2) rfl rfl) (State.awaitAt_marks ..)

theorem State.awaitFrom_brings {g : Group} (hg : s.group? u = some g) :
    (s.awaitFrom o after u lane regs what).brings u lane regs what :=
  s.newFresh.2.awaitAt_brings o u lane regs what _ hg

theorem State.await_marks : s.Marks u (s.await u lane regs what) := s.awaitFrom_marks ..

theorem State.await_brings {g : Group} (hg : s.group? u = some g) :
    (s.await u lane regs what).brings u lane regs what :=
  s.awaitFrom_brings _ _ u lane regs what hg

end

theorem State.Marks.brings {u : Nat} {s t : State} (h : s.Marks u t) {g : Group} (hg : s.group? u = some g)
    {lane : Option Nat} {regs : List Nat} {what : Awaited} (hb : s.brings u lane regs what) :
      t.brings u lane regs what :=
  ⟨h.grows.coming hb.1, h.marked hg hb.2⟩

/-- What the turn of one active lane brings stands at the end. -/
theorem State.forLanes_marks (x : Site) (mask : BitVec 32) (f : Nat → Lane → State → State) {u : Nat}
    (hf : ∀ i l (s : State), s.Marks u (f i l s)) (s : State) : s.Marks u (s.forLanes x.g mask f) :=
  .foldl _ (fun s i => by
    cases x.g.lane? i with
    | none => exact .refl u s
    | some l => exact hf i l s) _ s

theorem foldl_brings {α : Type} {u : Nat} (f : State → α → State) (hf : ∀ (s : State) a, s.Marks u (f s a))
    (xs : List α) (a : α)
    (ha : a ∈ xs) {lane : Option Nat} {regs : List Nat} {what : Awaited}
    (h : ∀ s : State, (∃ g, s.group? u = some g) → (f s a).brings u lane regs what) (s : State)
    (hg : ∃ g, s.group? u = some g) :
    (xs.foldl f s).brings u lane regs what := by
  induction xs generalizing s with
  | nil => cases ha
  | cons b xs ih =>
    obtain ⟨g, hg'⟩ := hg
    obtain ⟨g', hg', -⟩ := (hf s b).own g hg'
    rcases List.mem_cons.mp ha with rfl | ha
    · exact (State.Marks.foldl f hf xs _).brings hg' (h s ⟨g, ‹_›⟩)
    · exact ih ha _ ⟨g', hg'⟩

theorem State.forLanes_brings (x : Site) (mask : BitVec 32) (f : Nat → Lane → State → State) {u : Nat}
    (hf : ∀ i l (s : State), s.Marks u (f i l s)) {i : Nat} {l : Lane} (hl : x.g.lanes[i]? = some l)
    (hm : mask.getLsbD i = true) {lane : Option Nat} {regs : List Nat} {what : Awaited}
    (h : ∀ s : State, (∃ g, s.group? u = some g) → (f i l s).brings u lane regs what) (s : State)
    (hg : ∃ g, s.group? u = some g) :
    (s.forLanes x.g mask f).brings u lane regs what := by
  refine foldl_brings _ (fun s j => ?_) _ i (mem_laneList mask i hm) (fun s hs => ?_) s hg
  · cases x.g.lane? j with
    | none => exact .refl u s
    | some l' => exact hf j l' s
  · simp only [show x.g.lane? i = some l from hl]
    exact h s hs

section
variable (s : State) (x : Site) (mask : BitVec 32) (f : Nat → Lane → List RegWrite)

theorem State.awaitLanes_marks : s.Marks x.g.uid (s.awaitLanes x.g mask f) :=
  State.forLanes_marks x mask _ (fun _ _ s => s.await_marks ..) s

theorem State.awaitLanes_brings {i : Nat} {l : Lane} (hl : x.g.lanes[i]? = some l) (hm : mask.getLsbD i = true)
    (hg : ∃ g, s.group? x.g.uid = some g) :
    (s.awaitLanes x.g mask f).brings x.g.uid (some i) ((f i l).map (·.reg)) (.value (f i l)) :=
  State.forLanes_brings x mask _ (fun _ _ s => s.await_marks ..) hl hm
    (fun s ⟨_, h⟩ => s.await_brings _ _ _ _ h) s hg

end

/-! ## A completed issue and its group -/

/-- The group after an issue that every active lane passes: the books of what the effect leaves. -/
theorem State.completed_group? {s : State} {x : Site} (m : Bool) (k : IssueKind) {e : State → State} {g : Group}
    (h : (e (s.advance x x.mask)).group? x.g.uid = some g) :
    (s.completed x m k e).group? x.g.uid =
      some (x.g.book x.pc x.mask m k (overDistance s.fw.spdistCap x k) s.clock.stamp g) :=
  State.modGroup_group?_same h ((Group.book_uid ..).trans (State.group?_uid h))

/-- What an effect brings stands after the books. -/
theorem State.completed_brings {s : State} {x : Site} (m : Bool) (k : IssueKind) {e : State → State} {g : Group}
    (h : (e (s.advance x x.mask)).group? x.g.uid = some g) {lane : Option Nat} {regs : List Nat} {what : Awaited}
    (hb : (e (s.advance x x.mask)).brings x.g.uid lane regs what) :
    (s.completed x m k e).brings x.g.uid lane regs what := by
  refine ⟨hb.1, fun g' hg' => ?_⟩
  obtain rfl := Option.some.inj ((State.completed_group? m k h).symm.trans hg')
  have hm := hb.2 g h
  cases lane with
  | none => rw [Group.book_upend]; exact hm
  | some i =>
    intro l' hl'
    obtain ⟨a, r, hk⟩ := Group.book_lane x.g x.pc x.mask m k (overDistance s.fw.spdistCap x k) s.clock.stamp g i
    rw [hk] at hl'
    obtain ⟨l, hl, rfl⟩ := Option.map_eq_some_iff.mp hl'
    have := hm l hl
    cases x.mask.getLsbD i <;> exact this

/-! ## Special functions (R121, R164) -/

/-- The state after the flags of a special function or a reduction, and its results on their way. -/
def flaggedAndAwaited (x : Site) (good : BitVec 32) (fl : Lane → FpFlags) (f : Nat → Lane → List RegWrite) (s : State) :
    State :=
  (s.modGroup x.g.uid fun g => g.onLanes good fun _ l => l.flag (fl l)).awaitLanes x.g good f

/-- An instruction that raises flags at issue and brings each active lane a result. -/
theorem flaggedAndAwaited_completed {s : State} {x : Site} (m : Bool) (fl : Lane → FpFlags)
    (f : Nat → Lane → List RegWrite) (hx : s.site? = some x) (hfl : ∀ l pc, fl { l with lpc := pc } = fl l) :
    ∃ g, (s.completed x m .plain (flaggedAndAwaited x x.mask fl f)).group? x.g.uid = some g ∧ ActiveLanes x fun k l =>
      (s.completed x m .plain (flaggedAndAwaited x x.mask fl f)).brings x.g.uid (some k) ((f k l).map (·.reg))
        (.value (f k l)) ∧
      ∀ l', g.lanes[k]? = some l' → l'.fpflags = l.fpflags ||| fl l := by
  obtain ⟨g0, hg0, hseen, -⟩ := State.site?_group hx
  rw [← State.site?_uid hx] at hg0
  let flagged : State := (s.advance x x.mask).modGroup x.g.uid fun g => g.onLanes x.mask fun _ l => l.flag (fl l)
  have hg1 : flagged.group? x.g.uid = some _ := State.onLanes_group? (State.advance_group? hg0 _) ..
  obtain ⟨g2, hg2, hm⟩ := (flagged.awaitLanes_marks x x.mask f).own _ hg1
  refine ⟨_, State.completed_group? m .plain hg2, fun k l hl hk => ⟨?_, fun l' hl' => ?_⟩⟩
  · exact State.completed_brings m .plain hg2 (flagged.awaitLanes_brings x x.mask f hl hk ⟨_, hg1⟩)
  · have hl0 : g0.lanes[k]? = some l := by rwa [hseen, Group.seen_lanes] at hl
    obtain ⟨l2, hl2, hmark⟩ := hm.lanes k ({ l with lpc := x.pc + 4 }.flag (fl { l with lpc := x.pc + 4 })) (by
      simp [Group.onLanes_lane, hl0, hk])
    obtain ⟨a, r,
    hb⟩ := Group.book_lane x.g x.pc x.mask m .plain (overDistance s.fw.spdistCap x .plain) s.clock.stamp g2 k
    rw [hb, hl2, Option.map_some, if_pos hk, hmark.1] at hl'
    obtain rfl := Option.some.inj hl'
    exact congrArg (l.fpflags ||| ·) (hfl l _)

theorem sfuOp_issue {s : State} {x : Site} (m : Bool) (d a : BitVec 7) (ok : BitVec 5 → Bool)
    (f : Site → VReg → Word × FpFlags) (h : Issuing s x .plain)
    (hc : OperandsPass x { vs := [d.toNat, a.toNat] } fun l => ok (l.get a.toNat).tag) :
    (sfuOp m d a ok f).issue s = .next (s.completed x m .plain
      (flaggedAndAwaited x x.mask (fun l => (f x (l.get a.toNat)).2) fun _ l =>
        [{ reg := l.window + d.toNat, bits := (f x (l.get a.toNat)).1, tag := (l.get a.toNat).tag }])) :=
  (sfuOp m d a ok f).issue_completed s x h hc (fun _ _ _ _ => rfl) rfl rfl

/-- A register of one element. -/
theorem elementwise_one (fmt : Fmt) (h : fmt.width = 32) (f : Nat → Nat × FpFlags) (w : Word) :
    elementwise fmt (fun p _ _ => f p) w 0 0 = (BitVec.ofNat 32 (f w.toNat).1, (f w.toNat).2) := by
  have hw : w.toNat % 4294967296 = w.toNat := Nat.mod_eq_of_lt w.isLt
  simp [elementwise, eachElem, pack, elem, bitsOf, h, hw]

/-- A register of two elements. -/
theorem elementwise_two (fmt : Fmt) (h : fmt.width = 16) (f : Nat → Nat × FpFlags) (w : Word) :
    elementwise fmt (fun p _ _ => f p) w 0 0 =
      (BitVec.ofNat 32 ((f (w.toNat % 2 ^ 16)).1 + 2 ^ 16 * (f (w.toNat / 2 ^ 16)).1),
        (f (w.toNat % 2 ^ 16)).2 ||| (f (w.toNat / 2 ^ 16)).2) := by
  have hw : w.toNat / 65536 % 65536 = w.toNat / 65536 := Nat.mod_eq_of_lt (by have := w.isLt; omega)
  simp [elementwise, eachElem, pack, elem, bitsOf, h, hw, List.range_succ]

/-- FRCP, FRSQ and FSQRT. -/
theorem rootOp_issue {s : State} {x : Site} (m : Bool) (d a : BitVec 7) (f : Fmt → RMode → Nat → Nat × FpFlags)
    (h : Issuing s x .plain) (hc : OperandsPass x { vs := [d.toNat, a.toNat] } fun l => isFloat (l.get a.toNat).tag) :
    let result (l : Lane) : Word × FpFlags :=
      elementwise (floatFmt (l.get a.toNat).tag) (fun p _ _ => f (floatFmt (l.get a.toNat).tag) x.g.fpmode p)
        (l.get a.toNat).bits 0 0
    (rootOp m d a f).issue s = .next (s.completed x m .plain (flaggedAndAwaited x x.mask (fun l => (result l).2) fun _
    l =>
      [{ reg := l.window + d.toNat, bits := (result l).1, tag := (l.get a.toNat).tag }])) :=
  sfuOp_issue m d a isFloat _ h hc

end Sys2Proof.Machine

namespace Sys2Proof
open Machine

/-- Settles O8: FRCP, FRSQ and FSQRT raise their flags at issue, and each active lane's result is on its way. -/
theorem specialFunctionResults : Obligations.SpecialFunctionResults := by
  intro s x m d a h A format each later hc
  have element (f : Fmt → Nat → Nat × FpFlags) (l : Lane) (hl : isFloat (A l).tag = true) :
      elementwise (floatFmt (A l).tag) (fun p _ _ => f (floatFmt (A l).tag) p) (A l).bits 0 0 = each f l := by
    have hf : format (A l).tag = floatFmt (A l).tag ∧
        ((floatFmt (A l).tag).width = 32 ∧ floatFmt (A l).tag = fF32 ∨
          (floatFmt (A l).tag).width = 16 ∧ floatFmt (A l).tag ≠ fF32) := by
      generalize (A l).tag = t at hl
      revert t
      decide
    simp only [each, hf.1]
    rcases hf.2 with ⟨hw, he⟩ | ⟨hw, he⟩
    · rw [if_pos he, elementwise_one _ hw]
    · rw [if_neg he, elementwise_two _ hw]
  have root (i : Instr) (f : Fmt → RMode → Nat → Nat × FpFlags) (hd : i.dest.isSome = true)
      (hi : exec i s = (rootOp m d a f).issue s) : later i (each fun fmt p => f fmt x.g.fpmode p) := by
    obtain ⟨g, hg, hl⟩ := flaggedAndAwaited_completed (s := s) (x := x) m
      (fun l => (elementwise (floatFmt (A l).tag) (fun p _ _ => f (floatFmt (A l).tag) x.g.fpmode p) (A l).bits 0 0).2)
      (fun _ l => [{ reg := l.window + d.toNat, bits := (elementwise (floatFmt (A l).tag)
        (fun p _ _ => f (floatFmt (A l).tag) x.g.fpmode p) (A l).bits 0 0).1, tag := (A l).tag }]) h.site fun _ _ => rfl
    obtain ⟨t, ht, hk⟩ := exec_held_of_dest i s hd
    have ht' := hi.trans (rootOp_issue m d a f h hc)
    obtain rfl := Host.Outcome.next.inj (ht.symm.trans ht')
    refine ⟨_, g, ht, hk.1, hg, fun k l hlk hm => ?_⟩
    have tag : isFloat (A l).tag = true := (operandFault_none.mp (hc k l hlk hm)).2.2
    have same := element (fun fmt p => f fmt x.g.fpmode p) l tag
    have lane := hl k l hlk hm
    dsimp only at lane ⊢
    rw [← same]
    exact lane
  exact ⟨root (.frcp m d a) Fmt.rcp rfl rfl, root (.frsq m d a) Fmt.rsq rfl rfl, root (.fsqrt m d a) Fmt.sqrt rfl rfl⟩

end Sys2Proof
end

section
/-!
PROOFS. Requests that are sent, activation table banks and the instructions on them (R130, R165 to R169).
-/

-- One proof after another: each that waits beside others holds a stack of its own.
set_option Elab.async false

namespace Sys2Proof.Machine

/-! ## Requests and tables (R165 to R169) -/

/-- What sending leaves: only packets, ports and messages change. -/
def State.Sent (s t : State) : Prop := t = { s with fabric := t.fabric, outbox := t.outbox, seqOut := t.seqOut }

theorem State.Sent.refl (s : State) : s.Sent s := rfl

theorem State.Sent.trans {s t u : State} (h : s.Sent t) (k : t.Sent u) : s.Sent u := by
  unfold State.Sent at h k ⊢
  rw [k, h]

theorem State.Sent.groups {s t : State} (h : s.Sent t) : t.groups = s.groups := by rw [h]
theorem State.Sent.pend {s t : State} (h : s.Sent t) : t.pend = s.pend := by rw [h]
theorem State.Sent.cores {s t : State} (h : s.Sent t) : t.cores = s.cores := by rw [h]
theorem State.Sent.mem {s t : State} (h : s.Sent t) : t.mem = s.mem := by rw [h]
theorem State.Sent.clock {s t : State} (h : s.Sent t) : t.clock = s.clock := by rw [h]

theorem State.transmit_sent (s : State) (r : Remote) : s.Sent (s.transmit r) := by
  unfold State.transmit
  split
  · split <;> rfl
  · dsimp only
    split <;> rfl

theorem State.request_sent (s : State) (r : Remote) : s.Sent (s.request r).2 := by
  have h (held : Bool) (q : Remote) (u : State) (hu : s.Sent u) : s.Sent (if held then u else u.transmit q) := by
    cases held
    · exact hu.trans (u.transmit_sent q)
    · exact hu
  exact h _ _ _ rfl

theorem State.askLines_sent (x : Site) (good : BitVec 32) (address : Nat) (ls : List (Nat × Place)) (s : State) :
    s.Sent (s.askLines x good address ls).1 := by
  induction ls generalizing s with
  | nil => rfl
  | cons p ls ih => exact (s.request_sent _).trans (ih _)

/-- What leaves every group's team and bank leaves what is bound to a bank. -/
theorem State.advance_boundTo (s : State) (x : Site) (mask : BitVec 32) (core k : Nat) :
    ((s.advance x mask).boundTo core k).length = (s.boundTo core k).length := by
  simp only [State.boundTo, State.advance, State.modGroup, List.filter_map, List.length_map]
  congr 2
  funext g
  simp only [Function.comp_apply]
  split <;> rfl

theorem State.modBank_bank {s : State} {core k : Nat} (hc : core < s.cores.length)
    (hb : ((s.core core).banks[k]?).isSome) (f : ActBank → ActBank) :
    (s.modBank core k f).bank core k = f (s.bank core k) := by
  have h : s.cores[core]? = some s.cores[core] := List.getElem?_eq_getElem hc
  obtain ⟨b, hb⟩ := Option.isSome_iff_exists.mp hb
  simp only [State.core, h, Option.getD_some] at hb
  simp [State.bank, State.core, State.modBank, State.modCore, setAt_getElem?_same, h, hb]

/-- The books of an issue end the segment where the instruction is marked or is no plain one (R31). -/
theorem Group.book_segEnd {g : Group} (hr : g.redo? = none) (pc : Addr) (mask : BitVec 32) (m : Bool) (kind : IssueKind)
    (past : Bool) (stamp : Nat) (now : Group) :
    (g.book pc mask m kind past stamp now).segEnd = (now.segEnd || m || kind != .plain) ∧
      (g.book pc mask m kind past stamp now).spcount = nextSpcount kind past g.spcount := by
  have fair (now : Group) : (g.fair pc kind now).segEnd = now.segEnd := by
    unfold Group.fair
    (repeat' split) <;> rfl
  unfold Group.book
  dsimp only
  rw [hr, if_neg (by simp)]
  split
  · exact ⟨by rw [fair], rfl⟩
  · exact ⟨by simp only [Group.onLanes]; rw [fair], rfl⟩

/-- FLUT, where its bank is not LOADING. -/
theorem flut_issue {s : State} {x : Site} (m : Bool) (d a : BitVec 7) (h : Issuing s x .plain)
    (hc : OperandsPass x { vs := [d.toNat, a.toNat] } fun l => (l.get a.toNat).tag == tagF32)
    (hw : (s.bank (s.coreOf x.g.team) x.g.atbank).state ≠ .loading) :
    exec (.flut m d a) s = .next (s.completed x m .plain (flaggedAndAwaited x x.mask (fun _ => 0) fun _ l =>
      [{ reg := l.window + d.toNat,
         bits := BitVec.ofNat 32 ((s.bank (s.coreOf x.g.team) x.g.atbank).flut (l.get a.toNat).bits.toNat),
         tag := (l.get a.toNat).tag }])) :=
  Op.issue_completed _ s x h hc (fun _ _ _ _ => rfl) (by simpa using hw) rfl

theorem flut_held {s : State} {x : Site} (m : Bool) (d a : BitVec 7) (h : s.site? = some x)
    (hw : (s.bank (s.coreOf x.g.team) x.g.atbank).state = .loading) :
    exec (.flut m d a) s = .next (s.modGroup x.g.uid fun g => { g with blocked := true }) := by
  simp only [exec, execFlut, Op.issue, h, hw]
  rfl

/-- A result for a uniform register. -/
theorem uniformLater_issue {s : State} {x : Site} (m : Bool) (d : Nat) (us : List Nat) (f : Site → State → Word)
    (h : Issuing s x .plain) (hc : OperandsPass x { us := d :: us } fun _ => true) :
    ∃ t, (uniformLater m d us f).issue s = .next t ∧ t.brings x.g.uid none [d]
      (.value [{ reg := d, bits := f x (s.advance x x.mask), tag := tagRAW }]) := by
  obtain ⟨g0, hg0, -, -⟩ := State.site?_group h.site
  rw [← State.site?_uid h.site] at hg0
  have hg1 := State.advance_group? hg0 x.mask
  obtain ⟨g2, hg2, -⟩ := ((s.advance x x.mask).await_marks x.g.uid none [d]
    (.value [{ reg := d, bits := f x (s.advance x x.mask), tag := tagRAW }])).own _ hg1
  exact ⟨_, (uniformLater m d us f).issue_completed s x h hc (fun _ _ _ _ => rfl) rfl rfl,
    State.completed_brings m .plain hg2 ((s.advance x x.mask).await_brings _ _ _ _ hg1)⟩

/-- ATLOAD's effect: the lines of other parts are asked for, and the bank is LOADING. -/
def atloadEffect (s : State) (k : BitVec 7) (address : Nat) (x : Site) (good : BitVec 32) (s' : State) : State :=
  let asked := s'.newFresh.2.askLines x good address (s.farLines (s.coreOf x.g.team) x.g.grid address)
  let load : TableLoad :=
    { group := x.g.uid, lanes := good, pc := x.pc, address := address,
      due := s.clock.tick + Config.latency s'.newFresh.1,
      asked := asked.2, waiting := asked.2.map fun (id, _) => id }
  asked.1.modBank (s.coreOf x.g.team) k.toNat fun b => { b with state := .loading, load := some load }

theorem atload_issue {s : State} {x : Site} (m : Bool) (a k : BitVec 7) (h : Issuing s x .plain)
    (hc : OperandsPass x { us := [a.toNat, a.toNat + 1] } fun _ => true) (hk : x.g.atbank ≠ k.toNat)
    (ha : (x.g.uPair a.toNat).toNat % 2 ^ 48 % 128 = 0)
    (hb : ∀ g ∈ s.boundTo (s.coreOf x.g.team) k.toNat, g.uid = x.g.uid)
    (hl : (s.bank (s.coreOf x.g.team) k.toNat).state ≠ .loading) (hs : s.keepsBack x.g = false) :
    exec (.atload m a k) s = .next (s.completed x true .plain
      (atloadEffect s k ((x.g.uPair a.toNat).toNat % 2 ^ 48) x x.mask)) := by
  refine Op.issue_completed _ s x h (fun i l hi hm => ?_) (fun _ _ _ _ => ?_) rfl ?_
  · exact (if_neg hk).trans (hc i l hi hm)
  · exact if_neg (by rw [ha]; decide)
  · have hn : (s.boundTo (s.coreOf x.g.team) k.toNat).any (·.uid != x.g.uid) = false := by simpa using hb
    simp [hn, hs, hl]

end Sys2Proof.Machine

namespace Sys2Proof
open Machine

/-- Settles O9: FLUT's value and ATSTAT's snapshot are on their way, ATBIND names its bank, and ATLOAD leaves the bank
LOADING. -/
theorem activationTableResults : Obligations.ActivationTableResults := by
  intro s x m d a k h core own
  refine ⟨flut_held m d a h.site, fun hw hc => ?_, ?_, fun hc => ?_, fun hc _ hcore hk hbank ha hb hl hs hr => ?_⟩
  · obtain ⟨g, -, hlanes⟩ := flaggedAndAwaited_completed (s := s) (x := x) m (fun _ => 0)
      (fun _ l => [{ reg := l.window + d.toNat, bits := BitVec.ofNat 32 (own.flut (l.get a.toNat).bits.toNat),
                     tag := (l.get a.toNat).tag }]) h.site fun _ _ => rfl
    obtain ⟨t, ht, hheld⟩ := exec_held_of_dest (.flut m d a) s rfl
    obtain rfl := Host.Outcome.next.inj (ht.symm.trans (flut_issue m d a h hc hw))
    refine ⟨_, ht, hheld.1, fun i l hl hm => ?_⟩
    have tag : (l.get a.toNat).tag = tagF32 := by simpa using (operandFault_none.mp (hc i l hl hm)).2.2
    have value : BitVec.ofNat 32 (own.flut (l.get a.toNat).bits.toNat) =
        if own.state = .valid then BitVec.ofNat 32 (flutValue own.coeff (l.get a.toNat).bits.toNat)
        else if fF32.isNan (l.get a.toNat).bits.toNat then BitVec.ofNat 32 (fF32.quiet (l.get a.toNat).bits.toNat)
        else 0x7FC00000 := by
      unfold ActBank.flut
      cases hv : own.state with
      | loading => exact absurd hv hw
      | valid => rfl
      | invalid => exact apply_ite (BitVec.ofNat 32) (fF32.isNan (l.get a.toNat).bits.toNat = true) _ _
    have lane := (hlanes i l hl hm).1
    rw [value, tag] at lane
    exact lane
  · exact groupOp_issue s x m [] _ h fun _ _ _ _ => rfl
  · obtain ⟨t, ht, hb⟩ := uniformLater_issue m d.toNat [] (fun x s => s.bankWord (s.coreOf x.g.team) x.g.atbank) h hc
    refine ⟨t, ht, ?_⟩
    have word : (s.advance x x.mask).bankWord ((s.advance x x.mask).coreOf x.g.team) x.g.atbank =
        s.bankWord core x.g.atbank := by
      simp only [State.bankWord, State.advance_boundTo]
      rfl
    rw [word] at hb
    exact hb
  · let address := (x.g.uPair a.toNat).toNat % 2 ^ 48
    let s1 := s.advance x x.mask
    have hg := State.advance_group? (State.site?_group_plain h.site hr) x.mask
    have sent : s1.newFresh.2.Sent _ := s1.newFresh.2.askLines_sent x x.mask address (s.farLines core x.g.grid address)
    have cores :
      (s1.newFresh.2.askLines x x.mask address (s.farLines core x.g.grid address)).1.cores = s.cores := sent.cores
    have hg2 : (atloadEffect s k address x x.mask s1).group? x.g.uid = _ := (congrArg _ sent.groups).trans hg
    refine ⟨_, atload_issue m a k h hc hk ha hb hl hs, ?_⟩
    have bank : (s.completed x true .plain (atloadEffect s k address x x.mask)).bank core k.toNat = _ :=
      State.modBank_bank (by rw [cores]; exact hcore) (by rw [State.core, cores]; exact hbank) _
    rw [bank]
    refine ⟨rfl, rfl, rfl, _, State.completed_group? true .plain hg2, ?_⟩
    rw [(Group.book_segEnd hr ..).1]
    simp

end Sys2Proof
end

section
/-!
PROOFS. Reductions and scans: an associative operation without flags gives, by the tree and by the scan, what the
participants come to in order (R133, R134, R174, R175).
-/

-- One proof after another: each that waits beside others holds a stack of its own.
set_option Elab.async false

namespace Sys2Proof.Machine

/-! ## The fixed orders across lanes (R133, R134) -/

section
variable {α : Type} (op : α → α → α)

/-- An operation that raises no flags, as a step of a reduction. -/
def quiet (u v : α) : α × FpFlags := (op u v, 0)

/-- What the participants come to, from the first to the last; none where no lane takes part. -/
def total (xs : List (Option α)) : Option α := xs.foldr (Option.merge op) none

variable (ha : ∀ a b c, op (op a b) c = op a (op b c))

theorem treeLevel_quiet : (xs : List (Option α)) → (treeLevel (quiet op) xs).2 = 0
  | [] => rfl
  | [_] => rfl
  | a :: b :: rest => by
    have ih := treeLevel_quiet rest
    cases a <;> cases b <;> simp [treeLevel, ih, quiet]

theorem treeReduce_quiet (n : Nat) (xs : List (Option α)) : (treeReduce (quiet op) n xs).2 = 0 := by
  induction n generalizing xs with
  | zero => rfl
  | succ n ih => simp [treeReduce, ih, treeLevel_quiet]

theorem treeLevel_cons (a b : Option α) (rest : List (Option α)) :
    (treeLevel (quiet op) (a :: b :: rest)).1 = Option.merge op a b :: (treeLevel (quiet op) rest).1 := by
  cases a <;> cases b <;> rfl

theorem treeLevel_take (m : Nat) (xs : List (Option α)) :
    (treeLevel (quiet op) xs).1.take m = (treeLevel (quiet op) (xs.take (2 * m))).1 := by
  induction m generalizing xs with
  | zero => rfl
  | succ m ih =>
    match xs with
    | [] => rfl
    | [a] => rw [List.take_of_length_le (by simp [treeLevel]), List.take_of_length_le (by simp; omega)]
    | a :: b :: rest =>
      rw [treeLevel_cons, List.take_succ_cons, ih, show 2 * (m + 1) = 2 * m + 1 + 1 by omega, List.take_succ_cons,
        List.take_succ_cons, treeLevel_cons]

include ha in
theorem merge_assoc (a b c : Option α) :
    Option.merge op (Option.merge op a b) c = Option.merge op a (Option.merge op b c) := by
  cases a <;> cases b <;> cases c <;> simp [Option.merge, ha]

include ha in
theorem total_treeLevel : (xs : List (Option α)) → total op (treeLevel (quiet op) xs).1 = total op xs
  | [] => rfl
  | [_] => rfl
  | a :: b :: rest => by
    rw [treeLevel_cons]
    exact (congrArg _ (total_treeLevel rest)).trans (merge_assoc op ha a b _)

include ha in
/-- An associative operation without flags: the tree gives what the participants come to. -/
theorem treeReduce_total (n : Nat) (xs : List (Option α)) :
    (treeReduce (quiet op) n xs).1 = total op (xs.take (2 ^ n)) := by
  induction n generalizing xs with
  | zero => cases xs with
    | nil => rfl
    | cons a xs => cases a <;> rfl
  | succ n ih =>
    calc (treeReduce (quiet op) (n + 1) xs).1
        = total op ((treeLevel (quiet op) xs).1.take (2 ^ n)) := ih _
      _ = total op (treeLevel (quiet op) (xs.take (2 ^ (n + 1)))).1 := by rw [treeLevel_take, Nat.pow_succ,
        Nat.mul_comm]
      _ = total op (xs.take (2 ^ (n + 1))) := total_treeLevel op ha _

theorem total_append_none (xs ys : List (Option α)) (h : ∀ y ∈ ys, y = none) : total op (xs ++ ys) = total op xs := by
  have hn : total op ys = none := by
    induction ys with
    | nil => rfl
    | cons y ys ih =>
      rw [h y (List.mem_cons_self ..), total, List.foldr_cons]
      exact (congrArg _ (ih fun z hz => h z (List.mem_cons_of_mem _ hz))).trans rfl
  rw [total, List.foldr_append]
  exact congrArg (xs.foldr _) hn

/-- Where a lane takes part, the participants come to something. -/
theorem total_some {xs : List (Option α)} {k : Nat} {v : α} (h : xs[k]? = some (some v)) :
    ∃ w, total op xs = some w := by
  induction xs generalizing k with
  | nil => cases h
  | cons x xs ih =>
    change ∃ w, Option.merge op x (total op xs) = some w
    cases k with
    | zero =>
      obtain rfl := Option.some.inj h
      cases total op xs <;> exact ⟨_, rfl⟩
    | succ k =>
      obtain ⟨w, hw⟩ := ih h
      rw [hw]
      cases x <;> exact ⟨_, rfl⟩

include ha in
/-- What the participants come to, counted on from a value. -/
theorem foldl_total (a : α) (xs : List (Option α)) :
    (xs.filterMap id).foldl op a = ((total op xs).map (op a)).getD a := by
  induction xs generalizing a with
  | nil => rfl
  | cons x xs ih =>
    cases x with
    | none =>
      have h : total op (none :: xs) = total op xs := by
        change Option.merge op none (total op xs) = _
        cases total op xs <;> rfl
      rw [h]; exact ih a
    | some x =>
      rw [List.filterMap_cons_some (f := id) (b := x) rfl, List.foldl_cons, ih]
      change _ = ((Option.merge op (some x) (total op xs)).map (op a)).getD a
      cases total op xs with
      | none => rfl
      | some t => exact ha a x t

include ha in
theorem scanFrom_total (acc : Option α) (xs : List (Option α)) :
    (scanFrom (quiet op) acc xs).2 = 0 ∧ ∀ (k : Nat) (v : α), xs[k]? = some (some v) →
      (scanFrom (quiet op) acc xs).1[k]? = some (Option.merge op acc (total op (xs.take (k + 1)))) := by
  induction xs generalizing acc with
  | nil => exact ⟨by cases acc <;> rfl, fun k v h => by cases h⟩
  | cons x xs ih =>
    cases x with
    | none =>
      obtain ⟨hf, hv⟩ := ih acc
      have hs :
        scanFrom (quiet op) acc (none :: xs) = (none :: (scanFrom (quiet op) acc xs).1,
          (scanFrom (quiet op) acc xs).2) := by
        cases acc <;> rfl
      refine ⟨by rw [hs]; exact hf, fun k v h => ?_⟩
      cases k with
      | zero => cases h
      | succ k =>
        rw [hs, List.getElem?_cons_succ, hv k v h, List.take_succ_cons]
        change _ = some (Option.merge op acc (Option.merge op none (total op (xs.take (k + 1)))))
        cases total op (xs.take (k + 1)) <;> rfl
    | some x =>
      obtain ⟨hf, hv⟩ := ih (Option.merge op acc (some x))
      have hs : scanFrom (quiet op) acc (some x :: xs) =
          (Option.merge op acc (some x) :: (scanFrom (quiet op) (Option.merge op acc (some x)) xs).1, 0) := by
        cases acc with
        | none => exact Prod.ext rfl hf
        | some u => exact Prod.ext rfl (by rw [← hf]; simp [scanFrom, quiet, Option.merge])
      refine ⟨by rw [hs], fun k v h => ?_⟩
      cases k with
      | zero => rw [hs]; rfl
      | succ k =>
        rw [hs, List.getElem?_cons_succ, hv k v h, List.take_succ_cons]
        exact congrArg some (merge_assoc op ha acc (some x) _)

end

/-! ## Reductions and scans (R171, R174, R175) -/

theorem reduceOp_issue {s : State} {x : Site} (m : Bool) (d a : BitVec 7) (tags : Site → Lane → Bool)
    (f : Site → BitVec 32 → List (Option Word) × BitVec 5 × FpFlags) (h : Issuing s x .plain)
    (hc : OperandsPass x { vs := [d.toNat, a.toNat] } (tags x)) :
    (reduceOp m d a tags f).issue s = .next (s.completed x m .plain
      (flaggedAndAwaited x x.mask (fun _ => (f x x.mask).2.2) fun i l =>
        [{ reg := l.window + d.toNat, bits := ((f x x.mask).1[i]?.join).getD 0, tag := (f x x.mask).2.1 }])) :=
  (reduceOp m d a tags f).issue_completed s x h hc (fun _ _ _ _ => rfl) rfl rfl

/-- What a reduction or scan brings: to every active lane its word, with flags for all. -/
theorem reduceOp_brings {s : State} {x : Site} (m : Bool) (d a : BitVec 7) (tags : Site → Lane → Bool)
    (f : Site → BitVec 32 → List (Option Word) × BitVec 5 × FpFlags) (h : Issuing s x .plain)
    (hc : OperandsPass x { vs := [d.toNat, a.toNat] } (tags x)) (i : Instr) (hd : i.dest.isSome = true)
    (hi : exec i s = (reduceOp m d a tags f).issue s) :
    ∃ t g, exec i s = .next t ∧ t.mem = s.mem ∧ t.group? x.g.uid = some g ∧ ActiveLanes x fun k l =>
      (t.brings x.g.uid (some k) [l.window + d.toNat] (.value
        [{ reg := l.window + d.toNat, bits := ((f x x.mask).1[k]?.join).getD 0, tag := (f x x.mask).2.1 }])) ∧
      ∀ l', g.lanes[k]? = some l' → l'.fpflags = l.fpflags ||| (f x x.mask).2.2 := by
  obtain ⟨g, hg, hl⟩ := flaggedAndAwaited_completed (s := s) (x := x) m (fun _ => (f x x.mask).2.2)
    (fun i l => [{ reg := l.window + d.toNat, bits := ((f x x.mask).1[i]?.join).getD 0, tag := (f x x.mask).2.1 }])
    h.site fun _ _ => rfl
  obtain ⟨t, ht, hk⟩ := exec_held_of_dest i s hd
  obtain rfl := Host.Outcome.next.inj (ht.symm.trans (hi.trans (reduceOp_issue m d a tags f h hc)))
  exact ⟨_, g, ht, hk.1, hg, hl⟩

/-- A result for every active lane, and its flags: what REDADD and its like, the bitwise reductions and the scans
bring. -/
def BringsAll (s : State) (x : Site) (i : Instr) (d : BitVec 7) (tag : BitVec 5) (w : Nat → Word) (flags : FpFlags) :
    Prop :=
  ∃ t g, exec i s = .next t ∧ t.mem = s.mem ∧ t.group? x.g.uid = some g ∧ ActiveLanes x fun k l =>
    (t.brings x.g.uid (some k) [l.window + d.toNat] (.value [{ reg := l.window + d.toNat, bits := w k, tag := tag }])) ∧
    ∀ l', g.lanes[k]? = some l' → l'.fpflags = l.fpflags ||| flags

theorem BringsAll.change {s : State} {x : Site} {i : Instr} {d : BitVec 7} {tag : BitVec 5} {w w' : Nat → Word}
    {fl fl' : FpFlags} (hb : BringsAll s x i d tag w fl)
    (hw : ∀ k l, x.g.lanes[k]? = some l → x.mask.getLsbD k = true → w k = w' k) (hf : fl = fl') :
    BringsAll s x i d tag w' fl' := by
  obtain ⟨t, g, ht, hmem, hg, hl⟩ := hb
  refine ⟨t, g, ht, hmem, hg, fun k l hk hm => ?_⟩
  have lane := hl k l hk hm
  dsimp only at lane ⊢
  rw [← hw k l hk hm, ← hf]
  exact lane

theorem replicate_getD (r : Option Word) {k : Nat} (hk : k < 32) :
    ((List.replicate 32 r)[k]?.join).getD 0 = r.getD 0 := by
  rw [List.getElem?_replicate, if_pos hk]
  rfl

section
variable {s : State} {x : Site} (m : Bool) (d a : BitVec 7) (h : Issuing s x .plain) (i : Instr)
  (hd : i.dest.isSome = true)
include h hd

theorem reduceOp_bringsAll (tags : Site → Lane → Bool) (f : Site → BitVec 32 → List (Option Word) × BitVec 5 × FpFlags)
    (hc : OperandsPass x { vs := [d.toNat, a.toNat] } (tags x)) (hi : exec i s = (reduceOp m d a tags f).issue s)
    {ws : List (Option Word)} {tag : BitVec 5} {fl : FpFlags} (hf : f x x.mask = (ws, tag, fl)) :
    BringsAll s x i d tag (fun k => (ws[k]?.join).getD 0) fl := by
  have hb := reduceOp_brings m d a tags f h hc i hd hi
  rw [hf] at hb
  exact hb

/-- REDADD, REDMIN and REDMAX. -/
theorem reduceArith_brings (op : RedOp) (hi : exec i s = (reduceArith m d a op).issue s)
    (hc : OperandsPass x { vs := [d.toNat, a.toNat] } fun l => isReducible (l.get a.toNat).tag &&
      (siteClass x { vs := [d.toNat, a.toNat] } a.toNat).fits (l.get a.toNat).tag)
    {c : RedClass} (hcl : siteClass x { vs := [d.toNat, a.toNat] } a.toNat = c) {r : Option Word × FpFlags}
    (hr : treeReduce (op.step c) 5 (values x x.mask fun l => (l.get a.toNat).bits) = r) :
    BringsAll s x i d c.tag (fun _ => r.1.getD 0) r.2 := by
  simp only [reduceArith] at hi
  have hb := reduceOp_bringsAll m d a h i hd _ _ hc hi (ws := List.replicate 32 r.1) (tag := c.tag) (fl := r.2) (by
    simp only [hcl, hr])
  exact hb.change (fun _ _ _ hm => replicate_getD _ (State.site?_active h.site hm).1) rfl

/-- REDAND, REDOR and REDXOR. -/
theorem reduceBits_brings (op : Word → Word → Word) (hi : exec i s = (reduceBits m d a op).issue s)
    (hc : OperandsPass x { vs := [d.toNat, a.toNat] } fun l => isAny (l.get a.toNat).tag) {r : Option Word × FpFlags}
    (hr : treeReduce (quiet op) 5 (values x x.mask fun l => (l.get a.toNat).bits) = r) :
    BringsAll s x i d tagRAW (fun _ => r.1.getD 0) r.2 := by
  simp only [reduceBits] at hi
  have hb := reduceOp_bringsAll m d a h i hd _ _ hc hi (ws := List.replicate 32 r.1) (tag := tagRAW) (fl := r.2) (by
    rw [show (fun u v => (op u v, 0)) = quiet op from rfl, hr])
  exact hb.change (fun _ _ _ hm => replicate_getD _ (State.site?_active h.site hm).1) rfl

/-- SCANADD and SCANMAX. -/
theorem scanArith_brings (op : RedOp) (hi : exec i s = (scanArith m d a op).issue s)
    (hc : OperandsPass x { vs := [d.toNat, a.toNat] } fun l => isReducible (l.get a.toNat).tag &&
      (siteClass x { vs := [d.toNat, a.toNat] } a.toNat).fits (l.get a.toNat).tag)
    {c : RedClass} (hcl : siteClass x { vs := [d.toNat, a.toNat] } a.toNat = c) {r : List (Option Word) × FpFlags}
    (hr : scanFrom (op.step c) none (values x x.mask fun l => (l.get a.toNat).bits) = r) :
    BringsAll s x i d c.tag (fun k => (r.1[k]?.join).getD 0) r.2 := by
  simp only [scanArith] at hi
  exact reduceOp_bringsAll m d a h i hd _ _ hc hi (by simp only [hcl, hr])

end

theorem values_getElem? {α : Type} (x : Site) (good : BitVec 32) (f : Lane → α) (k : Nat) :
    (values x good f)[k]? = (x.g.lanes[k]?).map fun l => if good.getLsbD k then some (f l) else none := by
  rw [values, mapFrom_getElem?, Nat.zero_add]

/-- No lane from the 32nd on takes part. -/
theorem total_values_take {α : Type} (op : α → α → α) (x : Site) (good : BitVec 32) (f : Lane → α) :
    total op ((values x good f).take 32) = total op (values x good f) := by
  have h := total_append_none op ((values x good f).take 32) ((values x good f).drop 32) fun y hy => by
    obtain ⟨k, hk⟩ := List.mem_iff_getElem?.mp hy
    rw [List.getElem?_drop, values_getElem?] at hk
    obtain ⟨l, -, rfl⟩ := Option.map_eq_some_iff.mp hk
    simp
  rw [List.take_append_drop] at h
  exact h.symm

theorem values_active {α : Type} {x : Site} (f : Lane → α) {k : Nat} {l : Lane} (hl : x.g.lanes[k]? = some l)
    (hm : x.mask.getLsbD k = true) : (values x x.mask f)[k]? = some (some (f l)) := by
  rw [values_getElem?, hl, Option.map_some, if_pos hm]

section
variable (op : Word → Word → Word) (e : Word) (ha : ∀ a b c, op (op a b) c = op a (op b c)) (he : ∀ a, op e a = a)
  {x : Site} {f : Lane → Word} {k : Nat} {l : Lane} (hl : x.g.lanes[k]? = some l) (hm : x.mask.getLsbD k = true)
include ha he hl hm

/-- An associative operation without flags over the participants, with a value that it leaves alone. -/
theorem treeReduce_values :
    (treeReduce (quiet op) 5 (values x x.mask f)).1.getD 0 = ((values x x.mask f).filterMap id).foldl op e := by
  obtain ⟨w, hw⟩ := total_some op (values_active f hl hm)
  rw [treeReduce_total op ha, show 2 ^ 5 = 32 from rfl, total_values_take, foldl_total op ha, hw]
  exact (he w).symm

theorem scanFrom_values :
    ((scanFrom (quiet op) none (values x x.mask f)).1[k]?.join).getD 0 =
      (((values x x.mask f).take (k + 1)).filterMap id).foldl op e := by
  have hk := values_active f hl hm
  obtain ⟨w, hw⟩ := total_some op (k := k) (v := f l) (xs := (values x x.mask f).take (k + 1)) (by
    rw [List.getElem?_take_of_lt (Nat.lt_succ_self k), hk])
  rw [(scanFrom_total op ha none _).2 k _ hk, foldl_total op ha, hw]
  exact (he w).symm

end

end Sys2Proof.Machine

namespace Sys2Proof
open Machine

/-- Settles O11: reductions bring the tree reduction and scans the inclusive scan, with their flags at issue; an
associative operation without flags brings what the participants come to. -/
theorem reductionScanResults : Obligations.ReductionScanResults := by
  intro s x m d a h o c vals brings tree scan
  refine ⟨fun hc => ?_, fun hc => ?_⟩
  · have redadd := reduceArith_brings m d a h (.redadd m d a) rfl .sum rfl hc rfl rfl
    have scanadd := scanArith_brings m d a h (.scanadd m d a) rfl .sum rfl hc rfl rfl
    refine ⟨redadd, reduceArith_brings m d a h (.redmin m d a) rfl .min rfl hc rfl rfl,
      reduceArith_brings m d a h (.redmax m d a) rfl .max rfl hc rfl rfl, scanadd,
      scanArith_brings m d a h (.scanmax m d a) rfl .max rfl hc rfl rfl, fun hint => ?_⟩
    have sum : RedOp.step .sum c = quiet (· + ·) := by
      rcases hint with hc | hc <;> rw [hc] <;> rfl
    rw [sum] at redadd scanadd
    exact ⟨redadd.change (fun k l hl hm => treeReduce_values _ 0 BitVec.add_assoc BitVec.zero_add hl hm)
        (treeReduce_quiet ..),
      scanadd.change (fun k l hl hm => scanFrom_values _ 0 BitVec.add_assoc BitVec.zero_add hl hm)
        (scanFrom_total _ BitVec.add_assoc ..).1⟩
  · have bits (i : Instr) (op : Word → Word → Word) (e : Word) (hd : i.dest.isSome = true)
        (hi : exec i s = (reduceBits m d a op).issue s) (ha : ∀ a b c, op (op a b) c = op a (op b c))
        (he : ∀ a, op e a = a) : brings i tagRAW (fun _ => (vals.filterMap id).foldl op e) 0 :=
      (reduceBits_brings m d a h i hd op hi hc rfl).change
        (fun k l hl hm => treeReduce_values op e ha he hl hm) (treeReduce_quiet op 5 vals)
    exact ⟨bits (.redand m d a) _ _ rfl rfl BitVec.and_assoc fun a => BitVec.allOnes_and,
      bits (.redor m d a) _ _ rfl rfl BitVec.or_assoc fun a => BitVec.zero_or,
      bits (.redxor m d a) _ _ rfl rfl BitVec.xor_assoc fun a => BitVec.zero_xor⟩

end Sys2Proof
end

section
/-!
PROOFS. Rejoin masks, leaving and the end of a segment (R28 to R33, R54, R56, R185 to R189).
-/

-- One proof after another: each that waits beside others holds a stack of its own.
set_option Elab.async false

namespace Sys2Proof.Machine

/-! ## Rejoin masks (R28, R29) -/

theorem Group.testRejoin_released {g : Group} {j : Nat} {jm : JMask} (h : g.jmasks[j]? = some jm)
    (he : jm.enrol ≠ 0 ∧ jm.arrived = jm.enrol) : g.testRejoin j = g.clearJ j := by
  have hc : (jm.enrol != 0 && jm.arrived == jm.enrol) = true := by simpa [he.2] using he.1
  simp only [Group.testRejoin, h, hc, if_true]
  rfl

theorem Group.testRejoin_kept {g : Group} {j : Nat} {jm : JMask} (h : g.jmasks[j]? = some jm)
    (he : ¬(jm.enrol ≠ 0 ∧ jm.arrived = jm.enrol)) : g.testRejoin j = g := by
  have hc : (jm.enrol != 0 && jm.arrived == jm.enrol) = false := by simpa using he
  simp only [Group.testRejoin, h, hc, Bool.false_eq_true, if_false]

/-- The lanes of a group are changed at most as the release of a register changes them. -/
theorem Group.testRejoin_lane (g : Group) (j k : Nat) {l : Lane} (h : g.lanes[k]? = some l) :
    ∃ l', (g.testRejoin j).lanes[k]? = some l' ∧
      (l' = l ∨ l.state = .join j ∧ l' = { l with state := .run, lpc := l.lpc + 4 }) := by
  unfold Group.testRejoin
  split
  · exact ⟨l, h, .inl rfl⟩
  · split
    · refine ⟨if l.state == .join j then { l with state := .run, lpc := l.lpc + 4 } else l, by
        rw [List.getElem?_map, h]; rfl, ?_⟩
      split
      next hj => exact .inr ⟨by simpa using hj, rfl⟩
      · exact .inl rfl
    · exact ⟨l, h, .inl rfl⟩

/-! ## Leaving (R30, R56) -/

theorem Group.testRejoin_names (g : Group) (j : Nat) :
    (g.testRejoin j).uid = g.uid ∧ (g.testRejoin j).team = g.team ∧
      (g.testRejoin j).lanes.length = g.lanes.length := by
  unfold Group.testRejoin
  split
  · exact ⟨rfl, rfl, rfl⟩
  · split
    · exact ⟨rfl, rfl, List.length_map ..⟩
    · exact ⟨rfl, rfl, rfl⟩

/-- Leaving the masks: names stay, and a lane in DONE stays as it is. -/
theorem Group.leaveMasks_keeps (g : Group) (mask : BitVec 32) :
    (g.leaveMasks mask).uid = g.uid ∧ (g.leaveMasks mask).team = g.team ∧
      (g.leaveMasks mask).lanes.length = g.lanes.length ∧
      ∀ (k : Nat) (l : Lane), g.lanes[k]? = some l → l.state = .done → (g.leaveMasks mask).lanes[k]? = some l := by
  unfold Group.leaveMasks
  generalize List.range 8 = js
  induction js generalizing g with
  | nil => exact ⟨rfl, rfl, rfl, fun _ _ h _ => h⟩
  | cons j js ih =>
    rw [List.foldl_cons]
    let set : Group := { g with jmasks := setAt (fun jm => ⟨jm.enrol &&& ~~~mask, jm.arrived &&& ~~~mask⟩) j g.jmasks }
    obtain ⟨hu, ht, hn⟩ := set.testRejoin_names j
    obtain ⟨iu, it, il, ik⟩ := ih (set.testRejoin j)
    refine ⟨iu.trans hu, it.trans ht, il.trans hn, fun k l hk hd => ik k l ?_ hd⟩
    obtain ⟨l', hl', rfl | ⟨hj, -⟩⟩ := set.testRejoin_lane j k (l := l) hk
    · exact hl'
    · rw [hd] at hj
      cases hj

@[simp] theorem Group.leaveStubs_uid (g : Group) (mask : BitVec 32) : (g.leaveStubs mask).uid = g.uid := rfl
@[simp] theorem Group.leaveStubs_team (g : Group) (mask : BitVec 32) : (g.leaveStubs mask).team = g.team := rfl
@[simp] theorem Group.leaveStubs_lanes (g : Group) (mask : BitVec 32) : (g.leaveStubs mask).lanes = g.lanes := rfl

theorem Group.finishLanes_keeps (g : Group) (mask : BitVec 32) :
    (g.finishLanes mask).uid = g.uid ∧ (g.finishLanes mask).team = g.team ∧
      (g.finishLanes mask).lanes.length = g.lanes.length ∧
      ∀ (k : Nat) (l : Lane), g.lanes[k]? = some l → mask.getLsbD k = true ∨ l.state = .done →
        ∃ l', (g.finishLanes mask).lanes[k]? = some l' ∧ l'.state = .done := by
  let done : Group := g.onLanes mask fun _ l =>
    { l with state := .done, handler := false, atSafe := false, service := none, redo := none, stood := none,
             leaving := false }
  obtain ⟨hu, ht, hn, hk⟩ := done.leaveMasks_keeps mask
  rw [show g.finishLanes mask = (done.leaveMasks mask).leaveStubs mask from rfl]
  simp only [Group.leaveStubs_uid, Group.leaveStubs_team, Group.leaveStubs_lanes]
  refine ⟨hu, ht, hn.trans (Group.onLanes_length ..), fun k l hl hd => ?_⟩
  have hl' : done.lanes[k]? = some _ := (Group.onLanes_lane ..).trans (congrArg _ hl)
  have hdone : (if mask.getLsbD k then { l with
      state := LaneState.done, handler := false, atSafe := false, service := none, redo := none, stood := none,
      leaving := false } else l).state = .done := by
    split
    · rfl
    next h => exact hd.resolve_left h
  exact ⟨_, hk k _ hl' hdone, hdone⟩

theorem Lane.isDone_iff (l : Lane) : l.isDone = true ↔ l.state = .done := by
  cases h : l.state <;> simp [Lane.isDone, h]

/-- Handing a group to the tracker: it is among the groups no more. -/
theorem State.retire_group? (s : State) (u : Nat) {g : Group} (hg : s.group? u = some g) :
    (s.retire u).group? u = some g ∨ (s.retire u).group? u = none := by
  unfold State.retire
  rw [hg]
  dsimp only
  split
  · exact .inl hg
  · split
    · exact .inl hg
    · refine .inr (List.find?_eq_none.mpr fun g' hg' => ?_)
      simpa using (List.mem_filter.mp hg').2

theorem State.retire_of_allDone {s : State} {u : Nat} {g : Group} {tm : Team} (hg : s.group? u = some g)
    (hd : g.allDone = true) (ht : s.team? g.team = some tm) :
    s.retire u = { s with groups := s.groups.filter (·.uid != u), retiring := s.retiring ++ [trackerEntry tm g] } := by
  simp [State.retire, hg, hd, ht]

/-- The books of an issue make no group. -/
theorem State.completed_no_group {s : State} {x : Site} (m : Bool) (k : IssueKind) {e : State → State}
    (h : (e (s.advance x x.mask)).group? x.g.uid = none) : (s.completed x m k e).group? x.g.uid = none := by
  have hn := List.find?_eq_none.mp h
  refine List.find?_eq_none.mpr fun g hg => ?_
  obtain ⟨g', hg', rfl⟩ := List.mem_map.mp hg
  have := hn g' hg'
  rw [if_neg (by simpa using this)]
  exact this

/-! ## The end of a segment (R33, R54) -/

/-- A group whose segment is over: nothing of it is pending. -/
def Group.segmentOver (g : Group) : Group :=
  { g with segEnd := false, upend := [], lanes := g.lanes.map fun l => { l with pend := [] } }

theorem State.endSegment_over {s : State} {g : Group} (hs : g.segEnd = true) (ha : s.awaits g.uid = false)
    (hl : ∀ l ∈ g.lanes, l.service = none ∧ l.redo = none) :
    s.endSegment g = g.segmentOver.endStub := by
  have hn : (g.lanes.any fun l => l.service.isSome || l.redo.isSome) = false := by
    rw [List.any_eq_false]
    intro l h
    simp [(hl l h).1, (hl l h).2]
  rw [State.endSegment, hs, ha, hn]
  rfl

/-- The lanes that leave their stub go back, and the stubs name them no more. -/
theorem Group.endStub_lane (g : Group) {k : Nat} {l : Lane} (hk : k < 32) (hl : g.lanes[k]? = some l) :
    g.endStub.lanes[k]? = some (if l.leaving then l.goBack else l) ∧
      (l.leaving = true → ∀ st ∈ g.endStub.stubs, st.lanes.getLsbD k = false) := by
  have hm : (g.maskOf fun _ l => l.leaving).getLsbD k = l.leaving := by
    rw [Group.maskOf_getLsbD, hl]
    simp [hk]
  refine ⟨(Group.onLanes_lane ..).trans (by rw [hl, hm]; rfl), fun h st hst => ?_⟩
  obtain ⟨st', -, rfl⟩ := List.mem_map.mp (List.mem_filter.mp hst).1
  simp [hm, h]

/-! ## A cycle begins -/

theorem State.Sent.foldl {α : Type} (f : State → α → State) (hf : ∀ (s : State) a, s.Sent (f s a)) (xs : List α)
    (s : State) : s.Sent (xs.foldl f s) := by
  induction xs generalizing s with
  | nil => exact .refl s
  | cons a xs ih => exact (hf s a).trans (ih _)

theorem State.flushQueued_sent (s : State) : s.Sent s.flushQueued :=
  .foldl _ (fun s r => by
    dsimp only
    split
    · refine State.Sent.trans ?_ (State.transmit_sent ..)
      rfl
    · exact .refl s) _ s

theorem State.flushColl_sent (s : State) : s.Sent s.flushColl :=
  .foldl _ (fun s r => by
    split
    · rfl
    · exact .refl s) _ s

theorem State.flushAcks_sent (s : State) : s.Sent s.flushAcks :=
  .foldl _ (fun s r => by
    split
    · rfl
    · exact .refl s) _ s

theorem State.tickOn_teams (s : State) : s.tickOn.teams = s.teams.map Team.newCycle := by
  have h (u : State) : u.Sent u.flushQueued.flushColl.flushAcks :=
    (u.flushQueued_sent.trans (State.flushColl_sent _)).trans (State.flushAcks_sent _)
  unfold State.tickOn
  dsimp only
  rw [h]

/-- An instruction whose kind sets SPCOUNT to 0: it does, and ends its segment (R31, R49). -/
theorem State.completed_zeroes {s : State} {x : Site} (m : Bool) {k : IssueKind} {e : State → State} {g : Group}
    (hr : x.g.redo? = none) (hk : k.zeroes = true) (h : (e (s.advance x x.mask)).group? x.g.uid = some g) :
    ∃ g, (s.completed x m k e).group? x.g.uid = some g ∧ g.spcount = 0 ∧ g.segEnd = true := by
  refine ⟨_, State.completed_group? m k h, ?_, ?_⟩
  · rw [(Group.book_segEnd hr ..).2, nextSpcount, hk]
    rfl
  · have hp : (k != .plain) = true := bne_iff_ne.mpr fun h => by
      subst h
      cases hk
    rw [(Group.book_segEnd hr ..).1, hp, Bool.or_true]

theorem trackerEntry_group (t : Team) (g : Group) : (trackerEntry t g).group = g.uid := rfl
theorem trackerEntry_team (t : Team) (g : Group) : (trackerEntry t g).team = g.team := rfl

/-- EXIT's effect. -/
def exitEffect (x : Site) (good : BitVec 32) (s : State) : State :=
  (s.modGroup x.g.uid fun g => g.finishLanes good).retire x.g.uid

def exitOp (m : Bool) (s : State) : Op :=
  { m := m, kind := .exit, check := fun _ _ _ => none, hold := fun x good => s.exitStalls x.g good,
    effect := exitEffect }

theorem exit_issue {s : State} {x : Site} (m : Bool) (h : Issuing s x .exit) (he : s.exitStalls x.g x.mask = false) :
    exec (.exit m) s = .next (s.completed x m .exit (exitEffect x x.mask)) :=
  (exitOp m s).issue_completed s x h (fun _ _ _ _ => rfl) (fun _ _ _ _ => rfl) rfl (by simpa only [exitOp] using he)

section
variable {s : State} {x : Site} (hg : s.group? x.g.uid = some x.g)
include hg

/-- The group as EXIT's lanes have entered DONE. -/
theorem exit_finished :
    ((s.advance x x.mask).modGroup x.g.uid fun g => g.finishLanes x.mask).group? x.g.uid =
      some ((x.g.onLanes x.mask fun _ l => { l with lpc := x.pc + 4 }).finishLanes x.mask) :=
  State.modGroup_group?_same (State.advance_group? hg x.mask) (Group.finishLanes_keeps ..).1

theorem exit_lanes_done (m : Bool) {g : Group}
    (h : (s.completed x m .exit (exitEffect x x.mask)).group? x.g.uid = some g) {i : Nat} {l : Lane}
    (hl : g.lanes[i]? = some l) (hm : x.mask.getLsbD i = true) : l.state = .done := by
  rcases State.retire_group? _ x.g.uid (exit_finished hg) with hr | hr
  · have hb := State.completed_group? m .exit (e := exitEffect x x.mask) hr
    obtain rfl := Option.some.inj (hb.symm.trans h)
    obtain ⟨a, r, hk⟩ := Group.book_lane x.g x.pc x.mask m .exit (overDistance s.fw.spdistCap x .exit) s.clock.stamp
      ((x.g.onLanes x.mask fun _ l => { l with lpc := x.pc + 4 }).finishLanes x.mask) i
    rw [hk] at hl
    obtain ⟨l', hl', rfl⟩ := Option.map_eq_some_iff.mp hl
    obtain ⟨-, -, hn, hd⟩ := (x.g.onLanes x.mask fun _ l => { l with lpc := x.pc + 4 }).finishLanes_keeps x.mask
    obtain ⟨hi, -⟩ := List.getElem?_eq_some_iff.mp hl'
    obtain ⟨l'', hl'', hs⟩ := hd i _ (List.getElem?_eq_getElem (hn ▸ hi)) (.inl hm)
    obtain rfl := Option.some.inj (hl'.symm.trans hl'')
    rw [if_pos hm]
    exact hs
  · rw [State.completed_no_group m .exit (e := exitEffect x x.mask) hr] at h
    cases h

theorem exit_retires (m : Bool) {tm : Team} (ht : s.team? x.g.team = some tm)
    (hd : ∀ i l, x.g.lanes[i]? = some l → x.mask.getLsbD i = false → l.state = .done) :
    (s.completed x m .exit (exitEffect x x.mask)).group? x.g.uid = none ∧
      ∃ r ∈ (s.completed x m .exit (exitEffect x x.mask)).retiring, r.group = x.g.uid ∧ r.team = x.g.team := by
  let gone := x.g.onLanes x.mask fun _ l => { l with lpc := x.pc + 4 }
  obtain ⟨hu, hteam, hn, hk⟩ := gone.finishLanes_keeps x.mask
  have all : (gone.finishLanes x.mask).allDone = true := by
    refine List.all_eq_true.mpr fun l hl => ?_
    obtain ⟨i, hi⟩ := List.mem_iff_getElem?.mp hl
    obtain ⟨hlt, -⟩ := List.getElem?_eq_some_iff.mp hi
    have hgone : gone.lanes[i]? = some _ := List.getElem?_eq_getElem (hn ▸ hlt)
    obtain ⟨l', hl', hs⟩ := hk i _ hgone (by
      cases hm : x.mask.getLsbD i with
      | true => exact .inl rfl
      | false =>
        rw [Group.onLanes_lane] at hgone
        obtain ⟨l0, hl0, he⟩ := Option.map_eq_some_iff.mp hgone
        rw [hm, if_neg Bool.false_ne_true] at he
        rw [← he]
        exact .inr (hd i l0 hl0 hm))
    obtain rfl := Option.some.inj (hi.symm.trans hl')
    exact (Lane.isDone_iff _).mpr hs
  have hr := State.retire_of_allDone (exit_finished hg) all (tm := tm) (by rw [hteam]; exact ht)
  refine ⟨State.completed_no_group m .exit ?_, ?_⟩
  · rw [exitEffect, hr]
    exact List.find?_eq_none.mpr fun g hg' => by simpa using (List.mem_filter.mp hg').2
  · change ∃ r ∈ (exitEffect x x.mask (s.advance x x.mask)).retiring, _
    rw [exitEffect, hr]
    exact ⟨_, List.mem_append_right _ (List.mem_singleton.mpr rfl), (trackerEntry_group ..).trans hu,
      (trackerEntry_team ..).trans hteam⟩

end

end Sys2Proof.Machine

namespace Sys2Proof
open Machine

/-- Settles O13: the instructions on rejoin masks change their register and test it; the test releases the lanes parked
on it where all that are enrolled have arrived. -/
theorem rejoinResults : Obligations.RejoinResults := by
  refine ⟨fun s x m d a => ⟨fun h => ⟨?_, ?_, ?_, fun hc => ?_⟩, fun h => ?_⟩, fun g j jm hj => ⟨fun he => ?_,
    fun he => ?_⟩⟩
  · exact groupOp_issue s x m [] _ h fun _ _ _ _ => rfl
  · exact groupOp_issue s x m [] _ h fun _ _ _ _ => rfl
  · refine (groupOp_issue s x m [] _ h fun _ _ _ _ => rfl).trans ?_
    simp only [Group.clearJ, beq_iff_eq]
  · exact laneOp_issue s x m { vs := [d.toNat, d.toNat + 1] } (fun _ _ => true) _ h hc
  · exact Op.issue_completed _ s x h (fun _ _ _ _ => rfl) (fun _ _ _ _ => rfl) rfl rfl
  · rw [Group.testRejoin_released hj he]
    refine ⟨?_, fun k hk => setAt_getElem?_other _ j k _ hk, fun i l hl => ?_⟩
    · exact (setAt_getElem?_same ..).trans (congrArg _ hj)
    · simp only [Group.clearJ, List.getElem?_map, hl, Option.map_some, beq_iff_eq]
  · exact Group.testRejoin_kept hj he

end Sys2Proof

namespace Sys2Proof
open Machine

/-- Settles O14: safe points and RESUME set SPCOUNT to 0 and end the segment, after which the lanes of a stub go back;
EXIT's lanes are done, and the last hand their group to the tracker. -/
theorem safePointExitResults : Obligations.SafePointExitResults := by
  intro s x m k uid hr
  have hg {kind : IssueKind} (h : Issuing s x kind) := State.site?_group_plain h.site hr
  have zeroes {kind : IssueKind} (h : Issuing s x kind) (hk : kind.zeroes = true) {e : State → State} {g : Group}
      (he : (e (s.advance x x.mask)).group? x.g.uid = some g) {i : Instr}
      (hi : exec i s = .next (s.completed x m kind e)) :
      ∀ t, exec i s = .next t → ∃ g, t.group? uid = some g ∧ g.spcount = 0 ∧ g.segEnd = true := by
    intro t ht
    obtain rfl := Host.Outcome.next.inj (hi.symm.trans ht)
    exact State.completed_zeroes m hr hk he
  refine ⟨fun h => ?_, fun h => ?_, fun h => ?_, fun u g hs ha hl => ?_, fun h hca => ?_, s.tickOn_teams,
    fun h hstall => ?_⟩
  · exact ⟨Op.issue_completed _ s x h (fun _ _ _ _ => rfl) (fun _ _ _ _ => rfl) rfl rfl,
      State.completed_zeroes m hr rfl (State.advance_group? (hg h) x.mask)⟩
  · have hi : exec (.yield m) s = .next (s.completed x m .yield (onGroup x fun g =>
        { g with rotation := (g.leastAbove (x.pc + 4)).map fun b => { base := b, left := g.fairtime } })) :=
      Op.issue_completed _ s x h (fun _ _ _ _ => rfl) (fun _ _ _ _ => rfl) rfl rfl
    exact ⟨hi, zeroes h rfl (State.modGroup_group?_same (State.advance_group? (hg h) x.mask) rfl) hi⟩
  · have hi : exec (.resume m) s = .next (s.completed x m .resume (onActive x fun _ l => { l with leaving := true })) :=
      Op.issue_completed _ s x h (fun _ _ _ _ => rfl) (fun _ _ _ _ => rfl) rfl rfl
    exact ⟨hi, zeroes h rfl (State.onLanes_group? (State.advance_group? (hg h) x.mask) ..) hi⟩
  · rw [State.endSegment_over hs ha hl]
    refine ⟨rfl, fun i l hi hlane => ?_⟩
    obtain ⟨hlane', hstubs⟩ := g.segmentOver.endStub_lane hi (l := { l with pend := [] })
      (by simp [Group.segmentOver, hlane])
    refine ⟨_, hlane', ?_, ?_, fun hleave p hp => ?_⟩
    · split
      · unfold Lane.goBack
        split <;> rfl
      · rfl
    · split
      · unfold Lane.goBack
        split <;> rfl
      next h => exact Bool.eq_false_iff.mpr h
    · rw [if_pos hleave]
      simp only [Lane.goBack, hp]
      exact ⟨trivial, trivial, trivial, hstubs hleave⟩
  · refine Op.issue_completed _ s x h (fun _ _ _ _ => ?_) (fun _ _ _ _ => rfl) rfl rfl
    exact if_neg (Nat.not_le.mpr hca)
  · refine ⟨_, exit_issue m h hstall, fun g hgt i l hl hm => exit_lanes_done (hg h) m hgt hl hm, fun ht hd => ?_⟩
    obtain ⟨tm, htm⟩ := Option.isSome_iff_exists.mp ht
    exact exit_retires (hg h) m htm hd

end Sys2Proof
end

section
/-!
PROOFS. Special registers: their rows, the values that SWRITE takes and those that it refuses (R47, R230, R231).
-/

-- One proof after another: each that waits beside others holds a stack of its own.
set_option Elab.async false

namespace Sys2Proof.Machine

/-! ## Special registers (R47, R230, R231) -/

theorem laneList_head {mask : BitVec 32} {i : Nat} (hi : i < 32) (hm : mask.getLsbD i = true)
    (hlow : ∀ j, j < i → mask.getLsbD j = false) : ∃ rest, laneList mask = i :: rest := by
  have hf : (List.range 32).find? mask.getLsbD = some i :=
    List.find?_range_eq_some.mpr ⟨hm, List.mem_range.mpr hi, fun j hj => by simp [hlow j hj]⟩
  have hh : (laneList mask).head? = some i := by rw [laneList, List.head?_filter, hf]
  cases h : laneList mask with
  | nil => rw [h] at hh; cases hh
  | cons k rest =>
    rw [h] at hh
    exact ⟨rest, by rw [Option.some.inj hh]⟩

/-- An issue has a lowest active lane. -/
theorem State.site?_lowest {s : State} {x : Site} (h : s.site? = some x) (hm : x.mask ≠ 0) :
    ∃ i l, i < 32 ∧ x.g.lanes[i]? = some l ∧ x.mask.getLsbD i = true ∧ ∀ j, j < i → x.mask.getLsbD j = false := by
  have some_active : ∃ i, x.mask.getLsbD i = true := by
    by_contra hn
    refine hm (BitVec.eq_of_getLsbD_eq fun i _ => ?_)
    exact (Bool.eq_false_iff.mpr fun hi => hn ⟨i, hi⟩).trans BitVec.getLsbD_zero.symm
  have hi := Nat.find_spec some_active
  obtain ⟨hlt, l, hl, -⟩ := State.site?_active h hi
  exact ⟨Nat.find some_active, l, hlt, hl, hi, fun j hj => Bool.eq_false_iff.mpr (Nat.find_min some_active hj)⟩

section
variable {s : State} {x : Site} (m : Bool) (cls a b : BitVec 7) (h : Issuing s x .plain)

/-- The value of a group write is that of the lowest active lane, where all of them pass. -/
theorem swriteValue_lowest (hc : OperandsPass x (swriteOperands cls a) (swriteTags cls a)) {i : Nat} {l : Lane}
    (hi : i < 32) (hl : x.g.lanes[i]? = some l) (hm : x.mask.getLsbD i = true)
    (hlow : ∀ j, j < i → x.mask.getLsbD j = false) : swriteValue cls a x = swriteSource cls a x l := by
  obtain ⟨rest, hrest⟩ := laneList_head (mask := x.g.maskOf fun i l =>
      x.mask.getLsbD i && (operandFault x l (swriteOperands cls a) (swriteTags cls a l)).isNone) hi
    (by rw [Group.maskOf_getLsbD, hl]; simp [hi, hm, hc i l hl hm])
    (fun j hj => by rw [Group.maskOf_getLsbD]; simp [hlow j hj])
  simp [swriteValue, hrest, Group.lane?, hl]

/-- SWRITE to a group register. -/
def swriteGroup : Op :=
  { m := m, kind := .plain,
    check := fun x _ l =>
      match operandFault x l (swriteOperands cls a) (swriteTags cls a l) with
      | some c => some c
      | none => if badSpecial b.toNat (swriteValue cls a x) then some Cause.illegalOperand else none,
    effect := fun x _ s => s.modGroup x.g.uid fun g => g.setSpecial b.toNat (swriteValue cls a x) }

/-- SWRITE to FPFLAGS. -/
def swriteFlags : Op :=
  { m := m, kind := .plain,
    check := fun x _ l =>
      valueFault x l (swriteOperands cls a) (badSpecial 0x19 (swriteSource cls a x l))
        (operandFault x l (swriteOperands cls a) (swriteTags cls a l)),
    effect := fun x good s => s.modGroup x.g.uid fun g => g.onLanes good fun _ l =>
      { l with fpflags := (swriteSource cls a x l).setWidth 5 } }

theorem exec_swrite_group (hb : b ≠ 0x19) : exec (.swrite m cls a b) s = (swriteGroup m cls a b).issue s := by
  simp only [exec, execSwrite, if_neg hb]
  rfl

theorem exec_swrite_flags : exec (.swrite m cls a 0x19) s = (swriteFlags m cls a).issue s := rfl

variable (hc : OperandsPass x (swriteOperands cls a) (swriteTags cls a))
include hc

theorem swriteGroup_check {w : Word} (hw : swriteValue cls a x = w) {i : Nat} {l : Lane} (hl : x.g.lanes[i]? = some l)
    (hm : x.mask.getLsbD i = true) :
    (swriteGroup m cls a b).check x i l = if badSpecial b.toNat w then some Cause.illegalOperand else none := by
  have hn : operandFault x l (swriteOperands cls a) (swriteTags cls a l) = none := hc i l hl hm
  simp only [swriteGroup, hn, hw]

theorem swriteFlags_check {i : Nat} {l : Lane} (hl : x.g.lanes[i]? = some l) (hm : x.mask.getLsbD i = true) :
    (swriteFlags m cls a).check x i l =
      if 32 ≤ (swriteSource cls a x l).toNat then some Cause.illegalOperand else none := by
  have hn : operandFault x l (swriteOperands cls a) (swriteTags cls a l) = none := hc i l hl hm
  obtain ⟨hb, hp, -⟩ := operandFault_none.mp hn
  simp [swriteFlags, valueFault, hn, hb, hp, badSpecial]

include h in
theorem swriteGroup_issue {w : Word} (hw : swriteValue cls a x = w) (hb : b ≠ 0x19)
    (hbad : badSpecial b.toNat w = false) :
    exec (.swrite m cls a b) s = .next (s.completed x m .plain (onGroup x fun g => g.setSpecial b.toNat w)) := by
  have hcheck : ActiveLanes x fun i l => (swriteGroup m cls a b).check x i l = none := fun i l hl hm =>
    (swriteGroup_check m cls a b hc hw hl hm).trans (if_neg (by rw [hbad]; exact Bool.false_ne_true))
  rw [exec_swrite_group m cls a b hb, (swriteGroup m cls a b).issue_completed s x h hcheck (fun _ _ _ _ => rfl) rfl rfl]
  simp only [swriteGroup, hw]
  rfl

include h in
theorem swriteFlags_issue (hw : ActiveLanes x fun _ l => (swriteSource cls a x l).toNat < 32) :
    exec (.swrite m cls a 0x19) s = .next (s.completed x m .plain (onActive x fun _ l =>
      { l with fpflags := (swriteSource cls a x l).setWidth 5 })) :=
  Op.issue_completed _ s x h (fun i l hl hm => (swriteFlags_check m cls a hc hl hm).trans
    (if_neg (Nat.not_le.mpr (hw i l hl hm)))) (fun _ _ _ _ => rfl) rfl rfl

end

/-- A trap with an illegal operand shows its code. -/
theorem illegalOperand_word (stub : Bool) : bitsOf (Cause.illegalOperand.word stub).toNat 0 8 = 0x02 := by
  cases stub <;> rfl

/-- An SWRITE whose value is refused by lanes `which`: they are trapped, and the group's registers stay. -/
theorem swrite_refuses {s : State} {x : Site} (o : Op) (f : Nat → Lane → Lane) (h : Issuing s x o.kind)
    (hk : o.kind = .plain) (hr : x.g.redo? = none) (hn : x.NoHandler) (hw : o.wait x = false)
    (hh : o.hold x (o.good s x) = false)
    (he : ∀ good t, good ≠ 0 → good = o.good s x → o.effect x good t = t.modGroup x.g.uid fun g => g.onLanes good f)
    (which : Lane → Prop) (hwhich : ActiveLanes x fun i l => which l → o.check x i l = some Cause.illegalOperand) :
    ∃ t g, o.issue s = .next t ∧ t.group? x.g.uid = some g ∧ g.fpmode = x.g.fpmode ∧ g.pprom = x.g.pprom ∧
      g.fairtime = x.g.fairtime ∧ g.leaseovr = x.g.leaseovr ∧
      ∀ (j : Nat) (l l' : Lane), x.g.lanes[j]? = some l → g.lanes[j]? = some l' → x.mask.getLsbD j = true → which l →
        l'.state = .trap ∧ bitsOf l'.tcause.toNat 0 8 = 0x02 ∧ l'.fpflags = l.fpflags := by
  obtain ⟨t, g, ht, hg, -, hs, hl⟩ := o.issue_lanes f h.site hn hr hw hh he
  refine ⟨t, g, ht, hg, hs.fpmode, hs.pprom, hs.fairtime, hs.leaseovr, fun j l l' hlj hlj' hm hwl => ?_⟩
  obtain ⟨safe, redo, hj⟩ := hl j l hlj
  have hf : o.faultOf s.fw.spdistCap x j l = some Cause.illegalOperand := by
    have hkind : kindFault x o.kind = none := by rw [hk]; rfl
    simp only [Op.faultOf, hkind, hwhich j l hlj hm hwl]
  rw [if_pos hm] at hj
  obtain rfl := Option.some.inj (hlj'.symm.trans hj)
  simp only [Op.laneAfter, hf, Lane.trap]
  exact ⟨trivial, illegalOperand_word _, trivial⟩

/-- The values that a group register does not take (R24, R115, R278). -/
def refused (b : BitVec 7) (w : Word) : Prop :=
  (b = 0x18 ∧ 4 ≤ w.toNat) ∨ (b = 0x1A ∧ 2 ≤ w.toNat) ∨ (b = 0x1B ∧ (w.toNat < 16 ∨ 4096 < w.toNat)) ∨
    (b = 0x1D ∧ 8 ≤ w.toNat)

theorem refused_iff {b : BitVec 7} {w : Word} (h : refused b w) : b ≠ 0x19 ∧ badSpecial b.toNat w = true := by
  rcases h with ⟨rfl, h⟩ | ⟨rfl, h⟩ | ⟨rfl, h⟩ | ⟨rfl, h⟩
  · exact ⟨by decide, decide_eq_true h⟩
  · exact ⟨by decide, decide_eq_true h⟩
  · exact ⟨by decide, by simpa [badSpecial] using h⟩
  · exact ⟨by decide, decide_eq_true h⟩

/-- What SWRITE leaves of each group register for a value that it takes. -/
def WritesGroup (s : State) (x : Site) (m : Bool) (cls a : BitVec 7) (w : Word) : Prop :=
  (w.toNat < 4 → exec (.swrite m cls a 0x18) s =
    .next (s.completed x m .plain (onGroup x fun g => { g with fpmode := w.setWidth 2 }))) ∧
  (w.toNat < 2 → exec (.swrite m cls a 0x1A) s =
    .next (s.completed x m .plain (onGroup x fun g => { g with pprom := w == 1 }))) ∧
  (16 ≤ w.toNat ∧ w.toNat ≤ 4096 → exec (.swrite m cls a 0x1B) s =
    .next (s.completed x m .plain (onGroup x fun g => { g with fairtime := w.toNat }))) ∧
  (w.toNat < 8 → exec (.swrite m cls a 0x1D) s =
    .next (s.completed x m .plain (onGroup x fun g => { g with leaseovr := w.setWidth 3 })))

theorem bit_of_lt_two {w : Word} (h : w.toNat < 2) : w.getLsbD 0 = (w == 1) := by
  rcases (by omega : w.toNat = 0 ∨ w.toNat = 1) with h0 | h0
  · obtain rfl : w = 0 := BitVec.eq_of_toNat_eq h0
    rfl
  · obtain rfl : w = 1 := BitVec.eq_of_toNat_eq h0
    rfl

section
variable {s : State} {x : Site} (m : Bool) (cls a : BitVec 7) (h : Issuing s x .plain)
  (hc : OperandsPass x (swriteOperands cls a) (swriteTags cls a)) {w : Word} (hw : swriteValue cls a x = w)
include h hc hw

theorem swrite_writesGroup : WritesGroup s x m cls a w := by
  refine ⟨fun hv => ?_, fun hv => ?_, fun hv => ?_, fun hv => ?_⟩
  · exact swriteGroup_issue m cls a 0x18 h hc hw (by decide) (decide_eq_false (Nat.not_le.mpr hv))
  · have hi := swriteGroup_issue m cls a 0x1A h hc hw (by decide) (decide_eq_false (Nat.not_le.mpr hv))
    rw [← bit_of_lt_two hv]
    exact hi
  · exact swriteGroup_issue m cls a 0x1B h hc hw (by decide) (by simp [badSpecial, hv.1, hv.2])
  · exact swriteGroup_issue m cls a 0x1D h hc hw (by decide) (decide_eq_false (Nat.not_le.mpr hv))

/-- No active lane passes where the value is refused. -/
theorem swriteGroup_none_good {b : BitVec 7} (hb : badSpecial b.toNat w = true) :
    (swriteGroup m cls a b).good s x = 0 := by
  refine BitVec.eq_of_getLsbD_eq fun k _ => ?_
  refine Eq.trans (Bool.eq_false_iff.mpr fun hk => ?_) BitVec.getLsbD_zero.symm
  have hm : x.mask.getLsbD k = true := by
    rw [Op.good, BitVec.getLsbD_and, Bool.and_eq_true] at hk
    exact hk.1
  obtain ⟨-, l, hl, -⟩ := State.site?_active h.site hm
  have hkind : kindFault x (swriteGroup m cls a b).kind = none := rfl
  rw [Op.good_lane _ h.site hl] at hk
  simp [Op.faultOf, hkind, swriteGroup_check m cls a b hc hw hl hm, hb] at hk

theorem swriteGroup_refuses {b : BitVec 7} (hb : refused b w) (hr : x.g.redo? = none) (hn : x.NoHandler) :
    ∃ t g, exec (.swrite m cls a b) s = .next t ∧ t.group? x.g.uid = some g ∧ g.fpmode = x.g.fpmode ∧
      g.pprom = x.g.pprom ∧ g.fairtime = x.g.fairtime ∧ g.leaseovr = x.g.leaseovr ∧
      ∀ (j : Nat) (l l' : Lane), x.g.lanes[j]? = some l → g.lanes[j]? = some l' → x.mask.getLsbD j = true → True →
        l'.state = .trap ∧ bitsOf l'.tcause.toNat 0 8 = 0x02 ∧ l'.fpflags = l.fpflags := by
  obtain ⟨hne, hbad⟩ := refused_iff hb
  rw [exec_swrite_group m cls a b hne]
  exact swrite_refuses (swriteGroup m cls a b) (fun _ l => l) h rfl hr hn rfl rfl
    (fun good t h0 hg => absurd (hg.trans (swriteGroup_none_good m cls a h hc hw hbad)) h0) (fun _ => True)
    fun i l hl hm _ => (swriteGroup_check m cls a b hc hw hl hm).trans (if_pos hbad)

omit hw in
theorem swriteFlags_refuses (hr : x.g.redo? = none) (hn : x.NoHandler) (which : Lane → Prop)
    (hwhich : ActiveLanes x fun _ l => which l → 32 ≤ (swriteSource cls a x l).toNat) :
    ∃ t g, exec (.swrite m cls a 0x19) s = .next t ∧ t.group? x.g.uid = some g ∧ g.fpmode = x.g.fpmode ∧
      g.pprom = x.g.pprom ∧ g.fairtime = x.g.fairtime ∧ g.leaseovr = x.g.leaseovr ∧
      ∀ (j : Nat) (l l' : Lane), x.g.lanes[j]? = some l → g.lanes[j]? = some l' → x.mask.getLsbD j = true → which l →
        l'.state = .trap ∧ bitsOf l'.tcause.toNat 0 8 = 0x02 ∧ l'.fpflags = l.fpflags :=
  swrite_refuses (swriteFlags m cls a) _ h rfl hr hn rfl rfl (fun _ _ _ _ => rfl) which
    fun i l hl hm hwl => (swriteFlags_check m cls a hc hl hm).trans (if_pos (hwhich i l hl hm hwl))

end

section
variable {s : State} {x : Site} (m : Bool) (d b : BitVec 7) (h : Issuing s x .plain)
include h

theorem sread_lane {w : Bool} (hb : isWideSpecial b.toNat = w)
    (hc : OperandsPass x { vs := if w then [d.toNat, d.toNat + 1] else [d.toNat] } fun _ => true) :
    exec (.sread m d 0 b) s = .next (s.completed x m .plain (onActive x fun i l =>
      let v : DWord := BitVec.ofNat 64 (s.special x.g x.img i l b.toNat)
      if w then l.putWide d.toNat v else l.put d.toNat v.lo tagUI32)) := by
  subst hb
  simp only [exec, execSread, if_true]
  exact laneOp_issue s x m _ _ _ h hc

theorem sread_group {w : Bool} (hb : isWideSpecial b.toNat = w)
    (hc : OperandsPass x { us := if w then [d.toNat, d.toNat + 1] else [d.toNat] } fun _ => true) {v : DWord}
    (hv : ((x.g.lanes.head?).map fun l => BitVec.ofNat 64 (s.special x.g x.img 0 l b.toNat)).getD 0 = v) :
    exec (.sread m d 1 b) s = .next (s.completed x m .plain (onGroup x fun g =>
      if w then (g.setU d.toNat v.lo).setU (d.toNat + 1) v.hi else g.setU d.toNat v.lo)) := by
  subst hb hv
  simp only [exec, execSread, show ¬((1 : BitVec 7) = 0) by decide, if_false]
  refine (groupOp_issue s x m _ _ h hc).trans ?_
  cases x.g.lanes <;> rfl

end

/-- The special registers that name the team (R47). -/
theorem State.special_team {s : State} {g : Group} {tm : Team} (h : s.team? g.team = some tm) (img : Image) (i : Nat)
    (l : Lane) :
    s.special g img i l 0x02 = tm.index ∧
      s.special g img i l 0x03 = tm.member + 2 ^ 4 * img.width + 2 ^ 8 * img.height ∧
      s.special g img i l 0x04 = tm.x + 2 ^ 16 * tm.y ∧ s.special g img i l 0x05 = tm.lcid ∧
      s.special g img i l 0x1F = tm.accwin := by
  simp [State.special, h]

end Sys2Proof.Machine

namespace Sys2Proof
open Machine

/-- Settles O15: SREAD gives the registers of R47, and SWRITE writes the values that it takes and traps the lanes of the
others. -/
theorem specialRegisterAccess : Obligations.SpecialRegisterAccess := by
  refine ⟨fun s x m d b h => ⟨fun hb hc => ?_, fun hb hc => ?_, fun hc => ?_, fun i l => ?_⟩, fun s x m a h => ?_⟩
  · exact sread_lane m d b h hb hc
  · exact (sread_lane m d b h hb hc).trans (by simp only [if_true, Lane.putWide])
  · have hi := fun v hv => sread_group (v := v) m d b h rfl hc hv
    cases hl : x.g.lanes with
    | nil => exact hi 0 (by rw [hl]; rfl)
    | cons l ls => exact hi _ (by rw [hl]; rfl)
  · exact ⟨rfl, rfl, rfl, rfl, rfl, rfl, rfl, rfl, rfl, rfl, rfl, rfl, rfl, rfl, rfl, rfl, rfl, rfl, rfl, rfl, rfl,
      fun tm htm => State.special_team htm x.img i l⟩
  obtain ⟨i0, l0, hi0, hl0, hm0, hlow0⟩ := State.site?_lowest h.site h.active
  refine ⟨fun hc hw => swriteFlags_issue m 0 a h hc hw, fun hc => ?_, fun hc => ?_⟩
  · have hw := swriteValue_lowest 1 a hc hi0 hl0 hm0 hlow0
    exact ⟨swrite_writesGroup m 1 a h hc hw, fun hv => swriteFlags_issue m 1 a h hc fun _ _ _ _ => hv,
      fun hv hr hn => swriteFlags_refuses m 1 a h hc hr hn _ fun _ _ _ _ _ => hv,
      fun b hb hr hn => swriteGroup_refuses m 1 a h hc hw hb hr hn⟩
  · refine ⟨fun hr hn => swriteFlags_refuses m 0 a h hc hr hn _ fun _ _ _ _ hv => hv, fun i l hi hl hm hlow => ?_⟩
    have hw := swriteValue_lowest 0 a hc hi hl hm hlow
    exact ⟨swrite_writesGroup m 0 a h hc hw, fun b hb hr hn => swriteGroup_refuses m 0 a h hc hw hb hr hn⟩

end Sys2Proof
end

section
/-!
PROOFS. Translation and fetch read memory, the grids and the time alone; the parts of a step (R20, R71, R74, R273, R315,
R343).
-/

-- One proof after another: each that waits beside others holds a stack of its own.
set_option Elab.async false

namespace Sys2Proof.Machine

/-! ## Translation and fetch (R268 to R273) -/

/-- Two states in which an address is translated alike and memory read alike. -/
structure State.SameView (s t : State) : Prop where
  mem : t.mem = s.mem
  fw : t.fw = s.fw
  grids : t.grids = s.grids
  tick : t.clock.tick = s.clock.tick

theorem State.SameView.refl (s : State) : s.SameView s := ⟨rfl, rfl, rfl, rfl⟩

section
variable {s t : State} (h : s.SameView t)
include h

theorem State.SameView.gtime : t.gtime = s.gtime := by rw [State.gtime, State.gtime, h.tick]

theorem State.SameView.grid? (n : Nat) : t.grid? n = s.grid? n := by rw [State.grid?, State.grid?, h.grids]

theorem State.SameView.peek (pa n : Nat) : t.peek pa n = s.peek pa n := by rw [State.peek, State.peek, h.mem]

theorem State.SameView.peekNat (pa n : Nat) : t.peekNat pa n = s.peekNat pa n := by
  rw [State.peekNat, State.peekNat, h.peek]

theorem State.SameView.rootOf (grid : Nat) : t.rootOf grid = s.rootOf grid := by
  rw [State.rootOf, State.rootOf, h.grid?]

theorem State.SameView.walkFrom (va : Nat) (ls : List (Nat × Nat × Nat × Nat)) (table : Nat) :
    t.walkFrom va ls table = s.walkFrom va ls table := by
  induction ls generalizing table with
  | nil => rfl
  | cons l ls ih =>
    obtain ⟨low, count, size, level⟩ := l
    simp only [State.walkFrom, h.fw, h.peekNat, ih]

theorem State.SameView.xlat (core : Option Nat) (root grid carve va : Nat) :
    t.xlat core root grid carve va = s.xlat core root grid carve va := by
  have hw : t.walk core root va = s.walk core root va := by simp only [State.walk, h.mem, h.walkFrom]
  simp only [State.xlat, hw]

theorem State.SameView.xlatG (core grid va : Nat) : t.xlatG core grid va = s.xlatG core grid va := by
  simp only [State.xlatG, h.grid?, h.xlat]

theorem State.SameView.xlatCtx (c : Ctx) (va : Nat) : t.xlatCtx c va = s.xlatCtx c va := by
  simp only [State.xlatCtx, h.grid?, h.xlat]

theorem State.SameView.fetchAt (core grid : Nat) (pc : Addr) : t.fetchAt core grid pc = s.fetchAt core grid pc := by
  simp only [State.fetchAt, h.xlatG, h.mem, h.gtime, h.peekNat]

theorem State.SameView.scriptFetch (c : Ctx) : t.scriptFetch c = s.scriptFetch c := by
  have hx := h.xlatCtx c c.pc.toNat
  -- The function is unfolded by itself and the walk is named: of the value the kernel would reduce the walk.
  generalize hf : State.scriptFetch = fetch
  delta State.scriptFetch at hf
  generalize State.xlatCtx = walk at hf hx
  subst hf
  cases hw : walk s c c.pc.toNat <;> rw [hw] at hx <;> simp only [hx, hw, h.mem, h.gtime, h.peekNat]

end

/-- The fetch of a good word. -/
theorem State.fetchAt_word {s : State} {core grid : Nat} {pc : Addr} {p : Place} (hx : s.xlatG core grid pc.toNat =
    .ok p)
    (ha : p.aper = 0) (he : p.executable = true) (hd : s.mem.damagedByte p.pa 4 = none)
    (hi : s.mem.ingressUntil p.pa 4 ≤ s.gtime) :
    s.fetchAt core grid pc = .word (BitVec.ofNat 32 (leNat (cgets s.mem.cells p.pa 4))) := by
  simp [State.fetchAt, hx, ha, he, hd, Nat.not_lt.mpr hi, State.peekNat, State.peek]

theorem State.scriptFetch_word {s : State} {c : Ctx} {p : Place} (hx : s.xlatCtx c c.pc.toNat = .ok p)
    (ha : p.aper = 0) (hr : p.readable = true) (hd : s.mem.damagedByte p.pa 4 = none)
    (hi : s.mem.ingressUntil p.pa 4 ≤ s.gtime) :
    s.scriptFetch c = .word (BitVec.ofNat 32 (leNat (cgets s.mem.cells p.pa 4))) := by
  generalize hf : State.scriptFetch = fetch
  delta State.scriptFetch at hf
  generalize State.xlatCtx = walk at hf hx
  subst hf
  simp [hx, ha, hr, hd, Nat.not_lt.mpr hi, State.peekNat, State.peek]

/-! ## The parts of a step -/

theorem step_group {s : State} {g : Group} {pc : Addr} (hg : s.nextGroup = some g) (hp : g.issueAddr = some pc) :
    step s = stepGroup s g pc := by simp only [step, hg, hp]

theorem step_after {s : State} (hg : s.nextGroup = none) : step s = stepAfter s := by simp only [step, hg]

/-- A group's turn with a word: what the word stands for is executed, with the translation cached. -/
theorem stepGroup_word {s : State} {g : Group} {pc : Addr} {w : Word}
    (hf : s.fetchAt (s.coreOf g.team) g.grid pc = .word w) :
    stepGroup s g pc = afterIssue s g
      (match decode w with
       | .ok i => exec ((({ s with cur := g.uid } : State).fetched g pc).refine i)
         (({ s with cur := g.uid } : State).fetched g pc)
       | .illegalInstruction => exec .illegalInstruction (({ s with cur := g.uid } : State).fetched g pc)
       | .illegalOperand => execIllegalWord (({ s with cur := g.uid } : State).fetched g pc)) := by
  have view : s.SameView { s with cur := g.uid } := ⟨rfl, rfl, rfl, rfl⟩
  have hf' :
    ({ s with cur := g.uid } : State).fetchAt (({ s with cur := g.uid } : State).coreOf g.team) g.grid pc = .word w :=
    (view.fetchAt ..).trans hf
  cases hw : decode w <;> simp only [stepGroup, hf', hw]

theorem stepGroup_fault {s : State} {g : Group} {pc : Addr} {c : Cause}
    (hf : s.fetchAt (s.coreOf g.team) g.grid pc = .fault c) :
    stepGroup s g pc = afterIssue s g (execFetchFault g.uid { s with cur := g.uid }) := by
  have view : s.SameView { s with cur := g.uid } := ⟨rfl, rfl, rfl, rfl⟩
  have hf' :
    ({ s with cur := g.uid } : State).fetchAt (({ s with cur := g.uid } : State).coreOf g.team) g.grid pc = .fault c :=
    (view.fetchAt ..).trans hf
  simp only [stepGroup, hf']

/-- A context's turn with a script word. -/
theorem stepCtx_word {s : State} {n : Nat} {w : Word} {i : Instr} (hf : s.scriptFetch (s.ctx n) = .word w)
    (hd : decodeScript w = .ok i) :
    stepCtx s n = exec (({ s with curCtx := n } : State).refine i) { s with curCtx := n } := by
  have view : s.SameView { s with curCtx := n } := ⟨rfl, rfl, rfl, rfl⟩
  -- The function is unfolded by itself: of its value the kernel would reduce the fetch.
  generalize ht : stepCtx = turn
  delta stepCtx at ht
  subst ht
  dsimp only
  rw [show ({ s with curCtx := n } : State).ctx n = s.ctx n from rfl, view.scriptFetch, hf]
  dsimp only
  rw [hd]

/-- What comes from outside has its turn before the contexts. -/
theorem stepAfter_ctx {s : State} {n : Nat} (hi : s.splitInputs false s.inputs = none) (ha : s.nextArrival = none)
    (hn : s.nextCtx = some n) : stepAfter s = turned (513 + n) (stepCtx s n) := by
  simp only [stepAfter, stepComing, hi, ha, Option.map_none, hn]

theorem stepAfter_input {s : State} {i : Input} {left : List (Nat × Input)}
    (hi : s.splitInputs false s.inputs = some (i, left)) :
    stepAfter s = turned (max s.clock.turn 512) (({ s with inputs := left } : State).takeInput i) := by
  simp only [stepAfter, stepComing, hi]

theorem stepAfter_arrival {s t : State} (hi : s.splitInputs false s.inputs = none) (ha : s.nextArrival = some t) :
    stepAfter s = .next (t.turnTo (max s.clock.turn 512)) := by
  simp only [stepAfter, stepComing, hi, ha, Option.map_some]

end Sys2Proof.Machine

namespace Sys2Proof
open Machine

/-- Settles O56: a step with a good word is the word's execution, and the turns of a cycle come in their order. -/
theorem stepRunsTheDecodedInstruction : Obligations.StepRunsTheDecodedInstruction := by
  refine fun s => ⟨fun g pc p hg hpc hx ha he hd hi => ?_, fun g pc c hg hpc hf t ht => ?_,
    fun i left t hg hin ht => ?_, fun t hg hin harr => ?_, fun n p hg hin harr hn hx ha hr hd hi => ?_⟩
  · intro w now ends
    have hs := (step_group hg hpc).trans (stepGroup_word (State.fetchAt_word hx ha he hd hi))
    refine ⟨fun i hdec t ht => ?_, fun hdec t ht => ?_, fun hdec t ht => ?_⟩ <;> rw [hs]
    · rw [show decode _ = Decoded.ok i from hdec]
      exact congrArg (afterIssue s g) ht
    · rw [show decode _ = Decoded.illegalInstruction from hdec]
      exact congrArg (afterIssue s g) ht
    · rw [show decode _ = Decoded.illegalOperand from hdec]
      exact congrArg (afterIssue s g) ht
  · rw [step_group hg hpc, stepGroup_fault hf, ht]
    rfl
  · rw [step_after hg, stepAfter_input hin, ht]
    rfl
  · rw [step_after hg, stepAfter_arrival hin harr]
  · intro w now i hdec t ht
    rw [step_after hg, stepAfter_ctx hin harr hn, stepCtx_word (State.scriptFetch_word hx ha hr hd hi) hdec, ht]
    rfl

end Sys2Proof
end

section
/-!
PROOFS. The frame of an instruction that writes registers: its effect writes at most its destinations, and the issue
adds the lanes that fail and the books (R21, R22, R32 to R35, R39, R113).
-/

-- One proof after another: each that waits beside others holds a stack of its own.
set_option Elab.async false

namespace Sys2Proof.Machine

/-! ## What an instruction writes (R21, R22, R39, R113) -/

/-- A lane of which at most the destinations are written; one in TRAP that is not touched stays in it. -/
structure Lane.Writes (dest : Dest) (touched : Bool) (l l' : Lane) : Prop where
  vregs : ∀ r, (∀ d ∈ dest.vregs, r ≠ l.window + d) → tget ⟨0, 0⟩ l'.vregs r = tget ⟨0, 0⟩ l.vregs r
  preds : ∀ p, p ∉ dest.preds → l'.pred p = l.pred p
  flags : dest.flags = false → l'.fpflags = l.fpflags
  cause : l'.tcause = l.tcause ∧ l'.tpc = l.tpc ∧ l'.taddr = l.taddr
  lwct : l'.lwct = l.lwct
  handler : l'.handler = l.handler
  trapped : touched = false → l.state = .trap → l'.state = .trap

/-- What an instruction may change of a lane besides its registers: its place and its books. -/
theorem Lane.Writes.of_rest {dest : Dest} {touched : Bool} {l l' : Lane} (h1 : l'.vregs = l.vregs)
    (h2 : l'.preds = l.preds) (h3 : l'.fpflags = l.fpflags)
    (h4 : l'.tcause = l.tcause ∧ l'.tpc = l.tpc ∧ l'.taddr = l.taddr) (h5 : l'.lwct = l.lwct)
    (h6 : l'.handler = l.handler) (h7 : touched = false → l.state = .trap → l'.state = .trap) :
    l.Writes dest touched l' :=
  ⟨fun _ _ => by rw [h1], fun _ _ => by rw [Lane.pred, Lane.pred, h2], fun _ => h3, h4, h5, h6, h7⟩

theorem Lane.Writes.refl (dest : Dest) (touched : Bool) (l : Lane) : l.Writes dest touched l :=
  .of_rest rfl rfl rfl ⟨rfl, rfl, rfl⟩ rfl rfl fun _ h => h

theorem Lane.put_writes {dest : Dest} {n : Nat} (h : n ∈ dest.vregs) (l : Lane) (w : Word) (tag : BitVec 5) :
    l.Writes dest true (l.put n w tag) where
  vregs _ hr := tget_tput_other _ _ _ _ _ (hr n h)
  preds _ _ := rfl
  flags _ := rfl
  cause := ⟨rfl, rfl, rfl⟩
  lwct := rfl
  handler := rfl
  trapped h := nomatch h

/-- A second write, by a lane whose window has not moved. -/
theorem Lane.Writes.trans {dest : Dest} {a b c : Lane} (h : a.Writes dest true b) (k : b.Writes dest true c)
    (hw : b.window = a.window) : a.Writes dest true c where
  vregs r hr := (k.vregs r fun d hd => by rw [hw]; exact hr d hd).trans (h.vregs r hr)
  preds p hp := (k.preds p hp).trans (h.preds p hp)
  flags hf := (k.flags hf).trans (h.flags hf)
  cause := ⟨k.cause.1.trans h.cause.1, k.cause.2.1.trans h.cause.2.1, k.cause.2.2.trans h.cause.2.2⟩
  lwct := k.lwct.trans h.lwct
  handler := k.handler.trans h.handler
  trapped h := nomatch h

theorem Lane.put_put_writes {dest : Dest} {n : Nat} (h : n ∈ dest.vregs) (h1 : n + 1 ∈ dest.vregs) (l : Lane)
    (w v : Word)
    (tag tag1 : BitVec 5) : l.Writes dest true ((l.put n w tag).put (n + 1) v tag1) :=
  (l.put_writes h w tag).trans (Lane.put_writes h1 _ v tag1) rfl

theorem Lane.flag_writes {dest : Dest} (h : dest.flags = true) (l : Lane) (fl : FpFlags) :
    l.Writes dest true (l.flag fl) where
  vregs _ _ := rfl
  preds _ _ := rfl
  flags hf := absurd (hf.symm.trans h) Bool.false_ne_true
  cause := ⟨rfl, rfl, rfl⟩
  lwct := rfl
  handler := rfl
  trapped h := nomatch h

theorem Lane.putFloat_writes {dest : Dest} {n : Nat} (h : n ∈ dest.vregs) (hf : dest.flags = true) (l : Lane)
    (tag : BitVec 5) (r : Word × FpFlags) : l.Writes dest true (l.putFloat n tag r) :=
  (l.put_writes h r.1 tag).trans (Lane.flag_writes hf _ r.2) rfl

theorem setBit_getLsbD_other {n : Nat} (x : BitVec n) (i p : Nat) (b : Bool) (h : p ≠ i) :
    (setBit x i b).getLsbD p = x.getLsbD p := by
  have hbit : (BitVec.ofNat n (2 ^ i)).getLsbD p = false := by
    rw [BitVec.getLsbD_ofNat, Nat.testBit_two_pow]
    simp [Ne.symm h]
  by_cases hp : p < n
  · have hset : (if b then BitVec.ofNat n (2 ^ i) else 0).getLsbD p = false := by
      cases b with
      | true => exact hbit
      | false => exact BitVec.getLsbD_zero
    rw [setBit, BitVec.getLsbD_or, BitVec.getLsbD_and, BitVec.getLsbD_not, hbit, hset, decide_eq_true hp]
    simp
  · rw [BitVec.getLsbD_of_ge _ _ (Nat.not_lt.mp hp), BitVec.getLsbD_of_ge _ _ (Nat.not_lt.mp hp)]

theorem Lane.setPred_writes {dest : Dest} {n : Nat} (h : n ∈ dest.preds) (l : Lane) (b : Bool) :
    l.Writes dest true (l.setPred n b) := by
  unfold Lane.setPred
  split
  · exact .refl ..
  · exact
      { vregs := fun _ _ => rfl
        preds := fun p hp => by
          have hne : p ≠ n := fun he => hp (he ▸ h)
          simp only [Lane.pred, setBit_getLsbD_other _ _ _ _ hne]
        flags := fun _ => rfl
        cause := ⟨rfl, rfl, rfl⟩
        lwct := rfl
        handler := rfl
        trapped := fun h => nomatch h }

/-- A group of which at most the destinations are written, by the lanes of `good`. -/
structure Group.Writes (dest : Dest) (good : BitVec 32) (g g' : Group) : Prop where
  settled : g.Settled g'
  uregs : ∀ r, r ∉ dest.uregs → g'.u r = g.u r
  lanes : ∀ (k : Nat) (l : Lane), g.lanes[k]? = some l →
    ∃ l', g'.lanes[k]? = some l' ∧ l.Writes dest (good.getLsbD k) l'

theorem Group.Writes.refl (dest : Dest) (good : BitVec 32) (g : Group) : g.Writes dest good g :=
  ⟨.refl g, fun _ _ => rfl, fun _ l h => ⟨l, h, .refl ..⟩⟩

theorem Group.onLanes_writes {dest : Dest} {f : Nat → Lane → Lane} (hf : ∀ i (l : Lane), l.Writes dest true (f i l))
    (g : Group)
    (good : BitVec 32) : g.Writes dest good (g.onLanes good f) where
  settled := g.onLanes_settled good f
  uregs _ _ := rfl
  lanes k l hl := by
    refine ⟨if good.getLsbD k then f k l else l, by rw [Group.onLanes_lane, hl, Option.map_some], ?_⟩
    cases good.getLsbD k with
    | true => exact hf k l
    | false => exact .refl ..

theorem Group.setU_writes {dest : Dest} {n : Nat} (h : n ∈ dest.uregs) (good : BitVec 32) (g : Group) (w : Word) :
    g.Writes dest good (g.setU n w) where
  settled := ⟨rfl, rfl, rfl, rfl, rfl, rfl, rfl, rfl, rfl, rfl, rfl⟩
  uregs _ hr := tget_tput_other _ _ _ _ _ fun he => hr (he ▸ h)
  lanes _ l hl := ⟨l, hl, .refl ..⟩

/-- What marks registers pending writes none. -/
theorem Group.Writes.mark {dest : Dest} {good : BitVec 32} {a b c : Group} (h : a.Writes dest good b) (k : b.Marked c) :
    a.Writes dest good c where
  settled := h.settled.trans k.settled
  uregs r hr := by rw [k.rest]; exact h.uregs r hr
  lanes i l hl := by
    obtain ⟨l', hl', hw⟩ := h.lanes i l hl
    obtain ⟨l'', hl'', hm⟩ := k.lanes i l' hl'
    refine ⟨l'', hl'', ?_⟩
    rw [hm.1]
    exact ⟨hw.vregs, hw.preds, hw.flags, hw.cause, hw.lwct, hw.handler, hw.trapped⟩

/-- The rejoin masks: a change of a register, with its test, writes no register of a lane. -/
theorem Group.changeJ_writes (dest : Dest) (good : BitVec 32) (g : Group) (j : Nat) (f : JMask → JMask) :
    g.Writes dest good (g.changeJ j f) where
  settled := by
    unfold Group.changeJ Group.testRejoin
    (repeat' split)
    · exact ⟨rfl, rfl, rfl, rfl, rfl, rfl, rfl, rfl, rfl, rfl, rfl⟩
    · exact ⟨rfl, rfl, rfl, rfl, rfl, rfl, rfl, rfl, rfl, rfl, List.length_map ..⟩
    · exact ⟨rfl, rfl, rfl, rfl, rfl, rfl, rfl, rfl, rfl, rfl, rfl⟩
  uregs r _ := by
    unfold Group.changeJ Group.testRejoin
    (repeat' split) <;> rfl
  lanes k l hl := by
    obtain ⟨l', hl', rfl | ⟨hj, rfl⟩⟩ :=
      ({ g with jmasks := setAt f j g.jmasks } : Group).testRejoin_lane j k (l := l) hl
    · exact ⟨_, hl', .refl ..⟩
    · exact ⟨_, hl', .of_rest rfl rfl rfl ⟨rfl, rfl, rfl⟩ rfl rfl fun _ ht => by rw [hj] at ht; cases ht⟩

theorem Group.clearJ_writes (dest : Dest) (good : BitVec 32) (g : Group) (j : Nat) :
    g.Writes dest good (g.clearJ j) where
  settled := ⟨rfl, rfl, rfl, rfl, rfl, rfl, rfl, rfl, rfl, rfl, List.length_map ..⟩
  uregs _ _ := rfl
  lanes k l hl := by
    refine ⟨_, by rw [Group.clearJ, List.getElem?_map, hl, Option.map_some], ?_⟩
    split
    next hj => exact .of_rest rfl rfl rfl ⟨rfl, rfl, rfl⟩ rfl rfl fun _ ht => by rw [ht] at hj; cases hj
    · exact .refl ..

/-- What is beside the groups and the results on their way. -/
structure State.SameParts (s t : State) : Prop where
  mem : t.mem = s.mem
  teams : t.teams = s.teams
  cores : t.cores = s.cores
  fabric : t.fabric = s.fabric
  ctxs : t.ctxs = s.ctxs
  grids : t.grids = s.grids
  pool : t.pool = s.pool
  outbox : t.outbox = s.outbox
  fw : t.fw = s.fw

theorem State.SameParts.refl (s : State) : s.SameParts s := ⟨rfl, rfl, rfl, rfl, rfl, rfl, rfl, rfl, rfl⟩

theorem State.SameParts.trans {s t u : State} (h : s.SameParts t) (k : t.SameParts u) : s.SameParts u :=
  ⟨k.mem.trans h.mem, k.teams.trans h.teams, k.cores.trans h.cores, k.fabric.trans h.fabric, k.ctxs.trans h.ctxs,
    k.grids.trans h.grids, k.pool.trans h.pool, k.outbox.trans h.outbox, k.fw.trans h.fw⟩

theorem State.SameParts.foldl {α : Type} (f : State → α → State) (hf : ∀ (s : State) a, s.SameParts (f s a))
    (xs : List α)
    (s : State) : s.SameParts (xs.foldl f s) := by
  induction xs generalizing s with
  | nil => exact .refl s
  | cons a xs ih => exact (hf s a).trans (ih _)

theorem State.awaitLanes_sameParts (s : State) (g : Group) (mask : BitVec 32) (f : Nat → Lane → List RegWrite) :
    s.SameParts (s.awaitLanes g mask f) :=
  .foldl _ (fun s i => by
    cases g.lane? i with
    | none => exact .refl s
    | some l => exact ⟨rfl, rfl, rfl, rfl, rfl, rfl, rfl, rfl, rfl⟩) _ s

/-- What an effect on the group `u` does that writes at most the destinations, by the lanes of `good`. -/
structure State.Writes (dest : Dest) (u : Nat) (good : BitVec 32) (s t : State) : Prop where
  parts : s.SameParts t
  grows : Grows s t
  others : ∀ v, v ≠ u → t.group? v = s.group? v
  own : ∀ g, s.group? u = some g → ∃ g', t.group? u = some g' ∧ g.Writes dest good g'

theorem State.Writes.refl (dest : Dest) (u : Nat) (good : BitVec 32) (s : State) : s.Writes dest u good s :=
  ⟨.refl s, .refl s, fun _ _ => rfl, fun g h => ⟨g, h, .refl ..⟩⟩

theorem State.modGroup_writes {dest : Dest} {good : BitVec 32} {f : Group → Group} (hf : ∀ g : Group,
    g.Writes dest good (f g))
    (s : State) (u : Nat) : s.Writes dest u good (s.modGroup u f) where
  parts := ⟨rfl, rfl, rfl, rfl, rfl, rfl, rfl, rfl, rfl⟩
  grows := .of_eq rfl
  others _ hv := State.modGroup_group?_other (fun g hg => (hf g).settled.uid.trans hg) hv
  own g hg := ⟨f g, State.modGroup_group?_same hg ((hf g).settled.uid.trans (State.group?_uid hg)), hf g⟩

theorem State.Writes.mark {dest : Dest} {u : Nat} {good : BitVec 32} {s t v : State} (h : s.Writes dest u good t)
    (k : t.Marks u v) (hp : t.SameParts v) : s.Writes dest u good v where
  parts := h.parts.trans hp
  grows := h.grows.trans k.grows
  others w hw := (k.others w hw).trans (h.others w hw)
  own g hg :=
    let ⟨_, hg', hw⟩ := h.own g hg
    let ⟨g'', hg'', hm⟩ := k.own _ hg'
    ⟨g'', hg'', hw.mark hm⟩

/-! ## The frame of an instruction that writes registers -/

/-- What an instruction leaves of a lane but its destinations; only a lane that enters TRAP shows a new cause. -/
structure Lane.Issued (dest : Dest) (l l' : Lane) : Prop where
  vregs : ∀ r, (∀ d ∈ dest.vregs, r ≠ l.window + d) → tget ⟨0, 0⟩ l'.vregs r = tget ⟨0, 0⟩ l.vregs r
  preds : ∀ p, p ∉ dest.preds → l'.pred p = l.pred p
  flags : dest.flags = false → l'.fpflags = l.fpflags
  cause : l'.state ≠ .trap → l'.tcause = l.tcause ∧ l'.tpc = l.tpc ∧ l'.taddr = l.taddr
  lwct : l'.lwct = l.lwct
  handler : l'.handler = l.handler

/-- What an instruction leaves of its group but its destinations. -/
structure Group.Issued (dest : Dest) (g g' : Group) : Prop where
  settled : g.Settled g'
  uregs : ∀ r, r ∉ dest.uregs → g'.u r = g.u r
  lanes : ∀ (k : Nat) (l : Lane), g.lanes[k]? = some l → ∃ l', g'.lanes[k]? = some l' ∧ l.Issued dest l'

/-- What an instruction that writes registers leaves of everything else. -/
structure State.Issued (dest : Dest) (u : Nat) (s t : State) : Prop where
  parts : s.SameParts t
  grows : Grows s t
  others : ∀ v, v ≠ u → t.group? v = s.group? v
  own : ∀ g, s.group? u = some g → ∃ g', t.group? u = some g' ∧ g.Issued dest g'

theorem Group.Writes.issued {dest : Dest} {good : BitVec 32} {g g' : Group} (h : g.Writes dest good g') :
    g.Issued dest g' where
  settled := h.settled
  uregs := h.uregs
  lanes k l hl :=
    let ⟨l', hl', hw⟩ := h.lanes k l hl
    ⟨l', hl', hw.vregs, hw.preds, hw.flags, fun _ => hw.cause, hw.lwct, hw.handler⟩

theorem State.Writes.issued {dest : Dest} {u : Nat} {good : BitVec 32} {s t : State} (h : s.Writes dest u good t) :
    s.Issued dest u t :=
  ⟨h.parts, h.grows, h.others, fun g hg =>
    let ⟨g', hg', hw⟩ := h.own g hg
    ⟨g', hg', hw.issued⟩⟩

/-- An operation whose effect writes at most the destinations, and that does nothing while it is held. -/
structure Op.Registers (dest : Dest) (o : Op) : Prop where
  effect : ∀ x good (s : State), s.Writes dest x.g.uid good (o.effect x good s)
  onHold : ∀ x good (s : State), o.onHold x good s = s

section
variable {dest : Dest} {o : Op} {s : State} {x : Site} (hx : s.site? = some x)

/-- The group in which an operation has its effect: the lanes that fail stand in TRAP, and the others have gone on. -/
def Op.readyGroup (o : Op) (s : State) (x : Site) (g : Group) : Group :=
  (g.onLanes (o.bad s x) (x.trapAt (o.faultOf s.fw.spdistCap x))).onLanes (o.good s x)
    fun _ l => { l with lpc := x.pc + 4 }

theorem Op.readyGroup_settled (g : Group) : g.Settled (o.readyGroup s x g) :=
  (Group.onLanes_settled ..).trans (Group.onLanes_settled ..)

theorem Op.ready_group? {g : Group} (hg : s.group? x.g.uid = some g) :
    ((o.faulted s x).advance x (o.good s x)).group? x.g.uid = some (o.readyGroup s x g) :=
  State.advance_group? (State.onLanes_group? hg ..) _

theorem Op.ready_others {v : Nat} (hv : v ≠ x.g.uid) :
    ((o.faulted s x).advance x (o.good s x)).group? v = s.group? v := by
  have h1 : ((o.faulted s x).advance x (o.good s x)).group? v = (o.faulted s x).group? v :=
    State.modGroup_group?_other (fun _ hg => hg) hv
  have h2 : (o.faulted s x).group? v = s.group? v := State.modGroup_group?_other (fun _ hg => hg) hv
  exact h1.trans h2

include hx in
/-- A lane before the effect, which then writes at most its destinations, and the books. -/
theorem Op.readyGroup_issued {g g' : Group} (hlanes : g.lanes = x.g.lanes)
    (hw : (o.readyGroup s x g).Writes dest (o.good s x) g') : g.Issued dest g' where
  settled := (Op.readyGroup_settled g).trans hw.settled
  uregs := hw.uregs
  lanes k l hl := by
    have ready : (o.readyGroup s x g).lanes[k]? = some (if (o.good s x).getLsbD k then
        { (if (o.bad s x).getLsbD k then x.trapAt (o.faultOf s.fw.spdistCap x) k l else l) with lpc := x.pc + 4 }
        else if (o.bad s x).getLsbD k then x.trapAt (o.faultOf s.fw.spdistCap x) k l else l) := by
      simp only [Op.readyGroup, Group.onLanes_lane, hl, Option.map_some]
    obtain ⟨l', hl', h⟩ := hw.lanes k _ ready
    refine ⟨l', hl', ?_⟩
    rw [o.bad_lane hx (hlanes ▸ hl), o.good_lane hx (hlanes ▸ hl), Site.trapAt] at h
    cases hm : x.mask.getLsbD k with
    | false =>
      simp only [hm, Bool.false_and, Bool.false_eq_true, if_false] at h
      exact ⟨h.vregs, h.preds, h.flags, fun _ => h.cause, h.lwct, h.handler⟩
    | true =>
      cases hf : o.faultOf s.fw.spdistCap x k l with
      | none =>
        simp only [hm, hf, Bool.true_and, Option.isNone_none, Option.isSome_none, Bool.false_eq_true, if_true,
          if_false] at h
        exact ⟨h.vregs, h.preds, h.flags, fun _ => h.cause, h.lwct, h.handler⟩
      | some c =>
        simp only [hm, hf, Bool.true_and, Option.isNone_some, Option.isSome_some, Bool.false_eq_true, if_true,
          if_false] at h
        exact ⟨h.vregs, h.preds, h.flags, fun ht => absurd (h.trapped rfl rfl) ht, h.lwct, h.handler⟩

/-- The books of an issue write no register. -/
theorem Group.Issued.book {g g' : Group} (h : g.Issued dest g') (h0 : Group) (pc : Addr) (mask : BitVec 32) (m : Bool)
    (kind : IssueKind) (past : Bool) (stamp : Nat) : g.Issued dest (h0.book pc mask m kind past stamp g') where
  settled := h.settled.trans (Group.book_settled ..)
  uregs r hr := by rw [Group.u, Group.book_uregs]; exact h.uregs r hr
  lanes k l hl := by
    obtain ⟨l', hl', hi⟩ := h.lanes k l hl
    obtain ⟨a, r, hb⟩ := Group.book_lane h0 pc mask m kind past stamp g' k
    refine ⟨_, by rw [hb, hl', Option.map_some], ?_⟩
    split
    · exact ⟨hi.vregs, hi.preds, hi.flags, hi.cause, hi.lwct, hi.handler⟩
    · exact hi

/-- The frame of one issue, outside handler mode. -/
theorem Op.booked_issued (hx : s.site? = some x) (ho : o.Registers dest) {g : Group} (hg : s.group? x.g.uid = some g)
    (hlanes : g.lanes = x.g.lanes) :
    s.Issued dest x.g.uid (o.booked s x
      (if o.good s x = 0 then o.faulted s x else o.effect x (o.good s x)
        ((o.faulted s x).advance x (o.good s x)))) := by
  have effect : ((o.faulted s x).advance x (o.good s x)).Writes dest x.g.uid (o.good s x)
      (if o.good s x = 0 then o.faulted s x
        else o.effect x (o.good s x) ((o.faulted s x).advance x (o.good s x))) := by
    split
    next h0 =>
      have same : (o.faulted s x).advance x (o.good s x) = o.faulted s x :=
        State.modGroup_of_same _ _ fun g => by rw [h0, Group.onLanes_none]
      rw [same]
      exact .refl ..
    · exact ho.effect ..
  generalize (if o.good s x = 0 then o.faulted s x
    else o.effect x (o.good s x) ((o.faulted s x).advance x (o.good s x))) = t at effect ⊢
  obtain ⟨parts, grows, others, own⟩ := effect
  have before : s.SameParts ((o.faulted s x).advance x (o.good s x)) := ⟨rfl, rfl, rfl, rfl, rfl, rfl, rfl, rfl, rfl⟩
  have after : t.SameParts (o.booked s x t) := ⟨rfl, rfl, rfl, rfl, rfl, rfl, rfl, rfl, rfl⟩
  refine ⟨before.trans (parts.trans after), grows, fun v hv => ?_, fun g0 hg0 => ?_⟩
  · have h1 : (o.booked s x t).group? v = t.group? v :=
      State.modGroup_group?_other (fun g hg => (Group.book_uid ..).trans hg) hv
    exact h1.trans ((others v hv).trans (Op.ready_others hv))
  · obtain rfl : g = g0 := Option.some.inj (hg.symm.trans hg0)
    obtain ⟨g', hg', hw⟩ := own _ (Op.ready_group? hg)
    exact ⟨_, State.modGroup_group?_same hg' ((Group.book_uid ..).trans (State.group?_uid hg')),
      (Op.readyGroup_issued hx hlanes hw).book ..⟩

end

/-- The frame of an instruction that writes registers, in a group of which no lane is in handler mode. -/
theorem Op.Registers.issue {dest : Dest} {o : Op} (ho : o.Registers dest) {s : State} {g : Group}
    (hg : s.group? s.cur = some g) (hh : ∀ l ∈ g.lanes, l.handler = false) :
    Answers (s.Issued dest s.cur) (o.issue s) := by
  cases hx : s.site? with
  | none =>
    refine ⟨s, by simp only [Op.issue, hx], ?_⟩
    exact (State.Writes.refl dest s.cur 0 s).issued
  | some x =>
    obtain ⟨g1, hg1, hseen, -⟩ := State.site?_group hx
    obtain rfl : g = g1 := Option.some.inj (hg.symm.trans hg1)
    have hlanes : g.lanes = x.g.lanes := by rw [hseen, Group.seen_lanes]
    have hu := State.site?_uid hx
    have hn : x.NoHandler := fun i l hl _ => hh l (List.mem_of_getElem? (hlanes ▸ hl))
    cases hheld : o.isHeld s x with
    | true =>
      refine ⟨_, o.issue_held_eq hx hheld, ?_⟩
      rw [ho.onHold, hu]
      exact (State.modGroup_writes (good := 0) (f := fun g => { g with blocked := true })
        (fun g => ⟨⟨rfl, rfl, rfl, rfl, rfl, rfl, rfl, rfl, rfl, rfl, rfl⟩, fun _ _ => rfl,
          fun k l hl => ⟨l, hl, .refl ..⟩⟩) s s.cur).issued
    | false =>
      refine ⟨_, o.issue_not_held hx hn hheld, ?_⟩
      rw [← hu]
      exact Op.booked_issued hx ho (hu ▸ hg) hlanes

/-! ## The instructions that write registers -/

section
variable {dest : Dest}

theorem laneOp_registers {m : Bool} {o : Operands} {tags : Site → Lane → Bool} {f : Site → Nat → Lane → Lane}
    (hf : ∀ x i (l : Lane), l.Writes dest true (f x i l)) : (laneOp m o tags f).Registers dest :=
  ⟨fun x good s => State.modGroup_writes (fun g => g.onLanes_writes (hf x) good) s x.g.uid, fun _ _ _ => rfl⟩

theorem crossOp_registers {m : Bool} {o : Operands} {tags : Site → Lane → Bool}
    {f : Site → BitVec 32 → Nat → Lane → Lane} (hf : ∀ x good i (l : Lane), l.Writes dest true (f x good i l)) :
    (crossOp m o tags f).Registers dest :=
  ⟨fun x good s => State.modGroup_writes (fun g => g.onLanes_writes (hf x good) good) s x.g.uid, fun _ _ _ => rfl⟩

theorem groupOp_registers {m : Bool} {us : List Nat} {f : Site → BitVec 32 → Group → Group}
    (hf : ∀ x good (g : Group), g.Writes dest good (f x good g)) : (groupOp m us f).Registers dest :=
  ⟨fun x good s => State.modGroup_writes (hf x good) s x.g.uid, fun _ _ _ => rfl⟩

/-- An effect on the active lanes of an operation with checks of its own. -/
theorem Op.registers_of_lanes {o : Op} {f : Site → Nat → Lane → Lane}
    (he : o.effect = fun x good s => s.modGroup x.g.uid fun g => g.onLanes good (f x))
    (hh : o.onHold = fun _ _ s => s) (hf : ∀ x i (l : Lane), l.Writes dest true (f x i l)) : o.Registers dest :=
  ⟨fun x good s => by rw [he]; exact State.modGroup_writes (fun g => g.onLanes_writes (hf x) good) s x.g.uid,
    fun _ _ _ => by rw [hh]⟩

theorem Op.registers_of_group {o : Op} {f : Site → BitVec 32 → Group → Group}
    (he : o.effect = fun x good s => s.modGroup x.g.uid (f x good)) (hh : o.onHold = fun _ _ s => s)
    (hf : ∀ x good (g : Group), g.Writes dest good (f x good g)) : o.Registers dest :=
  ⟨fun x good s => by rw [he]; exact State.modGroup_writes (hf x good) s x.g.uid, fun _ _ _ => by rw [hh]⟩

theorem Op.registers_of_nothing {o : Op} (he : o.effect = fun _ _ s => s) (hh : o.onHold = fun _ _ s => s) :
    o.Registers dest :=
  ⟨fun x good s => by rw [he]; exact .refl .., fun _ _ _ => by rw [hh]⟩

/-- Flags at issue and results on their way write no register. -/
theorem flaggedAndAwaited_writes (x : Site) (good : BitVec 32) {fl : Lane → FpFlags}
    (hfl : ∀ l : Lane, l.Writes dest true (l.flag (fl l))) (f : Nat → Lane → List RegWrite) (s : State) :
    s.Writes dest x.g.uid good (flaggedAndAwaited x good fl f s) :=
  (State.modGroup_writes (fun g => g.onLanes_writes (fun _ l => hfl l) good) s x.g.uid).mark
    (State.awaitLanes_marks ..) (State.awaitLanes_sameParts ..)

theorem sfuOp_registers {m : Bool} {d a : BitVec 7} {ok : BitVec 5 → Bool} {f : Site → VReg → Word × FpFlags}
    (hfl : ∀ x (l : Lane), l.Writes dest true (l.flag (f x (l.get a.toNat)).2)) : (sfuOp m d a ok f).Registers dest :=
  ⟨fun x good s => flaggedAndAwaited_writes x good (fl := fun l => (f x (l.get a.toNat)).2) (hfl x) _ s,
    fun _ _ _ => rfl⟩

theorem reduceOp_registers {m : Bool} {d a : BitVec 7} {tags : Site → Lane → Bool}
    {f : Site → BitVec 32 → List (Option Word) × BitVec 5 × FpFlags}
    (hfl : ∀ x good (l : Lane), l.Writes dest true (l.flag (f x good).2.2)) : (reduceOp m d a tags f).Registers dest :=
  ⟨fun x good s => flaggedAndAwaited_writes x good (fl := fun _ => (f x good).2.2) (hfl x good) _ s, fun _ _ _ => rfl⟩

theorem reduceOp_registers_flags {m : Bool} {d a : BitVec 7} {tags : Site → Lane → Bool}
    {f : Site → BitVec 32 → List (Option Word) × BitVec 5 × FpFlags} (h : dest.flags = true) :
    (reduceOp m d a tags f).Registers dest :=
  reduceOp_registers fun _ _ l => l.flag_writes h _

theorem uniformLater_registers {m : Bool} {d : Nat} {us : List Nat} {f : Site → State → Word} :
    (uniformLater m d us f).Registers dest :=
  ⟨fun x good s => (State.Writes.refl dest x.g.uid good s).mark (s.await_marks ..)
    ⟨rfl, rfl, rfl, rfl, rfl, rfl, rfl, rfl, rfl⟩, fun _ _ _ => rfl⟩

/-- A lane whose place or window alone changes. -/
theorem Lane.moved_writes (l : Lane) (window : Nat) (lpc : Addr) :
    l.Writes dest true { l with window := window, lpc := lpc } :=
  .of_rest rfl rfl rfl ⟨rfl, rfl, rfl⟩ rfl rfl fun h => nomatch h

theorem eachElem_noFlags {w : Nat} {f : Nat → Nat × FpFlags} (h : ∀ i, (f i).2 = 0) : (eachElem w f).2 = 0 := by
  unfold eachElem
  dsimp only
  generalize List.range (32 / w) = is
  have hz : ∀ (is : List Nat), (is.map f).foldl (fun acc r => acc ||| r.2) (0 : FpFlags) = 0 := fun is => by
    induction is with
    | nil => rfl
    | cons i is ih =>
      rw [List.map_cons, List.foldl_cons, h i]
      exact ih
  exact hz is

/-- Flags of 0 leave FPFLAGS as they were. -/
theorem Lane.flag_zero_writes (l : Lane) : l.Writes dest true (l.flag 0) :=
  .of_rest rfl rfl BitVec.or_zero ⟨rfl, rfl, rfl⟩ rfl rfl fun h => nomatch h

theorem Lane.putFloat_noFlags_writes {n : Nat} (h : n ∈ dest.vregs) (l : Lane) (tag : BitVec 5) {r : Word × FpFlags}
    (hr : r.2 = 0) : l.Writes dest true (l.putFloat n tag r) := by
  rw [Lane.putFloat, hr]
  exact (l.put_writes h r.1 tag).trans (Lane.flag_zero_writes _) rfl

/-- A lane that parks, or leaves. -/
theorem Lane.placed_writes (l : Lane) (st : LaneState) (lpc : Addr) (leaving : Bool) :
    l.Writes dest true { l with state := st, lpc := lpc, leaving := leaving } :=
  .of_rest rfl rfl rfl ⟨rfl, rfl, rfl⟩ rfl rfl fun h => nomatch h

/-- The lanes that arrive are among those that pass. -/
theorem Group.arrive_writes (g : Group) (good : BitVec 32) (j : Nat) (pc : Addr) :
    g.Writes ⟨[], [], [], false⟩ good ((g.onLanes (g.enrolled j good) fun _ l =>
      { l with state := .join j, lpc := pc }).changeJ j fun jm => ⟨jm.enrol, jm.arrived ||| g.enrolled j good⟩) where
  settled := (g.onLanes_settled ..).trans (Group.changeJ_writes ⟨[], [], [], false⟩ good _ _ _).settled
  uregs r hr := (Group.changeJ_writes ⟨[], [], [], false⟩ good _ _ _).uregs r hr
  lanes k l hl := by
    have parked : (g.onLanes (g.enrolled j good) fun _ l => { l with state := .join j, lpc := pc }).lanes[k]? =
        some (if (g.enrolled j good).getLsbD k then { l with state := .join j, lpc := pc } else l) := by
      rw [Group.onLanes_lane, hl, Option.map_some]
    obtain ⟨l', hl', h⟩ := (Group.changeJ_writes ⟨[], [], [], false⟩ good _ j fun jm =>
      ⟨jm.enrol, jm.arrived ||| g.enrolled j good⟩).lanes k _ parked
    refine ⟨l', hl', ?_⟩
    split at h
    next hp =>
      have hgood : good.getLsbD k = true := by
        rw [Group.enrolled, BitVec.getLsbD_and, Bool.and_eq_true] at hp
        exact hp.1
      rw [hgood] at h ⊢
      exact { h with trapped := fun ht => nomatch ht }
    · exact h

/-- CALL writes its link in the window that it enters. -/
theorem Lane.call_writes (l : Lane) (k : Nat) (lpc : Addr) (w v : Word) (tag tag1 : BitVec 5) :
    l.Writes ⟨[k, k + 1], [], [], false⟩ true
      ((({ l with window := l.window + k, lpc := lpc } : Lane).put 0 w tag).put 1 v tag1) where
  vregs r hr := by
    have h0 : r ≠ l.window + k := hr k (by simp)
    have h1 : r ≠ l.window + (k + 1) := hr (k + 1) (by simp)
    exact (tget_tput_other _ _ _ _ _ (by
      show r ≠ l.window + k + 1
      omega)).trans (tget_tput_other _ _ _ _ _ h0)
  preds _ _ := rfl
  flags _ := rfl
  cause := ⟨rfl, rfl, rfl⟩
  lwct := rfl
  handler := rfl
  trapped h := nomatch h

/-- SREAD writes the registers of its width. -/
theorem Lane.sread_writes (l : Lane) (wide : Bool) (d : Nat) (x : DWord) :
    l.Writes ⟨if wide then [d, d + 1] else [d], [], [], false⟩ true
      (if wide then l.putWide d x else l.put d x.lo tagUI32) := by
  cases wide with
  | true => exact l.put_put_writes (by simp) (by simp) ..
  | false => exact l.put_writes (by simp) ..

theorem Group.sread_writes (g : Group) (good : BitVec 32) (wide : Bool) (d : Nat) (x : DWord) :
    g.Writes ⟨[], [], if wide then [d, d + 1] else [d], false⟩ good
      (if wide then g.setUPair d x else g.setU d x.lo) := by
  cases wide with
  | true =>
    have h0 : g.Writes ⟨[], [], [d, d + 1], false⟩ good (g.setU d x.lo) := g.setU_writes (by simp) ..
    have h1 := (g.setU d x.lo).setU_writes (dest := ⟨[], [], [d, d + 1], false⟩) (n := d + 1) (by simp) good x.hi
    exact ⟨h0.settled.trans h1.settled, fun r hr => (h1.uregs r hr).trans (h0.uregs r hr),
      fun _ l hl => ⟨l, hl, .refl ..⟩⟩
  | false => exact g.setU_writes (by simp) ..

theorem Op.registers_of_rotation {o : Op} {f : Site → Group → Option Rotation}
    (he : o.effect = fun x _ s => s.modGroup x.g.uid fun g => { g with rotation := f x g })
    (hh : o.onHold = fun _ _ s => s) : o.Registers dest :=
  Op.registers_of_group (f := fun x _ g => { g with rotation := f x g }) he hh fun _ _ _ =>
    ⟨⟨rfl, rfl, rfl, rfl, rfl, rfl, rfl, rfl, rfl, rfl, rfl⟩, fun _ _ => rfl, fun _ l hl => ⟨l, hl, .refl ..⟩⟩

theorem shuffle_registers {m : Bool} {d a : BitVec 7} {vs : List Nat} {src : Nat → Lane → Option Nat} :
    (shuffle m d a vs src).Registers ⟨[d.toNat], [], [], false⟩ :=
  crossOp_registers fun _ _ _ l => l.put_writes (List.mem_singleton.mpr rfl) ..

theorem reduceArith_registers {m : Bool} {d a : BitVec 7} {op : RedOp} :
    (reduceArith m d a op).Registers ⟨[d.toNat], [], [], true⟩ := by
  simp only [reduceArith]
  exact reduceOp_registers_flags rfl

theorem scanArith_registers {m : Bool} {d a : BitVec 7} {op : RedOp} :
    (scanArith m d a op).Registers ⟨[d.toNat], [], [], true⟩ := by
  simp only [scanArith]
  exact reduceOp_registers_flags rfl

theorem reduceBits_registers {m : Bool} {d a : BitVec 7} {f : Word → Word → Word} :
    (reduceBits m d a f).Registers ⟨[d.toNat], [], [], false⟩ := by
  refine reduceOp_registers fun x good l => ?_
  have hq := treeReduce_quiet f 5 (values x good fun l => (l.get a.toNat).bits)
  have h0 := l.flag_zero_writes (dest := ⟨[d.toNat], [], [], false⟩)
  rw [← hq] at h0
  exact h0

theorem rootOp_registers {m : Bool} {d a : BitVec 7} {f : Fmt → RMode → Nat → Nat × FpFlags} :
    (rootOp m d a f).Registers ⟨[d.toNat], [], [], true⟩ :=
  sfuOp_registers fun _ l => l.flag_writes rfl _

theorem sfuOp_registers_wait {m : Bool} {d a : BitVec 7} {ok : BitVec 5 → Bool} {f : Site → VReg → Word × FpFlags}
    {w : Site → Bool} (h : (sfuOp m d a ok f).Registers dest) :
    ({ sfuOp m d a ok f with wait := w } : Op).Registers dest :=
  ⟨h.effect, h.onHold⟩

end

/-- An instruction that writes registers, by the destinations that `Instr.dest` gives it. -/
theorem exec_issued {i : Instr} {dest : Dest} (hd : i.dest = some dest) {s : State} {g : Group}
    (hg : s.group? s.cur = some g) (hh : ∀ l ∈ g.lanes, l.handler = false) :
    Answers (s.Issued dest s.cur) (exec i s) := by
  cases i
  case iadd | isub | imul | imulh | imulhu | imad | imin | imax | iminu | imaxu | iabs | ineg | and | or | xor | andn |
      shl | shr | sar | rotl | popc | clz | brev | bfx | bfxs | bfi | iadds | isubs | mov | retag | iaddi | andi | ori |
      xori | shli | shri | sari | imuli | movl | movh | fclass | sel =>
    obtain rfl := Option.some.inj hd
    refine (laneOp_registers ?_).issue hg hh
    exact fun _ _ l => l.put_writes (List.mem_singleton.mpr rfl) ..
  case aadd | aaddx | asub | alea | afroms | jqry =>
    obtain rfl := Option.some.inj hd
    refine (laneOp_registers ?_).issue hg hh
    exact fun _ _ l => l.put_put_writes (by simp) (by simp) ..
  case fadd | fsub | fmul | ffma | ffms | fnma | fmin | fmax | fminnum | fmaxnum | frnd | fdot2 | fdot4 | fdiv |
    fscale |
      fgetexp | fgetman =>
    obtain rfl := Option.some.inj hd
    refine (laneOp_registers ?_).issue hg hh
    exact fun _ _ l => l.putFloat_writes (List.mem_singleton.mpr rfl) rfl ..
  case fabs | fneg | fcopysign =>
    obtain rfl := Option.some.inj hd
    refine (laneOp_registers ?_).issue hg hh
    exact fun _ _ l => l.putFloat_noFlags_writes (List.mem_singleton.mpr rfl) _ (eachElem_noFlags fun _ => rfl)
  case icmp | acmpeq | acmpltu | pand | por | pxor | pnot | pmov | pandn | pfroms =>
    obtain rfl := Option.some.inj hd
    refine (laneOp_registers ?_).issue hg hh
    exact fun _ _ l => l.setPred_writes (List.mem_singleton.mpr rfl) ..
  case fcmp =>
    obtain rfl := Option.some.inj hd
    refine (laneOp_registers ?_).issue hg hh
    exact fun _ _ l => (l.setPred_writes (List.mem_singleton.mpr rfl) _).trans (Lane.flag_writes rfl ..) (by
      unfold Lane.setPred
      split <;> rfl)
  case ualuIadd m vc d a b | ualuIsub m vc d a b | ualuImul m vc d a b | ualuImin m vc d a b | ualuImax m vc d a b |
      ualuIminu m vc d a b | ualuImaxu m vc d a b | ualuAnd m vc d a b | ualuOr m vc d a b | ualuXor m vc d a b |
      ualuAndn m vc d a b | ualuShl m vc d a b | ualuShr m vc d a b | ualuSar m vc d a b =>
    obtain rfl := Option.some.inj hd
    cases vc
    · refine (groupOp_registers ?_).issue hg hh
      exact fun _ _ g => g.setU_writes (List.mem_singleton.mpr rfl) ..
    · refine (laneOp_registers ?_).issue hg hh
      exact fun _ _ l => l.put_writes (List.mem_singleton.mpr rfl) ..
  case ualuMov m vc d b =>
    obtain rfl := Option.some.inj hd
    cases vc
    · refine (groupOp_registers ?_).issue hg hh
      exact fun _ _ g => g.setU_writes (List.mem_singleton.mpr rfl) ..
    · refine (laneOp_registers ?_).issue hg hh
      exact fun _ _ l => l.put_writes (List.mem_singleton.mpr rfl) ..
  case ualuiIaddi | ualuiAndi | ualuiOri | ualuiXori | ualuiShli | ualuiShri | ualuiSari | ualuiImuli | movlUniform |
      movhUniform | ballot | ptos =>
    obtain rfl := Option.some.inj hd
    refine (groupOp_registers ?_).issue hg hh
    exact fun _ _ g => g.setU_writes (List.mem_singleton.mpr rfl) ..
  case cvt =>
    obtain rfl := Option.some.inj hd
    refine (Op.registers_of_lanes rfl rfl ?_).issue hg hh
    exact fun _ _ l => l.putFloat_writes (List.mem_singleton.mpr rfl) rfl ..
  case frcp | frsq | fsqrt =>
    obtain rfl := Option.some.inj hd
    exact rootOp_registers.issue hg hh
  case flut =>
    obtain rfl := Option.some.inj hd
    refine (sfuOp_registers_wait (sfuOp_registers ?_)).issue hg hh
    exact fun _ l => l.flag_zero_writes
  case atstat =>
    obtain rfl := Option.some.inj hd
    exact uniformLater_registers.issue hg hh
  case shfli | shflu | shfld | shflx | bcast =>
    obtain rfl := Option.some.inj hd
    exact shuffle_registers.issue hg hh
  case matchLanes | splat =>
    obtain rfl := Option.some.inj hd
    refine (crossOp_registers ?_).issue hg hh
    exact fun _ _ _ l => l.put_writes (List.mem_singleton.mpr rfl) ..
  case voteall | voteany =>
    obtain rfl := Option.some.inj hd
    refine (crossOp_registers ?_).issue hg hh
    exact fun _ _ _ l => l.setPred_writes (List.mem_singleton.mpr rfl) ..
  case redadd | redmin | redmax =>
    obtain rfl := Option.some.inj hd
    exact reduceArith_registers.issue hg hh
  case scanadd | scanmax =>
    obtain rfl := Option.some.inj hd
    exact scanArith_registers.issue hg hh
  case redand | redor | redxor =>
    obtain rfl := Option.some.inj hd
    exact reduceBits_registers.issue hg hh
  case bra =>
    obtain rfl := Option.some.inj hd
    refine (laneOp_registers ?_).issue hg hh
    intro x _ l
    split
    · exact l.moved_writes ..
    · exact .refl ..
  case brx =>
    obtain rfl := Option.some.inj hd
    refine (laneOp_registers ?_).issue hg hh
    exact fun _ _ l => l.moved_writes ..
  case call =>
    obtain rfl := Option.some.inj hd
    refine (Op.registers_of_lanes rfl rfl ?_).issue hg hh
    exact fun _ _ l => l.call_writes ..
  case ret | wbase | wadj =>
    obtain rfl := Option.some.inj hd
    refine (Op.registers_of_lanes rfl rfl ?_).issue hg hh
    exact fun _ _ l => l.moved_writes ..
  case jenr | jstk =>
    obtain rfl := Option.some.inj hd
    refine (groupOp_registers ?_).issue hg hh
    exact fun _ _ g => g.changeJ_writes ..
  case jclr =>
    obtain rfl := Option.some.inj hd
    refine (groupOp_registers ?_).issue hg hh
    exact fun _ _ g => g.clearJ_writes ..
  case jarv m j =>
    obtain rfl := Option.some.inj hd
    exact (Op.registers_of_group rfl rfl fun x good g => g.arrive_writes good j.toNat x.pc).issue hg hh
  case yield =>
    obtain rfl := Option.some.inj hd
    exact (Op.registers_of_rotation rfl rfl).issue hg hh
  case safept | nop =>
    obtain rfl := Option.some.inj hd
    exact (Op.registers_of_nothing rfl rfl).issue hg hh
  case resume =>
    obtain rfl := Option.some.inj hd
    refine (Op.registers_of_lanes rfl rfl ?_).issue hg hh
    exact fun _ _ l => l.placed_writes ..
  case sread m d cls b =>
    by_cases hc : cls = 0
    · simp only [Instr.dest, if_pos hc] at hd
      obtain rfl := Option.some.inj hd
      have h : exec (.sread m d cls b) s = _ := if_pos hc
      rw [h]
      exact (laneOp_registers fun _ _ l => l.sread_writes ..).issue hg hh
    · simp only [Instr.dest, if_neg hc] at hd
      obtain rfl := Option.some.inj hd
      have h : exec (.sread m d cls b) s = _ := if_neg hc
      rw [h]
      exact (groupOp_registers fun _ _ g => g.sread_writes ..).issue hg hh
  all_goals nomatch hd

end Sys2Proof.Machine

namespace Sys2Proof
open Machine

/-- Settles O53: the instruction is an operation whose effect writes at most its destinations. -/
theorem registerInstructionsLeaveTheRest : Obligations.RegisterInstructionsLeaveTheRest := by
  unfold Obligations.RegisterInstructionsLeaveTheRest
  intro i dest s t g hd hg hh ht
  obtain ⟨t', ht', parts, grows, others, own⟩ := exec_issued hd hg hh
  obtain rfl : t = t' := Host.Outcome.next.inj (ht.symm.trans ht')
  obtain ⟨g', hg', settled, uregs, lanes⟩ := own g hg
  refine ⟨parts.mem, parts.teams, parts.cores, parts.fabric, parts.ctxs, parts.grids, parts.pool, parts.outbox,
    parts.fw,
    grows, others, g', hg', settled.tdescs, settled.fpmode, settled.pprom, settled.fairtime, settled.leaseovr,
    settled.atbank, settled.stackLimit, uregs, settled.length, fun k l l' hl hl' => ?_⟩
  obtain ⟨l'', hl'', h⟩ := lanes k l hl
  obtain rfl : l' = l'' := Option.some.inj (hl'.symm.trans hl'')
  exact ⟨h.vregs, h.preds, h.flags, h.cause, h.lwct, h.handler⟩

end Sys2Proof
end

section
/-!
PROOFS. A state whose next result is given the number of one on its way: the second atomic of an instruction then takes
the first one's old word (R202, R203, R282).
-/

-- One proof after another: each that waits beside others holds a stack of its own.
set_option Elab.async false

namespace Sys2Proof.Machine

/-! ## States that issue, evaluated -/

/-- A check of every lane of a site. -/
def Site.everyLane (x : Site) (p : Nat → Lane → Bool) : Bool := x.g.lanes.zipIdx.all fun li => p li.2 li.1

theorem Site.everyLane_active {x : Site} {p : Nat → Lane → Bool} (h : x.everyLane p = true) :
    ActiveLanes x fun i l => p i l = true := fun i l hl _ =>
  List.all_eq_true.mp h (l, i) (List.mem_zipIdx_iff_getElem?.mpr hl)

theorem Site.everyLane_operands {x : Site} {o : Operands} {tags : Lane → Bool}
    (h : x.everyLane (fun _ l => (operandFault x l o (tags l)).isNone) = true) :
    OperandsPass x o tags := fun i l hl hm =>
  Option.isNone_iff_eq_none.mp (Site.everyLane_active h i l hl hm)

/-- A check of the place where the state issues an instruction of a kind. -/
def State.issuesWhere (s : State) (kind : IssueKind) (p : Site → Bool) : Bool :=
  s.site?.any fun x => x.mask != 0 && (kindFault x kind).isNone && !overDistance s.fw.spdistCap x kind && p x

theorem State.issuesWhere_site {s : State} {kind : IssueKind} {p : Site → Bool} (h : s.issuesWhere kind p = true) :
    ∃ x, Issuing s x kind ∧ p x = true := by
  obtain ⟨x, hx, hp⟩ := (Option.any_eq_true ..).mp h
  simp only [Bool.and_eq_true, bne_iff_ne, Option.isNone_iff_eq_none, Bool.not_eq_true'] at hp
  obtain ⟨⟨⟨hm, hk⟩, hn⟩, hp⟩ := hp
  exact ⟨x, ⟨hx, hm, hk, hn⟩, hp⟩

/-! ## A result on its way whose number is given again -/

/-- All lanes of the placed group (log 22) name the word at 0x40000000 of a page of memory, but lane 1 the next one. -/
def twoWordsGroup (g : Group) : Group :=
  ({ g with lanes := mapFrom (fun i l => (l.put 4 (if i = 1 then 4 else 0) tagI32).put 6 7 tagI32) 0 g.lanes } :
    Group).setU
    2 0x40000000

/-- A load of lane 1 on its way, of the number that the next result on its way will have. -/
def staleLoad : Pend :=
  { id := 4, group := 3, lane := some 1, lanes := 2, pc := 0x40080, va := 0x40000004, regs := [], due := 0,
    what := .load 0x40000004 0x40000004 4 0 0 0 }

def staleState : State :=
  let s := State.reset.withFetchWord 32 0
  { s with mem := { s.mem with cells := cputs s.mem.cells (placedTable + 8) (natLe 8 0x4000000F) },
           groups := s.groups.map twoWordsGroup, pend := [staleLoad] }

/-- The old word of an atomic is on its way. -/
def Awaited.isAtom : Awaited → Bool
  | .atom .. => true
  | _ => false

/-- What an access meets is a place of this part. -/
def Met.atHome (m : Met) : Bool := m.place?.any (·.home)

theorem Met.atHome_place {m : Met} (h : m.atHome = true) : ∃ p, m = .place p ∧ p.home = true := by
  cases m with
  | place p => exact ⟨p, rfl, h⟩
  | fault c => cases h
  | service e => cases h

/-- The atomic issues, in lane 0 too, and every lane names a word of this part. -/
theorem staleState_issues : staleState.issuesWhere .plain (fun x =>
    x.everyLane (fun _ l => (operandFault x l ((globalOperands 4 2).add { vs := atomRegs 0 6 })
      (globalTags l 4 2 && (atomRegs 0 6).all fun k => atomTag 0 (l.get k).tag)).isNone) &&
    x.everyLane (fun i l => (staleState.meetLane x.g i (globalAddr x.g l 4 2) 4 .rmw).atHome) &&
    x.mask.getLsbD 0 && (x.g.lanes[0]?).isSome && !staleState.keepsBack x.g) = true := by decide +kernel

/-- As the word of lane 1 is taken, the load is performed, and with it what is on its way to lane 0. -/
theorem staleState_loses :
    (match exec (.atom false false 0 6 4 2) staleState with
     | .next t => t.pend.all fun p => !(p.what.isAtom && p.lane == some 0)
     | _ => false) = true := by decide +kernel

end Sys2Proof.Machine

namespace Sys2Proof
open Machine

/-- Refutes O20: a state may hold a load on its way with the number that the next result is given; the second atomic of
one instruction then performs that load, and the first one's old word, which has the same number, is lost. -/
theorem not_atomicsReturnTheOldWord : ¬ Obligations.AtomicsReturnTheOldWord := by
  unfold Obligations.AtomicsReturnTheOldWord
  intro h
  obtain ⟨x, hi, hx⟩ := State.issuesWhere_site staleState_issues
  simp only [Bool.and_eq_true, Bool.not_eq_true'] at hx
  obtain ⟨⟨⟨⟨hp, hhome⟩, hm⟩, hsome⟩, hkeeps⟩ := hx
  replace hhome := Site.everyLane_active hhome
  obtain ⟨l, hl⟩ := Option.isSome_iff_exists.mp hsome
  obtain ⟨hglobal, -⟩ := h.1 staleState x false false 0 6 4 2 hi hkeeps
  obtain ⟨t, g, ht, -, -, hcome, -⟩ := hglobal (Site.everyLane_operands hp) fun i l hl hm =>
    let ⟨p, hp, _⟩ := Met.atHome_place (hhome i l hl hm)
    ⟨p, hp⟩
  obtain ⟨p, hp, hpl⟩ := Met.atHome_place (hhome 0 l hl hm)
  obtain ⟨w, ⟨q, hq, -, hlane, -, hwhat⟩, -⟩ := (hcome 0 l hl hm p hp).1 hpl
  have lost := staleState_loses
  rw [ht] at lost
  have := List.all_eq_true.mp lost q hq
  rw [hlane, hwhat] at this
  exact absurd this (by simp [Awaited.isAtom])

end Sys2Proof
end

section
/-!
PROOFS. Loads: requests that are made stay open, and what each lane's access starts is on its way when the instruction
completes (R194, R196 to R198, R272, R282).
-/

-- One proof after another: each that waits beside others holds a stack of its own.
set_option Elab.async false

namespace Sys2Proof.Machine

/-! ## Requests to other parts (R287, R288) -/

section
variable (f : Fabric)

@[simp] theorem Fabric.modChannel_remotes (c : Nat) (g : Channel → Channel) :
    (f.modChannel c g).remotes = f.remotes := by
  unfold Fabric.modChannel
  split <;> rfl

@[simp] theorem Fabric.put_remotes (c : Nat) (flit : List Byte) : (f.put c flit).remotes = f.remotes := by
  unfold Fabric.put
  split
  · rfl
  · exact f.modChannel_remotes ..

@[simp] theorem Fabric.touch_remotes (c now : Nat) : (f.touch c now).remotes = f.remotes := by
  unfold Fabric.touch
  split <;> rfl

@[simp] theorem Fabric.wakePeer_remotes (c now : Nat) : (f.wakePeer c now).remotes = f.remotes := by
  unfold Fabric.wakePeer
  split <;> rfl

theorem Fabric.pump_remotes (c now n : Nat) : (f.pump c now n).remotes = f.remotes := by
  induction n generalizing f with
  | zero => rfl
  | succ n ih =>
    unfold Fabric.pump
    (repeat' split)
    · rfl
    · rfl
    · rw [ih]
      simp
    · rfl

@[simp] theorem Fabric.enqueue_remotes (c now : Nat) (copy : Bool) (bs : List Byte) :
    (f.enqueue c now copy bs).remotes = f.remotes := by
  unfold Fabric.enqueue
  rw [Fabric.pump_remotes, Fabric.modChannel_remotes]

@[simp] theorem Fabric.inject_remotes (dst now : Nat) (bs : List Byte) : (f.inject dst now bs).remotes = f.remotes := by
  unfold Fabric.inject
  dsimp only
  split
  · exact f.enqueue_remotes ..
  · rfl

end

/-- The requests that are open stay open: a request gets at most its end-to-end number. -/
def State.Asks (s t : State) : Prop :=
  ∀ q ∈ s.fabric.remotes, ∃ q' ∈ t.fabric.remotes, q' = { q with e2e := q'.e2e }

theorem State.Asks.of_eq {s t : State} (h : t.fabric.remotes = s.fabric.remotes) : s.Asks t :=
  fun q hq => ⟨q, h ▸ hq, rfl⟩

theorem State.Asks.trans {s t u : State} (h : s.Asks t) (k : t.Asks u) : s.Asks u := fun q hq => by
  obtain ⟨q', hq', e'⟩ := h q hq
  obtain ⟨q'', hq'', e''⟩ := k q' hq'
  exact ⟨q'', hq'', by rw [e'', e']⟩

theorem State.Asks.foldl {α : Type} (f : State → α → State) (hf : ∀ (s : State) a, s.Asks (f s a)) (xs : List α)
    (s : State) :
    s.Asks (xs.foldl f s) := by
  induction xs generalizing s with
  | nil => exact .of_eq rfl
  | cons a xs ih => exact (hf s a).trans (ih _)

theorem State.transmit_asks (s : State) (r : Remote) : s.Asks (s.transmit r) := by
  have numbered (e : Nat) (f : Fabric) (hf : f.remotes = s.fabric.remotes) (t : State)
      (ht : t.fabric.remotes = f.remotes.map fun q => if q.id = r.id then { q with e2e := some e } else q) :
      s.Asks t := fun q hq => by
    refine ⟨if q.id = r.id then { q with e2e := some e } else q, ?_, ?_⟩
    · rw [ht, hf]
      exact List.mem_map_of_mem hq
    · split <;> rfl
  unfold State.transmit
  split
  · split <;> exact .of_eq rfl
  · dsimp only
    split
    · exact numbered _ _ (by split <;> rfl) _ (Fabric.enqueue_remotes ..)
    · exact numbered _ _ (by split <;> rfl) _ (Fabric.inject_remotes ..)

/-- A request as it is opened: with its number, its time and who makes it. -/
def State.numbered (s : State) (r : Remote) : Remote :=
  let r := { r with
    id := s.fabric.nextRemote, sent := s.gtime, writer := if r.engine.isSome then r.writer else s.issuer r }
  { r with queued := !s.canSend r }

def State.opened (s : State) (q : Remote) : State :=
  { s with fabric := { s.fabric with remotes := s.fabric.remotes ++ [q], nextRemote := s.fabric.nextRemote + 1 } }

theorem State.request_eq (s : State) (r : Remote) :
    s.request r = ((s.numbered r).id, if (s.numbered r).queued then s.opened (s.numbered r)
      else (s.opened (s.numbered r)).transmit (s.numbered r)) := rfl

/-- A request that is made: it is open under its number, and those that were open stay. -/
theorem State.request_made (s : State) (r : Remote) :
    s.Asks (s.request r).2 ∧ ∃ q ∈ (s.request r).2.fabric.remotes,
      q = { s.numbered r with e2e := q.e2e } ∧ q.id = (s.request r).1 := by
  rw [State.request_eq]
  have grown : s.Asks (s.opened (s.numbered r)) := fun q hq => ⟨q, List.mem_append_left _ hq, rfl⟩
  have stays : (s.opened (s.numbered r)).Asks (if (s.numbered r).queued then s.opened (s.numbered r)
      else (s.opened (s.numbered r)).transmit (s.numbered r)) := by
    split
    · exact .of_eq rfl
    · exact State.transmit_asks _ _
  obtain ⟨q, hq, he⟩ := stays (s.numbered r) (List.mem_append_right _ (List.mem_singleton.mpr rfl))
  exact ⟨grown.trans stays, q, hq, he, by rw [he]⟩

/-! ## What comes to be on its way over several turns -/

/-- What brings results and makes requests: results on their way stay, and so do open requests. -/
structure State.Brought (u : Nat) (s t : State) : Prop where
  marks : s.Marks u t
  asks : s.Asks t

theorem State.Brought.refl (u : Nat) (s : State) : s.Brought u s := ⟨.refl u s, .of_eq rfl⟩

theorem State.Brought.trans {u : Nat} {s t v : State} (h : s.Brought u t) (k : t.Brought u v) : s.Brought u v :=
  ⟨h.marks.trans k.marks, h.asks.trans k.asks⟩

theorem State.Brought.foldl {α : Type} {u : Nat} (f : State → α → State) (hf : ∀ (s : State) a, s.Brought u (f s a))
    (xs : List α) (s : State) : s.Brought u (xs.foldl f s) :=
  ⟨.foldl f (fun s a => (hf s a).marks) xs s, .foldl f (fun s a => (hf s a).asks) xs s⟩

/-- What one turn of a fold establishes, and every turn keeps, stands at the end. -/
theorem foldl_establishes {α σ : Type} {I Q : σ → Prop} (f : σ → α → σ) {xs : List α} {a : α} (ha : a ∈ xs)
    (hI : ∀ s, ∀ b ∈ xs, I s → I (f s b)) (hQ : ∀ s, ∀ b ∈ xs, I s → Q s → Q (f s b)) (h : ∀ s, I s → Q (f s a)) (s : σ)
    (hs : I s) : Q (xs.foldl f s) := by
  have keeps (ys : List α) (hy : ∀ b ∈ ys, b ∈ xs) (s : σ) (hs : I s) (hq : Q s) : Q (ys.foldl f s) := by
    induction ys generalizing s with
    | nil => exact hq
    | cons b ys ih =>
      have hb := hy b (List.mem_cons_self ..)
      exact ih (fun c hc => hy c (List.mem_cons_of_mem _ hc)) _ (hI s b hb hs) (hQ s b hb hs hq)
  have starts (ys : List α) (hy : ∀ b ∈ ys, b ∈ xs) (ha : a ∈ ys) (s : σ) (hs : I s) : Q (ys.foldl f s) := by
    induction ys generalizing s with
    | nil => cases ha
    | cons b ys ih =>
      have hy' : ∀ c ∈ ys, c ∈ xs := fun c hc => hy c (List.mem_cons_of_mem _ hc)
      have hb := hI s b (hy b (List.mem_cons_self ..)) hs
      rcases List.mem_cons.mp ha with rfl | ha
      · exact keeps ys hy' _ hb (h s hs)
      · exact ih hy' ha _ hb
  exact starts xs (fun _ hb => hb) ha s hs

/-- A request for bytes of another part stands open under a number. -/
def State.askedFor (t : State) (id n : Nat) (p : Place) : Prop :=
  ∃ q ∈ t.fabric.remotes, q.id = id ∧ q.kind = pkRead ∧ q.chip = p.chip ∧ q.address = p.pa ∧ q.len = n

/-- A load is on its way: from this part to be performed, from another asked for (R194, R198). -/
def State.loading (t : State) (u : Nat) (lane : Option Nat) (first acc va lease after : Nat) (p : Place) : Prop :=
  (p.home = true → t.brings u lane (regsFrom first (accCount acc)) (.load va p.pa acc first lease after)) ∧
  (p.home = false → ∃ id, t.askedFor id (accBytes acc) p ∧ t.brings u lane (regsFrom first (accCount acc))
    (.answer id acc first))

theorem State.Asks.askedFor {s t : State} (h : s.Asks t) {id n : Nat} {p : Place} (hs : s.askedFor id n p) :
    t.askedFor id n p := by
  obtain ⟨q, hq, h1, h2, h3, h4, h5⟩ := hs
  obtain ⟨q', hq', he⟩ := h q hq
  rw [he] at hq'
  exact ⟨_, hq', h1, h2, h3, h4, h5⟩

theorem State.Brought.loading {u : Nat} {s t : State} (h : s.Brought u t)
    (hg : ∃ g, s.group? u = some g) {lane : Option Nat}
    {first acc va lease after : Nat} {p : Place} (hs : s.loading u lane first acc va lease after p) :
    t.loading u lane first acc va lease after p := by
  obtain ⟨g, hg⟩ := hg
  refine ⟨fun hp => h.marks.brings hg (hs.1 hp), fun hp => ?_⟩
  obtain ⟨id, ha, hb⟩ := hs.2 hp
  exact ⟨id, h.asks.askedFor ha, h.marks.brings hg hb⟩

section
variable (s : State) (x : Site) (lane : Option Nat) (lanes : BitVec 32) (first acc va after : Nat) (p : Place)

theorem State.startLoad_brought : s.Brought x.g.uid (s.startLoad x lane lanes first acc va after p) := by
  unfold State.startLoad
  dsimp only
  split
  · have home : s.Brought x.g.uid (s.reachHome p false (accBytes acc)) := by
      unfold State.reachHome State.atHome
      split
      · exact .refl ..
      · exact ⟨.of_eq rfl rfl, .of_eq rfl⟩
    exact home.trans ⟨State.awaitFrom_marks .., .of_eq rfl⟩
  · have sent := s.request_sent (remoteTo x p pkRead va (accBytes acc) [] lanes)
    have asked : s.Brought x.g.uid (s.request (remoteTo x p pkRead va (accBytes acc) [] lanes)).2 :=
      ⟨.of_eq sent.groups sent.pend, (s.request_made _).1⟩
    exact asked.trans ⟨State.await_marks .., .of_eq rfl⟩

theorem State.startLoad_loading (hg : ∃ g, s.group? x.g.uid = some g) :
    (s.startLoad x lane lanes first acc va after p).loading x.g.uid lane first acc va (leaseClass p x.g.leaseovr)
    after p := by
  obtain ⟨g, hg⟩ := hg
  unfold State.startLoad
  dsimp only
  split
  next hp =>
    refine ⟨fun _ => State.awaitFrom_brings (g := g) _ _ _ _ _ _ _ ?_,
      fun h => absurd (h.symm.trans hp) Bool.false_ne_true⟩
    unfold State.reachHome State.atHome
    split <;> exact hg
  next hp =>
    refine ⟨fun h => absurd h hp, fun _ => ⟨_, ?_, State.await_brings (g := g) _ _ _ _ _ ?_⟩⟩
    · obtain ⟨-, q, hq, he, hid⟩ := s.request_made (remoteTo x p pkRead va (accBytes acc) [] lanes)
      exact ⟨q, hq, hid, by rw [he]; rfl, by rw [he]; rfl, by rw [he]; rfl, by rw [he]; rfl⟩
    · rw [State.group?, (s.request_sent _).groups]
      exact hg

end

/-! ## Accesses of lanes (R196, R272) -/

theorem mem_flatten_mapFrom {α β : Type} {f : Nat → α → List β} {xs : List α} {b : β} :
    b ∈ (mapFrom f 0 xs).flatten ↔ ∃ i a, xs[i]? = some a ∧ b ∈ f i a := by
  rw [List.mem_flatten]
  constructor
  · rintro ⟨ys, hy, hb⟩
    obtain ⟨i, hi⟩ := List.mem_iff_getElem?.mp hy
    rw [mapFrom_getElem?, Nat.zero_add, Option.map_eq_some_iff] at hi
    obtain ⟨a, ha, rfl⟩ := hi
    exact ⟨i, a, ha, hb⟩
  · rintro ⟨i, a, ha, hb⟩
    refine ⟨f i a, List.mem_iff_getElem?.mpr ⟨i, ?_⟩, hb⟩
    rw [mapFrom_getElem?, Nat.zero_add, ha, Option.map_some]

section
variable {s : State} {x : Site} {good : BitVec 32} {addr : Lane → Nat} {n : Nat} {acc : Access} {i va : Nat}

/-- What is met is what each lane of the mask meets. -/
theorem State.mem_meetings {m : Met} : (i, va, m) ∈ s.meetings x good addr n acc ↔
    ∃ l, x.g.lanes[i]? = some l ∧ good.getLsbD i = true ∧ va = addr l ∧ m = s.meetLane x.g i (addr l) n acc := by
  rw [State.meetings, mem_flatten_mapFrom]
  constructor
  · rintro ⟨j, l, hl, hm⟩
    split at hm
    next hj =>
      cases List.mem_singleton.mp hm
      exact ⟨l, hl, hj, rfl, rfl⟩
    · cases hm
  · rintro ⟨l, hl, hg, rfl, rfl⟩
    exact ⟨i, l, hl, by rw [if_pos hg]; exact List.mem_singleton.mpr rfl⟩

theorem mem_placesOf {ms : List (Nat × Nat × Met)} {p : Place} :
    (i, va, p) ∈ placesOf ms ↔ (i, va, .place p) ∈ ms := by
  rw [placesOf, List.mem_filterMap]
  constructor
  · rintro ⟨⟨j, va', m⟩, hm, he⟩
    cases m with
    | place q =>
      cases he
      exact hm
    | fault c => cases he
    | service e => cases he
  · exact fun h => ⟨_, h, rfl⟩

end

/-- A translation that is kept changes memory's caches alone. -/
theorem State.cacheXlat_memory (s : State) (core root va : Nat) :
    ∃ mem, s.cacheXlat core root va = { s with mem := mem } := by
  unfold State.cacheXlat
  split
  · exact ⟨s.mem, rfl⟩
  · cases s.mem.tlb.find? (·.covers (dieCache core) root va) with
    | some t => exact ⟨_, rfl⟩
    | none =>
      cases s.walkFrom va walkLevels root with
      | leaf => exact ⟨_, rfl⟩
      | _ => exact ⟨s.mem, rfl⟩

theorem State.cacheXlat_rest (s : State) (core root va : Nat) :
    (s.cacheXlat core root va).groups = s.groups ∧ (s.cacheXlat core root va).pend = s.pend ∧
      (s.cacheXlat core root va).fabric = s.fabric := by
  obtain ⟨mem, h⟩ := s.cacheXlat_memory core root va
  rw [h]
  exact ⟨rfl, rfl, rfl⟩

theorem State.cacheXlat_brought (s : State) (u core root va : Nat) : s.Brought u (s.cacheXlat core root va) :=
  ⟨.of_eq (s.cacheXlat_rest ..).1 (s.cacheXlat_rest ..).2.1, .of_eq (by rw [(s.cacheXlat_rest ..).2.2])⟩

/-- A lane keeps its place, with the address that firmware is to map (R272). -/
def State.keepsPlace (s : State) (u i : Nat) (pc : Addr) (va : Nat) : Prop :=
  ∀ g, s.group? u = some g → ∀ l, g.lanes[i]? = some l → l.lpc = pc ∧ l.service = some va ∧ l.redo.isSome = true

theorem State.Marks.keepsPlace {u : Nat} {s t : State} (h : s.Marks u t) (hg : ∃ g, s.group? u = some g) {i va : Nat}
    {pc : Addr} (hk : s.keepsPlace u i pc va) : t.keepsPlace u i pc va := by
  obtain ⟨g, hg⟩ := hg
  obtain ⟨g', hg', hm⟩ := h.own g hg
  intro g'' hg'' l' hl'
  obtain rfl : g' = g'' := Option.some.inj (hg'.symm.trans hg'')
  obtain ⟨hi, -⟩ := List.getElem?_eq_some_iff.mp hl'
  rw [hm.length] at hi
  obtain ⟨l'', hl'', hmark⟩ := hm.lanes i _ (List.getElem?_eq_getElem hi)
  obtain rfl : l'' = l' := Option.some.inj (hl''.symm.trans hl')
  have := hk g hg _ (List.getElem?_eq_getElem hi)
  rw [hmark.1]
  exact this

/-- What a lane becomes whose page firmware is asked to map. -/
def holdLane (s : State) (x : Site) (va : Nat) (l : Lane) : Lane :=
  { l with lpc := x.pc, service := some va, redo := some ((x.g.redo?).getD
      { issue := s.clock.stamp, uregs := x.g.uregs, upend := x.g.upend, leaseovr := x.g.leaseovr,
        spcount := x.g.spcount }) }

/-- The group of such lanes. -/
def heldBack (s : State) (x : Site) (lanes : BitVec 32) (va : Nat) (marks : List Nat) (g : Group) : Group :=
  { g.onLanes lanes (fun _ l => holdLane s x va l) with upend := g.upend ++ marks }

section
variable (s : State) (x : Site) (lanes : BitVec 32) (va : Nat) (marks : List Nat)

theorem State.holdForService_group? {g : Group} (hg : s.group? x.g.uid = some g) :
    (s.holdForService x lanes va marks).group? x.g.uid =
      some (heldBack s x lanes va marks g) := by
  have hu : g.uid = x.g.uid := State.group?_uid hg
  exact State.modGroup_group?_same (f := heldBack s x lanes va marks) hg hu

end

/-- The lanes whose pages firmware is asked to map keep their places, and the group stays. -/
theorem State.settleMeetings_keepsPlace {s : State} {x : Site} {ms : List (Nat × Nat × Met)} {i va e : Nat}
    (hm : (i, va, .service e) ∈ ms) (hi : i < 32) (hone : ∀ va' m, (i, va', m) ∈ ms → va' = va)
    (hg : ∃ g, s.group? x.g.uid = some g) : (s.settleMeetings x ms).keepsPlace x.g.uid i x.pc va := by
  refine foldl_establishes (I := fun s => ∃ g, s.group? x.g.uid = some g)
    (Q := fun s => s.keepsPlace x.g.uid i x.pc va) _ hm (fun s b _ hs => ?_) (fun s b hb hs hq => ?_)
    (fun s hs => ?_) s hg
  · obtain ⟨g, hg⟩ := hs
    obtain ⟨j, va', m⟩ := b
    cases m with
    | service e => exact ⟨_, s.holdForService_group? x _ _ _ hg⟩
    | place p => exact ⟨g, by rw [← hg]; simp only [State.group?, (s.cacheXlat_rest ..).1]⟩
    | fault c => exact ⟨g, hg⟩
  · obtain ⟨g, hg⟩ := hs
    obtain ⟨j, va', m⟩ := b
    cases m with
    | service e =>
      intro g' hg' l' hl'
      obtain rfl := Option.some.inj ((s.holdForService_group? x (BitVec.ofNat 32 (2 ^ j)) va' [] hg).symm.trans hg')
      simp only [heldBack, Group.onLanes_lane, Option.map_eq_some_iff] at hl'
      obtain ⟨l, hl, rfl⟩ := hl'
      split
      next hj =>
        obtain rfl : j = i := by
          rw [ofNat_pow_getLsbD] at hj
          simpa [hi] using hj
        exact ⟨rfl, congrArg some (hone va' _ hb), rfl⟩
      · exact hq g hg l hl
    | place p => exact (s.cacheXlat_brought ..).marks.keepsPlace ⟨g, hg⟩ hq
    | fault c => exact hq
  · obtain ⟨g, hg⟩ := hs
    intro g' hg' l' hl'
    obtain rfl := Option.some.inj ((s.holdForService_group? x (BitVec.ofNat 32 (2 ^ i)) va [] hg).symm.trans hg')
    simp only [heldBack, Group.onLanes_lane, Option.map_eq_some_iff, ofNat_pow_getLsbD, hi, decide_true, Bool.and_self,
    if_true] at hl'
    obtain ⟨l, -, rfl⟩ := hl'
    exact ⟨rfl, rfl, rfl⟩

theorem State.settleMeetings_group? {s : State} {x : Site} (ms : List (Nat × Nat × Met))
    (hg : ∃ g, s.group? x.g.uid = some g) : ∃ g, (s.settleMeetings x ms).group? x.g.uid = some g := by
  induction ms generalizing s with
  | nil => exact hg
  | cons b ms ih =>
    obtain ⟨g, hg⟩ := hg
    obtain ⟨j, va', m⟩ := b
    cases m with
    | service e => exact ih ⟨_, s.holdForService_group? x _ _ _ hg⟩
    | place p => exact ih ⟨g, by rw [← hg]; simp only [State.group?, (s.cacheXlat_rest ..).1]⟩
    | fault c => exact ih ⟨g, hg⟩

/-! ## Loads (R194, R196, R198) -/

section
variable (g : Group) (pc : Addr) (mask : BitVec 32) (m : Bool) (kind : IssueKind) (past : Bool) (stamp : Nat)
  (now : Group)

/-- The books of an issue leave a lane where it stands, and what it repeats for firmware's answer. -/
theorem Group.book_place {k : Nat} {l' : Lane} (h : (g.book pc mask m kind past stamp now).lanes[k]? = some l') :
    ∃ l, now.lanes[k]? = some l ∧ l'.lpc = l.lpc ∧ l'.service = l.service ∧
      (l.service.isSome = true → l'.redo = l.redo) := by
  unfold Group.book at h
  dsimp only at h
  split at h
  · rw [Group.onLanes_lane, Option.map_eq_some_iff] at h
    obtain ⟨l, hl, rfl⟩ := h
    refine ⟨l, hl, ?_⟩
    split
    · exact ⟨rfl, rfl, fun hs => if_pos hs⟩
    · exact ⟨rfl, rfl, fun _ => rfl⟩
  · split at h
    · rw [Group.fair_lanes] at h
      exact ⟨l', h, rfl, rfl, fun _ => rfl⟩
    · rw [Group.onLanes_lane, Group.fair_lanes, Option.map_eq_some_iff] at h
      obtain ⟨l, hl, rfl⟩ := h
      refine ⟨l, hl, ?_⟩
      split <;> exact ⟨rfl, rfl, fun _ => rfl⟩

end

section
variable {s : State} {x : Site} (m : Bool) (k : IssueKind) {e : State → State} {g : Group}
  (h : (e (s.advance x x.mask)).group? x.g.uid = some g)

include h in
theorem State.completed_loading {lane : Option Nat} {first acc va lease after : Nat} {p : Place}
    (hl : (e (s.advance x x.mask)).loading x.g.uid lane first acc va lease after p) :
    (s.completed x m k e).loading x.g.uid lane first acc va lease after p :=
  ⟨fun hp => State.completed_brings m k h (hl.1 hp), fun hp =>
    let ⟨id, ha, hb⟩ := hl.2 hp
    ⟨id, ha, State.completed_brings m k h hb⟩⟩

include h in
theorem State.completed_keepsPlace {i va : Nat} {pc : Addr}
    (hk : (e (s.advance x x.mask)).keepsPlace x.g.uid i pc va) : (s.completed x m k e).keepsPlace x.g.uid i pc va := by
  intro g' hg' l' hl'
  obtain rfl := Option.some.inj ((State.completed_group? m k h).symm.trans hg')
  obtain ⟨l, hl, hpc, hs, hr⟩ := Group.book_place _ _ _ _ _ _ _ _ hl'
  obtain ⟨h1, h2, h3⟩ := hk g h l hl
  exact ⟨hpc.trans h1, hs.trans h2, by rw [hr (by rw [h2]; rfl)]; exact h3⟩

end

/-- LDG's effect: what is met is settled, and the loads from places start. -/
def loadEffect (s0 : State) (x : Site) (d acc n : Nat) (ms : List (Nat × Nat × Met)) (s : State) : State :=
  (placesOf ms).foldl
    (fun s (i, va, p) =>
      match x.g.lane? i with
      | none => s
      | some l =>
        s.startLoad x (some i) (BitVec.ofNat 32 (2 ^ i)) (l.window + d) acc va
          (s0.ownAfter x.g (BitVec.ofNat 32 (2 ^ i)) p.pa n) p)
    (s.settleMeetings x ms)

section
variable {s0 s : State} {x : Site} {d acc n : Nat} {ms : List (Nat × Nat × Met)} (hg : ∃ g, s.group? x.g.uid = some g)

theorem State.startLoads_brought (x : Site) (d acc n : Nat) (s0 : State) (ps : List (Nat × Nat × Place)) (s : State) :
    s.Brought x.g.uid (ps.foldl (fun s (i, va, p) =>
      match x.g.lane? i with
      | none => s
      | some l =>
        s.startLoad x (some i) (BitVec.ofNat 32 (2 ^ i)) (l.window + d) acc va
          (s0.ownAfter x.g (BitVec.ofNat 32 (2 ^ i)) p.pa n) p) s) :=
  .foldl _ (fun s ⟨i, va, p⟩ => by
    dsimp only
    cases x.g.lane? i with
    | none => exact .refl ..
    | some l => exact s.startLoad_brought ..) ps s

include hg in
theorem loadEffect_group? : ∃ g, (loadEffect s0 x d acc n ms s).group? x.g.uid = some g := by
  obtain ⟨g, hg⟩ := State.settleMeetings_group? ms hg
  obtain ⟨g', hg', -⟩ := (State.startLoads_brought x d acc n s0 (placesOf ms) _).marks.own g hg
  exact ⟨g', hg'⟩

include hg in
/-- A lane that meets a place has its load on its way. -/
theorem loadEffect_loading {i va : Nat} {p : Place} {l : Lane} (hm : (i, va, .place p) ∈ ms)
    (hl : x.g.lanes[i]? = some l) :
    (loadEffect s0 x d acc n ms s).loading x.g.uid (some i) (l.window + d) acc va (leaseClass p x.g.leaseovr)
      (s0.ownAfter x.g (BitVec.ofNat 32 (2 ^ i)) p.pa n) p := by
  refine foldl_establishes (I := fun s : State => ∃ g, s.group? x.g.uid = some g)
    (Q := fun t : State => t.loading x.g.uid (some i)
    (l.window + d) acc va (leaseClass p x.g.leaseovr) (s0.ownAfter x.g (BitVec.ofNat 32 (2 ^ i)) p.pa n) p) _
    (mem_placesOf.mpr hm) (fun s b _ hs => ?_) (fun s b _ hs hq => ?_) (fun s hs => ?_) _
    (State.settleMeetings_group? ms hg)
  · obtain ⟨g, hg⟩ := hs
    obtain ⟨g', hg', -⟩ := (State.startLoads_brought x d acc n s0 [b] s).marks.own g hg
    exact ⟨g', hg'⟩
  · exact (State.startLoads_brought x d acc n s0 [b] s).loading hs hq
  · have hi : x.g.lane? i = some l := hl
    simp only [hi]
    exact s.startLoad_loading x (some i) _ _ acc va _ p hs

include hg in
theorem loadEffect_keepsPlace {i va e : Nat} (hm : (i, va, .service e) ∈ ms) (hi : i < 32)
    (hone : ∀ va' m, (i, va', m) ∈ ms → va' = va) : (loadEffect s0 x d acc n ms s).keepsPlace x.g.uid i x.pc va :=
  (State.startLoads_brought x d acc n s0 (placesOf ms) _).marks.keepsPlace (State.settleMeetings_group? ms hg)
    (State.settleMeetings_keepsPlace hm hi hone hg)

end

/-- LDG, where no active lane faults and it is not held back. -/
theorem ldg_issue {s : State} {x : Site} (m : Bool) (acc : BitVec 5) (d a b : BitVec 7) (h : Issuing s x .plain)
    (hc : OperandsPass x ((globalOperands a.toNat b.toNat).add { vs := regsFrom d.toNat (accCount acc.toNat) })
      fun l => globalTags l a.toNat b.toNat)
    (hf : ActiveLanes x fun i l =>
      (s.meetLane x.g i (globalAddr x.g l a.toNat b.toNat) (accBytes acc.toNat) .load).cause = none)
    (hb : (s.keepsBack x.g && anyRemote (placesOf (s.meetings x x.mask (fun l => globalAddr x.g l a.toNat b.toNat)
      (accBytes acc.toNat) .load))) = false) :
    exec (.ldg m acc d a b) s = .next (s.completed x m .plain (loadEffect s x d.toNat acc.toNat (accBytes acc.toNat)
      (s.meetings x x.mask (fun l => globalAddr x.g l a.toNat b.toNat) (accBytes acc.toNat) .load))) :=
  Op.issue_completed _ s x h hc hf rfl hb

/-- LDU's effect at a place. -/
def lduEffect (s0 : State) (x : Site) (d acc va : Nat) (p : Place) (s : State) : State :=
  (s.cacheXlat (s0.coreOf x.g.team) (s0.rootOf x.g.grid) va).startLoad x none x.mask d acc va
    (s0.ownAfter x.g x.mask p.pa (accBytes acc)) p

/-- LDU, where the group's word is at a place and it is not held back. -/
theorem ldu_issue {s : State} {x : Site} (m : Bool) (acc : BitVec 5) (d a b : BitVec 7) (h : Issuing s x .plain)
    (hc : OperandsPass x { us := [a.toNat, b.toNat,
    b.toNat + 1] ++ regsFrom d.toNat (accCount acc.toNat) } fun _ => true)
    {p : Place} (ha : uniformAddr x.g a.toNat b.toNat % accBytes acc.toNat = 0)
    (hp : s.meet x.g.grid (s.coreOf x.g.team) (uniformAddr x.g a.toNat b.toNat) (accBytes acc.toNat) .load = .place p)
    (hb : s.keepsBack x.g = true → p.home = true) :
    exec (.ldu m acc d a b) s = .next (s.completed x m .plain
      (lduEffect s x d.toNat acc.toNat (uniformAddr x.g a.toNat b.toNat) p)) := by
  have hu : s.uniformFault x (uniformAddr x.g a.toNat b.toNat) (accBytes acc.toNat) .load = none := by
    simp only [State.uniformFault, ha, hp]
    rfl
  have hh : (s.keepsBack x.g && (Met.place p).place?.any fun p => !p.home) = false := by
    cases hk : s.keepsBack x.g with
    | false => rfl
    | true => simp [Met.place?, hb hk]
  rw [← hp] at hh
  have hi : exec (.ldu m acc d a b) s = .next _ := Op.issue_completed _ s x h hc (fun _ _ _ _ => hu) rfl hh
  simp only [hp] at hi
  exact hi

/-! ## Accesses to a bank (R197, R290) -/

/-- What reaching a bank leaves: results come, and beside the group nothing changes but the clock's numbers. -/
structure State.Banked (u : Nat) (s t : State) : Prop where
  marks : s.Marks u t
  parts : s.SameParts t
  tick : t.clock.tick = s.clock.tick

theorem State.Banked.refl (u : Nat) (s : State) : s.Banked u s := ⟨.refl u s, .refl s, rfl⟩

theorem State.Banked.trans {u : Nat} {s t v : State} (h : s.Banked u t) (k : t.Banked u v) : s.Banked u v :=
  ⟨h.marks.trans k.marks, h.parts.trans k.parts, k.tick.trans h.tick⟩

theorem State.Banked.foldl {α : Type} {u : Nat} (f : State → α → State) (hf : ∀ (s : State) a, s.Banked u (f s a))
    (xs : List α) (s : State) : s.Banked u (xs.foldl f s) := by
  induction xs generalizing s with
  | nil => exact .refl u s
  | cons a xs ih => exact (hf s a).trans (ih _)

/-- An access on its way to a bank: its registers are marked, and the own core's bank accepts it in this cycle. -/
def State.reaches (t : State) (u : Nat) (lane : Option Nat) (regs : List Nat) (what : Awaited) (own : Bool)
    (tick : Nat) :
    Prop :=
  t.marked u lane regs ∧ ∃ p ∈ t.pend, p.group = u ∧ p.lane = lane ∧ p.regs = regs ∧ p.what = what ∧
    (own = true → p.due = tick)

theorem State.Marks.reaches {u : Nat} {s t : State} (h : s.Marks u t)
    (hg : ∃ g, s.group? u = some g) {lane : Option Nat}
    {regs : List Nat} {what : Awaited} {own : Bool} {tick : Nat} (hr : s.reaches u lane regs what own tick) :
    t.reaches u lane regs what own tick := by
  obtain ⟨g, hg⟩ := hg
  obtain ⟨hm, p, hp, hq⟩ := hr
  exact ⟨h.marked hg hm, p, h.grows p hp, hq⟩

section
variable (s : State) (x : Site) (lane : Option Nat) (lanes : BitVec 32) (own : Bool) (address : Nat) (regs : List Nat)
  (what : Awaited)

theorem State.reachBank_banked : s.Banked x.g.uid (s.reachBank x lane lanes own address regs what) := by
  cases own with
  | true => exact ⟨s.awaitAt_marks .., ⟨rfl, rfl, rfl, rfl, rfl, rfl, rfl, rfl, rfl⟩, rfl⟩
  | false => exact ⟨s.awaitFrom_marks .., ⟨rfl, rfl, rfl, rfl, rfl, rfl, rfl, rfl, rfl⟩, rfl⟩

theorem State.reachBank_reaches (hg : ∃ g, s.group? x.g.uid = some g) :
    (s.reachBank x lane lanes own address regs what).reaches x.g.uid lane regs what own s.clock.tick := by
  obtain ⟨g, hg⟩ := hg
  cases own with
  | true =>
    exact ⟨s.awaitAt_marked _ _ _ _ _ _ hg, _, List.mem_append_right _ (List.mem_singleton.mpr rfl), rfl, rfl, rfl, rfl,
      fun _ => rfl⟩
  | false =>
    obtain ⟨⟨p, hp, h1, h2, h3, h4⟩, hm⟩ := s.awaitFrom_brings ⟨x.pc, lanes,
    address⟩ what.after x.g.uid lane regs what hg
    exact ⟨hm, p, hp, h1, h2, h3, h4, fun h => nomatch h⟩

end

/-- What each lane of a mask sends to a bank. -/
def bankAccess (s0 : State) (x : Site) (addr : Lane → Nat) (n : Nat) (regs : Lane → List Nat)
    (what : Team → Nat → Lane → Awaited) (i : Nat) (l : Lane) (s : State) : State :=
  match s0.team? x.g.team with
  | none => s
  | some t =>
    match s0.scratchPlace x.img t (addr l) n with
    | none => s
    | some (u, off) =>
      s.reachBank x (some i) (BitVec.ofNat 32 (2 ^ i)) (u.uid == t.uid) (addr l) (regs l) (what u off l)

section
variable (s0 : State) (x : Site) (addr : Lane → Nat) (n : Nat) (regs : Lane → List Nat)
    (what : Team → Nat → Lane → Awaited)

theorem bankAccess_banked (i : Nat) (l : Lane) (s : State) :
    s.Banked x.g.uid (bankAccess s0 x addr n regs what i l s) := by
  unfold bankAccess
  split
  · exact .refl ..
  · split
    · exact .refl ..
    · exact s.reachBank_banked ..

theorem forLanes_banked (s : State) : s.Banked x.g.uid (s.forLanes x.g x.mask (bankAccess s0 x addr n regs what)) :=
  .foldl _ (fun s i => by
    cases x.g.lane? i with
    | none => exact .refl ..
    | some l => exact bankAccess_banked ..) _ s

theorem forLanes_reaches {s : State} (hg : ∃ g, s.group? x.g.uid = some g) {i : Nat} {l : Lane}
    (hl : x.g.lanes[i]? = some l) (hm : x.mask.getLsbD i = true) {tm u : Team} {off : Nat}
    (ht : s0.team? x.g.team = some tm) (hp : s0.scratchPlace x.img tm (addr l) n = some (u, off)) :
    (s.forLanes x.g x.mask (bankAccess s0 x addr n regs what)).reaches x.g.uid (some i) (regs l) (what u off l)
      (u.uid == tm.uid) s.clock.tick := by
  have step (s : State) (j : Nat) : s.Banked x.g.uid (match x.g.lane? j with
      | none => s
      | some l => bankAccess s0 x addr n regs what j l s) := by
    cases x.g.lane? j with
    | none => exact .refl ..
    | some l => exact bankAccess_banked ..
  refine foldl_establishes (I := fun t : State => (∃ g, t.group? x.g.uid = some g) ∧ t.clock.tick = s.clock.tick)
    (Q := fun t : State => t.reaches x.g.uid (some i) (regs l) (what u off l) (u.uid == tm.uid) s.clock.tick) _
    (mem_laneList x.mask i hm) (fun t j _ ht => ?_) (fun t j _ ht hq => (step t j).marks.reaches ht.1 hq)
    (fun t ht' => ?_)
    s ⟨hg, rfl⟩
  · obtain ⟨⟨g, hg⟩, htick⟩ := ht
    obtain ⟨g', hg', -⟩ := (step t j).marks.own g hg
    exact ⟨⟨g', hg'⟩, (step t j).tick.trans htick⟩
  · obtain ⟨hg, htick⟩ := ht'
    have hi : x.g.lane? i = some l := hl
    simp only [hi, bankAccess, ht, hp, ← htick]
    exact t.reachBank_reaches x _ _ _ _ _ _ hg

end

/-- LDP, where no active lane faults. -/
theorem ldp_issue {s : State} {x : Site} (m : Bool) (acc : BitVec 5) (d a b : BitVec 7) (h : Issuing s x .plain)
    (hc : OperandsPass x ((scratchOperands a.toNat b.toNat).add { vs := regsFrom d.toNat (accCount acc.toNat) })
      fun l => scratchTags l a.toNat)
    (hf : ActiveLanes x fun _ l =>
      s.scratchFault x (scratchAddr x.g l a.toNat b.toNat) (accBytes acc.toNat) false = none) :
    exec (.ldp m acc d a b) s = .next (s.completed x m .plain fun s' => s'.forLanes x.g x.mask
      (bankAccess s x (fun l => scratchAddr x.g l a.toNat b.toNat) (accBytes acc.toNat)
        (fun l => regsFrom (l.window + d.toNat) (accCount acc.toNat))
        (fun u off l => .bankLoad u.uid off acc.toNat (l.window + d.toNat)))) :=
  Op.issue_completed _ s x h hc hf rfl rfl

end Sys2Proof.Machine

namespace Sys2Proof
open Machine

/-- Settles O18: each load's start brings its result, and neither the other lanes' starts nor the books of the issue
take
it back. -/
theorem loadsAreOnTheirWay : Obligations.LoadsAreOnTheirWay := by
  unfold Obligations.LoadsAreOnTheirWay
  intro s x m acc d a b h n count asked
  obtain ⟨g0, hg0, -, -⟩ := State.site?_group h.site
  rw [← State.site?_uid h.site] at hg0
  have hadv : ∃ g, (s.advance x x.mask).group? x.g.uid = some g := ⟨_, State.advance_group? hg0 x.mask⟩
  refine ⟨?_, ?_, ?_⟩
  · intro hc va meets hf hb
    have hhold : (s.keepsBack x.g && anyRemote (placesOf (s.meetings x x.mask va n .load))) = false := by
      cases hk : s.keepsBack x.g with
      | false => rfl
      | true =>
        rw [Bool.true_and, anyRemote, List.any_eq_false]
        rintro ⟨i, va', p⟩ hmem
        obtain ⟨l, hl, hm, -, hp⟩ := State.mem_meetings.mp (mem_placesOf.mp hmem)
        simp [hb hk i l hl hm p hp.symm]
    have hi := ldg_issue m acc d a b h hc hf hhold
    obtain ⟨hcells, hupdates, -⟩ := coreInstructionsLeaveMemory (.ldg m acc d a b) s _ (by rfl) hi
    obtain ⟨g, hg⟩ := loadEffect_group? (s0 := s) (d := d.toNat) (acc := acc.toNat) (n := n)
      (ms := s.meetings x x.mask va n .load) hadv
    refine ⟨_, _, hi, hcells rfl, hupdates rfl, State.completed_group? m .plain hg, fun i l hl hm => ?_⟩
    have met {t : Met} (ht : meets i l = t) : (i, va l, t) ∈ s.meetings x x.mask va n .load :=
      State.mem_meetings.mpr ⟨l, hl, hm, rfl, ht.symm⟩
    refine ⟨fun p hp => ?_, fun p hp => ?_, fun e l' he hl' => ?_⟩
    · exact (State.completed_loading m .plain hg (loadEffect_loading hadv (met hp) hl)).1
    · exact (State.completed_loading m .plain hg (loadEffect_loading hadv (met hp) hl)).2
    · have hi32 : i < 32 := Nat.lt_of_not_le fun hn => by simp [BitVec.getLsbD_of_ge _ _ hn] at hm
      refine State.completed_keepsPlace m .plain hg (loadEffect_keepsPlace hadv (met he) hi32 fun va' t ht => ?_) _
        (State.completed_group? m .plain hg) l' hl'
      obtain ⟨l2, hl2, -, rfl, -⟩ := State.mem_meetings.mp ht
      rw [Option.some.inj (hl2.symm.trans hl)]
  · intro hc va p ha hp hb
    have hi := ldu_issue m acc d a b h hc ha hp hb
    have cached := (s.advance x x.mask).cacheXlat_brought x.g.uid (s.coreOf x.g.team) (s.rootOf x.g.grid) va
    obtain ⟨g1, hg1⟩ := hadv
    obtain ⟨g2, hg2, -⟩ := cached.marks.own g1 hg1
    obtain ⟨g, hg, -⟩ := (State.startLoad_brought _ x none x.mask d.toNat acc.toNat va
      (s.ownAfter x.g x.mask p.pa n) p).marks.own g2 hg2
    have hl := State.completed_loading (e := lduEffect s x d.toNat acc.toNat va p) m .plain hg
      (State.startLoad_loading _ x none x.mask d.toNat acc.toNat va (s.ownAfter x.g x.mask p.pa n) p ⟨g2, hg2⟩)
    exact ⟨_, hi, hl.1, hl.2⟩
  · intro hc address hf
    have hi := ldp_issue m acc d a b h hc hf
    have hb := forLanes_banked s x address n (fun l => regsFrom (l.window + d.toNat) count)
      (fun u off l => .bankLoad u.uid off acc.toNat (l.window + d.toNat)) (s.advance x x.mask)
    obtain ⟨g1, hg1⟩ := hadv
    obtain ⟨g, hg, -⟩ := hb.marks.own g1 hg1
    refine ⟨_, hi, hb.parts.mem, hb.parts.teams, fun i l hl hm tm u off ht hp => ?_⟩
    obtain ⟨hmark, p, hpend, h1, h2, h3, h4, h5⟩ := forLanes_reaches s x address n
      (fun l => regsFrom (l.window + d.toNat) count) (fun u off l => .bankLoad u.uid off acc.toNat (l.window + d.toNat))
      ⟨g1, hg1⟩ hl hm ht hp
    refine ⟨?_, p, hpend, h1, h2, h3, h4, fun hu => h5 (beq_iff_eq.mpr hu)⟩
    exact (State.completed_brings (what := p.what) m .plain hg ⟨⟨p, hpend, h1, h2, h3, rfl⟩, hmark⟩).2

end Sys2Proof
end

section
/-!
PROOFS. TASK and TSTAT: where a record goes by the room that its push finds (R58 to R61, R224, R226).
-/

-- One proof after another: each that waits beside others holds a stack of its own.
set_option Elab.async false

namespace Sys2Proof.Machine

/-! ## TASK and TSTAT (R58 to R61, R224, R226) -/

section
variable (g : Group) (pc : Addr) (mask : BitVec 32) (m : Bool) (kind : IssueKind) (past : Bool) (stamp : Nat)
  (now : Group)

/-- The books of an issue leave a held push and what a speculative group holds. -/
theorem Group.book_push : (g.book pc mask m kind past stamp now).push = now.push ∧
    (g.book pc mask m kind past stamp now).spec = now.spec := by
  have fair (now : Group) : (g.fair pc kind now).push = now.push ∧ (g.fair pc kind now).spec = now.spec := by
    unfold Group.fair
    (repeat' split) <;> exact ⟨rfl, rfl⟩
  unfold Group.book
  dsimp only
  split
  · exact ⟨rfl, rfl⟩
  · split <;> exact fair _

end

/-- The issue of an operation that every active lane passes and that is held (R193). -/
theorem Op.issue_heldBack (o : Op) {s : State} {x : Site} (h : Issuing s x o.kind)
    (hc : ActiveLanes x fun i l => o.check x i l = none) (hf : ActiveLanes x fun i l => o.fault x i l = none)
    (hh : o.hold x x.mask = true) :
    o.issue s = .next (o.onHold x x.mask (s.modGroup x.g.uid fun g => { g with blocked := true })) := by
  have h0 : o.bad s x = 0 := faultMask_zero x _ (o.faultOf_none s.fw.spdistCap x h.allowed h.near hc hf)
  have hgood : o.good s x = x.mask := by
    rw [Op.good, h0]
    exact BitVec.and_allOnes
  have hheld : o.isHeld s x = true := by
    rw [Op.isHeld, hgood, hh, bne_iff_ne.mpr h.active]
    exact Bool.or_true _
  rw [o.issue_held_eq h.site hheld, hgood]

/-- The status that a TASK leaves in S[d]. -/
def Group.pushed (g : Group) (d n : Nat) : Group := { g.setU d (BitVec.ofNat 32 n) with push := none }

/-- TASK's effect: where the record goes, and the status. -/
def taskEffect (s0 : State) (x : Site) (d a : Nat) (s : State) : State :=
  let t := pushedTask x.g a
  let status (n : Nat) (s : State) : State := s.modGroup x.g.uid fun g => g.pushed d n
  if s0.tooDeep x.g then status 1 s
  else if x.g.speculative then
    status 0 (s.modGroup x.g.uid fun g => { g with spec := g.spec.map fun sp => { sp with held := sp.held ++ [t] } })
  else
    match s0.pushRoom x.g with
    | .pool => status 0 (s.enterPool .pool t)
    | .ring => status 0 (s.enterPool .ring t)
    | .full => status 2 s
    | .unmapped => status (x.g.push.join.getD 3) s

section
variable {s0 : State} {x : Site} {d a : Nat}

theorem taskEffect_of_tooDeep (h : s0.tooDeep x.g = true) :
    taskEffect s0 x d a = fun s => s.modGroup x.g.uid fun g => g.pushed d 1 :=
  funext fun _ => if_pos h

variable (h : s0.tooDeep x.g = false)

include h in
theorem taskEffect_of_speculative (hs : x.g.speculative = true) :
    taskEffect s0 x d a = fun s => (s.modGroup x.g.uid fun g =>
      { g with spec := g.spec.map fun sp => { sp with held := sp.held ++ [pushedTask x.g a] } }).modGroup x.g.uid
        fun g => g.pushed d 0 := by
  funext s
  simp only [taskEffect, h, hs, Bool.false_eq_true, if_false, if_true]

variable (hs : x.g.speculative = false)

include h hs in
theorem taskEffect_of_entering {room : Room} (hr : s0.pushRoom x.g = room) (he : room = .pool ∨ room = .ring) :
    taskEffect s0 x d a =
      fun s => (s.enterPool room (pushedTask x.g a)).modGroup x.g.uid fun g => g.pushed d 0 := by
  funext s
  rcases he with rfl | rfl <;> simp only [taskEffect, h, hs, hr, Bool.false_eq_true, if_false]

include h hs in
theorem taskEffect_of_full (hr : s0.pushRoom x.g = .full) :
    taskEffect s0 x d a = fun s => s.modGroup x.g.uid fun g => g.pushed d 2 := by
  funext s
  simp only [taskEffect, h, hs, hr, Bool.false_eq_true, if_false]

include h hs in
theorem taskEffect_of_unmapped (hr : s0.pushRoom x.g = .unmapped) :
    taskEffect s0 x d a = fun s => s.modGroup x.g.uid fun g => g.pushed d (x.g.push.join.getD 3) := by
  funext s
  simp only [taskEffect, h, hs, hr, Bool.false_eq_true, if_false]

end

/-- The push waits for a page of its ring. -/
def taskWaits (s : State) (x : Site) : Bool :=
  !s.tooDeep x.g && !x.g.speculative && s.pushRoom x.g == .unmapped && x.g.push.join.isNone

section
variable {s : State} {x : Site} {gr : Grid} (m : Bool) (d a : BitVec 7) (h : Issuing s x .plain)
  (hc : OperandsPass x { us := d.toNat :: regsFrom a.toNat 16 } fun _ => true) (hgr : s.grid? x.g.grid = some gr)
  (hr : s.recordBad gr (x.g.words16 a.toNat) = false)

include hr in
/-- A good record is no illegal operand. -/
theorem record_passes (l : Lane) (rest : Option Cause) :
    blockFault x l a.toNat (s.recordRules gr (x.g.words16 a.toNat)) rest = rest := by
  refine if_neg fun hbad => ?_
  obtain ⟨⟨us, bad⟩, hmem, hb⟩ := List.any_eq_true.mp hbad
  obtain ⟨⟨ws, bad'⟩, hin, he⟩ := List.mem_map.mp hmem
  cases he
  have := List.any_eq_false.mp hr _ hin
  simp_all

include hc hgr hr in
theorem task_check : ActiveLanes x fun _ l => blockFault x l a.toNat
    (((s.grid? x.g.grid).map fun gr => s.recordRules gr (x.g.words16 a.toNat)).getD [])
    (operandFault x l { us := d.toNat :: regsFrom a.toNat 16 } true) = none := by
  intro i l hl hm
  rw [hgr]
  exact (record_passes a hr l _).trans (hc i l hl hm)

include h hc hgr hr in
theorem task_issue (hu : s.undecided x.g = false) (hw : taskWaits s x = false)
    (hs : x.g.speculative = true → s.tooDeep x.g = false → (x.g.spec.map (·.held.length)).getD 0 < 16) :
    exec (.task m d a) s = .next (s.completed x m .plain (taskEffect s x d.toNat a.toNat)) := by
  refine Op.issue_completed _ s x h (task_check d a hc hgr hr) (fun _ _ _ _ => rfl) rfl ?_
  have hfull : (x.g.speculative && !s.tooDeep x.g && decide (16 ≤ (x.g.spec.map (·.held.length)).getD 0)) = false := by
    cases hsp : x.g.speculative with
    | false => rfl
    | true =>
      cases hd : s.tooDeep x.g with
      | true => rfl
      | false => simpa using hs hsp hd
  have hall : (taskWaits s x || s.undecided x.g ||
      (x.g.speculative && !s.tooDeep x.g && decide (16 ≤ (x.g.spec.map (·.held.length)).getD 0))) = false := by
    rw [hw, hu, hfull]
    rfl
  exact hall

include h hc hgr hr in
/-- A push that waits for a page of its ring is held. -/
theorem task_pushWaits (hw : taskWaits s x = true) :
    exec (.task m d a) s = .next (((s.modGroup x.g.uid fun g => { g with blocked := true }).modGrid x.g.grid fun gr =>
      { gr with ringWait := true }).modGroup x.g.uid fun g => { g with push := some none }) := by
  have hheld : (taskWaits s x || s.undecided x.g ||
      (x.g.speculative && !s.tooDeep x.g && decide (16 ≤ (x.g.spec.map (·.held.length)).getD 0))) = true := by
    rw [hw]
    rfl
  have hi : exec (.task m d a) s = .next (if taskWaits s x then _ else _) :=
    Op.issue_heldBack _ h (task_check d a hc hgr hr) (fun _ _ _ _ => rfl) hheld
  rw [if_pos hw] at hi
  exact hi

end

theorem State.pushRoom_eq {s : State} {g : Group} {gr : Grid} (hgr : s.grid? g.grid = some gr) :
    s.pushRoom g = s.roomFor gr := by
  rw [State.pushRoom, hgr]
  rfl

theorem find?_changed {α : Type} {key : α → Nat} {xs : List α} {u : Nat} {f : α → α} {a : α}
    (h : xs.find? (fun b => key b == u) = some a) (hf : key (f a) = u) :
    (xs.map fun b => if key b = u then f b else b).find? (fun b => key b == u) = some (f a) := by
  induction xs with
  | nil => cases h
  | cons b xs ih =>
    rw [List.map_cons]
    by_cases hb : key b = u
    · rw [List.find?_cons_of_pos (by simpa using hb)] at h
      obtain rfl : b = a := Option.some.inj h
      rw [if_pos hb, List.find?_cons_of_pos (by simpa using hf)]
    · rw [List.find?_cons_of_neg (by simpa using hb)] at h
      rw [if_neg hb, List.find?_cons_of_neg (by simpa using hb)]
      exact ih h

/-- A grid that is changed is found changed. -/
theorem State.modGrid_grid?_same {s : State} {u : Nat} {f : Grid → Grid} {gr : Grid} (h : s.grid? u = some gr)
    (hf : (f gr).uid = u) : (s.modGrid u f).grid? u = some (f gr) := find?_changed h hf

@[simp] theorem Group.seen_spec (g : Group) : g.seen.spec = g.spec := by
  unfold Group.seen
  split <;> rfl

/-- What TASK answers once its record has gone where it goes. -/
theorem task_answers {s : State} {x : Site} (m : Bool) {d n : Nat} {f : State → State} {g1 : Group}
    (hg : (f (s.advance x x.mask)).group? x.g.uid = some g1) :
    ∃ g, (s.completed x m .plain fun s => (f s).modGroup x.g.uid fun g => g.pushed d n).group? x.g.uid = some g ∧
      g.u d = BitVec.ofNat 32 n ∧ g.push = none ∧ g.spec = g1.spec := by
  have hu : g1.uid = x.g.uid := State.group?_uid hg
  have h := State.completed_group? (s := s) (x := x)
    (e := fun s => (f s).modGroup x.g.uid fun g => g.pushed d n) m .plain
    (State.modGroup_group?_same (f := fun g => g.pushed d n) hg hu)
  refine ⟨_, h, ?_, (Group.book_push ..).1, (Group.book_push ..).2⟩
  rw [Group.u, Group.book_uregs]
  exact tget_tput_same ..

theorem le_foldl_max {xs : List Nat} {n k : Nat} (h : n ∈ xs ∨ n ≤ k) : n ≤ xs.foldl max k := by
  induction xs generalizing k with
  | nil => exact h.resolve_left List.not_mem_nil
  | cons y xs ih =>
    refine ih ?_
    rcases h with h | h
    · rcases List.mem_cons.mp h with rfl | h
      · exact .inr (Nat.le_max_right ..)
      · exact .inl h
    · exact .inr (h.trans (Nat.le_max_left ..))

/-- The greatest LWCT of some lanes is no less than that of each. -/
theorem Group.le_maxLwct {g : Group} {mask : BitVec 32} {i : Nat} {l : Lane} (hl : g.lanes[i]? = some l)
    (hm : mask.getLsbD i = true) : l.lwct ≤ g.maxLwct mask := by
  refine le_foldl_max (.inl (List.mem_iff_getElem?.mpr ⟨i, ?_⟩))
  rw [mapFrom_getElem?, hl, Option.map_some, Nat.zero_add, if_pos hm]

/-- A record's visibility time covers the writes of every lane not in DONE (R61). -/
theorem Group.le_visTime {g : Group} {i : Nat} {l : Lane} (hi : i < 32) (hl : g.lanes[i]? = some l)
    (hd : l.isDone = false) : l.lwct ≤ g.visTime :=
  Group.le_maxLwct hl (by rw [Group.maskOf_getLsbD, hl]; simp [hi, hd])

/-- TSTAT of the depth: the group's in the low bits, the limit above. -/
theorem depthWord_fields {depth limit : Nat} (hd : depth < 16) :
    (BitVec.ofNat 32 (depth + 16 * limit)).extractLsb' 0 4 = BitVec.ofNat 4 depth ∧
      (BitVec.ofNat 32 (depth + 16 * limit)).extractLsb' 4 4 = BitVec.ofNat 4 limit := by
  constructor <;> apply BitVec.eq_of_toNat_eq <;>
    simp only [BitVec.extractLsb'_toNat, BitVec.toNat_ofNat, Nat.shiftRight_eq_div_pow] <;> omega

end Sys2Proof.Machine

namespace Sys2Proof
open Machine

/-- Settles O24: TASK's effect sends the record by the room it finds, and its status is in S[d] when the books are
kept. -/
theorem taskPushesAndStatus : Obligations.TaskPushesAndStatus := by
  unfold Obligations.TaskPushesAndStatus
  refine ⟨?_, ?_⟩
  · intro s x gr m d a h hc hgr hr hu answers rec_
    obtain ⟨g0, hg0, hseen, -⟩ := State.site?_group h.site
    rw [← State.site?_uid h.site] at hg0
    have hadv := State.advance_group? hg0 x.mask
    have answered {n : Nat} {f : State → State} {g1 : Machine.Group} {also : State → Machine.Group → Prop}
        (hx : exec (.task m d a) s =
          .next (s.completed x m .plain fun s => (f s).modGroup x.g.uid fun g => g.pushed d.toNat n))
        (hmem : (f (s.advance x x.mask)).mem = s.mem) (hg : (f (s.advance x x.mask)).group? x.g.uid = some g1)
        (ha : ∀ g, g.push = none → g.spec = g1.spec →
          also (s.completed x m .plain fun s => (f s).modGroup x.g.uid fun g => g.pushed d.toNat n) g) :
        answers (BitVec.ofNat 32 n) also := by
      obtain ⟨g, hg', hd, hp, hs⟩ := task_answers m (d := d.toNat) (n := n) hg
      exact ⟨_, g, hx, hmem, hg', hd, ha g hp hs⟩
    have issued (hw : taskWaits s x = false) (hs : x.g.speculative = true → s.tooDeep x.g = false →
        (x.g.spec.map (·.held.length)).getD 0 < 16) := task_issue m d a h hc hgr hr hu hw hs
    refine ⟨fun hdeep => ?_, fun hdeep hspec => ?_, ?_, rfl, fun i l hi hl hd => Group.le_visTime hi hl hd⟩
    · have hx := issued (by simp [taskWaits, hdeep]) fun _ h => absurd (h.symm.trans hdeep) Bool.false_ne_true
      rw [taskEffect_of_tooDeep hdeep] at hx
      exact answered (f := id) hx rfl hadv fun _ _ _ => ⟨rfl, rfl⟩
    · have hroom : s.pushRoom x.g = s.roomFor gr := State.pushRoom_eq hgr
      have waits : taskWaits s x = (s.roomFor gr == .unmapped && x.g.push.join.isNone) := by
        simp [taskWaits, hdeep, hspec, hroom]
      have hx := fun hw => issued (waits.trans hw) fun h => absurd (h.symm.trans hspec) (by decide)
      have notPool (hp : 65536 ≤ s.pool.length) : ¬ s.pool.length < Config.poolRecords := Nat.not_lt.mpr hp
      refine ⟨fun hp => ?_, fun hp hcap hmap => ?_, fun hp hcap => ?_, fun hp hcap hmap => ?_⟩
      · have room : s.roomFor gr = .pool := if_pos hp
        have hx := hx (by rw [room]; rfl)
        rw [taskEffect_of_entering hdeep hspec (hroom.trans room) (.inl rfl)] at hx
        exact answered (f := fun s => s.enterPool .pool (pushedTask x.g a.toNat)) hx rfl hadv fun _ _ _ => ⟨_, rfl⟩
      · have room : s.roomFor gr = .ring := by
          rw [State.roomFor, if_neg (notPool hp), if_neg (Nat.not_le.mpr hcap), if_pos hmap]
        have hx := hx (by rw [room]; rfl)
        rw [taskEffect_of_entering hdeep hspec (hroom.trans room) (.inr rfl)] at hx
        have hgrid : (s.advance x x.mask).newUid.2.grid? x.g.grid = some gr := hgr
        have hu : gr.uid = x.g.grid := by simpa using List.find?_some hgr
        exact answered (f := fun s => s.enterPool .ring (pushedTask x.g a.toNat)) hx rfl hadv
          fun _ _ _ => ⟨rfl, _, _, State.modGrid_grid?_same hgrid hu, rfl⟩
      · have room : s.roomFor gr = .full := by
          rw [State.roomFor, if_neg (notPool hp), if_pos hcap]
        have hx := hx (by rw [room]; rfl)
        rw [taskEffect_of_full hdeep hspec (hroom.trans room)] at hx
        exact answered (f := id) hx rfl hadv fun _ _ _ => ⟨rfl, rfl⟩
      · have room : s.roomFor gr = .unmapped := by
          rw [State.roomFor, if_neg (notPool hp), if_neg (Nat.not_le.mpr hcap), if_neg (Nat.not_lt.mpr hmap)]
        refine ⟨fun hj => ?_, fun n hn => ?_⟩
        · have huid : g0.uid = x.g.uid := State.group?_uid hg0
          have hblocked : (s.modGroup x.g.uid fun g => { g with blocked := true }).group? x.g.uid =
            some { g0 with blocked := true } := State.modGroup_group?_same hg0 huid
          have hasked : ((s.modGroup x.g.uid fun g => { g with blocked := true }).modGrid x.g.grid fun gr =>
            { gr with ringWait := true }).group? x.g.uid = some { g0 with blocked := true } := hblocked
          refine ⟨_, _, task_pushWaits m d a h hc hgr hr (waits.trans (by rw [room, hj]; rfl)),
            State.modGroup_group?_same (f := fun g => { g with push := some none }) hasked huid, rfl, ?_,
              fun g hg => ?_, rfl⟩
          · rw [hseen, Group.seen_lanes]
          · rw [Option.some.inj (hg0.symm.trans hg)]
        · have hj : x.g.push.join = some n := by rw [hn]; rfl
          have hx := hx (by rw [room, hj]; rfl)
          rw [taskEffect_of_unmapped hdeep hspec (hroom.trans room), hj] at hx
          exact answered (f := id) hx rfl hadv fun _ hp _ => ⟨rfl, hp⟩
    · intro hdeep hspec sp hsp hheld
      have hx := issued (by simp [taskWaits, hspec]) fun _ _ => by rw [hsp]; exact hheld
      rw [taskEffect_of_speculative hdeep hspec] at hx
      have huid : g0.uid = x.g.uid := State.group?_uid hg0
      have hg1 := State.modGroup_group?_same
        (f := fun g => { g with spec := g.spec.map fun sp => { sp with held := sp.held ++ [pushedTask x.g a.toNat] } })
        hadv huid
      have hs0 : g0.spec = some sp := by rw [← hsp, hseen, Group.seen_spec]
      exact answered hx rfl hg1 fun g _ hs => ⟨rfl, _, hs.trans (congrArg (Option.map _) hs0), rfl⟩
  · intro s x gr m d h hc hgr
    have read (k : BitVec 7) (w : Nat) (hk : (match k.toNat with
        | 0 => s.pool.length
        | 1 => ((s.grid? x.g.grid).map (·.ring.length)).getD 0
        | 2 => ((s.grid? x.g.grid).map (·.launch.ringCap)).getD 0
        | _ => x.g.depth + 16 * ((s.grid? x.g.grid).map s.depthLimit).getD 0) = w) :
        exec (.tstat m d k) s = s.writesUniform x m d fun _ => BitVec.ofNat 32 w := by
      subst hk
      exact groupOp_issue s x m [d.toNat] _ h hc
    refine ⟨read 0 _ rfl, read 1 _ ?_, read 2 _ ?_, fun hd _ => ⟨_, read 3 _ ?_, depthWord_fields hd⟩⟩
    · rw [hgr]
      rfl
    · rw [hgr]
      rfl
    · rw [hgr]
      rfl

end Sys2Proof
end

section
/-!
PROOFS. Adding to a successor block's count: earlier loads come first, both words take one WCT, and the companion is
released as the count comes to 0 (R63, R64, R225).
-/

-- One proof after another: each that waits beside others holds a stack of its own.
set_option Elab.async false

namespace Sys2Proof.Machine

/-! ## Loads performed earlier, and counts (R63, R64, R225, R282) -/

/-- What performing accesses changes: memory, what the cores' L1s hold and what is on its way. -/
def State.Performs (s t : State) : Prop := t = { s with mem := t.mem, cores := t.cores, pend := t.pend }

theorem State.Performs.trans {s t u : State} (h : s.Performs t) (k : t.Performs u) : s.Performs u := by
  unfold State.Performs at h k ⊢
  rw [k, h]

theorem State.performEarlier_performs (s : State) (group : Nat) (who : Option Nat → Bool) (pa n : Nat) :
    s.Performs (s.performEarlier group who pa n).2 := by
  refine foldl_rel State.Performs (fun _ => rfl) State.Performs.trans Prod.snd _ (fun b p => ?_) _ (0, s)
  dsimp only
  split
  · split
    · split <;> rfl
    · rfl
  · rfl

theorem State.reachHome_performs (s : State) (p : Place) (write : Bool) (n : Nat) :
    s.Performs (s.reachHome p write n) := by
  unfold State.reachHome State.atHome
  split <;> rfl

theorem State.cacheXlat_performs (s : State) (core root va : Nat) : s.Performs (s.cacheXlat core root va) := by
  obtain ⟨mem, h⟩ := s.cacheXlat_memory core root va
  rw [h]
  rfl

/-- A group that is changed is found changed, and no other group comes to be found. -/
theorem State.modGroup_group?_map {s : State} {u : Nat} {f : Group → Group} (hf : ∀ g, (f g).uid = g.uid) :
    (s.modGroup u f).group? u = (s.group? u).map f := by
  cases h : s.group? u with
  | some g => exact State.modGroup_group?_same h ((hf g).trans (State.group?_uid h))
  | none =>
    refine List.find?_eq_none.mpr fun g hg => ?_
    obtain ⟨g', hg', rfl⟩ := List.mem_map.mp hg
    have hn := List.find?_eq_none.mp h g' hg'
    split
    · rwa [hf]
    · exact hn

/-- The count's two words after an update of both (R63). -/
theorem Memory.receiveCount_parts (mem : Memory) (pa new : Nat) (writer : Writer) (source arrival : Nat) :
    arrival < (mem.receiveCount pa new writer source arrival).2 ∧
    ∀ k < 2, ∃ u ∈ (mem.receiveCount pa new writer source arrival).1.updates,
      u.word = pa + 4 * k ∧ u.wct = (mem.receiveCount pa new writer source arrival).2 ∧
        u.bytes = mapFrom (fun i b => (i, b)) 0 (natLe 4 (new / 2 ^ (32 * k))) := by
  have later : arrival < (mem.reclaim pa 8).wctFor pa writer source true arrival :=
    Nat.lt_succ_of_le (Nat.le_max_left ..)
  have kept (m : Memory) (t : Nat) : (m.rewrites t pa 8).updates = m.updates := by
    unfold Memory.rewrites
    split <;> rfl
  refine ⟨later.trans_le (Nat.le_max_left ..), fun k hk => ?_⟩
  unfold Memory.receiveCount
  simp only [kept]
  obtain rfl | rfl : k = 0 ∨ k = 1 := by omega
  · exact ⟨_, List.mem_append_right _ (List.mem_cons_self ..), rfl, rfl, rfl⟩
  · exact ⟨_, List.mem_append_right _ (List.mem_cons_of_mem _ (List.mem_cons_self ..)), rfl, rfl, rfl⟩

/-- A count as the received updates leave it does not depend on what memory holds besides. -/
theorem Memory.count_congr {m n : Memory} (hc : n.cells = m.cells) (hu : n.updates = m.updates) (pa : Nat) :
    n.count pa = m.count pa := by
  simp only [Memory.count, Memory.latest, hc, hu]

theorem State.event_eq (s : State) (kind addr : Nat) (payload : List Byte) :
    ∃ msg, s.event kind addr payload = { s with outbox := s.outbox ++ [msg], seqOut := (s.seqOut + 1) % 2 ^ 32 } ∧
      msg.mtype = mtEvent ∧ msg.status = kind ∧ msg.addr = addr := ⟨_, rfl, rfl, rfl, rfl⟩

/-! ### The release of a companion -/

section
variable {s : State} {r : Releaser} {va pa wct : Nat} {gr : Grid} (hgr : s.grid? r.grid = some gr)

include hgr in
theorem State.releaseCompanion_none (he : (recordOf (wordsOf (s.mem.bytesAt wct (pa + 64) 64))).entry = 0) :
    s.releaseCompanion r va pa wct = s := by
  simp only [State.releaseCompanion, hgr]
  exact if_pos he

include hgr in
theorem State.releaseCompanion_pushed (he : (recordOf (wordsOf (s.mem.bytesAt wct (pa + 64) 64))).entry ≠ 0)
    (hb : s.recordBad gr (wordsOf (s.mem.bytesAt wct (pa + 64) 64)) = false)
    (hd : (recordOf (wordsOf (s.mem.bytesAt wct (pa + 64) 64))).depth ≤ s.depthLimit gr) (hp : s.pool.length < 65536) :
    s.releaseCompanion r va pa wct =
      s.enterPool .pool { recordOf (wordsOf (s.mem.bytesAt wct (pa + 64) 64)) with grid := r.grid, vis := wct } := by
  have room : s.roomFor gr = .pool := if_pos hp
  simp only [State.releaseCompanion, hgr]
  rw [if_neg he, if_neg (by simpa [hb] using hd), State.keepTask]
  simp only [hgr, room]

end

/-- What adding to a count does: the old count, one update of both words past the arrival, the report of an underflow
and
the release of the companion. -/
structure State.CountAdded (s : State) (r : Releaser) (va pa old : Nat) (sum : Int) (arrival : Nat) (t : State)
    (wct : Nat) :
    Prop where
  later : arrival < wct
  parts : ∀ k < 2, ∃ u ∈ t.mem.updates, u.word = pa + 4 * k ∧ u.wct = wct ∧
    (sum < 2 ^ 64 → u.bytes = mapFrom (fun i b => (i, b)) 0
      (natLe 4 (sum.toNat / 2 ^ (32 * k))))
  quiet : old = 0 ∨ sum ≠ 0 → t.pool = s.pool
  silent : 0 ≤ sum → old = 0 ∨ sum ≠ 0 →
    t.outbox = s.outbox
  underflow : sum < 0 → ∃ msg, t.outbox = s.outbox ++ [msg] ∧ msg.mtype = mtEvent ∧
    msg.status = 1 ∧ msg.addr = va
  companion : old ≠ 0 → sum = 0 → ∀ gr, s.grid? r.grid = some gr →
    s.pool.length < 65536 →
    let ws := wordsOf (t.mem.bytesAt wct (pa + 64) 64)
    let c := recordOf ws
    (c.entry ≠ 0 → s.recordBad gr ws = false → c.depth ≤ s.depthLimit gr → ∃ n,
      t.pool = s.pool ++ [{ c with grid := r.grid, vis := wct, uid := n, since := s.gtime, order := n }]) ∧
    (c.entry = 0 → t.pool = s.pool)

/-- The count that a sum leaves. -/
def newCount (sum : Int) (fresh : Nat) : Nat :=
  if sum < 0 then 0 else if 2 ^ 64 ≤ sum then (Config.freeDWord fresh).toNat else sum.toNat

theorem newCount_of_lt {sum : Int} (h : sum < 2 ^ 64) (fresh : Nat) : newCount sum fresh = sum.toNat := by
  unfold newCount
  split
  next hn => exact (Int.toNat_of_nonpos (Int.le_of_lt hn)).symm
  · exact if_neg (Int.not_le.mpr h)

/-- The state in which a count has its new value. -/
def State.counted (s : State) (r : Releaser) (pa : Nat) (sum : Int) (writer : Writer) (arrival : Nat) : State × Nat :=
  let received := s.mem.receiveCount pa (newCount sum s.newFresh.1) writer r.group arrival
  ({ s.newFresh.2 with mem := received.1 }, received.2)

/-- Likewise, with an underflow reported. -/
def State.countReported (s : State) (r : Releaser) (va pa : Nat) (sum : Int) (writer : Writer) (arrival : Nat) :
    State :=
  let t := (s.counted r pa sum writer arrival).1
  if sum < 0 then t.event 1 va [] else t

theorem State.addCount_eq (s : State) (r : Releaser) (va pa : Nat) (addend : Int) (writer : Writer) (arrival : Nat) :
    s.addCount r va pa addend writer arrival =
      (let sum := (s.mem.count pa : Int) + addend
       let t := s.countReported r va pa sum writer arrival
       let wct := (s.counted r pa sum writer arrival).2
       (if s.mem.count pa ≠ 0 ∧ sum = 0 then t.releaseCompanion r va pa wct else t, s.mem.count pa, wct)) := rfl

theorem State.countReported_pool (s : State) (r : Releaser) (va pa : Nat) (sum : Int) (writer : Writer)
    (arrival : Nat) :
    (s.countReported r va pa sum writer arrival).mem = (s.counted r pa sum writer arrival).1.mem ∧
      (s.countReported r va pa sum writer arrival).pool = s.pool := by
  unfold State.countReported
  dsimp only
  split <;> exact ⟨rfl, rfl⟩

theorem State.addCount_added (s : State) (r : Releaser) (va pa : Nat) (addend : Int) (writer : Writer) (arrival : Nat) :
    (s.addCount r va pa addend writer arrival).2.1 = s.mem.count pa ∧
      s.CountAdded r va pa (s.mem.count pa) (s.mem.count pa + addend) arrival
        (s.addCount r va pa addend writer arrival).1 (s.addCount r va pa addend writer arrival).2.2 := by
  rw [State.addCount_eq]
  refine ⟨rfl, ?_⟩
  dsimp only
  generalize (s.mem.count pa : Int) + addend = sum
  generalize s.mem.count pa = old
  obtain ⟨hlater, hparts⟩ := s.mem.receiveCount_parts pa (newCount sum s.newFresh.1) writer r.group arrival
  obtain ⟨hmem, hpool⟩ := s.countReported_pool r va pa sum writer arrival
  have mem : (if old ≠ 0 ∧ sum = 0 then (s.countReported r va pa sum writer arrival).releaseCompanion r va pa
      (s.counted r pa sum writer arrival).2 else s.countReported r va pa sum writer arrival).mem =
      (s.counted r pa sum writer arrival).1.mem := by
    split
    · exact (State.releaseCompanion_held ..).1.trans hmem
    · exact hmem
  have notReleased (h : old = 0 ∨ sum ≠ 0) : ¬ (old ≠ 0 ∧ sum = 0) := fun k => h.elim k.1 (· k.2)
  refine ⟨hlater, fun k hk => ?_, fun h => ?_, fun h0 h => ?_, fun hs => ?_, fun h0 hs gr hgr hp => ?_⟩
  · obtain ⟨u, hu, h1, h2, h3⟩ := hparts k hk
    rw [mem]
    exact ⟨u, hu, h1, h2, fun hs => by rw [h3, newCount_of_lt hs]⟩
  · rw [if_neg (notReleased h)]
    exact hpool
  · have silent : s.countReported r va pa sum writer arrival = (s.counted r pa sum writer arrival).1 :=
      if_neg (Int.not_lt.mpr h0)
    rw [if_neg (notReleased h), silent]
    rfl
  · rw [if_neg fun h => absurd h.2 (Int.ne_of_lt hs), State.countReported]
    obtain ⟨msg, he, hm⟩ := (s.counted r pa sum writer arrival).1.event_eq 1 va []
    exact ⟨msg, by rw [if_pos hs, he]; rfl, hm⟩
  · have silent : s.countReported r va pa sum writer arrival = (s.counted r pa sum writer arrival).1 :=
      if_neg (by rw [hs]; exact Int.lt_irrefl 0)
    have hgr' : (s.counted r pa sum writer arrival).1.grid? r.grid = some gr := hgr
    rw [mem, if_pos ⟨h0, hs⟩, silent]
    refine ⟨fun he hb hd => ?_, fun he => ?_⟩
    · rw [State.releaseCompanion_pushed hgr' he hb hd hp]
      exact ⟨_, rfl⟩
    · rw [State.releaseCompanion_none hgr' he]
      rfl

/-! ## TSUCC (R63, R64, R225) -/

/-- A lane that passes the checks of an operation takes the fault of its access, if any. -/
theorem Op.faultOf_fault (o : Op) {cap : Nat} {x : Site} {i : Nat} {l : Lane} (hk : kindFault x o.kind = none)
    (hn : overDistance cap x o.kind = false) (hc : o.check x i l = none) : o.faultOf cap x i l = o.fault x i l := by
  simp [Op.faultOf, hk, hn, hc]

/-- An issue of which every active lane takes one fault (R318, R319). -/
theorem Op.issue_allFault (o : Op) {s : State} {x : Site} (hx : s.site? = some x) (hn : x.NoHandler) {c : Cause}
    (hf : ActiveLanes x fun i l => o.faultOf s.fw.spdistCap x i l = some c) (hw : o.wait x = false) :
    ∃ t g, o.issue s = .next t ∧ t.mem = s.mem ∧ t.group? x.g.uid = some g ∧
      ∀ (i : Nat) (l : Lane), g.lanes[i]? = some l → x.mask.getLsbD i = true →
        l.state = .trap ∧ l.tcause = c.word (!x.g.stubs.isEmpty) := by
  have bad (i : Nat) : (o.bad s x).getLsbD i = x.mask.getLsbD i := by
    cases hm : x.mask.getLsbD i with
    | true =>
      obtain ⟨-, l, hl, -⟩ := State.site?_active hx hm
      rw [o.bad_lane hx hl, hm, hf i l hl hm]
      rfl
    | false =>
      cases hl : x.g.lanes[i]? with
      | none => rw [Op.bad, faultMask_getLsbD, hl]; simp
      | some l => rw [o.bad_lane hx hl, hm]; rfl
  have good : o.good s x = 0 := by
    rw [Op.good, show o.bad s x = x.mask from BitVec.eq_of_getLsbD_eq fun i _ => bad i]
    exact BitVec.and_not_self _
  have held : o.isHeld s x = false := by
    rw [Op.isHeld, hw, good]
    rfl
  obtain ⟨g0, hg0, hseen, -⟩ := State.site?_group hx
  rw [← State.site?_uid hx] at hg0
  have hu : g0.uid = x.g.uid := State.group?_uid hg0
  refine ⟨_, _, o.issue_not_held hx hn held, ?_, State.modGroup_group?_same (g := g0.onLanes (o.bad s x)
    (x.trapAt (o.faultOf s.fw.spdistCap x))) ?_ ((Group.book_uid ..).trans hu), fun i l hl hm => ?_⟩
  · rw [good]
    rfl
  · rw [good]
    exact State.onLanes_group? hg0 ..
  · obtain ⟨a, r, hb⟩ := Group.book_lane x.g x.pc x.mask o.m o.kind (overDistance s.fw.spdistCap x o.kind) s.clock.stamp
      (g0.onLanes (o.bad s x) (x.trapAt (o.faultOf s.fw.spdistCap x))) i
    rw [hb, Group.onLanes_lane, Option.map_map, Option.map_eq_some_iff] at hl
    obtain ⟨l0, hl0, rfl⟩ := hl
    have hlx : x.g.lanes[i]? = some l0 := by rw [hseen, Group.seen_lanes, hl0]
    simp only [Function.comp_apply, bad, hm, if_true, Site.trapAt, hf i l0 hlx hm]
    exact ⟨rfl, rfl⟩

/-- Who releases by a TSUCC. -/
def tsuccReleaser (s : State) (x : Site) : Releaser :=
  { grid := x.g.grid, group := x.g.uid, team := ((s.team? x.g.team).map (·.index)).getD 0, index := x.g.index,
    lcid := ((s.team? x.g.team).map (·.lcid)).getD 0 }

/-- The state in which a TSUCC's update arrives, and the time it is to exceed: earlier loads come first. -/
def tsuccReady (s0 : State) (x : Site) (good : BitVec 32) (va : Nat) (p : Place) (s : State) : Nat × State :=
  let r := ((s.cacheXlat (s0.coreOf x.g.team) (s0.rootOf x.g.grid) va).reachHome p true 8).performEarlier x.g.uid
    (fun lane => lane.all good.getLsbD) p.pa 8
  (max r.1 r.2.arrival.1, r.2.arrival.2)

/-- The count after a TSUCC, with the old one and the WCT. -/
def tsuccCount (s0 : State) (x : Site) (good : BitVec 32) (va b : Nat) (p : Place) (s : State) : State × Nat × Nat :=
  let r := tsuccReady s0 x good va p s
  r.2.addCount (tsuccReleaser s0 x) va p.pa (x.g.u b).toInt (s0.writerOf x.g (lowestLane good) good) r.1

/-- The lanes' LWCT covers the update, and the old count is on its way. -/
def answerCount (x : Site) (good : BitVec 32) (d : Nat) (r : State × Nat × Nat) : State :=
  (r.1.modGroup x.g.uid fun g => g.onLanes good fun _ l => l.raiseLwct r.2.2).awaitFrom {} r.2.2 x.g.uid none [d, d + 1]
    (.value [{ reg := d, bits := BitVec.ofNat 32 r.2.1, tag := 0 },
             { reg := d + 1, bits := BitVec.ofNat 32 (r.2.1 / 2 ^ 32), tag := 0 }])

/-- TSUCC's effect at a place. -/
def tsuccEffect (s0 : State) (x : Site) (good : BitVec 32) (va d b : Nat) (p : Place) (s : State) : State :=
  answerCount x good d (tsuccCount s0 x good va b p s)

/-- What the block of a TSUCC refuses (R12, R65, R195). -/
def tsuccFault (s : State) (x : Site) (va : Nat) : Option Cause :=
  let meeting := s.meetBlock (s.core (s.coreOf x.g.team)).locks (s.coreOf x.g.team) x.g.grid va
  if va % 128 != 0 || 2 ^ 48 ≤ va then some (Cause.address va)
  else meeting.cause.or
    (if (meeting.place?).any fun p => s.mem.blockReserved p.pa then some Cause.illegalOperand else none)

section
variable {s : State} {x : Site} (m : Bool) (d a b : BitVec 7) {va : Nat} {p : Place} (h : Issuing s x .plain)
  (hk : s.keepsBack x.g = false)
  (hc : OperandsPass x { us := [a.toNat, a.toNat + 1, b.toNat, d.toNat, d.toNat + 1] } fun _ => true)
  (hu : (x.g.uPair a.toNat).toNat = va) (ha : va % 128 = 0) (hva : va < 2 ^ 48)
  (hp : s.meetBlock (s.core (s.coreOf x.g.team)).locks (s.coreOf x.g.team) x.g.grid va = .place p)

include ha hva hp in
theorem tsuccFault_eq : tsuccFault s x va = if s.mem.blockReserved p.pa then some Cause.illegalOperand else none := by
  have aligned : (va % 128 != 0 || decide (2 ^ 48 ≤ va)) = false := by
    rw [ha, decide_eq_false (Nat.not_le.mpr hva)]
    rfl
  unfold tsuccFault
  simp only [hp, aligned]
  rfl

include h hk hc hu ha hva hp in
theorem tsucc_issue (hr : s.mem.blockReserved p.pa = false) :
    exec (.tsucc m d a b) s = .next (s.completed x m .plain (tsuccEffect s x x.mask va d.toNat b.toNat p)) := by
  subst hu
  have hf : tsuccFault s x (x.g.uPair a.toNat).toNat = none := by
    rw [tsuccFault_eq ha hva hp, hr]
    rfl
  have hi : exec (.tsucc m d a b) s = .next _ := Op.issue_completed _ s x h hc (fun _ _ _ _ => hf) hk rfl
  simp only [hp] at hi
  exact hi

include h hk hc hu ha hva hp in
theorem tsucc_reserved (hr : s.mem.blockReserved p.pa = true) (hn : x.NoHandler) :
    ∃ t g, exec (.tsucc m d a b) s = .next t ∧ t.mem = s.mem ∧ t.group? x.g.uid = some g ∧
      ∀ (i : Nat) (l : Lane), g.lanes[i]? = some l → x.mask.getLsbD i = true →
        l.state = .trap ∧ bitsOf l.tcause.toNat 0 8 = 0x02 := by
  subst hu
  have hf : tsuccFault s x (x.g.uPair a.toNat).toNat = some Cause.illegalOperand := by
    rw [tsuccFault_eq ha hva hp, hr]
    rfl
  have hall : ∃ t g, exec (.tsucc m d a b) s = .next t ∧ _ :=
    Op.issue_allFault _ h.site hn (c := Cause.illegalOperand) (fun i l hl hm => ?_) hk
  · obtain ⟨t, g, ht, hmem, hg, hl⟩ := hall
    refine ⟨t, g, ht, hmem, hg, fun i l hi hm => ?_⟩
    obtain ⟨hs, hw⟩ := hl i l hi hm
    refine ⟨hs, ?_⟩
    rw [hw]
    cases !x.g.stubs.isEmpty <;> decide
  · exact (Op.faultOf_fault _ h.allowed h.near (hc i l hl hm)).trans hf

end

/-- What TSUCC's update meets is what the state held at issue. -/
theorem tsuccReady_ready (s0 : State) (x : Site) (good : BitVec 32) (va : Nat) (p : Place) (s : State) :
    (∃ u, s.Performs u ∧ (tsuccReady s0 x good va p s).2 = u.newFresh.2) ∧
      (tsuccReady s0 x good va p s).2.mem.cells = s.mem.cells ∧
      (tsuccReady s0 x good va p s).2.mem.updates = s.mem.updates ∧ s.gtime ≤ (tsuccReady s0 x good va p s).1 := by
  have performed := ((s.cacheXlat_performs (s0.coreOf x.g.team) (s0.rootOf x.g.grid) va).trans
    (State.reachHome_performs _ p true 8)).trans
      (State.performEarlier_performs _ x.g.uid (fun lane => lane.all good.getLsbD) p.pa 8)
  have calm := State.Calm.frame.trans
    (State.Still.frame.trans (s.cacheXlat_still (s0.coreOf x.g.team) (s0.rootOf x.g.grid) va)
      (State.reachHome_still _ p true 8)).calm
    (State.performEarlier_calm _ x.g.uid (fun lane => lane.all good.getLsbD) p.pa 8)
  refine ⟨⟨_, performed, rfl⟩, calm.cells, calm.updates, ?_⟩
  have hg : s.gtime = (((s.cacheXlat (s0.coreOf x.g.team) (s0.rootOf x.g.grid) va).reachHome p true 8).performEarlier
      x.g.uid (fun lane => lane.all good.getLsbD) p.pa 8).2.gtime := by rw [State.gtime, State.gtime, calm.tick]
  rw [hg]
  exact (Nat.le_add_right ..).trans (Nat.le_max_right ..)

/-- What adding to a count answers, of another state with the same pool, messages, grids, slots and settings. -/
theorem State.CountAdded.of_same {s w t : State} {r : Releaser} {va pa old arrival early wct : Nat} {sum : Int}
    (h : w.CountAdded r va pa old sum arrival t wct) (ha : early ≤ arrival) (hp : w.pool = s.pool)
    (ho : w.outbox = s.outbox) (hg : w.grids = s.grids) (hc : w.cuts = s.cuts) (hf : w.fw = s.fw)
    (ht : w.clock.tick = s.clock.tick) : s.CountAdded r va pa old sum early t wct where
  later := ha.trans_lt h.later
  parts := h.parts
  quiet k := (h.quiet k).trans hp
  silent k l := (h.silent k l).trans ho
  underflow k := ho ▸ h.underflow k
  companion h0 hs gr hgr hl := by
    obtain ⟨pushed, none⟩ := h.companion h0 hs gr (by rw [State.grid?, hg]; exact hgr) (hp ▸ hl)
    refine ⟨fun he hb hd => ?_, fun he => (none he).trans hp⟩
    obtain ⟨n, hn⟩ := pushed he (by simpa only [State.recordBad, State.recordRules, State.slot?, hc] using hb)
      (by simpa only [State.depthLimit, hf] using hd)
    exact ⟨n, by rw [hn, hp, State.gtime, State.gtime, ht]⟩

/-- A TSUCC adds to the count that the state held at issue, and reports and pushes as that state would. -/
theorem tsuccCount_added (s0 : State) (x : Site) (good : BitVec 32) (va b : Nat) (p : Place) (s : State) :
    (tsuccCount s0 x good va b p s).2.1 = s.mem.count p.pa ∧
      (tsuccCount s0 x good va b p s).1.mem.cells = s.mem.cells ∧
      s.CountAdded (tsuccReleaser s0 x) va p.pa (s.mem.count p.pa) (s.mem.count p.pa + (x.g.u b).toInt) s.gtime
        (tsuccCount s0 x good va b p s).1 (tsuccCount s0 x good va b p s).2.2 := by
  have ready := tsuccReady_ready s0 x good va p s
  unfold tsuccCount
  dsimp only
  generalize tsuccReady s0 x good va p s = now at ready ⊢
  generalize tsuccReleaser s0 x = r
  obtain ⟨⟨u, hu, hw⟩, hcells, hupdates, hlate⟩ := ready
  have hcount : now.2.mem.count p.pa = s.mem.count p.pa := Memory.count_congr hcells hupdates p.pa
  have sends := State.addCount_sends now.2 r va p.pa (x.g.u b).toInt (s0.writerOf x.g (lowestLane good) good) now.1
  have same : now.2 = { s with mem := now.2.mem, cores := now.2.cores, pend := now.2.pend, clock := now.2.clock } ∧
      now.2.clock.tick = s.clock.tick := by
    rw [hw, hu]
    exact ⟨rfl, rfl⟩
  obtain ⟨hold, added⟩ := State.addCount_added now.2 r va p.pa (x.g.u b).toInt
    (s0.writerOf x.g (lowestLane good) good) now.1
  rw [hcount] at hold added
  refine ⟨hold, sends.cells.trans hcells, added.of_same hlate ?_ ?_ ?_ ?_ ?_ same.2⟩ <;> rw [same.1]

section
variable (x : Site) (good : BitVec 32) (d : Nat) (r : State × Nat × Nat)

theorem answerCount_rest : (answerCount x good d r).mem = r.1.mem ∧ (answerCount x good d r).pool = r.1.pool ∧
    (answerCount x good d r).outbox = r.1.outbox := ⟨rfl, rfl, rfl⟩

/-- The old count comes, not before the update is visible (R64). -/
theorem answerCount_comes : ∃ q ∈ (answerCount x good d r).pend, q.group = x.g.uid ∧ q.lane = none ∧
    q.regs = [d, d + 1] ∧ 2 * r.2.2 ≤ q.due ∧
    q.what = .value [{ reg := d, bits := BitVec.ofNat 32 r.2.1, tag := 0 },
                     { reg := d + 1, bits := BitVec.ofNat 32 (r.2.1 / 2 ^ 32), tag := 0 }] :=
  ⟨_, List.mem_append_right _ (List.mem_singleton.mpr rfl), rfl, rfl, rfl, Nat.le_max_right .., rfl⟩

theorem answerCount_group? : (answerCount x good d r).group? x.g.uid =
    ((r.1.group? x.g.uid).map fun g => g.onLanes good fun _ l => l.raiseLwct r.2.2).map (markResult none [d,
    d + 1]) := by
  rw [← State.modGroup_group?_map (f := fun g => g.onLanes good fun _ l => l.raiseLwct r.2.2) fun _ => rfl]
  exact State.modGroup_group?_map (f := markResult none [d, d + 1]) fun g => markResult_uid ..

end

/-- The group after the books of an issue: none comes to be found. -/
theorem State.completed_group?_inv {s : State} {x : Site} {m : Bool} {k : IssueKind} {e : State → State} {g : Group}
    (h : (s.completed x m k e).group? x.g.uid = some g) : ∃ g', (e (s.advance x x.mask)).group? x.g.uid = some g' ∧
      g = x.g.book x.pc x.mask m k (overDistance s.fw.spdistCap x k) s.clock.stamp g' := by
  have hg := State.modGroup_group?_map (s := e (s.advance x x.mask)) (u := x.g.uid)
    (f := x.g.book x.pc x.mask m k (overDistance s.fw.spdistCap x k) s.clock.stamp) fun g => Group.book_uid ..
  obtain ⟨g', hg', rfl⟩ := Option.map_eq_some_iff.mp (hg.symm.trans h)
  exact ⟨g', hg', rfl⟩

/-- After a TSUCC its registers are marked, and the active lanes' LWCT covers its update. -/
theorem answerCount_completed {s : State} {x : Site} {m : Bool} {d : Nat} {e : State → State} {r : State × Nat × Nat}
    (he : e (s.advance x x.mask) = answerCount x x.mask d r) {g : Group}
    (h : (s.completed x m .plain e).group? x.g.uid = some g) :
    (∀ n ∈ [d, d + 1], n ∈ g.upend) ∧
      ∀ (i : Nat) (l : Lane), g.lanes[i]? = some l → x.mask.getLsbD i = true → r.2.2 ≤ l.lwct := by
  obtain ⟨g', hg', rfl⟩ := State.completed_group?_inv h
  rw [he, answerCount_group?] at hg'
  obtain ⟨g1, hg1, rfl⟩ := Option.map_eq_some_iff.mp hg'
  obtain ⟨g0, -, rfl⟩ := Option.map_eq_some_iff.mp hg1
  refine ⟨fun n hn => ?_, fun i l hl hm => ?_⟩
  · rw [Group.book_upend]
    exact List.mem_append_right _ hn
  · obtain ⟨a, rd, hb⟩ := Group.book_lane x.g x.pc x.mask m .plain (overDistance s.fw.spdistCap x .plain) s.clock.stamp
      (markResult none [d, d + 1] (g0.onLanes x.mask fun _ l => l.raiseLwct r.2.2)) i
    rw [hb, markResult, Group.onLanes_lane, Option.map_map, Option.map_eq_some_iff] at hl
    obtain ⟨l0, -, rfl⟩ := hl
    simp only [Function.comp_apply, hm, if_true]
    exact Nat.le_max_right ..

theorem answerCount_kept {s : State} {x : Site} {m : Bool} {d : Nat} {e : State → State} {r : State × Nat × Nat}
    (he : e (s.advance x x.mask) = answerCount x x.mask d r) :
    (s.completed x m .plain e).mem = r.1.mem ∧ (s.completed x m .plain e).pool = r.1.pool ∧
      (s.completed x m .plain e).outbox = r.1.outbox ∧
      (s.completed x m .plain e).pend = (answerCount x x.mask d r).pend := by
  have rest : (s.completed x m .plain e).mem = (e (s.advance x x.mask)).mem ∧
      (s.completed x m .plain e).pool = (e (s.advance x x.mask)).pool ∧
      (s.completed x m .plain e).outbox = (e (s.advance x x.mask)).outbox ∧
      (s.completed x m .plain e).pend = (e (s.advance x x.mask)).pend := ⟨rfl, rfl, rfl, rfl⟩
  rw [he] at rest
  exact rest

end Sys2Proof.Machine

namespace Sys2Proof
open Machine

/-- Settles O25: the update, the report and the companion are what adding to the count does; the result is marked and
the
lanes' LWCT raised after it. -/
theorem successorCounts : Obligations.SuccessorCounts := by
  unfold Obligations.SuccessorCounts
  intro s x m d a b p h hk hc va core ha hva hp
  refine ⟨fun hr hn => tsucc_reserved m d a b h hk hc rfl ha hva hp hr hn, fun hr => ?_⟩
  intro old sum
  have hx := tsucc_issue m d a b h hk hc rfl ha hva hp hr
  obtain ⟨hold, hcells, added⟩ := tsuccCount_added s x x.mask va b.toNat p (s.advance x x.mask)
  have effect : tsuccEffect s x x.mask va d.toNat b.toNat p (s.advance x x.mask) = answerCount x x.mask d.toNat
      (tsuccCount s x x.mask va b.toNat p (s.advance x x.mask)) := rfl
  generalize tsuccCount s x x.mask va b.toNat p (s.advance x x.mask) = r at hold hcells added effect
  generalize tsuccEffect s x x.mask va d.toNat b.toNat p = e at hx effect
  obtain ⟨mem, pool, outbox, pend⟩ := answerCount_kept (m := m) effect
  obtain ⟨later, parts, quiet, silent, underflow, companion⟩ := added
  refine ⟨_, r.2.2, hx, ?_, later, ?_, ?_, ?_, ?_, ?_, ?_, ?_, ?_⟩
  · rw [mem]
    exact hcells
  · exact fun g hg => (answerCount_completed effect hg).1
  · obtain ⟨q, hq, h1, h2, h3, h4, h5⟩ := answerCount_comes x x.mask d.toNat r
    rw [hold] at h5
    exact ⟨q, pend ▸ hq, h1, h2, h3, h4, h5⟩
  · intro k hk
    obtain ⟨u, hu, hp⟩ := parts k hk
    exact ⟨u, mem ▸ hu, hp⟩
  · exact fun g hg => (answerCount_completed effect hg).2
  · exact fun h => pool.trans (quiet h)
  · exact fun h0 h => outbox.trans (silent h0 h)
  · intro h
    obtain ⟨msg, hm, hp⟩ := underflow h
    exact ⟨msg, outbox.trans hm, hp⟩
  · intro h0 h gr hgr hl
    have := companion h0 h gr hgr hl
    rw [← mem, ← pool] at this
    exact this

end Sys2Proof
end

section
/-!
PROOFS. Rotations, waits that end, parking and waking: one test on a group and one change of it each (R25, R205,
R213, R317).
-/

-- One proof after another: each that waits beside others holds a stack of its own.
set_option Elab.async false

namespace Sys2Proof.Machine

/-! ## Rotations (R25) -/

/-- An instruction goes on, leaves memory as it was, and leaves the group as a test says. -/
def State.Becomes (s : State) (g : Group) (i : Instr) (p : Group → Prop) : Prop :=
  ∃ t g', exec i s = .next t ∧ t.mem = s.mem ∧ t.group? g.uid = some g' ∧ p g'

/-- An event that changes one group makes of it what its change says. -/
theorem State.becomes_modGroup {s : State} {g : Group} {i : Instr} {p : Group → Prop} (hg : s.group? g.uid = some g)
    {f : Group → Group} (hx : exec i s = .next (s.modGroup g.uid f)) (hu : (f g).uid = g.uid) (hp : p (f g)) :
    s.Becomes g i p := ⟨_, _, hx, rfl, State.modGroup_group?_same hg hu, hp⟩

/-- A rotation is in force where issues of it are left and a lane stands at or above its base. -/
theorem Group.activeRotation_isNone {g : Group} {r : Rotation} (hr : g.rotation = some r) (hs : g.stubs = []) :
    g.activeRotation.isNone = true ↔ r.left = 0 ∨ ¬ ∃ pc ∈ g.pcs g.counting, r.base.toNat ≤ pc := by
  have above : (g.pcs g.counting).any (r.base.toNat ≤ ·) = true ↔ ∃ pc ∈ g.pcs g.counting, r.base.toNat ≤ pc := by
    simp
  rw [← above, Group.activeRotation, hr, hs]
  by_cases hl : r.left = 0
  · simp [hl]
  · by_cases ha : (g.pcs g.counting).any (r.base.toNat ≤ ·) = true <;> simp [hl, ha, Nat.pos_of_ne_zero hl]

theorem State.rotationOver_iff {s : State} {g : Group} {r : Rotation} (hr : g.rotation = some r) (hs : g.stubs = [])
    (hd : g.redo? = none) : s.rotationOver g = true ↔ r.left = 0 ∨
      ((¬ ∃ pc ∈ g.pcs g.counting, r.base.toNat ≤ pc) ∧ ∃ k, s.nextGroup = some k ∧ k.uid = g.uid) := by
  have turn : s.nextGroup.any (·.uid == g.uid) = true ↔ ∃ k, s.nextGroup = some k ∧ k.uid = g.uid := by
    simp [Option.any_eq_true]
  rw [State.rotationOver, hr]
  simp only [hs, hd, List.isEmpty_nil, Option.isNone_none, Bool.and_self, Bool.true_and, Bool.or_eq_true,
    Bool.and_eq_true,
    beq_iff_eq, Group.activeRotation_isNone hr hs, turn]
  tauto

theorem fairnessRotation_eq {s : State} {g : Group} (hg : s.group? g.uid = some g) :
    exec (.fairnessRotation g.uid) s =
      if g.pprom && g.stubs.isEmpty && g.redo?.isNone && g.rotation.isNone && g.fairtime ≤ g.fairness && g.fairness != 0
      then .next (s.modGroup g.uid fun g =>
        { g with fairness := 0,
                 rotation := (g.leastAbove g.lastAddr).map fun b => { base := b, left := g.fairtime } })
      else .next s := by
  have he : exec (.fairnessRotation g.uid) s = execFairnessRotation g.uid s := rfl
  rw [he, execFairnessRotation, hg]

theorem rotationEnd_becomes {s : State} {g : Group} (hg : s.group? g.uid = some g) {b : Bool}
    (hb : s.rotationOver g = b) :
    s.Becomes g (.rotationEnd g.uid) (· = if b then { g with rotation := none, fairness := 0 } else g) :=
  State.becomes_modGroup hg (rfl : exec (.rotationEnd g.uid) s = .next (s.modGroup g.uid fun g =>
    if s.rotationOver g then { g with rotation := none, fairness := 0 } else g))
    (by split <;> rfl) (by rw [hb])

/-! ## Waits that end (R205, R213) -/

/-- Releasing lanes: each that waits so goes on at the next word, and no other changes. -/
theorem Group.releaseWaits_lane {g : Group} (hn : g.lanes.length ≤ 32) (p : Wait → Bool) {i : Nat} {l : Lane}
    (hl : g.lanes[i]? = some l) : (g.releaseWaits p).lanes[i]? = some (if l.waits p then l.release else l) := by
  have hi : i < 32 := (List.getElem?_eq_some_iff.mp hl).1.trans_le hn
  rw [Group.releaseWaits, Group.onLanes_lane, hl, Option.map_some, Group.waiting, Group.maskOf_getLsbD, hl]
  simp [hi]

theorem Lane.waits_iff {l : Lane} {p : Wait → Bool} : l.waits p = true ↔ ∃ w, l.state = .wait w ∧ p w = true := by
  unfold Lane.waits
  cases l.state <;> simp

/-- The fence that a wait is of. -/
def Wait.isFence (id : Nat) (w : Wait) : Bool :=
  match w with
  | .fence _ i => i == id
  | _ => false

/-- The deadline of a timed wait has come. -/
def Wait.timeIsUp (now : Nat) (w : Wait) : Bool :=
  match w with
  | .twait deadline => deadline ≤ now
  | _ => false

/-- The scope of a group's fence. -/
def Group.fenceScope (g : Group) (id : Nat) : Nat :=
  (g.lanes.filterMap fun l =>
    match l.state with
    | .wait (.fence k i) => if i = id then some k else none
    | _ => none).headD 0

theorem fenceRelease_eq {s : State} {g : Group} (hg : s.group? g.uid = some g) (id : Nat) :
    exec (.fenceRelease g.uid id) s =
      if g.watched && g.waiting (Wait.isFence id) != 0 && s.fenceHolds g (g.waiting (Wait.isFence id))
        (g.fenceScope id) then
        .next (s.modGroup g.uid fun g => g.releaseWaits (Wait.isFence id))
      else .next s := by
  have he : exec (.fenceRelease g.uid id) s = execFenceRelease g.uid id s := rfl
  rw [he, execFenceRelease, hg]
  rfl

theorem twaitRelease_becomes {s : State} {g : Group} (hg : s.group? g.uid = some g) :
    s.Becomes g (.twaitRelease g.uid) (· = if g.watched then g.releaseWaits (Wait.timeIsUp s.gtime) else g) :=
  State.becomes_modGroup hg (f := fun g => if g.watched then g.releaseWaits (Wait.timeIsUp s.gtime) else g) rfl
    (by split <;> rfl) rfl

section
variable {g : Group} {scope id : Nat} (hsame : ∀ l ∈ g.lanes, ∀ k, l.state = .wait (.fence k id) → k = scope)

include hsame in
/-- The lanes of a fence all wait with its scope. -/
theorem Lane.waits_fence {l : Lane} (hl : l ∈ g.lanes) :
    l.waits (Wait.isFence id) = true ↔ l.state = .wait (.fence scope id) := by
  rw [Lane.waits_iff]
  constructor
  · rintro ⟨w, hw, hf⟩
    cases w with
    | fence k i =>
      obtain rfl : i = id := by simpa [Wait.isFence] using hf
      rw [hw, hsame l hl k hw]
    | _ => cases hf
  · exact fun h => ⟨_, h, by simp [Wait.isFence]⟩

include hsame in
theorem Group.waiting_fence : g.waiting (Wait.isFence id) = g.waiting (· == .fence scope id) := by
  refine BitVec.eq_of_getLsbD_eq fun i _ => ?_
  simp only [Group.waiting, Group.maskOf_getLsbD]
  cases hl : g.lanes[i]? with
  | none => rfl
  | some l =>
    have h : l.waits (Wait.isFence id) = l.waits (· == .fence scope id) := by
      rw [Bool.eq_iff_iff, Lane.waits_fence hsame (List.mem_of_getElem? hl), Lane.waits_iff]
      simp
    simp only [Option.any_some, h]

include hsame in
theorem Group.fenceScope_eq (hex : ∃ l ∈ g.lanes, l.state = .wait (.fence scope id)) : g.fenceScope id = scope := by
  obtain ⟨l, hl, hs⟩ := hex
  have mem : scope ∈ g.lanes.filterMap fun l =>
      match l.state with
      | .wait (.fence k i) => if i = id then some k else none
      | _ => none := List.mem_filterMap.mpr ⟨l, hl, by simp [hs]⟩
  unfold Group.fenceScope
  generalize hks : (g.lanes.filterMap fun l =>
    match l.state with
    | .wait (.fence k i) => if i = id then some k else none
    | _ => none) = ks at mem
  cases ks with
  | nil => cases mem
  | cons k ks =>
    obtain ⟨l', hl', hk⟩ := List.mem_filterMap.mp (hks ▸ List.mem_cons_self .. : k ∈ _)
    refine hsame l' hl' k ?_
    split at hk
    next k' i h =>
      split at hk
      next hi =>
        cases hk
        rw [h, hi]
      · cases hk
    · cases hk

end

theorem Group.waiting_ne_zero {g : Group} {p : Wait → Bool} (hn : g.lanes.length ≤ 32) {l : Lane} (hl : l ∈ g.lanes)
    (hp : l.waits p = true) : g.waiting p ≠ 0 := by
  intro h0
  obtain ⟨i, hi⟩ := List.mem_iff_getElem?.mp hl
  have h32 : i < 32 := (List.getElem?_eq_some_iff.mp hi).1.trans_le hn
  have hb : (g.waiting p).getLsbD i = true := by rw [Group.waiting, Group.maskOf_getLsbD, hi]; simp [h32, hp]
  rw [h0] at hb
  simp at hb

/-! ## Parking and waking (R317) -/

/-- The slot that is chosen for a group is one of the core's four. -/
theorem State.bestSlot_lt (s : State) (core : Nat) : s.bestSlot core < 4 := by
  unfold State.bestSlot
  simp only [List.foldl_cons, List.foldl_nil]
  (repeat' split) <;> decide

theorem groupPark_eq {s : State} {g : Group} (hg : s.group? g.uid = some g) (h : s.mayPark g = true) :
    exec (.groupPark g.uid) s =
      if g.standing.getD s.gtime + s.fw.parkDelay ≤ s.gtime then
        .next (s.modGroup g.uid fun g => { g with sched := .parked, slot := none, standing := none })
      else .next (s.modGroup g.uid fun g' => { g' with standing := some (g.standing.getD s.gtime) }) := by
  have he : exec (.groupPark g.uid) s = execGroupPark g.uid s := rfl
  rw [he, execGroupPark, hg]
  simp only [h, Bool.not_true, Bool.false_eq_true, if_false]

theorem groupWake_eq {s : State} {g : Group} (hg : s.group? g.uid = some g) :
    exec (.groupWake g.uid) s =
      if g.sched == .parked && g.halted.isNone && g.lanes.any (fun l => l.running || l.trapped) then
        .next (s.modGroup g.uid fun g' => { g' with sched := .resident, slot := some (s.bestSlot (s.coreOf g.team)) })
      else .next s := by
  have he : exec (.groupWake g.uid) s = execGroupWake g.uid s := rfl
  rw [he, execGroupWake, hg]

end Sys2Proof.Machine

namespace Sys2Proof
open Machine

/-- Settles O42: each event is one test on the group and one change of it. -/
theorem rotationsReleasesAndParking : Obligations.RotationsReleasesAndParking := by
  unfold Obligations.RotationsReleasesAndParking
  intro s g hg becomes
  refine ⟨?_, ?_, ?_, ?_, ?_, ?_, ?_, ?_, ?_⟩
  · intro hp hs hr hn h0 hf
    have hx := fairnessRotation_eq hg
    rw [if_pos (by simp [hp, hs, hr, hn, h0, hf])] at hx
    exact State.becomes_modGroup hg hx rfl ⟨rfl, rfl, rfl⟩
  · intro hf
    rw [fairnessRotation_eq hg, if_neg (by simp [Nat.not_le.mpr hf])]
  · intro r hr hs hd above
    have ends := State.rotationOver_iff (s := s) hr hs hd
    refine ⟨fun h => rotationEnd_becomes hg (b := true) (ends.mpr ?_), fun hl h =>
      rotationEnd_becomes hg (b := false) (Bool.eq_false_iff.mpr fun ho => ?_)⟩
    · exact h.imp id fun ⟨ha, hk⟩ => ⟨ha, g, hk, rfl⟩
    · obtain h0 | ⟨ha, k, hk, hku⟩ := ends.mp ho
      · exact hl.ne' h0
      · exact h.elim ha fun h => h k hk hku
  · intro scope id hw hex hsame hn mask
    have hm : g.waiting (Wait.isFence id) = mask := Group.waiting_fence hsame
    have hsc : g.fenceScope id = scope := Group.fenceScope_eq hsame hex
    have hx : exec (.fenceRelease g.uid id) s = if s.fenceHolds g mask scope then
        .next (s.modGroup g.uid fun g => g.releaseWaits (Wait.isFence id)) else .next s := by
      obtain ⟨l, hl, hs⟩ := hex
      have hne := Group.waiting_ne_zero hn hl ((Lane.waits_fence hsame hl).mpr hs)
      rw [fenceRelease_eq hg, hw, hsc, bne_iff_ne.mpr hne, hm]
      rfl
    refine ⟨fun h => ?_, fun h => by rw [hx, h]; rfl⟩
    rw [h] at hx
    refine State.becomes_modGroup hg hx rfl fun i l hl => ?_
    rw [Group.releaseWaits_lane hn _ hl]
    simp only [Lane.waits_fence hsame (List.mem_of_getElem? hl)]
    rfl
  · intro hh
    have hw : g.watched = false := by
      obtain ⟨c, hc⟩ := Option.ne_none_iff_exists'.mp hh
      simp [Machine.Group.watched, hc]
    refine ⟨fun id => by rw [fenceRelease_eq hg, hw]; rfl, ?_⟩
    have ht := twaitRelease_becomes hg
    rw [hw] at ht
    exact ht
  · intro hw hn
    obtain ⟨t, g', hx, hmem, hg', heq⟩ := twaitRelease_becomes hg
    rw [hw, if_pos rfl] at heq
    refine ⟨t, g', hx, hmem, hg', fun i l hl => ?_⟩
    rw [heq, Group.releaseWaits_lane hn _ hl]
    refine ⟨fun time hs ht => ?_, fun h => ?_⟩
    · rw [if_pos (Lane.waits_iff.mpr ⟨_, hs, decide_eq_true ht⟩)]
      rfl
    · rw [if_neg]
      intro hwt
      obtain ⟨w, hs, hup⟩ := Lane.waits_iff.mp hwt
      cases w with
      | twait time => exact Nat.not_le.mpr (h time hs) (of_decide_eq_true hup)
      | _ => cases hup
  · intro hp since
    have hx := groupPark_eq hg hp
    refine ⟨fun h => ?_, fun h => ?_⟩
    · rw [if_pos h] at hx
      exact State.becomes_modGroup hg hx rfl ⟨rfl, rfl, rfl, rfl⟩
    · rw [if_neg (Nat.not_le.mpr h)] at hx
      exact State.becomes_modGroup hg hx rfl rfl
  · intro hs hh hl
    have hx := groupWake_eq hg
    rw [if_pos] at hx
    · exact State.becomes_modGroup hg hx rfl ⟨rfl, rfl, _, rfl, State.bestSlot_lt ..⟩
    · obtain ⟨l, hl, hr⟩ := hl
      have : l.running || l.trapped := by
        rcases hr with hr | hr <;> simp [Lane.running, Lane.trapped, hr]
      simpa [hs, hh] using ⟨l, hl, by simpa using this⟩
  · intro h
    rw [groupWake_eq hg, if_neg]
    intro ht
    simp only [Bool.and_eq_true, beq_iff_eq, Option.isNone_iff_eq_none] at ht
    exact h.elim (· ht.1.1) (· ht.1.2)

end Sys2Proof
end

section
/-!
PROOFS. A load that lands on a damaged byte, in a state whose group numbers are not distinct (R299, R320).
-/

-- One proof after another: each that waits beside others holds a stack of its own.
set_option Elab.async false

namespace Sys2Proof.Machine

/-! ## Two groups of one number, evaluated -/

/-- A load of a damaged granule of memory on its way to lane 0 of the placed group (log 22). -/
def damagedLoad : Pend :=
  { id := 4, group := 3, lane := some 0, lanes := 1, pc := 0x40080, va := 0x40000000, regs := [], due := 0,
    what := .load 0x40000000 0x40000000 4 0 0 0 }

/-- The placed group, with lane 0 in the handler. -/
def handlingGroup : Group :=
  { placedGroup with lanes := setAt (fun l => { l with handler := true }) 0 placedGroup.lanes }

/-- A group of the same number, in another grid, that has no lanes. -/
def namesake : Group := { placedGroup with grid := 9, lanes := [] }

def namesakeState : State :=
  let s := State.reset.withFetchWord 32 0
  { s with mem := { s.mem with damage := [0x40000000 / 32] },
           groups := [handlingGroup, namesake], pend := [damagedLoad] }

/-- The load has come to its time, and meets the damaged byte. -/
theorem namesakeState_meets :
    namesakeState.pend.find? (fun q => q.id == damagedLoad.id) = some damagedLoad ∧
      damagedLoad.due ≤ namesakeState.clock.tick ∧ namesakeState.loadAfter 3 0x40000000 4 0 0 ≤ namesakeState.gtime ∧
      namesakeState.loadDamage 3 0x40000000 4 0 = some 0x40000000 := by decide +kernel

/-- The fault in the handler ends the grid with its group, and the number then finds the other grid's group. -/
theorem namesakeState_leaves :
    (match exec (.pendingResultLands damagedLoad.id) namesakeState with
     | .next t => (t.group? 3).any (·.lanes.isEmpty)
     | _ => false) = true := by decide +kernel

end Sys2Proof.Machine

namespace Sys2Proof
open Machine

/-- Refutes O43: a state may hold two groups of one number in two grids; the damaged byte that a lane in the handler
meets
ends the first one's grid, and the group that the number then finds has none of the lanes. -/
theorem not_landingsFaultsAndHandlers : ¬ Obligations.LandingsFaultsAndHandlers := by
  unfold Obligations.LandingsFaultsAndHandlers
  intro h
  obtain ⟨hfind, hdue, hafter, hmeets⟩ := namesakeState_meets
  obtain ⟨hlands, -, -⟩ := h namesakeState
  obtain ⟨-, -, hload⟩ := hlands damagedLoad handlingGroup hfind hdue rfl
  obtain ⟨-, hfault⟩ := hload _ _ _ _ _ _ rfl hafter
  obtain ⟨t, ht, -, -, htraps⟩ := hfault _ _ hmeets rfl
  have leaves := namesakeState_leaves
  rw [ht] at leaves
  obtain ⟨g', hg', hempty⟩ := (Option.any_eq_true ..).mp leaves
  obtain ⟨l', hl', -⟩ := htraps g' hg' 0 _ rfl rfl (by decide) (by decide)
  rw [List.isEmpty_iff.mp hempty] at hl'
  cases hl'

end Sys2Proof
end

section
/-!
PROOFS. Launches that queue and are accepted, grids that leave, and candidates that are placed (R17, R62, R305 to
R315).
-/

-- One proof after another: each that waits beside others holds a stack of its own.
set_option Elab.async false

namespace Sys2Proof.Machine

/-! ## Launches (R305 to R307) -/

theorem launch_eq {s : State} {msg : CtlMsg} (hb : s.boot.phase = .ready) (hk : isKind msg .launch = true) :
    exec (.launch msg) s = .next (s.takeRecord msg.seq msg.payload) := by
  have he : exec (.launch msg) s = s.serve msg .launch fun s => s.takeRecord msg.seq msg.payload := rfl
  rw [he, State.serve, hb]
  simp only [hk, if_true]

theorem State.queueOf_eq {s : State} {q : Nat} {es : List Queued} (h : s.queues[q]? = some es) : s.queueOf q = es := by
  rw [State.queueOf, h]
  rfl

/-- A queue whose head has left holds the rest. -/
theorem State.queueOf_tail {s t : State} {q : Nat} {e : Queued} {rest : List Queued} (h : s.queues[q]? = some (e ::
    rest))
    (ht : t.queues = setAt List.tail q s.queues) : t.queueOf q = rest :=
  State.queueOf_eq (by rw [ht, setAt_getElem?_same, h]; rfl)

section
variable {s : State} {q : Nat} {e : Queued} {rest : List Queued} (h : s.queues[q]? = some (e :: rest))
  (hf : s.queueFree q = true) (hw : e.waiting = none)

include h hf hw in
theorem launchQueueHead_refused {st : Nat} (hc : s.checkImage e.launch = .refuse st) :
    exec (.launchQueueHead q) s = .next (s.refuseHead e st) := by
  have he : exec (.launchQueueHead q) s = execLaunchQueueHead q s := rfl
  rw [he, execLaunchQueueHead, State.queueOf_eq h]
  simp only [hf, hw, hc, Bool.not_true, Option.isSome_none, Bool.or_self, Bool.false_eq_true, if_false]

include h hf hw in
theorem launchQueueHead_accepted {img : Image} (hc : s.checkImage e.launch = .ok img)
    (hfit : s.carveFits e.launch = true) : exec (.launchQueueHead q) s = .next (s.acceptLaunch e img) := by
  have he : exec (.launchQueueHead q) s = execLaunchQueueHead q s := rfl
  rw [he, execLaunchQueueHead, State.queueOf_eq h]
  simp only [hf, hw, hc, hfit, Bool.not_true, Option.isSome_none, Bool.or_self, Bool.false_eq_true, if_false, if_true]

include h hf hw in
/-- A head that finds no room for its bank memory waits at the head of its queue (R296, R307). -/
theorem launchQueueHead_waits {img : Image} (hc : s.checkImage e.launch = .ok img)
    (hfit : s.carveFits e.launch = false) : ∃ t, exec (.launchQueueHead q) s = .next t ∧ t.grids = s.grids ∧
      t.queueOf q = { e with waiting := some img } :: rest := by
  have he : exec (.launchQueueHead q) s = execLaunchQueueHead q s := rfl
  rw [he, execLaunchQueueHead, State.queueOf_eq h]
  simp only [hf, hw, hc, hfit, Bool.not_true, Option.isSome_none, Bool.or_self, Bool.false_eq_true, if_false]
  refine ⟨_, rfl, rfl, State.queueOf_eq ?_⟩
  rw [setAt_getElem?_same, h]
  rfl

end

theorem carveoutWaitEnd_eq {s : State} {q : Nat} {e : Queued} {rest : List Queued} {img : Image}
    (h : s.queues[q]? = some (e :: rest)) (hw : e.waiting = some img) (hc : s.carveFits e.launch = true) :
    exec (.carveoutWaitEnd q) s = .next (s.acceptLaunch e img) := by
  have he : exec (.carveoutWaitEnd q) s = execCarveoutWaitEnd q s := rfl
  rw [he, execCarveoutWaitEnd, State.queueOf_eq h]
  simp only [hw, hc, if_true]

theorem State.acceptLaunch_busy {s : State} {e : Queued} {img : Image} (hs : e.launch.script = true)
    (hr : (s.ctx e.launch.sctx).running = true) :
    s.acceptLaunch e img = ({ s with queues := setAt List.tail e.launch.queue s.queues } : State).refuseLaunch e.seq
      e.launch.ltag stScriptBusy := by
  have hr' :
    (({ s with queues := setAt List.tail e.launch.queue s.queues } : State).ctx e.launch.sctx).running = true := hr
  rw [State.acceptLaunch]
  simp only [hs, hr', Bool.and_self, if_true]

/-- What an accepted launch leaves: a grid, its teams unplaced, and its script's context started. -/
structure State.Accepted (s t : State) (e : Queued) (img : Image) (uid : Nat) (new : List Team) : Prop where
  queues : t.queues = setAt List.tail e.launch.queue s.queues
  outbox : t.outbox = s.outbox
  grids : t.grids = s.grids ++ [newGrid uid e.launch img]
  teams : t.teams = s.teams ++ new
  groups : t.groups = s.groups
  count : new.length = e.launch.gridX * e.launch.gridY
  unplaced : ∀ tm ∈ new, tm.grid = uid ∧ tm.sched = .candidate ∧ tm.core = none ∧ tm.prio = e.launch.prio
  script : e.launch.script = true → t.ctxs = setAt (fun _ => startedCtx e.launch uid) e.launch.sctx s.ctxs

theorem State.acceptLaunch_accepted {s : State} {e : Queued} {img : Image}
    (h : e.launch.script = false ∨ (s.ctx e.launch.sctx).running = false) :
    ∃ uid new, s.Accepted (s.acceptLaunch e img) e img uid new := by
  have hn : (e.launch.script &&
      (({ s with queues := setAt List.tail e.launch.queue s.queues } : State).ctx e.launch.sctx).running) = false :=
    Bool.and_eq_false_iff.mpr h
  rw [State.acceptLaunch]
  simp only [hn, Bool.false_eq_true, if_false]
  refine ⟨s.clock.uid, launchTeams e.launch img (s.clock.uid + 1) s.clock.uid s.gtime, ?_, ?_, ?_, ?_, ?_, ?_, ?_, ?_⟩
  · split <;> rfl
  · split <;> rfl
  · split <;> rfl
  · split <;> rfl
  · split <;> rfl
  · simp [launchTeams]
  · intro tm htm
    obtain ⟨k, -, rfl⟩ := List.mem_map.mp htm
    exact ⟨rfl, rfl, rfl, rfl⟩
  · intro hs
    simp only [hs, if_true]
    rfl

/-! ## The end of a grid (R308, R309) -/

/-- A grid leaves with its cutting slots. -/
theorem State.dropGrid_parts (s : State) (uid : Nat) : (s.dropGrid uid).outbox = s.outbox ∧
    (s.dropGrid uid).grids = s.grids.filter (·.uid != uid) ∧ ∀ e ∈ (s.dropGrid uid).cuts, e.2.grid ≠ uid :=
  ⟨rfl, rfl, fun _ he => bne_iff_ne.mp (List.mem_filter.mp he).2⟩

theorem gridCompletion_eq {s : State} {uid : Nat} {g : Grid} (hg : s.grid? uid = some g) :
    exec (.gridCompletion uid) s =
      if s.gridDone g then
        .next ((s.post mtGridComplete 0 g.launch.ltag 0 (recordPayload g.nrec g.records)).dropGrid uid)
      else .next s := by
  have he : exec (.gridCompletion uid) s = execGridCompletion uid s := rfl
  rw [he, execGridCompletion, hg]

theorem gridTerminationDone_eq {s : State} {uid : Nat} {g : Grid} (hg : s.grid? uid = some g)
    (ht : g.terminating = true)
    (hb : s.gridBusy uid = false) :
    exec (.gridTerminationDone uid) s =
      .next (((s.removeTeams ((s.teams.filter (·.grid == uid)).map (·.uid))).post mtGridTerminated 0 g.launch.ltag 0
        (recordPayload g.nrec g.records)).dropGrid uid) := by
  have he : exec (.gridTerminationDone uid) s = execGridTerminationDone uid s := rfl
  rw [he, execGridTerminationDone, hg]
  simp only [ht, hb, Bool.not_false, Bool.and_self, if_true]

/-! ## Placement (R311 to R315) -/

/-- A root group at its start: at ENTRY, with every register as at reset (R17, R41). -/
def Group.AtEntry (gr : Grid) (g : Group) : Prop :=
  g.uregs = [] ∧ g.fpmode = 0 ∧ g.pprom = true ∧ g.spcount = 0 ∧ g.task = none ∧ g.lanes.length = 32 ∧
    ∀ l ∈ g.lanes, l.state = .run ∧ l.lpc = BitVec.ofNat 48 (gr.image.base + gr.image.entry) ∧ l.vregs = [] ∧
      l.preds = 0 ∧ l.fpflags = 0 ∧ l.window = 0 ∧ l.handler = false

theorem Group.start_atEntry (gr : Grid) (uid : Nat) (t : Team) (index slot place stackSlot stackLimit : Nat) :
    (Group.start uid t index (BitVec.ofNat 48 (gr.image.base + gr.image.entry)) slot place stackSlot
    stackLimit).AtEntry gr := by
  refine ⟨rfl, rfl, rfl, rfl, rfl, List.length_replicate, fun l hl => ?_⟩
  rw [List.eq_of_mem_replicate hl]
  exact ⟨rfl, rfl, rfl, rfl, rfl, rfl, rfl⟩

/-- Groups at their start have joined the others. -/
def State.Starts (s t : State) (gr : Grid) (n : Nat) : Prop :=
  ∃ new, t.groups = s.groups ++ new ∧ new.length = n ∧ ∀ g ∈ new, g.AtEntry gr

theorem State.Starts.trans {s t u : State} {gr : Grid} {m n : Nat} (h : s.Starts t gr m) (k : t.Starts u gr n) :
    s.Starts u gr (m + n) := by
  obtain ⟨new, hg, hl, hn⟩ := h
  obtain ⟨new', hg', hl', hn'⟩ := k
  refine ⟨new ++ new', by rw [hg', hg, List.append_assoc], by rw [List.length_append, hl, hl'], fun g h => ?_⟩
  exact (List.mem_append.mp h).elim (hn g) (hn' g)

theorem State.startGroups_starts (gr : Grid) (t : Team) (core : Nat) (ks : List Nat) (s : State) :
    s.Starts (ks.foldl (fun s k => s.startGroup gr t core k) s) gr ks.length ∧
      (ks.foldl (fun s k => s.startGroup gr t core k) s).teams = s.teams := by
  induction ks generalizing s with
  | nil => exact ⟨⟨[], (List.append_nil _).symm, rfl, fun _ h => nomatch h⟩, rfl⟩
  | cons k ks ih =>
    obtain ⟨hs, ht⟩ := ih (s.startGroup gr t core k)
    have first : s.Starts (s.startGroup gr t core k) gr 1 :=
      ⟨_, rfl, rfl, fun g hg => by rw [List.mem_singleton.mp hg]; exact Group.start_atEntry ..⟩
    rw [List.length_cons, Nat.add_comm]
    exact ⟨first.trans hs, ht⟩

theorem State.takeSeat_starts (s : State) (gr : Grid) (t : Team) (core : Nat) :
    s.Starts (s.takeSeat gr t core) gr gr.image.teamGroups ∧ (s.takeSeat gr t core).teams = (s.seatTeam t core).teams
    := by
  have h := State.startGroups_starts gr t core (List.range gr.image.teamGroups) (s.seatTeam t core)
  rw [List.length_range] at h
  exact h

/-- Teams that come to their cores: each with all its groups, and each then resident. -/
theorem State.takeSeats (gr : Grid) (core : Team → Nat) (us : List Team) (s : State) :
    let t := us.foldl (fun s u => s.takeSeat gr u (core u)) s
    s.Starts t gr (us.length * gr.image.teamGroups) ∧
      ∀ v ∈ t.teams, (v.sched = .resident ∧ v.core ≠ none) ∨ v ∈ s.teams ∧ v.uid ∉ us.map (·.uid) := by
  induction us generalizing s with
  | nil =>
    exact ⟨⟨[], (List.append_nil _).symm, by simp, fun _ h => nomatch h⟩, fun v hv => .inr ⟨hv, List.not_mem_nil⟩⟩
  | cons u us ih =>
    obtain ⟨hs, ht⟩ := ih (s.takeSeat gr u (core u))
    obtain ⟨first, seated⟩ := s.takeSeat_starts gr u (core u)
    refine ⟨?_, fun v hv => ?_⟩
    · rw [List.length_cons, Nat.succ_mul, Nat.add_comm]
      exact first.trans hs
    · obtain h | ⟨hv, hn⟩ := ht v hv
      · exact .inl h
      · rw [seated] at hv
        obtain ⟨w, hw, rfl⟩ := List.mem_map.mp hv
        split
        next => exact .inl ⟨rfl, Option.some_ne_none _⟩
        next h =>
          rw [if_neg h] at hn
          exact .inr ⟨hw, by simpa [h] using hn⟩

theorem candidatePlacement_eq {s : State} {c : Cand} {cores : List Nat} {tm : Team} {gr : Grid}
    (hc : s.firstPlaceable = some (c, cores)) (ht : c.task = false) (htm : s.team? c.id = some tm)
    (hgr : s.grid? tm.grid = some gr) (hs : tm.sched = .candidate) :
    exec (.candidatePlacement c.id) s =
      .next ((s.cluster tm).foldl (fun s u => s.takeSeat gr u (cores.getD u.member 0)) s) := by
  have he : exec (.candidatePlacement c.id) s = execCandidatePlacement c.id s := rfl
  have hid : tm.uid = c.id := by simpa using List.find?_some htm
  have hmem : (s.clusterTeams tm).contains c.id = true := by
    refine List.contains_iff_mem.mpr (List.mem_map.mpr ⟨tm, List.mem_filter.mpr ⟨List.mem_of_find?_eq_some htm, ?_⟩,
      hid⟩)
    simp
  rw [he, execCandidatePlacement, htm, hc]
  simp only [hgr, ht, hs, hmem, Bool.not_false, beq_self_eq_true, Bool.and_self, if_true]

/-! ## Dispatch (R60, R62) -/

theorem tget_mapFrom {α : Type} (dflt : α) (xs : List α) (k n : Nat) :
    tget dflt (mapFrom (fun i w => (i, w)) k xs) (k + n) = xs.getD n dflt := by
  induction xs generalizing k n with
  | nil => rfl
  | cons x xs ih =>
    rw [mapFrom, tget]
    cases n with
    | zero => simp
    | succ n =>
      have h := ih (k + 1) n
      rw [Nat.add_assoc, Nat.add_comm 1] at h
      rw [if_neg (by omega), h, List.getD_cons_succ]

theorem Word.pair_hi_lo (x : DWord) : Word.pair x.hi x.lo = x := by
  refine BitVec.eq_of_getLsbD_eq fun i hi => ?_
  rw [Word.pair, DWord.hi, DWord.lo, BitVec.getLsbD_append]
  by_cases h : i < 32
  · simp [h]
  · simp [h, show i - 32 < 32 by omega, show 32 + (i - 32) = i by omega]

theorem Word.pair_ofNat (n : Nat) :
    Word.pair (BitVec.ofNat 32 (n / 2 ^ 32)) (BitVec.ofNat 32 n) = BitVec.ofNat 64 n := by
  refine BitVec.eq_of_getLsbD_eq fun i hi => ?_
  rw [Word.pair, BitVec.getLsbD_append, BitVec.getLsbD_ofNat, BitVec.getLsbD_ofNat, BitVec.getLsbD_ofNat,
    Nat.testBit_div_two_pow]
  by_cases h : i < 32
  · simp [h, hi]
  · simp [h, hi, show i - 32 < 32 by omega, show i - 32 + 32 = i by omega]

/-- The uniform registers that a record's group starts with (R62). -/
theorem Group.startTask_u (g : Group) (r : Task) (cutting : Bool) (hr : r.args.length = 8) (n : Nat) :
    (g.startTask r cutting).u n = (r.args ++
      [r.argp.lo, r.argp.hi, r.tile.lo, r.tile.hi, BitVec.ofNat 32 r.succ,
        BitVec.ofNat 32 (r.succ / 2 ^ 32)]).getD n 0 := by
  have h := tget_mapFrom (0 : Word) ((r.args.take 8) ++
    [r.argp.lo, r.argp.hi, r.tile.lo, r.tile.hi, BitVec.ofNat 32 r.succ, BitVec.ofNat 32 (r.succ / 2 ^ 32)]) 0 n
  rw [Nat.zero_add, List.take_of_length_le hr.le] at h
  rw [← h, Group.u, Group.startTask, Task.uregs, List.take_of_length_le hr.le]

theorem taskDispatch_eq {s : State} {c : Cand} {cores : List Nat} {r : Task} {gr : Grid} {k : Nat}
    (hc : s.firstPlaceable = some (c, cores)) (ht : c.task = true) (hr : s.pool.find? (fun r => r.uid == c.id) = some r)
    (hgr : s.grid? r.grid = some gr) (hk : s.freeTaskSlot gr = some k) :
    exec (.taskDispatch c.id) s = .next (s.dispatch gr r k (cores.headD 0)) := by
  have he : exec (.taskDispatch c.id) s = execTaskDispatch c.id s := rfl
  rw [he, execTaskDispatch, hr, hc]
  simp only [hgr, hk, ht, beq_self_eq_true, Bool.and_self, if_true]

end Sys2Proof.Machine

namespace Sys2Proof
open Machine

/-- Settles O40: acceptance and the end of a grid are one change each, a cluster is placed team by team, and a record's
group is one more group in one more team. -/
theorem launchesGridsAndPlacement : Obligations.LaunchesGridsAndPlacement := by
  unfold Obligations.LaunchesGridsAndPlacement
  intro s refused accepts
  have accept {i : Instr} {q : Nat} {e : Queued} {rest : List Queued} {img : Image}
      (hq : s.queues[q]? = some (e :: rest)) (heq : e.launch.queue = q)
      (hx : exec i s = .next (s.acceptLaunch e img)) : accepts i e rest img := by
    subst heq
    refine ⟨fun hs hr => ?_, fun h => ?_⟩
    · rw [State.acceptLaunch_busy hs hr] at hx
      exact ⟨_, hx, State.queueOf_tail hq rfl, rfl, rfl, rfl⟩
    · obtain ⟨uid, new, ha⟩ := State.acceptLaunch_accepted (img := img) h
      refine ⟨_, uid, new, hx, State.queueOf_tail hq ha.queues, ha.outbox, ha.grids, ha.teams, ha.count, ha.groups,
        ha.unplaced, fun hs c hc => ⟨startedCtx e.launch uid, ?_, rfl, rfl, fun r => ?_, rfl, rfl, rfl⟩⟩
      · rw [ha.script hs, setAt_getElem?_same, hc]
        rfl
      · simp [Ctx.reg, startedCtx]
  refine ⟨?_, ?_, ?_, ?_⟩
  · intro msg hb hk l far answers
    have hx := launch_eq hb hk
    have hfar : l.outOfRange (Config.reservedBase s.fw.reservedGiB) = far := rfl
    refine ⟨fun hr => ?_, fun hr hf => ?_, fun hr hf hn => ?_, fun hr hf q hq hn => ?_⟩
    · rw [State.takeRecord, if_pos hr] at hx
      exact hx
    · rw [State.takeRecord, if_neg (Bool.eq_false_iff.mp hr), hfar, if_pos hf] at hx
      exact hx
    · rw [State.takeRecord, if_neg (Bool.eq_false_iff.mp hr), hfar, if_neg (Bool.eq_false_iff.mp hf), if_pos hn] at hx
      exact hx
    · rw [State.takeRecord, if_neg (Bool.eq_false_iff.mp hr), hfar, if_neg (Bool.eq_false_iff.mp hf),
        if_neg (by rw [State.queueOf_eq hq]; exact Nat.not_le.mpr hn)] at hx
      exact ⟨_, hx, rfl, by rw [setAt_getElem?_same, hq]; rfl⟩
  · intro q e rest hq heq
    refine ⟨fun hf hw => ?_, fun img hw hc => accept hq heq (carveoutWaitEnd_eq hq hw hc)⟩
    refine ⟨fun st hc => ?_, fun img hc => ⟨fun hfit => accept hq heq (launchQueueHead_accepted hq hf hw hc hfit),
      launchQueueHead_waits hq hf hw hc⟩⟩
    exact ⟨_, launchQueueHead_refused hq hf hw hc, State.queueOf_tail hq (by rw [← heq]; rfl), rfl⟩
  · intro uid g hg ends
    refine ⟨fun hd => ?_, fun hd => ?_, fun ht hb => ?_⟩
    · obtain ⟨ho, hgr, hc⟩ :=
        (s.post mtGridComplete 0 g.launch.ltag 0 (recordPayload g.nrec g.records)).dropGrid_parts uid
      exact ⟨_, by rw [gridCompletion_eq hg, if_pos hd], ho, hgr, hc⟩
    · rw [gridCompletion_eq hg, if_neg (Bool.eq_false_iff.mp hd)]
    · obtain ⟨ho, hgr, hc⟩ := ((s.removeTeams ((s.teams.filter (·.grid == uid)).map (·.uid))).post mtGridTerminated 0
        g.launch.ltag 0 (recordPayload g.nrec g.records)).dropGrid_parts uid
      exact ⟨_, gridTerminationDone_eq hg ht hb, ho, hgr, hc⟩
  · intro c cores hc
    refine ⟨fun ht tm gr htm hgr hs => ?_, fun ht r gr k hr hgr hk hargs => ?_⟩
    · obtain ⟨⟨new, hgroups, hlen, hnew⟩, hteams⟩ :=
        State.takeSeats gr (fun u => cores.getD u.member 0) (s.cluster tm) s
      refine ⟨_, new, candidatePlacement_eq hc ht htm hgr hs, hgroups, hlen, hnew, fun u hu hmem => ?_, fun h1 => ?_⟩
      · exact (hteams u hu).elim id fun h => absurd hmem h.2
      · have huid : tm.uid = c.id := by simpa using List.find?_some htm
        rw [h1, List.foldl_cons, List.foldl_nil, State.team?, (s.takeSeat_starts gr tm _).2]
        exact ⟨_, find?_changed (key := Machine.Team.uid) (huid ▸ htm) rfl, rfl⟩
    · have hu := fun cutting g => Group.startTask_u g r cutting hargs
      refine ⟨_, _, _, taskDispatch_eq hc ht hr hgr hk, rfl, rfl, rfl, rfl, rfl, rfl, rfl, ?_, ?_, ?_, ?_, ?_, ?_⟩
      · exact List.length_replicate
      · intro l hl
        rw [List.eq_of_mem_replicate hl]
        exact ⟨rfl, rfl, rfl, rfl⟩
      · intro n hn
        rw [hu, List.getD_append _ _ _ _ (hargs ▸ hn)]
      · rw [Group.uPair, hu, hu, List.getD_append_right _ _ _ _ (by omega), List.getD_append_right _ _ _ _ (by omega),
        hargs]
        exact Word.pair_hi_lo _
      · rw [Group.uPair, hu, hu, List.getD_append_right _ _ _ _ (by omega), List.getD_append_right _ _ _ _ (by omega),
        hargs]
        exact Word.pair_hi_lo _
      · rw [Group.uPair, hu, hu, List.getD_append_right _ _ _ _ (by omega), List.getD_append_right _ _ _ _ (by omega),
        hargs]
        exact Word.pair_ofNat _

end Sys2Proof
end

section
/-!
PROOFS. Records that return, groups that retire, decrements and what they release, and the lanes that firmware's answer
reaches (R57 to R63, R272).
-/

-- One proof after another: each that waits beside others holds a stack of its own.
set_option Elab.async false

namespace Sys2Proof.Machine

/-! ## A grid that ends on faults (R320) -/

theorem State.runContexts_rest (ts : List Team) (s : State) :
    (ts.foldl State.runContext s).grids = s.grids ∧ (ts.foldl State.runContext s).outbox = s.outbox := by
  induction ts generalizing s with
  | nil => exact ⟨rfl, rfl⟩
  | cons t ts ih => exact ih (s.runContext t)

theorem State.terminateWith_outbox (s : State) (grid : Nat) (rs : List FaultRec) :
    (s.terminateWith grid rs).outbox = s.outbox := by
  unfold State.terminateWith State.terminate
  split
  · rfl
  · split
    · rfl
    · exact (State.runContexts_rest ..).2

/-- A grid that ends with records is terminating, and has them after those that it had. -/
theorem State.terminateWith_ends {s : State} {grid : Nat} {gr : Grid} (hgr : s.grid? grid = some gr)
    (ht : gr.terminating = false) (rs : List FaultRec) :
      ∃ gr',
        (s.terminateWith grid rs).grid? grid = some gr' ∧ gr'.terminating = true ∧ gr'.records = gr.records ++ rs := by
  let recorded : Grid := { gr with nrec := min (gr.nrec + rs.length) (2 ^ 32 - 1), records := gr.records ++ rs }
  have hid : gr.uid = grid := by simpa using List.find?_some hgr
  have hr : (s.addRecords grid rs).grid? grid = some recorded := find?_changed (key := Grid.uid) hgr hid
  have open_ : ((s.grid? grid).any (·.terminating)) = false := by rw [hgr]; exact ht
  have open' : (((s.addRecords grid rs).grid? grid).any (·.terminating)) = false := by rw [hr]; exact ht
  have hx : s.terminateWith grid rs = (s.addRecords grid rs).terminate grid := if_neg (Bool.eq_false_iff.mp open_)
  rw [hx, State.terminate, if_neg (Bool.eq_false_iff.mp open')]
  have hgrids := (State.runContexts_rest ((s.addRecords grid rs).teams.filter (·.grid == grid))
    (s.addRecords grid rs)).1
  generalize ((s.addRecords grid rs).teams.filter (·.grid == grid)).foldl State.runContext (s.addRecords grid rs) = w
    at hgrids
  have hw : w.grid? grid = some recorded := by rw [State.grid?, hgrids]; exact hr
  exact ⟨_, find?_changed (key := Grid.uid) hw hid, rfl, rfl⟩

/-! ## Spilled, waiting and kept records (R59, R60, R63, R379) -/

theorem spillRefill_eq {s : State} {r : Task} (hr : s.oldestSpilled = some r) (hp : s.pool.length < 65536) :
    exec (.spillRefill r.grid) s = .next { s.modGrid r.grid fun gr => { gr with ring := gr.ring.tail } with
      pool := s.pool ++ [{ r with since := s.gtime }] } := by
  have he : exec (.spillRefill r.grid) s = execSpillRefill r.grid s := rfl
  rw [he, execSpillRefill, hr]
  exact if_pos ⟨rfl, hp⟩

theorem ringPageMapped_eq {s : State} {uid : Nat} {ok : Bool} {g : Grid} (hg : s.grid? uid = some g)
    (hw : g.ringWait = true) :
    exec (.ringPageMapped uid ok) s =
      .next { s.modGrid uid fun gr =>
                { gr with ringWait := false,
                          ringMapped := if ok then min (gr.ringMapped + 1024) gr.launch.ringCap else gr.ringMapped }
                            with
              groups := s.groups.map fun g =>
                if g.grid = uid ∧ g.push = some none then { g with push := if ok then none else some (some 3) } else g
                  } := by
  have he : exec (.ringPageMapped uid ok) s = execRingPageMapped uid ok s := rfl
  rw [he, execRingPageMapped, hg]
  simp only [Option.any_some, hw, Bool.not_true, Bool.false_eq_true, if_false]
  rfl

theorem State.retryKept_enters {s : State} {k : Kept} {gr : Grid} (hgr : s.grid? k.task.grid = some gr)
    (hp : s.pool.length < 65536) : ∃ n, (s.retryKept k).kept = s.kept.filter (·.task.uid != k.task.uid) ∧
      (s.retryKept k).pool = s.pool ++ [{ k.task with uid := n, since := s.gtime, order := n }] := by
  have room : s.roomFor gr = .pool := if_pos hp
  refine ⟨s.clock.uid, ?_⟩
  unfold State.retryKept
  simp only [hgr, room]
  exact ⟨rfl, rfl⟩

theorem companionRetry_eq {s : State} {k : Kept}
    (hk : s.kept.find? (fun k' => k'.task.uid == k.task.uid && k'.companion) = some k) :
    exec (.companionRetry k.task.uid) s = .next (s.retryKept k) := by
  have he : exec (.companionRetry k.task.uid) s = execCompanionRetry k.task.uid s := rfl
  rw [he, execCompanionRetry, hk]

theorem heldRecordRetry_eq {s : State} {k : Kept}
    (hk : s.kept.find? (fun k' => k'.group == k.group && !k'.companion) = some k) :
    exec (.heldRecordRetry k.group) s = .next (s.retryKept k) := by
  have he : exec (.heldRecordRetry k.group) s = execHeldRecordRetry k.group s := rfl
  rw [he, execHeldRecordRetry, hk]

/-! ## Tracker entries (R57) -/

theorem State.dropTeam_retiring (s : State) (team : Nat) : (s.dropTeam team).retiring = s.retiring := by
  unfold State.dropTeam
  split
  · rfl
  · dsimp only
    split <;> rfl

section
variable {s : State} {core uid : Nat} {r : Retiring}
  (hr : s.retiring.find? (fun r => r.core == core && r.group == uid) = some r)

include hr in
theorem Retiring.names : r.core = core ∧ r.group = uid := by simpa using List.find?_some hr

include hr in
theorem trackerEntryFree_eq :
    exec (.trackerEntryFree core uid) s =
      if r.decrement.isSome && s.writesDone r && s.opsDone uid then
        .next (({ s with retiring := s.retiring.filter (·.group != uid) } : State).dropTeam r.team)
      else .next s := by
  have he : exec (.trackerEntryFree core uid) s = execTrackerEntryFree core uid s := rfl
  rw [he, execTrackerEntryFree, hr]

/-! ## The decrement (R63) -/

/-- A state that differs in memory, the cores, what is on its way and the numbers given out, at the same time. -/
structure State.Beside (s w : State) : Prop where
  rest : w = { s with mem := w.mem, cores := w.cores, pend := w.pend, clock := w.clock }
  tick : w.clock.tick = s.clock.tick

theorem State.Beside.trans {s t u : State} (h : s.Beside t) (k : t.Beside u) : s.Beside u :=
  ⟨by rw [k.rest, h.rest], k.tick.trans h.tick⟩

section
variable {s w : State} (h : s.Beside w)
include h

theorem State.Beside.pool : w.pool = s.pool := by rw [h.rest]
theorem State.Beside.kept : w.kept = s.kept := by rw [h.rest]
theorem State.Beside.outbox : w.outbox = s.outbox := by rw [h.rest]
theorem State.Beside.grids : w.grids = s.grids := by rw [h.rest]
theorem State.Beside.gtime : w.gtime = s.gtime := by rw [State.gtime, h.tick]; rfl

theorem State.Beside.recordBad (gr : Grid) (ws : List Word) : w.recordBad gr ws = s.recordBad gr ws := by
  have hc : w.cuts = s.cuts := by rw [h.rest]
  simp only [State.recordBad, State.recordRules, State.slot?, hc]

theorem State.Beside.depthLimit (gr : Grid) : w.depthLimit gr = s.depthLimit gr := by
  have hf : w.fw = s.fw := by rw [h.rest]
  simp only [State.depthLimit, hf]

end

/-- What stands as the decrement meets its block: the count and all that it may release are as they were. -/
structure State.AtBlock (s w : State) : Prop extends State.Beside s w where
  cells : w.mem.cells = s.mem.cells
  updates : w.mem.updates = s.mem.updates

variable (hd : s.decrementDue r = true) (h0 : r.succ ≠ 0)

include hr hd in
theorem successorDecrement_none (h0 : r.succ = 0) :
    exec (.successorDecrement core uid) s = .next (s.settleDecrement uid none) := by
  have he : exec (.successorDecrement core uid) s = execSuccessorDecrement core uid s := rfl
  rw [he, execSuccessorDecrement, hr]
  simp only [hd, h0, Bool.not_true, Bool.false_eq_true, if_false, if_true]

include hr hd h0 in
theorem successorDecrement_fault {c : Cause} (hm : s.meetBlock [] core r.grid r.succ = .fault c) :
    exec (.successorDecrement core uid) s = .next (s.failDecrement r c) := by
  have he : exec (.successorDecrement core uid) s = execSuccessorDecrement core uid s := rfl
  rw [← (Retiring.names hr).1] at hm
  rw [he, execSuccessorDecrement, hr]
  simp only [hd, h0, hm, Bool.not_true, Bool.false_eq_true, if_false]

include hr hd h0 in
theorem successorDecrement_place {p : Place} (hm : s.meetBlock [] core r.grid r.succ = .place p) :
    ∃ w writer arrival, s.AtBlock w ∧ s.gtime ≤ arrival ∧ r.lwct ≤ arrival ∧ exec (.successorDecrement core uid) s =
      .next ((w.addCount (s.releaser r) r.succ p.pa (-1) writer arrival).1.settleDecrement uid
        (some (w.addCount (s.releaser r) r.succ p.pa (-1) writer arrival).2.2)) := by
  have he : exec (.successorDecrement core uid) s = execSuccessorDecrement core uid s := rfl
  obtain ⟨hcore, -⟩ := Retiring.names hr
  rw [← hcore] at hm
  have performed := (s.cacheXlat_performs r.core (s.rootOf r.grid) r.succ).trans (State.reachHome_performs _ p true 8)
  have calm := (State.Still.frame.trans (s.cacheXlat_still r.core (s.rootOf r.grid) r.succ)
    (State.reachHome_still _ p true 8)).calm
  refine ⟨((s.cacheXlat r.core (s.rootOf r.grid) r.succ).reachHome p true 8).arrival.2,
    { cls := 1, chip := s.chipId, lcid := r.lcid, team := (s.releaser r).team, group := r.index, lane := 32 },
    max ((s.cacheXlat r.core (s.rootOf r.grid) r.succ).reachHome p true 8).arrival.1 r.lwct,
    ⟨⟨?_, ?_⟩, ?_, ?_⟩, ?_, Nat.le_max_right .., ?_⟩
  · unfold State.Performs at performed
    generalize (s.cacheXlat r.core (s.rootOf r.grid) r.succ).reachHome p true 8 = u at performed
    rw [performed]
    rfl
  · exact calm.tick
  · exact calm.cells
  · exact calm.updates
  · refine Nat.le_trans ?_ (Nat.le_max_left ..)
    rw [State.gtime, ← calm.tick]
    exact Nat.le_add_right ..
  · rw [he, execSuccessorDecrement, hr]
    simp only [hd, h0, hm, Bool.not_true, Bool.false_eq_true, if_false]

end

theorem Memory.count_lt (mem : Memory) (pa : Nat) : mem.count pa < 2 ^ 64 := by
  have h := (mem.latest pa).isLt
  have k := (mem.latest (pa + 4)).isLt
  unfold Memory.count
  omega

section
variable (w : State) (who : Releaser) (va pa : Nat) (writer : Writer) (arrival : Nat)

theorem State.counted_beside (sum : Int) : w.Beside (w.counted who pa sum writer arrival).1 := ⟨rfl, rfl⟩

/-- A decrement that leaves a count above 0 releases nothing. -/
theorem State.decrement_many (h : 1 < w.mem.count pa) :
    ∃ c, w.Beside c ∧ (w.addCount who va pa (-1) writer arrival).1 = c := by
  refine ⟨_, w.counted_beside who pa writer arrival ((w.mem.count pa : Int) + (-1)), ?_⟩
  rw [State.addCount_eq]
  dsimp only
  rw [if_neg (by omega), State.countReported, if_neg (by omega)]

/-- A decrement of 0 is reported (R63). -/
theorem State.decrement_zero (h : w.mem.count pa = 0) : ∃ c, w.Beside c ∧
    (w.addCount who va pa (-1) writer arrival).1 = c.event 1 va [] := by
  refine ⟨_, w.counted_beside who pa writer arrival ((w.mem.count pa : Int) + (-1)), ?_⟩
  rw [State.addCount_eq]
  dsimp only
  rw [if_neg (by omega), State.countReported, if_pos (by omega)]

/-- A decrement to 0 releases the companion, as the update leaves it. -/
theorem State.decrement_last (h : w.mem.count pa = 1) : ∃ c, w.Beside c ∧
    c.mem = (w.addCount who va pa (-1) writer arrival).1.mem ∧ (w.addCount who va pa (-1) writer arrival).1 =
      c.releaseCompanion who va pa (w.addCount who va pa (-1) writer arrival).2.2 := by
  refine ⟨_, w.counted_beside who pa writer arrival ((w.mem.count pa : Int) + (-1)), ?_⟩
  rw [State.addCount_eq]
  dsimp only
  rw [if_pos (by omega), State.countReported, if_neg (by omega)]
  exact ⟨((State.releaseCompanion_held ..).1).symm, rfl⟩

end

theorem State.releaseCompanion_outbox (s : State) (r : Releaser) (va pa wct : Nat) :
    (s.releaseCompanion r va pa wct).outbox = s.outbox := by
  unfold State.releaseCompanion
  dsimp only
  split
  · rfl
  · split
    · rfl
    · split
      · exact State.terminateWith_outbox ..
      · unfold State.keepTask
        split
        · rfl
        · split <;> rfl

theorem State.releaseCompanion_bad {s : State} {r : Releaser} {va pa wct : Nat} {gr : Grid}
    (hgr : s.grid? r.grid = some gr) (he : (recordOf (wordsOf (s.mem.bytesAt wct (pa + 64) 64))).entry ≠ 0)
    (hb : s.recordBad gr (wordsOf (s.mem.bytesAt wct (pa + 64) 64)) = true ∨
      s.depthLimit gr < (recordOf (wordsOf (s.mem.bytesAt wct (pa + 64) 64))).depth) :
    s.releaseCompanion r va pa wct = s.terminateWith r.grid [r.record { Cause.illegalOperand with addr := va }] := by
  simp only [State.releaseCompanion, hgr]
  rw [if_neg he, if_pos (by simpa using hb)]

theorem State.settleDecrement_settled (s : State) (uid : Nat) (out : Option Nat) :
    ∀ q ∈ (s.settleDecrement uid out).retiring, q.group = uid → q.decrement = some out := by
  intro q hq hu
  obtain ⟨q0, -, rfl⟩ := List.mem_map.mp hq
  split at hu
  next h => rw [if_pos h]
  next h => exact absurd hu h

/-! ## Lanes that firmware's answer reaches (R272) -/

/-- A lane waits for no page that it did not wait for. -/
def Lane.Eases (l l' : Lane) : Prop := l'.service = none ∨ l'.service = l.service

/-- Likewise the lanes of a group, which keeps its names. -/
structure Group.Eases (g g' : Group) : Prop where
  uid : g'.uid = g.uid
  grid : g'.grid = g.grid
  count : g'.lanes.length = g.lanes.length
  lanes : ∀ (i : Nat) (l l' : Lane), g.lanes[i]? = some l → g'.lanes[i]? = some l' → l.Eases l'

/-- Likewise the groups of a state, of which some may leave. -/
structure State.Eases (s t : State) : Prop where
  origin : ∀ g' ∈ t.groups, ∃ g ∈ s.groups, Group.Eases g g'

theorem Group.Eases.of_same {g g' : Group} (hu : g'.uid = g.uid) (hg : g'.grid = g.grid) (hl : g'.lanes = g.lanes) :
    g.Eases g' :=
  ⟨hu, hg, congrArg _ hl, fun _ l l' h h' => .inr (by rw [hl, h] at h'; rw [Option.some.inj h'])⟩

theorem Group.Eases.trans {g g' g'' : Group} (h : g.Eases g') (k : g'.Eases g'') : g.Eases g'' := by
  refine ⟨k.uid.trans h.uid, k.grid.trans h.grid, k.count.trans h.count, fun i l l'' hl hl'' => ?_⟩
  have hi : i < g'.lanes.length := k.count ▸ (List.getElem?_eq_some_iff.mp hl'').1
  have hl' := List.getElem?_eq_getElem hi
  exact (k.lanes i _ l'' hl' hl'').elim .inl fun e => (h.lanes i l _ hl hl').imp e.trans e.trans

/-- Lanes that are changed so that none waits anew. -/
theorem Group.onLanes_eases (g : Group) (mask : BitVec 32) {f : Nat → Lane → Lane} (hf : ∀ i l, Lane.Eases l (f i l)) :
    g.Eases (g.onLanes mask f) := by
  refine ⟨rfl, rfl, Group.onLanes_length .., fun i l l' hl hl' => ?_⟩
  rw [Group.onLanes_lane, hl] at hl'
  obtain rfl := Option.some.inj hl'
  split
  · exact hf i l
  · exact .inr rfl

theorem State.Eases.of_groups {s t : State} (h : t.groups = s.groups) : s.Eases t :=
  ⟨fun g hg => ⟨g, h ▸ hg, .of_same rfl rfl rfl⟩⟩

theorem State.Eases.refl (s : State) : s.Eases s := .of_groups rfl

theorem State.Eases.trans {s t u : State} (h : s.Eases t) (k : t.Eases u) : s.Eases u := by
  refine ⟨fun g'' hg'' => ?_⟩
  obtain ⟨g', hg', ha'⟩ := k.origin g'' hg''
  obtain ⟨g, hg, ha⟩ := h.origin g' hg'
  exact ⟨g, hg, ha.trans ha'⟩

theorem State.Eases.foldl {α : Type} (f : State → α → State) (hf : ∀ (s : State) a, s.Eases (f s a)) (xs : List α)
    (s : State) :
    s.Eases (xs.foldl f s) := foldl_rel State.Eases .refl .trans id f hf xs s

theorem State.modGroup_eases (s : State) (u : Nat) {f : Group → Group} (hf : ∀ g, Group.Eases g (f g)) :
    s.Eases (s.modGroup u f) := by
  refine ⟨fun g' hg' => ?_⟩
  obtain ⟨g, hg, rfl⟩ := List.mem_map.mp hg'
  refine ⟨g, hg, ?_⟩
  split
  · exact hf g
  · exact .of_same rfl rfl rfl

/-! ### Faults that firmware's refusal brings -/

theorem State.runContexts_groups (ts : List Team) (s : State) : (ts.foldl State.runContext s).groups = s.groups := by
  induction ts generalizing s with
  | nil => rfl
  | cons t ts ih => exact ih (s.runContext t)

theorem State.terminateWith_eases (s : State) (grid : Nat) (rs : List FaultRec) :
    s.Eases (s.terminateWith grid rs) := by
  unfold State.terminateWith State.terminate
  split
  · exact .refl s
  · split
    · exact .of_groups rfl
    · refine ⟨fun g' hg' => ?_⟩
      obtain ⟨g, hg, rfl⟩ := List.mem_map.mp hg'
      have hg := (List.mem_filter.mp hg).1
      rw [State.runContexts_groups] at hg
      exact ⟨g, hg, .of_same rfl rfl rfl⟩

theorem State.raise_eases (s : State) (x : Site) (bad : BitVec 32) (fault : Nat → Lane → Option Cause) :
    s.Eases (s.raise x bad fault) := by
  have trapped : s.Eases (s.modGroup x.g.uid fun g => g.onLanes bad fun i l =>
      match fault i l with
      | none => l
      | some c => l.trap x.pc (!x.g.stubs.isEmpty) c) := by
    refine s.modGroup_eases _ fun g => g.onLanes_eases _ fun i l => ?_
    split
    · exact .inr rfl
    · exact .inl rfl
  unfold State.raise
  dsimp only
  split
  · exact trapped
  · split
    · exact trapped
    · exact trapped.trans (State.terminateWith_eases ..)

theorem State.raiseLate_eases (s : State) (group : Nat) (lanes : BitVec 32) (pc : Addr) (c : Cause) :
    s.Eases (s.raiseLate group lanes pc c) := by
  unfold State.raiseLate
  split
  · exact .refl s
  next g _ =>
    split
    · exact .refl s
    · exact (s.modGroup_eases group fun h => h.onLanes_eases (f := fun _ l => { l with lpc := pc })
        (g.maskOf fun i l => lanes.getLsbD i && !l.isDone) fun _ _ => .inr rfl).trans (State.raise_eases ..)

theorem State.failTable_eases (s : State) (core k : Nat) (t : TableLoad) (c : Cause) :
    s.Eases (s.failTable core k t c) :=
  State.Eases.trans (t := s.modBank core k fun b => { b with state := .invalid, load := none }) (.of_groups rfl)
    (State.raiseLate_eases ..)

theorem State.failDecrement_eases (s : State) (r : Retiring) (c : Cause) : s.Eases (s.failDecrement r c) :=
  State.Eases.trans (t := s.settleDecrement r.group none) (.of_groups rfl) (State.terminateWith_eases ..)

theorem State.failOps_groups (s : State) (grid entryAt low len : Nat) :
    (s.failOps grid entryAt low len).groups = s.groups := by
  refine foldl_rel (fun s t : State => t.groups = s.groups) (fun _ => rfl)
    (fun h k => k.trans h) id _ (fun s i => ?_) _ s
  refine foldl_rel (fun s t : State => t.groups = s.groups) (fun _ => rfl)
    (fun h k => k.trans h) id _ (fun s o => ?_) _ s
  dsimp only [id]
  split <;> rfl

theorem State.failTables_eases (s : State) (grid low len : Nat) : s.Eases (s.failTables grid low len) := by
  refine State.Eases.foldl _ (fun s i => State.Eases.foldl _ (fun s k => ?_) _ s) _ s
  split
  · exact .refl s
  · split
    · exact State.failTable_eases ..
    · exact .refl s

theorem State.serveCtxs_groups (s : State) (grid low len : Nat) (ok : Bool) :
    (s.serveCtxs grid low len ok).groups = s.groups := by
  refine foldl_rel (fun s t : State => t.groups = s.groups) (fun _ => rfl)
    (fun h k => k.trans h) id _ (fun s n => ?_) _ s
  dsimp only [id]
  split
  · split
    · split <;> rfl
    · rfl
  · split <;> rfl
  · rfl

theorem State.failDecrements_eases (s : State) (grid low len : Nat) : s.Eases (s.failDecrements grid low len) :=
  State.Eases.foldl _ (fun s _ => s.failDecrement_eases ..) _ s

/-! ### The lanes that are served -/

/-- No lane that a group held waiting in a range waits there now. -/
def State.Served (t : State) (grid low len : Nat) (h : Group) : Prop :=
  h.grid = grid → ∀ g ∈ t.groups, g.uid = h.uid → ∀ (i : Nat) (l0 l : Lane), i < 32 → h.lanes[i]? = some l0 →
    g.lanes[i]? = some l → l0.service.any (within low len) = true → l.service = none

theorem State.Served.of_eases {t u : State} {grid low len : Nat} {h : Group} (hs : t.Served grid low len h)
    (ha : t.Eases u) : u.Served grid low len h := by
  intro hg g hmem hu i l0 l hi hl0 hl hw
  obtain ⟨g0, hg0, eases⟩ := ha.origin g hmem
  have hi0 : i < g0.lanes.length := eases.count ▸ (List.getElem?_eq_some_iff.mp hl).1
  have hl1 := List.getElem?_eq_getElem hi0
  have none := hs hg g0 hg0 (eases.uid.symm.trans hu) i l0 _ hi hl0 hl1 hw
  exact (eases.lanes i _ l hl1 hl).elim id fun e => e.trans none

/-- What serving one group does. -/
def State.serveGroup (grid low len : Nat) (ok : Bool) (s : State) (g : Group) : State :=
  let mask := g.maskOf fun _ l => l.service.any (within low len)
  if g.grid != grid || mask = 0 then s
  else
    let s1 := s.modGroup g.uid fun g => g.onLanes mask fun _ l => { l with service := none }
    if ok then s1
    else
      (laneList mask).foldl
        (fun s i =>
          match g.lane? i with
          | none => s
          | some l =>
            let va := l.service.getD 0
            match s.grid? g.grid with
            | none => s
            | some gr =>
              let c := { Cause.translation 0 va with fetch := l.redo.isNone }
              s.raise { g := g, img := g.image gr.image, pc := l.lpc, mask := mask } (BitVec.ofNat 32 (2 ^ i))
                fun _ _ => some c) s1

/-- The lanes of a group that wait in the range wait no more. -/
theorem State.cleared_eases (s : State) (g : Group) (mask : BitVec 32) :
    s.Eases (s.modGroup g.uid fun g => g.onLanes mask fun _ l => { l with service := none }) :=
  s.modGroup_eases _ fun g => g.onLanes_eases _ fun _ _ => .inl rfl

/-- Faults of lanes whose page firmware refuses. -/
theorem State.served_eases (low len : Nat) (s : State) (g : Group) :
    s.Eases ((laneList (g.maskOf fun _ l => l.service.any (within low len))).foldl
      (fun s i =>
        match g.lane? i with
        | none => s
        | some l =>
          let va := l.service.getD 0
          match s.grid? g.grid with
          | none => s
          | some gr =>
            let c := { Cause.translation 0 va with fetch := l.redo.isNone }
            s.raise { g := g, img := g.image gr.image, pc := l.lpc,
                      mask := g.maskOf fun _ l => l.service.any (within low len) } (BitVec.ofNat 32 (2 ^ i))
              fun _ _ => some c) s) := by
  refine State.Eases.foldl _ (fun s i => ?_) _ _
  split
  · exact .refl s
  · split
    · exact .refl s
    · exact State.raise_eases ..

theorem State.serveGroup_eases (s : State) (grid low len : Nat) (ok : Bool) (g : Group) :
    s.Eases (State.serveGroup grid low len ok s g) := by
  unfold State.serveGroup
  dsimp only
  split
  · exact .refl s
  · refine (s.cleared_eases g (g.maskOf fun _ l => l.service.any (within low len))).trans ?_
    split
    · exact .refl _
    · exact State.served_eases ..

/-- A group's turn leaves none of its lanes waiting in the range. -/
theorem State.serveGroup_served (s : State) (grid low len : Nat) (ok : Bool) (h : Group) :
    (State.serveGroup grid low len ok s h).Served grid low len h := by
  let mask := h.maskOf fun _ l => l.service.any (within low len)
  have waits {i : Nat} {l : Lane} (hi : i < 32) (hl : h.lanes[i]? = some l) :
      mask.getLsbD i = l.service.any (within low len) := by
    rw [Group.maskOf_getLsbD, hl]
    simp [hi]
  have cleared :
    (s.modGroup h.uid fun g => g.onLanes mask fun _ l => { l with service := none }).Served grid low len h := by
    intro _ g hg hu i l0 l hi hl0 hl hw
    obtain ⟨g0, -, rfl⟩ := List.mem_map.mp hg
    split at hu
    next h0 =>
      rw [if_pos h0, Group.onLanes_lane, waits hi hl0, hw] at hl
      obtain ⟨l1, -, rfl⟩ := Option.map_eq_some_iff.mp hl
      rfl
    next h0 => exact absurd hu h0
  unfold State.serveGroup
  dsimp only
  split
  next hs =>
    intro hg g _ _ i l0 l hi hl0 _ hw
    have h0 : mask = 0 := by simpa [hg] using hs
    rw [← waits hi hl0, h0] at hw
    simp at hw
  · refine cleared.of_eases ?_
    split
    · exact .refl _
    · exact State.served_eases ..

/-- No lane of a grid's groups waits in a range. -/
def State.AllServed (t : State) (grid low len : Nat) : Prop :=
  ∀ g ∈ t.groups, g.grid = grid → g.lanes.length ≤ 32 → ∀ l ∈ g.lanes, ∀ a, l.service = some a → a < low ∨ low + len ≤ a

theorem State.AllServed.of_eases {s t : State} {grid low len : Nat} (h : s.AllServed grid low len) (ha : s.Eases t) :
    t.AllServed grid low len := by
  intro g hg hgrid hn l hl a hs
  obtain ⟨g0, hg0, eases⟩ := ha.origin g hg
  obtain ⟨i, hi⟩ := List.mem_iff_getElem?.mp hl
  have hi0 : i < g0.lanes.length := eases.count ▸ (List.getElem?_eq_some_iff.mp hi).1
  have hl0 := List.getElem?_eq_getElem hi0
  obtain none | same := eases.lanes i _ l hl0 hi
  · rw [none] at hs
    cases hs
  · exact h g0 hg0 (eases.grid.symm.trans hgrid) (eases.count ▸ hn) _ (List.getElem_mem hi0) a (same.symm.trans hs)

theorem State.serveLanes_allServed (s : State) (grid low len : Nat) (ok : Bool) :
    (s.serveLanes grid low len ok).AllServed grid low len := by
  have eases : s.Eases (s.serveLanes grid low len ok) :=
    State.Eases.foldl (State.serveGroup grid low len ok) (fun s g => s.serveGroup_eases ..) s.groups s
  have served (h : Group) (hh : h ∈ s.groups) : (s.serveLanes grid low len ok).Served grid low len h :=
    foldl_establishes (I := fun _ => True) (Q := fun t => t.Served grid low len h)
    (State.serveGroup grid low len ok) hh (fun _ _ _ _ => trivial)
      (fun s b _ _ hq => hq.of_eases (s.serveGroup_eases ..))
        (fun s _ => s.serveGroup_served grid low len ok h) s trivial
  intro g hg hgrid hn l hl a hs
  obtain ⟨g0, hg0, from_⟩ := eases.origin g hg
  obtain ⟨i, hi⟩ := List.mem_iff_getElem?.mp hl
  have hi32 : i < g.lanes.length := (List.getElem?_eq_some_iff.mp hi).1
  have hl0 := List.getElem?_eq_getElem (from_.count ▸ hi32 : i < g0.lanes.length)
  by_contra hin
  have hw : within low len a = true := by
    rw [within, Bool.and_eq_true, decide_eq_true_eq, decide_eq_true_eq]
    omega
  obtain none | same := from_.lanes i _ l hl0 hi
  · rw [none] at hs
    cases hs
  · have gone := served g0 hg0 (from_.grid.symm.trans hgrid) g hg from_.uid i _ l (hi32.trans_le hn) hl0 hi
      (by rw [same.symm.trans hs]; exact hw)
    rw [gone] at hs
    cases hs

section
variable {s : State} {uid va entryAt low len : Nat} {entry : DWord}
  (hf : (s.rootsAsked uid va).findSome? (fun root => s.serviceEntry va walkLevels root) = some (entryAt, low, len))

include hf in
theorem serviceablePageMapped_eq (ok : Bool) :
    exec (.serviceablePageMapped uid va ok entry) s =
      if ok && entry.getLsbD 0 then
        .next (((s.writeEntry entryAt entry.toNat).serveLanes uid low len true).serveCtxs uid low len true)
      else .next (s.refuseRange uid entryAt low len) := by
  have he : exec (.serviceablePageMapped uid va ok entry) s = execServiceablePageMapped uid va ok entry s := rfl
  rw [he, execServiceablePageMapped, hf]

end

/-- A refused range: each lane that waits there has its fault. -/
theorem State.refuseRange_allServed {s : State} {uid entryAt low len : Nat} (h0 : uid ≠ 0) :
    (s.refuseRange uid entryAt low len).AllServed uid low len := by
  rw [State.refuseRange, if_neg h0]
  refine ((((s.serveLanes_allServed uid low len false).of_eases (.of_groups (State.failOps_groups ..))).of_eases
    (State.failTables_eases ..)).of_eases (.of_groups (State.serveCtxs_groups ..))).of_eases
    (State.failDecrements_eases ..)

/-- Lanes and contexts that go on leave memory as it is. -/
theorem State.serveLanes_ok_mem (s : State) (grid low len : Nat) : (s.serveLanes grid low len true).mem = s.mem := by
  refine foldl_rel (fun s t : State => t.mem = s.mem) (fun _ => rfl) (fun h k => k.trans h) id _ (fun s g => ?_) _ s
  dsimp only [id]
  split <;> rfl

theorem State.serveCtxs_mem (s : State) (grid low len : Nat) (ok : Bool) :
    (s.serveCtxs grid low len ok).mem = s.mem := by
  refine foldl_rel (fun s t : State => t.mem = s.mem) (fun _ => rfl) (fun h k => k.trans h) id _ (fun s n => ?_) _ s
  dsimp only [id]
  split
  · split
    · split <;> rfl
    · rfl
  · split <;> rfl
  · rfl

end Sys2Proof.Machine

namespace Sys2Proof
open Machine

/-- Settles O41: records enter the pool as they are, an entry is freed or decremented as its tests say, and firmware's
answer reaches every lane that waits in the range. -/
theorem taskQueuesAndRetirement : Obligations.TaskQueuesAndRetirement := by
  unfold Obligations.TaskQueuesAndRetirement
  intro s
  refine ⟨?_, ?_, ?_, ?_, ?_⟩
  · intro r hr hp
    refine ⟨_, spillRefill_eq hr hp, rfl, fun g hg g0 hg0 => ?_⟩
    have h := find?_changed (key := Machine.Grid.uid) (f := fun gr => { gr with ring := gr.ring.tail }) hg0
      (by simpa using List.find?_some hg0)
    rw [Option.some.inj (hg.symm.trans h)]
  · intro uid ok g hg hw
    refine ⟨_, _, ringPageMapped_eq hg hw,
      find?_changed (key := Machine.Grid.uid) hg (by simpa using List.find?_some hg),
      rfl, rfl, fun k hk hgrid => ?_⟩
    obtain ⟨k0, -, rfl⟩ := List.mem_map.mp hk
    split at hgrid
    next h =>
      rw [if_pos h]
      cases ok <;> simp
    next h =>
      rw [if_neg h]
      exact fun hp => h ⟨hgrid, hp⟩
  · intro core uid r hr
    have hgroup := (Machine.Retiring.names hr).2
    refine ⟨fun hd hl ha ho => ?_, fun h => ?_, fun hd hb ha ho => ?_⟩
    · have free : (r.decrement.isSome && s.writesDone r && s.opsDone uid) = true := by
        rw [Option.isSome_iff_ne_none.mpr hd, State.writesDone, decide_eq_true hl, ha, ho]
        rfl
      refine ⟨_, by rw [trackerEntryFree_eq hr, if_pos free], State.dropTeam_retiring ..⟩
    · have stays : (r.decrement.isSome && s.writesDone r && s.opsDone uid) = false := by
        obtain h | h | h := h
        · simp [h]
        · simp [State.writesDone, Nat.not_le.mpr h]
        · simp [h]
      rw [trackerEntryFree_eq hr, stays]
      rfl
    · have due : s.decrementDue r = true := by
        rw [State.decrementDue, hd, hb, ha, hgroup, ho]
        rfl
      refine ⟨successorDecrement_none hr due, fun p h0 hm => ?_, fun k gr h0 hm hgr ht => ?_⟩
      · intro n
        obtain ⟨w, writer, arrival, at_, hnow, hlwct, hx⟩ := successorDecrement_place hr due h0 hm
        have hcount : w.mem.count p.pa = n := Machine.Memory.count_congr at_.cells at_.updates p.pa
        obtain ⟨-, added⟩ := w.addCount_added (s.releaser r) r.succ p.pa (-1) writer arrival
        have hlt : n < 2 ^ 64 := Machine.Memory.count_lt ..
        have hsum : (w.mem.count p.pa + (-1 : Int)).toNat = n - 1 := by omega
        refine ⟨_, _, hx, hlwct.trans_lt added.later, hnow.trans_lt added.later, fun k hk => ?_,
          State.settleDecrement_settled _ uid _, fun h => ?_, fun h => ?_, fun h => ?_⟩
        · obtain ⟨u, hu, hword, hwct, hbytes⟩ := added.parts k hk
          exact ⟨u, hu, hword, hwct, by rw [hbytes (by omega), hsum]⟩
        · obtain ⟨c, hc, he⟩ := w.decrement_many (s.releaser r) r.succ p.pa writer arrival (hcount ▸ h)
          have beside := at_.toBeside.trans hc
          rw [he]
          exact ⟨beside.pool, beside.kept, beside.outbox, beside.grids⟩
        · obtain ⟨c, hc, he⟩ := w.decrement_zero (s.releaser r) r.succ p.pa writer arrival (hcount ▸ h)
          have beside := at_.toBeside.trans hc
          obtain ⟨msg, hev, hm⟩ := c.event_eq 1 r.succ []
          rw [he, hev]
          exact ⟨beside.pool, beside.kept, beside.grids, msg, congrArg (· ++ [msg]) beside.outbox, hm⟩
        · obtain ⟨c, hc, hmem, he⟩ := w.decrement_last (s.releaser r) r.succ p.pa writer arrival (hcount ▸ h)
          have beside := at_.toBeside.trans hc
          generalize w.addCount (s.releaser r) r.succ p.pa (-1) writer arrival = res at hmem he ⊢
          refine ⟨?_, ?_⟩
          · rw [State.settleDecrement, he]
            exact (State.releaseCompanion_outbox ..).trans beside.outbox
          intro gr hgr ht ws companion bad
          have hgr' : c.grid? (s.releaser r).grid = some gr := by
            rw [State.grid?, beside.grids]
            exact hgr
          have hws : wordsOf (c.mem.bytesAt res.2.2 (p.pa + 64) 64) = ws := by
            rw [hmem]
            rfl
          have hbad : bad ↔ c.recordBad gr ws = true ∨ c.depthLimit gr < (recordOf ws).depth := by
            rw [beside.recordBad, beside.depthLimit]
          refine ⟨fun h0 => ?_, fun h0 hok hp => ?_, fun h0 hb => ?_⟩
          · rw [State.settleDecrement, he, State.releaseCompanion_none hgr' (by rw [hws]; exact h0)]
            exact ⟨beside.pool, beside.kept, beside.grids⟩
          · rw [hbad, not_or, Bool.not_eq_true, Nat.not_lt] at hok
            rw [State.settleDecrement, he, State.releaseCompanion_pushed hgr' (by rw [hws]; exact h0)
              (by rw [hws]; exact hok.1) (by rw [hws]; exact hok.2) (by rw [beside.pool]; exact hp), hws]
            refine ⟨c.clock.uid, ?_⟩
            rw [← beside.pool, ← beside.gtime]
            rfl
          · rw [hbad] at hb
            rw [State.settleDecrement, he, State.releaseCompanion_bad hgr' (by rw [hws]; exact h0)
              (by rw [hws]; exact hb)]
            obtain ⟨gr', hg', hterm, hrec⟩ := State.terminateWith_ends hgr' ht
              [(s.releaser r).record { Cause.illegalOperand with addr := r.succ }]
            exact ⟨gr', _, hg', hterm, hrec, rfl, rfl, rfl, rfl⟩
      · obtain ⟨gr', hg', hterm, hrec⟩ := State.terminateWith_ends (s := s.settleDecrement r.group none) hgr ht
          [(s.releaser r).record { k with addr := r.succ }]
        exact ⟨_, gr', _, successorDecrement_fault hr due h0 hm, (State.terminateWith_held ..).1, hg', hterm, hrec,
          rfl, rfl,
          rfl, rfl⟩
  · intro hp k gr hgr
    obtain ⟨n, hk, hpool⟩ := State.retryKept_enters hgr hp
    exact ⟨fun hf => ⟨_, n, companionRetry_eq hf, hk, hpool⟩, fun hf => ⟨_, n, heldRecordRetry_eq hf, hk, hpool⟩⟩
  · intro uid va entryAt low len entry h0 hf
    refine ⟨fun hv hwf => ?_, ?_⟩
    · refine ⟨_, by rw [serviceablePageMapped_eq hf, hv]; rfl, ?_, ?_, ?_⟩
      · rw [State.serveCtxs_mem, State.serveLanes_ok_mem]
        exact cgets_cputs (natLe 8 entry.toNat) s.mem.cells entryAt hwf
      · rw [State.serveCtxs_mem, State.serveLanes_ok_mem]
        rfl
      · exact ((s.writeEntry entryAt entry.toNat).serveLanes_allServed uid low len true).of_eases
          (.of_groups (State.serveCtxs_groups ..))
    · exact ⟨_, serviceablePageMapped_eq hf false, State.refuseRange_cells .., State.refuseRange_allServed h0⟩

end Sys2Proof
end

section
/-!
PROOFS. Requests, saves with what they keep, restores with their stubs, and migrations (R51 to R54, R321 to R333).
-/

-- One proof after another: each that waits beside others holds a stack of its own.
set_option Elab.async false

namespace Sys2Proof.Machine

/-! ## Teams of a cluster (R17) -/

theorem mem_insertBy {α : Type} {lt : α → α → Bool} {x a : α} {xs : List α} :
    a ∈ insertBy lt x xs ↔ a = x ∨ a ∈ xs := by
  induction xs with
  | nil => simp [insertBy]
  | cons y ys ih =>
    rw [insertBy]
    split
    · rw [List.mem_cons]
    · rw [List.mem_cons, ih, List.mem_cons]
      tauto

theorem mem_sortBy {α : Type} {lt : α → α → Bool} {a : α} {xs : List α} : a ∈ sortBy lt xs ↔ a ∈ xs := by
  have inserted (acc : List α) : a ∈ xs.foldl (fun acc x => insertBy lt x acc) acc ↔ a ∈ acc ∨ a ∈ xs := by
    induction xs generalizing acc with
    | nil => simp
    | cons x xs ih =>
      rw [List.foldl_cons, ih, mem_insertBy, List.mem_cons]
      tauto
  rw [sortBy, inserted]
  simp

theorem State.mem_clusterTeams {s : State} {tm : Team} {u : Nat} :
    u ∈ s.clusterTeams tm ↔ ∃ v ∈ s.cluster tm, v.uid = u := by
  simp only [State.clusterTeams, State.cluster, List.mem_map, mem_sortBy]

theorem State.modTeam_team?_same {s : State} {u : Nat} {f : Team → Team} {t : Team} (h : s.team? u = some t)
    (hf : (f t).uid = u) : (s.modTeam u f).team? u = some (f t) := find?_changed (key := Team.uid) h hf

/-! ## Requests (R321, R325, R329) -/

theorem Team.mem_ask (t : Team) (r : Request) : r ∈ (t.ask r).requests := by
  unfold Team.ask
  split
  next h => exact List.contains_iff_mem.mp h
  · exact List.mem_append_right _ (List.mem_singleton.mpr rfl)

theorem Team.mem_ask_of_mem {t : Team} {r q : Request} (h : q ∈ t.requests) : q ∈ (t.ask r).requests := by
  unfold Team.ask
  split
  · exact h
  · exact List.mem_append_left _ h

theorem Team.ask_uid (t : Team) (r : Request) : (t.ask r).uid = t.uid := by
  unfold Team.ask
  split <;> rfl

/-- A request that is posted to some teams. -/
def State.askTeams (s : State) (us : List Nat) (r : Request) : State := us.foldl (fun s u => s.modTeam u (·.ask r)) s

/-- Each of them then has the request. -/
theorem State.askTeams_asked (s : State) {us : List Nat} (r : Request) {u : Nat} (hu : u ∈ us) :
    ∀ v ∈ (s.askTeams us r).teams, v.uid = u → r ∈ v.requests := by
  refine foldl_establishes (I := fun _ => True) (Q := fun t : State => ∀ v ∈ t.teams, v.uid = u → r ∈ v.requests)
    (fun s u => s.modTeam u (·.ask r)) hu (fun _ _ _ _ => trivial) (fun s b _ _ hq v hv huid => ?_)
    (fun s _ v hv huid => ?_) s trivial
  · obtain ⟨w, hw, rfl⟩ := List.mem_map.mp hv
    split at huid
    next h =>
      rw [if_pos h]
      exact Team.mem_ask_of_mem (hq w hw ((Team.ask_uid ..).symm.trans huid))
    next h =>
      rw [if_neg h]
      exact hq w hw huid
  · obtain ⟨w, -, rfl⟩ := List.mem_map.mp hv
    split at huid
    next h =>
      rw [if_pos h]
      exact Team.mem_ask ..
    next h => exact absurd huid h

/-- Requests change nothing but the teams' lists. -/
theorem State.askTeams_rest (s : State) (us : List Nat) (r : Request) :
    (s.askTeams us r).groups = s.groups ∧ (s.askTeams us r).mem = s.mem ∧ (s.askTeams us r).cores = s.cores :=
  foldl_rel (fun s t : State => t.groups = s.groups ∧ t.mem = s.mem ∧ t.cores = s.cores) (fun _ => ⟨rfl, rfl, rfl⟩)
    (fun ⟨h1, h2, h3⟩ ⟨k1, k2, k3⟩ => ⟨k1.trans h1, k2.trans h2, k3.trans h3⟩) id (fun s u => s.modTeam u (·.ask r))
    (fun _ _ => ⟨rfl, rfl, rfl⟩) us s

section
variable {s : State} {tm : Team} (htm : s.team? tm.uid = some tm)

include htm in
theorem timeSliceExpiry_eq (hs : tm.sched = .resident)
    (h0 : ((s.grid? tm.grid).map (·.launch.tslice)).getD 0 ≠ 0)
    (hd : tm.slice + 1000 * ((s.grid? tm.grid).map (·.launch.tslice)).getD 0 ≤ s.gtime) :
    exec (.timeSliceExpiry tm.uid) s =
      if s.candidates.any fun c => tm.prio ≤ c.eff s.gtime s.fw.quantum then
        .next (s.askTeams (s.clusterTeams tm) .slice)
      else .next (s.modTeam tm.uid fun t => { t with slice := s.gtime }) := by
  have he : exec (.timeSliceExpiry tm.uid) s = execTimeSliceExpiry tm.uid s := rfl
  rw [he, execTimeSliceExpiry, htm]
  dsimp only
  rw [if_neg (by simp [hs, h0, Nat.not_lt.mpr hd])]
  rfl

theorem preemptionRequest_eq (h : s.toPreempt.find? (fun u => u.uid == tm.uid) = some tm) :
    exec (.preemptionRequest tm.uid) s = .next (s.askTeams (s.clusterTeams tm) .preempt) := by
  have he : exec (.preemptionRequest tm.uid) s = execPreemptionRequest tm.uid s := rfl
  rw [he, execPreemptionRequest, h]
  rfl

/-! ## The beginning of a save (R324) -/

include htm in
theorem teamSave_eq : exec (.teamSave tm.uid) s =
    if s.maySave tm then
      .next ((s.cluster tm).foldl (fun t u => t.beginSave u (t.gtime + Config.latency s.clock.fresh)) s.newFresh.2)
    else .next s := by
  have he : exec (.teamSave tm.uid) s = execTeamSave tm.uid s := rfl
  rw [he, execTeamSave, htm]
  rfl

end

/-- The teams of a list are being saved, with their groups bound to no slot. -/
theorem State.beginSaves (us : List Team) (due : State → Nat) (s : State) :
    let t := us.foldl (fun t u => t.beginSave u (due t)) s
    t.mem = s.mem ∧ ∀ u ∈ us, (∀ v ∈ t.teams, v.uid = u.uid → v.sched = .saving) ∧
      ∀ g ∈ t.groups, g.team = u.uid → g.sched = .saving ∧ g.slot = none := by
  refine ⟨foldl_rel (fun s t : State => t.mem = s.mem) (fun _ => rfl) (fun h k => k.trans h) id
    (fun t u => t.beginSave u (due t)) (fun _ _ => rfl) us s,
    fun u hu => ⟨?_, ?_⟩⟩
  · refine foldl_establishes (I := fun _ => True)
      (Q := fun t : State => ∀ v ∈ t.teams, v.uid = u.uid → v.sched = .saving)
      (fun t u => t.beginSave u (due t)) hu (fun _ _ _ _ => trivial) (fun s b _ _ hq v hv huid => ?_)
      (fun s _ v hv huid => ?_) s trivial
    · obtain ⟨w, hw, rfl⟩ := List.mem_map.mp hv
      split at huid
      next h => rw [if_pos h]
      next h =>
        rw [if_neg h]
        exact hq w hw huid
    · obtain ⟨w, -, rfl⟩ := List.mem_map.mp hv
      split at huid
      next h => rw [if_pos h]
      next h => exact absurd huid h
  · refine foldl_establishes (I := fun _ => True)
      (Q := fun t : State => ∀ g ∈ t.groups, g.team = u.uid → g.sched = .saving ∧ g.slot = none)
      (fun t u => t.beginSave u (due t)) hu (fun _ _ _ _ => trivial) (fun s b _ _ hq g hg hteam => ?_)
      (fun s _ g hg hteam => ?_) s trivial
    · obtain ⟨k, hk, rfl⟩ := List.mem_map.mp hg
      split at hteam
      next h =>
        rw [if_pos h]
        exact ⟨rfl, rfl⟩
      next h =>
        rw [if_neg h]
        exact hq k hk hteam
    · obtain ⟨k, -, rfl⟩ := List.mem_map.mp hg
      split at hteam
      next h =>
        rw [if_pos h]
        exact ⟨rfl, rfl⟩
      next h => exact absurd hteam h

/-! ## What is kept (R52, R105, R263) -/

theorem foldl_or_getLsbD {α : Type} {n : Nat} (f : α → BitVec n) (xs : List α) (x : BitVec n) (i : Nat) :
    (xs.foldl (fun x a => x ||| f a) x).getLsbD i = (x.getLsbD i || xs.any fun a => (f a).getLsbD i) := by
  induction xs generalizing x with
  | nil => simp
  | cons a xs ih => rw [List.foldl_cons, ih, BitVec.getLsbD_or, List.any_cons, Bool.or_assoc]

theorem unionLive_getLsbD {n : Nat} (f : SafePoint → BitVec n) (es : List SafePoint) (i : Nat) :
    (unionLive f es).getLsbD i = es.any fun e => (f e).getLsbD i := by
  rw [unionLive, foldl_or_getLsbD, show (0 : BitVec n).getLsbD i = false from BitVec.getLsbD_zero, Bool.false_or]

/-- A table of which some keys are kept. -/
theorem tget_filter {α : Type} (dflt : α) (p : Nat → Bool) (t : List (Nat × α)) (k : Nat) :
    tget dflt (t.filter fun e => p e.1) k = if p k then tget dflt t k else dflt := by
  induction t with
  | nil => exact (ite_self _).symm
  | cons e t ih =>
    obtain ⟨j, v⟩ := e
    rw [List.filter_cons]
    by_cases hj : j = k
    · subst hj
      by_cases hp : p j = true
      · simp [hp, tget]
      · rw [if_neg hp, ih, if_neg hp, if_neg hp]
    · rw [tget, if_neg hj, ← ih]
      split
      · rw [tget, if_neg hj]
      · rfl

/-- A table whose values are all changed, and the default not. -/
theorem tget_mapped {α : Type} {dflt : α} {f : α → α} (hf : f dflt = dflt) (t : List (Nat × α)) (k : Nat) :
    tget dflt (t.map fun e => (e.1, f e.2)) k = f (tget dflt t k) := by
  induction t with
  | nil => exact hf.symm
  | cons e t ih =>
    obtain ⟨j, v⟩ := e
    rw [List.map_cons, tget, tget, ih]
    split <;> rfl

/-- The safe point at which a lane stands, none of a lane in DONE. -/
def Lane.entry? (img : Image) (l : Lane) : Option SafePoint :=
  if l.state = .done then none else img.safePoint? (if l.state = .run then l.lpc - 4 else l.lpc)

theorem Lane.entry?_eq (img : Image) (l : Lane) :
    (if l.isDone then none else img.safePoint? l.standingPc) = l.entry? img := by
  unfold Lane.entry? Lane.standingPc Lane.running Lane.isDone
  generalize l.state = st
  cases st <;> simp

theorem Group.standing?_eq (g : Group) (img : Image) : g.standing? img = g.lanes.filterMap (Lane.entry? img) := by
  unfold Group.standing?
  exact congrArg (g.lanes.filterMap ·) (funext fun l => l.entry?_eq img)

/-- Some lane of a group stands at a safe point at which something is live. -/
def Group.live (img : Image) (g : Group) (bit : SafePoint → Bool) :
    Bool := (g.lanes.filterMap (Lane.entry? img)).any bit

theorem Group.unionLive_standing {n : Nat} (g : Group) (img : Image) (f : SafePoint → BitVec n) (i : Nat) :
    (unionLive f (g.standing? img)).getLsbD i = g.live img fun e => (f e).getLsbD i := by
  rw [unionLive_getLsbD, Group.standing?_eq]
  rfl

section
variable (g : Group) (img : Image)

theorem Group.keep_u (r : Nat) : (g.keep img).u r = if g.live img fun e => e.ulive.getLsbD r then g.u r else 0 := by
  rw [← g.unionLive_standing img (·.ulive)]
  exact tget_filter 0 (fun k => (unionLive (·.ulive) (g.standing? img)).getLsbD k) g.uregs r

theorem Group.keep_jmask (r : Nat) : (g.keep img).jmasks[r]? = g.jmasks[r]?.map fun j =>
    if g.live img fun e => e.jlive.getLsbD r then j else ⟨0, 0⟩ := by
  rw [← g.unionLive_standing img (·.jlive), Group.keep, mapFrom_getElem?, Nat.zero_add]

theorem Group.keep_td (r : Nat) : (g.keep img).td r =
    if g.live img fun e => e.tlive.getLsbD r then { g.td r with pseq := (g.td r).cseq } else TileDesc.empty := by
  rw [← g.unionLive_standing img (·.tlive)]
  have h := tget_mapped (dflt := TileDesc.empty) (f := fun d => { d with pseq := d.cseq }) rfl
    (g.tdescs.filter fun e => (unionLive (·.tlive) (g.standing? img)).getLsbD e.1) r
  rw [tget_filter TileDesc.empty fun k => (unionLive (·.tlive) (g.standing? img)).getLsbD k] at h
  refine Eq.trans ?_ (h.trans ?_)
  · rfl
  · split <;> rfl

theorem Group.keep_lane {i : Nat} {l : Lane} (hl : g.lanes[i]? = some l) : ∃ l', (g.keep img).lanes[i]? = some l' ∧
    l'.lpc = l.lpc ∧ l'.state = l.state ∧ l'.window = l.window ∧ l'.fpflags = l.fpflags ∧ l'.lwct = l.lwct ∧
    (∀ r, tget ⟨0, 0⟩ l'.vregs r = if g.live img fun e => e.vlive.getLsbD r then tget ⟨0, 0⟩ l.vregs r else ⟨0, 0⟩) ∧
    ∀ k < 15, l'.preds.getLsbD k = (l.preds.getLsbD k && g.live img fun e => e.plive.getLsbD k) := by
  refine ⟨_, (List.getElem?_map ..).trans (congrArg _ hl), rfl, rfl, rfl, rfl, rfl, fun r => ?_, fun k hk => ?_⟩
  · rw [← g.unionLive_standing img (·.vlive)]
    exact tget_filter _ (fun k => (unionLive (·.vlive) (g.standing? img)).getLsbD k) l.vregs r
  · rw [← g.unionLive_standing img (·.plive), Lane.keep, BitVec.getLsbD_and, BitVec.getLsbD_setWidth, decide_eq_true hk,
      Bool.true_and]

end

section
variable (tm : Team) (img : Image) (alive : BitVec 128)

theorem Team.keep_scratch (a : Nat) : cget (tm.keep img alive).scratch a =
    if inRegions img.saveRegions a then cget tm.scratch a else 0 :=
  tget_filter unlisted (inRegions img.saveRegions) tm.scratch a

theorem Team.keep_acc (k : Nat) : tget 0 (tm.keep img alive).acc k =
    if keepsTile tm.accwin alive (k / 4096) then tget 0 tm.acc k else 0 :=
  tget_filter 0 (fun k => keepsTile tm.accwin alive (k / 4096)) tm.acc k

end

theorem State.teamAlive_getLsbD (s : State) (tm : Team) (img : Image) (i : Nat) :
    (s.teamAlive tm img).getLsbD i = true ↔
      ∃ g ∈ s.groups, g.team = tm.uid ∧ g.live img (fun e => e.alive.getLsbD i) = true := by
  rw [State.teamAlive, foldl_or_getLsbD]
  simp [State.teamGroups, Group.unionLive_standing]

/-! ## The end of a save (R324) -/

theorem saveComplete_eq {s : State} {tm : Team} (htm : s.team? tm.uid = some tm) (hc : s.cluster tm = [tm])
    (hr : s.saveReady tm = true) : exec (.saveComplete tm.uid) s = .next (s.endSave tm) := by
  have he : exec (.saveComplete tm.uid) s = execSaveComplete tm.uid s := rfl
  rw [he, execSaveComplete, htm]
  dsimp only
  rw [hc, if_pos (by simp [hr])]
  rfl

section
variable (s : State) (tm : Team) (gr : Grid)

/-- A team as its save leaves it. -/
def Team.saved (t : Team) : Team :=
  { t.keep gr.image (s.teamAlive tm gr.image) with
    sched := if tm.target.isNone then .saved else .migrating, core := if tm.target.isNone then none else t.core,
    since := if tm.target.isNone then s.gtime else t.since,
    context := { core := tm.core.getD 0, locks := (s.core (tm.core.getD 0)).locksOf (s.pausedOps tm),
                 ops := s.pausedOps tm, done := [] } }

/-- A group as its team's save leaves it. -/
def Group.saved (g : Group) : Group :=
  { g.keep gr.image with sched := if tm.target.isNone then .saved else .migrating, place := none }

/-- A core that a team's save leaves. -/
def Core.left (c : Core) : Core := (c.loseTeam tm.uid).dropPackets tm.uid

variable {s tm gr}

theorem State.endSave_eq (hgr : s.grid? tm.grid = some gr) : s.endSave tm =
    { s.modTeam tm.uid (Team.saved s tm gr) with
      groups := s.groups.map fun g => if g.team = tm.uid then Group.saved tm gr g else g,
      cores := (setAt (fun c => c.without (s.pausedOps tm)) (tm.core.getD 0) s.cores).map (Core.left tm) } := by
  rw [State.endSave, hgr]
  rfl

theorem Core.left_gives (c : Core) : (∀ w ∈ (Core.left tm c).slots, w.2.owner = tm.uid → w.2.state = .empty) ∧
    ∀ q ∈ (Core.left tm c).packets, q.team ≠ tm.uid := by
  refine ⟨fun w hw ho => ?_, fun q hq => bne_iff_ne.mp (List.mem_filter.mp hq).2⟩
  obtain ⟨⟨n, v⟩, -, rfl⟩ := List.mem_map.mp hw
  dsimp only at ho ⊢
  split at ho
  next h => rw [if_pos h]
  next h => exact absurd (beq_iff_eq.mpr ho) h

/-- The first group of a number stays the first as all groups are changed. -/
theorem State.group?_map {t : State} {f : Group → Group} (ht : t.groups = s.groups.map f) (hf : ∀ g, (f g).uid = g.uid)
    {g : Group} (hg : s.group? g.uid = some g) : t.group? g.uid = some (f g) := by
  have same : (fun k : Group => k.uid == g.uid) ∘ f = fun k => k.uid == g.uid := funext fun k => by
    rw [Function.comp_apply, hf]
  rw [State.group?, ht, List.find?_map, same]
  exact congrArg (Option.map f) hg

end

/-! ## A restore begins (R316, R326) -/

section
variable {s : State} {tm : Team} (htm : s.team? tm.uid = some tm) (hc : s.cluster tm = [tm])

include htm hc in
theorem teamRestore_saved {c : Cand} {cores : List Nat} (hf : s.firstPlaceable = some (c, cores)) (ht : c.task = false)
    (hid : c.id = tm.uid) (hs : tm.sched = .saved) : exec (.teamRestore tm.uid) s =
      .next (s.newFresh.2.restoreTeam tm (cores.getD tm.member 0)
        (s.newFresh.2.gtime + Config.latency s.clock.fresh)) := by
  have he : exec (.teamRestore tm.uid) s = execTeamRestore tm.uid s := rfl
  have hmem : (s.clusterTeams tm).contains c.id = true := by
    rw [hid, List.contains_iff_mem, State.mem_clusterTeams, hc]
    exact ⟨tm, List.mem_singleton.mpr rfl, rfl⟩
  rw [he, execTeamRestore, htm]
  dsimp only
  rw [if_neg (by simp [hs]), hf]
  dsimp only
  have go : (!c.task && tm.sched == .saved && (s.clusterTeams tm).contains c.id) = true := by
    rw [ht, hs, hmem]
    rfl
  rw [if_pos go, hc]
  rfl

include htm in
/-- A team that comes back: it stands on its core with what was saved, and its groups wait for it. -/
theorem State.restoreTeam_restores (core due : Nat) : ∃ u, (s.restoreTeam tm core due).team? tm.uid = some u ∧
    u.sched = .restoring ∧ u.core = some core ∧ u.lcid = (s.core core).lcid ∧ u.scratch = tm.scratch ∧ u.acc = tm.acc ∧
    ∀ g ∈ (s.restoreTeam tm core due).groups, g.team = tm.uid → g.sched = .restoring := by
  have seated := State.modTeam_team?_same (f := fun t =>
    { t with core := some core, sched := .resident, lcid := (s.core core).lcid, admitted := s.gtime, slice := s.gtime,
             requests := [], target := none }) htm rfl
  have brought : ((s.seatTeam tm core).bringOps tm core).team? tm.uid = some _ :=
    find?_changed (key := Team.uid) seated rfl
  have restored : (s.restoreTeam tm core due).team? tm.uid = some _ := find?_changed (key := Team.uid) brought rfl
  refine ⟨_, restored, rfl, rfl, rfl, rfl, rfl, fun g hg hteam => ?_⟩
  obtain ⟨k, -, rfl⟩ := List.mem_map.mp hg
  split at hteam
  next h => rw [if_pos h]
  next h => exact absurd hteam h

/-! ## A restore ends (R53, R54) -/

include htm hc in
theorem teamRestore_restoring {gr : Grid} (hs : tm.sched = .restoring) (hd : tm.saveDue ≤ s.gtime)
    (hgr : s.grid? tm.grid = some gr) :
    exec (.teamRestore tm.uid) s = .next (s.bindGroups tm (tm.core.getD 0) gr.image) := by
  have he : exec (.teamRestore tm.uid) s = execTeamRestore tm.uid s := rfl
  rw [he, execTeamRestore, htm]
  dsimp only
  rw [if_pos (by simp [hs]), if_pos hd, State.endRestore, hgr, hc]
  rfl

end

/-- A group as it is bound to a slot of a core. -/
def Group.bound (t : State) (core : Nat) (img : Image) (g : Group) : Group :=
  { g.beginStubs img with sched := .resident, slot := some (t.bestSlot core), place := some (t.freePlace core),
                          standing := none }

theorem State.bindGroups_eq (s : State) (tm : Team) (core : Nat) (img : Image) : s.bindGroups tm core img =
    (s.teamGroups tm.uid).foldl (fun t g => t.modGroup g.uid (Group.bound t core img))
      (s.modTeam tm.uid fun t => { t with sched := .resident, slice := s.gtime }) := rfl

/-- What binding groups leaves as it is. -/
theorem State.bindAll_rest (gs : List Group) (core : Nat) (img : Image) (s : State) :
    let t := gs.foldl (fun t g => t.modGroup g.uid (Group.bound t core img)) s
    t.teams = s.teams ∧ t.mem = s.mem ∧ t.cores = s.cores :=
  foldl_rel (fun s t : State => t.teams = s.teams ∧ t.mem = s.mem ∧ t.cores = s.cores) (fun _ => ⟨rfl, rfl, rfl⟩)
    (fun ⟨h1, h2, h3⟩ ⟨k1, k2, k3⟩ => ⟨k1.trans h1, k2.trans h2, k3.trans h3⟩) id
    (fun t (g : Group) => t.modGroup g.uid (Group.bound t core img)) (fun _ _ => ⟨rfl, rfl, rfl⟩) gs s

theorem State.team?_congr {s t : State} (h : t.teams = s.teams) (u : Nat) : t.team? u = s.team? u := by
  rw [State.team?, State.team?, h]

/-- Groups of other numbers do not come into it. -/
theorem State.bindAll_other {gs : List Group} {core : Nat} {img : Image} {u : Nat} {g : Group}
    (hn : ∀ k ∈ gs, ¬ (k.uid == u) = true) {s : State} (hg : s.group? u = some g) :
    (gs.foldl (fun t g => t.modGroup g.uid (Group.bound t core img)) s).group? u = some g := by
  induction gs generalizing s with
  | nil => exact hg
  | cons k gs ih =>
    refine ih (fun k' hk' => hn k' (List.mem_cons_of_mem _ hk')) ?_
    have hk : k.uid ≠ u := fun h => hn k (List.mem_cons_self ..) (beq_iff_eq.mpr h)
    exact (State.modGroup_group?_other (f := Group.bound s core img) (fun _ h => h) hk.symm).trans hg

/-- A group that alone has its number is bound once. -/
theorem State.bindAll_bound {gs : List Group} {core : Nat} {img : Image} {g : Group}
    (h1 : gs.filter (fun k => k.uid == g.uid) = [g]) {s : State} (hg : s.group? g.uid = some g) :
    ∃ t : State, (gs.foldl (fun t g => t.modGroup g.uid (Group.bound t core img)) s).group? g.uid =
      some (Group.bound t core img g) := by
  obtain ⟨as, bs, rfl, ha, -, hb⟩ := List.filter_eq_cons_iff.mp h1
  rw [List.foldl_append, List.foldl_cons]
  have before := State.bindAll_other (core := core) (img := img) ha hg
  generalize as.foldl (fun t g => t.modGroup g.uid (Group.bound t core img)) s = w at before
  have now := State.modGroup_group?_same (f := Group.bound w core img) before rfl
  exact ⟨w, State.bindAll_other (List.filter_eq_nil_iff.mp hb) now⟩

/-! ### Stubs in ascending order (R54) -/

theorem mem_nubNat {x : Nat} {xs : List Nat} : x ∈ nubNat xs ↔ x ∈ xs := by
  induction xs with
  | nil => rfl
  | cons y ys ih =>
    rw [nubNat, List.mem_cons, List.mem_cons, List.mem_filter, ih, bne_iff_ne]
    tauto

theorem nubNat_nodup (xs : List Nat) : (nubNat xs).Nodup := by
  induction xs with
  | nil => exact List.nodup_nil
  | cons x xs ih => exact List.nodup_cons.mpr ⟨fun h => by simp at h, ih.filter _⟩

theorem insertBy_pairwise {x : Nat} {xs : List Nat} (h : xs.Pairwise (· < ·)) (hx : x ∉ xs) :
    (insertBy (· < ·) x xs).Pairwise (· < ·) := by
  induction xs with
  | nil => exact List.pairwise_singleton ..
  | cons y ys ih =>
    obtain ⟨hy, hys⟩ := List.pairwise_cons.mp h
    rw [insertBy]
    split
    next hlt =>
      have hlt := of_decide_eq_true hlt
      refine List.pairwise_cons.mpr ⟨fun z hz => ?_, h⟩
      exact (List.mem_cons.mp hz).elim (fun e => e ▸ hlt) fun hz => hlt.trans (hy z hz)
    next hge =>
      have hne : x ≠ y := fun e => hx (e ▸ List.mem_cons_self ..)
      have hgt : y < x := by simp only [decide_eq_true_eq] at hge; omega
      refine List.pairwise_cons.mpr ⟨fun z hz => ?_, ih hys fun h => hx (List.mem_cons_of_mem _ h)⟩
      exact (mem_insertBy.mp hz).elim (fun e => e ▸ hgt) (hy z)

/-- Sorting numbers that differ puts them in ascending order. -/
theorem sortBy_pairwise {xs : List Nat} (h : xs.Nodup) : (sortBy (· < ·) xs).Pairwise (· < ·) := by
  have inserted (acc : List Nat) (ha : acc.Pairwise (· < ·)) (hd : ∀ x ∈ xs, x ∉ acc) :
      (xs.foldl (fun acc x => insertBy (· < ·) x acc) acc).Pairwise (· < ·) := by
    induction xs generalizing acc with
    | nil => exact ha
    | cons x xs ih =>
      obtain ⟨hx, hxs⟩ := List.nodup_cons.mp h
      refine ih hxs _ (insertBy_pairwise ha (hd x (List.mem_cons_self ..))) fun y hy hm => ?_
      exact (mem_insertBy.mp hm).elim (fun e => hx (e ▸ hy)) (hd y (List.mem_cons_of_mem _ hy))
  exact inserted [] List.Pairwise.nil fun _ _ => List.not_mem_nil

/-- The stub of the lanes that stand at one place of the table. -/
def stubAt (base : Nat) (es : List (Nat × SafePoint)) (off : Nat) : Option Stub :=
  match es.find? fun e => e.2.pcoff == off with
  | none => none
  | some e =>
    e.2.stub.map fun so =>
      { pcoff := off, start := BitVec.ofNat 48 (base + so),
        lanes := ((es.filter fun e => e.2.pcoff == off).foldl (fun m e => m ||| BitVec.ofNat 32 (2 ^ e.1)) 0) }

theorem stubsFrom_eq (base : Nat) (es : List (Nat × SafePoint)) :
    stubsFrom base es = (sortBy (· < ·) (nubNat (es.map fun e => e.2.pcoff))).filterMap (stubAt base es) := by
  unfold stubsFrom
  refine congrArg (List.filterMap · _) (funext fun off => ?_)
  unfold stubAt
  generalize es.find? (fun e => e.2.pcoff == off) = found
  cases found with
  | none => rfl
  | some e => rfl

theorem stubAt_pcoff {base off : Nat} {es : List (Nat × SafePoint)} {st : Stub} (h : stubAt base es off = some st) :
    st.pcoff = off := by
  unfold stubAt at h
  split at h
  · cases h
  · obtain ⟨so, -, rfl⟩ := Option.map_eq_some_iff.mp h
    rfl

theorem stubsFrom_pairwise (base : Nat) (es : List (Nat × SafePoint)) :
    ((stubsFrom base es).map (·.pcoff)).Pairwise (· < ·) := by
  rw [stubsFrom_eq, List.pairwise_map, List.pairwise_filterMap]
  refine (sortBy_pairwise (nubNat_nodup _)).imp fun hlt st hst st' hst' => ?_
  rw [stubAt_pcoff hst, stubAt_pcoff hst']
  exact hlt

theorem stubLanes_getLsbD (es : List (Nat × SafePoint)) (i : Nat) (hi : i < 32) :
    (es.foldl (fun m e => m ||| BitVec.ofNat 32 (2 ^ e.1)) 0 : BitVec 32).getLsbD i = true ↔ ∃ e ∈ es, e.1 = i := by
  rw [foldl_or_getLsbD, show (0 : BitVec 32).getLsbD i = false from BitVec.getLsbD_zero, Bool.false_or,
    List.any_eq_true]
  simp only [ofNat_pow_getLsbD, hi, decide_true, Bool.true_and, decide_eq_true_eq]

section
variable {base : Nat} {es : List (Nat × SafePoint)}
  (hsame : ∀ e ∈ es, ∀ e' ∈ es, e.2.pcoff = e'.2.pcoff → e.2.stub = e'.2.stub)

include hsame in
/-- A stub that a lane runs is that of the safe point at which it stands. -/
theorem stubsFrom_lane {st : Stub} (hst : st ∈ stubsFrom base es) {i : Nat} (hi : i < 32)
    (hl : st.lanes.getLsbD i = true) :
    ∃ e so, (i, e) ∈ es ∧ e.stub = some so ∧ st.start = BitVec.ofNat 48 (base + so) := by
  rw [stubsFrom_eq] at hst
  obtain ⟨off, -, hst⟩ := List.mem_filterMap.mp hst
  unfold stubAt at hst
  split at hst
  · cases hst
  next e0 hfind =>
    obtain ⟨so, hso, rfl⟩ := Option.map_eq_some_iff.mp hst
    obtain ⟨⟨j, e⟩, he, rfl⟩ := (stubLanes_getLsbD _ i hi).mp hl
    obtain ⟨hmem, hoff⟩ := List.mem_filter.mp he
    have hoff0 : e0.2.pcoff = off := by simpa using List.find?_some hfind
    have hoff : e.pcoff = off := by simpa using hoff
    exact ⟨e, so, hmem, (hsame _ hmem _ (List.mem_of_find?_eq_some hfind) (hoff.trans hoff0.symm)).trans hso, rfl⟩

include hsame in
/-- A lane at a safe point with a stub runs one. -/
theorem stubsFrom_runs {i : Nat} {e : SafePoint} (he : (i, e) ∈ es) (hi : i < 32) {so : Nat} (hso : e.stub = some so) :
    ∃ st ∈ stubsFrom base es, st.lanes.getLsbD i = true := by
  have hfind : (es.find? fun e' => e'.2.pcoff == e.pcoff).isSome :=
    List.find?_isSome.mpr ⟨(i, e), he, by simp⟩
  obtain ⟨e0, he0⟩ := Option.isSome_iff_exists.mp hfind
  have hoff0 : e0.2.pcoff = e.pcoff := by simpa using List.find?_some he0
  have hso0 : e0.2.stub = some so := (hsame _ (List.mem_of_find?_eq_some he0) _ he hoff0).trans hso
  rw [stubsFrom_eq]
  have hat :
    stubAt base es e.pcoff = some { pcoff := e.pcoff, start := BitVec.ofNat 48 (base + so), lanes := ((es.filter
      fun e' => e'.2.pcoff == e.pcoff).foldl (fun m e => m ||| BitVec.ofNat 32 (2 ^ e.1)) 0) } := by
    unfold stubAt
    rw [he0]
    dsimp only
    rw [hso0]
    rfl
  have hoff := (mem_sortBy (lt := (· < ·))).mpr (mem_nubNat.mpr (List.mem_map_of_mem (f := fun e => e.2.pcoff) he))
  exact ⟨_, List.mem_filterMap.mpr ⟨_, hoff, hat⟩,
    (stubLanes_getLsbD _ i hi).mpr ⟨(i, e), List.mem_filter.mpr ⟨he, by simp⟩, rfl⟩⟩

end

/-! ### The lanes that run stubs -/

/-- The safe points at which a group's lanes stand, by lane. -/
def Group.entries (g : Group) (img : Image) : List (Nat × SafePoint) :=
  (mapFrom (fun i (l : Lane) =>
    if l.isDone then [] else ((img.safePoint? l.standingPc).map fun e => (i, e)).toList) 0 g.lanes).flatten

theorem Group.mem_entries {g : Group} {img : Image} {i : Nat} {e : SafePoint} :
    (i, e) ∈ g.entries img ↔ ∃ l, g.lanes[i]? = some l ∧ l.entry? img = some e := by
  rw [Group.entries, mem_flatten_mapFrom]
  constructor
  · rintro ⟨j, l, hl, he⟩
    split at he
    · cases he
    next h =>
      obtain ⟨e', he', heq⟩ := Option.map_eq_some_iff.mp (Option.mem_toList.mp he)
      cases heq
      exact ⟨l, hl, by rw [← Lane.entry?_eq, if_neg h, he']⟩
  · rintro ⟨l, hl, he⟩
    rw [← Lane.entry?_eq] at he
    refine ⟨i, l, hl, ?_⟩
    split at he
    · cases he
    next h => rw [if_neg h, he]; exact List.mem_singleton.mpr rfl

/-- Lanes at one place of the table have one stub. -/
theorem Image.safePoint?_stub {img : Image} {pc pc' : Addr} {e e' : SafePoint} (h : img.safePoint? pc = some e)
    (h' : img.safePoint? pc' = some e') (hoff : e.pcoff = e'.pcoff) : e.stub = e'.stub := by
  unfold Image.safePoint? at h h'
  split at h
  next hv =>
    rw [if_pos hv] at h'
    cases h
    cases h'
    rfl
  next hv =>
    rw [if_neg hv] at h'
    have hp : img.base + e.pcoff = pc.toNat := by simpa using List.find?_some h
    have hp' : img.base + e'.pcoff = pc'.toNat := by simpa using List.find?_some h'
    rw [← hp', ← hoff, hp, h] at h'
    rw [Option.some.inj h']

theorem Group.entries_same (g : Group) (img : Image) :
    ∀ e ∈ g.entries img, ∀ e' ∈ g.entries img, e.2.pcoff = e'.2.pcoff → e.2.stub = e'.2.stub := by
  rintro ⟨i, e⟩ he ⟨j, e'⟩ he' hoff
  obtain ⟨l, -, hl⟩ := Group.mem_entries.mp he
  obtain ⟨l', -, hl'⟩ := Group.mem_entries.mp he'
  unfold Lane.entry? at hl hl'
  split at hl
  · cases hl
  · split at hl'
    · cases hl'
    · exact Image.safePoint?_stub hl hl' hoff

/-- A lane as its group's stubs begin. -/
def Lane.beginStub (stubs : List Stub) (i : Nat) (l : Lane) : Lane :=
  match stubs.find? fun st => st.lanes.getLsbD i with
  | none => l
  | some st => { l with stood := some ⟨l.lpc, l.state⟩, state := .run, lpc := st.start, atSafe := false }

theorem Group.beginStubs_eq (g : Group) (img : Image) : g.beginStubs img =
    { g with lanes := mapFrom (Lane.beginStub (stubsFrom img.base (g.entries img))) 0 g.lanes,
             stubs := stubsFrom img.base (g.entries img), spcount := 0 } := rfl

/-- A lane runs the stub of the safe point at which it stands, if that has one. -/
theorem Group.beginStubs_lane {g : Group} {img : Image} {i : Nat} {l : Lane} (hl : g.lanes[i]? = some l) (hi : i < 32) :
    ∃ l', (g.beginStubs img).lanes[i]? = some l' ∧
      (∀ e so, l.entry? img = some e → e.stub = some so → l' = { l with
        stood := some ⟨l.lpc, l.state⟩, state := .run, lpc := (BitVec.ofNat 48 (img.base + so)), atSafe := false }) ∧
      ((∀ e, l.entry? img = some e → e.stub = none) → l' = l) := by
  have same := g.entries_same img
  rw [Group.beginStubs_eq]
  refine ⟨_, by rw [mapFrom_getElem?, hl, Nat.zero_add]; rfl, fun e so he hso => ?_, fun hn => ?_⟩
  · have hmem : (i, e) ∈ g.entries img := Group.mem_entries.mpr ⟨l, hl, he⟩
    obtain ⟨st0, hst0, hl0⟩ := stubsFrom_runs (base := img.base) same hmem hi hso
    have hsome := List.find?_isSome (p := fun st : Stub => st.lanes.getLsbD i) |>.mpr ⟨st0, hst0, hl0⟩
    obtain ⟨st, hst⟩ := Option.isSome_iff_exists.mp hsome
    obtain ⟨e', so', he', hso', hstart⟩ :=
      stubsFrom_lane same (List.mem_of_find?_eq_some hst) hi
        (List.find?_some (p := fun st : Stub => st.lanes.getLsbD i) hst)
    obtain ⟨l'', hl'', hentry⟩ := Group.mem_entries.mp he'
    obtain rfl := Option.some.inj (hl''.symm.trans hl)
    obtain rfl := Option.some.inj (hentry.symm.trans he)
    obtain rfl := Option.some.inj (hso'.symm.trans hso)
    rw [Lane.beginStub, hst, ← hstart]
  · rw [Lane.beginStub]
    split
    · rfl
    next st hst =>
      obtain ⟨e', so', he', hso', -⟩ :=
        stubsFrom_lane same (List.mem_of_find?_eq_some hst) hi
        (List.find?_some (p := fun st : Stub => st.lanes.getLsbD i) hst)
      obtain ⟨l'', hl'', hentry⟩ := Group.mem_entries.mp he'
      obtain rfl := Option.some.inj (hl''.symm.trans hl)
      rw [hn _ hentry] at hso'
      cases hso'

/-! ## Migrations (R329, R333) -/

theorem State.modCore_core_same {s : State} {i : Nat} (h : i < s.cores.length) (f : Core → Core) :
    (s.modCore i f).core i = f (s.core i) := by
  rw [State.core, State.core, State.modCore, setAt_getElem?_same, List.getElem?_eq_getElem h]
  rfl

theorem State.modCore_core_other {s : State} {i j : Nat} (h : j ≠ i) (f : Core → Core) :
    (s.modCore i f).core j = s.core j := by
  rw [State.core, State.core, State.modCore, setAt_getElem?_other _ _ _ _ h]

theorem State.modCore_length (s : State) (i : Nat) (f : Core → Core) : (s.modCore i f).cores.length = s.cores.length :=
  setAt_length ..

/-- What a core shows of itself: its LCID, its recorded statuses, its handle count and its migration. -/
structure Core.Shows (c d : Core) : Prop where
  lcid : d.lcid = c.lcid
  done : d.done = c.done
  nextHandle : d.nextHandle = c.nextHandle
  migrating : d.migrating = c.migrating

theorem Core.Shows.refl (c : Core) : c.Shows c := ⟨rfl, rfl, rfl, rfl⟩

theorem Core.Shows.trans {c d e : Core} (h : c.Shows d) (k : d.Shows e) : c.Shows e :=
  ⟨k.lcid.trans h.lcid, k.done.trans h.done, k.nextHandle.trans h.nextHandle, k.migrating.trans h.migrating⟩

/-- What every core shows of itself is as it was. -/
structure State.Shows (s t : State) : Prop where
  count : t.cores.length = s.cores.length
  core : ∀ i, Core.Shows (s.core i) (t.core i)

theorem State.Shows.of_cores {s t : State} (h : t.cores = s.cores) : s.Shows t :=
  ⟨congrArg _ h, fun i => by rw [State.core, State.core, h]; exact .refl _⟩

theorem State.Shows.trans {s t u : State} (h : s.Shows t) (k : t.Shows u) : s.Shows u :=
  ⟨k.count.trans h.count, fun i => (h.core i).trans (k.core i)⟩

theorem State.Shows.foldl {α : Type} (f : State → α → State) (hf : ∀ (s : State) a, s.Shows (f s a)) (xs : List α)
    (s : State) : s.Shows (xs.foldl f s) := foldl_rel State.Shows (fun _ => .of_cores rfl) .trans id f hf xs s

theorem State.modCore_shows (s : State) (i : Nat) {f : Core → Core} (hf : ∀ c, Core.Shows c (f c)) :
    s.Shows (s.modCore i f) := by
  refine ⟨s.modCore_length i f, fun j => ?_⟩
  by_cases hj : j = i
  · subst hj
    by_cases hl : j < s.cores.length
    · rw [State.modCore_core_same hl]
      exact hf _
    · have none : s.cores[j]? = none := List.getElem?_eq_none (Nat.not_lt.mp hl)
      rw [State.core, State.core, State.modCore, setAt_getElem?_same, none]
      exact .refl _
  · rw [State.modCore_core_other hj]
    exact .refl _

theorem State.Shows.of_setAt {s t : State} {i : Nat} {f : Core → Core} (ht : t.cores = setAt f i s.cores)
    (hf : ∀ c, Core.Shows c (f c)) : s.Shows t := (s.modCore_shows i hf).trans (.of_cores ht)

/-- Cores that are all changed. -/
theorem State.Shows.of_map {s t : State} {f : Core → Core} (hf : ∀ c, Core.Shows c (f c))
    (ht : t.cores = s.cores.map f) :
    s.Shows t := by
  refine ⟨by rw [ht, List.length_map], fun j => ?_⟩
  rw [State.core, State.core, ht, List.getElem?_map]
  cases s.cores[j]? with
  | none => exact .refl _
  | some c => exact hf c

theorem State.bringOps_shows (s : State) (t : Team) (core : Nat) : s.Shows (s.bringOps t core) := by
  have without : s.Shows ({ s with cores := s.cores.map fun c => c.without (c.teamOps t.uid) } : State) :=
    .of_map (f := fun c => c.without (c.teamOps t.uid)) (fun _ => ⟨rfl, rfl, rfl, rfl⟩) rfl
  exact without.trans (.of_setAt (t := s.bringOps t core) (i := core) rfl fun _ => ⟨rfl, rfl, rfl, rfl⟩)

theorem State.bindGroups_shows (s : State) (t : Team) (core : Nat) (img : Image) : s.Shows (s.bindGroups t core img) :=
  .of_cores (State.bindAll_rest ..).2.2

theorem State.landTeam_shows (s : State) (t : Team) (dst : Nat) : s.Shows (s.landTeam t dst) := by
  unfold State.landTeam
  split
  · exact .of_cores rfl
  · refine State.Shows.trans ?_ (State.bindGroups_shows _ _ _ _)
    refine State.Shows.trans ?_ (State.bringOps_shows _ _ _)
    exact .of_cores rfl

theorem State.disown_shows (s : State) (core : Nat) (o : EngOp) : s.Shows (s.disown core o) :=
  (State.Shows.of_setAt (t := s.modOp core o.handle fun o' =>
    { o' with handle := (s.core core).strayNumber o.handle, silent := true }) (i := core) rfl
    fun _ => ⟨rfl, rfl, rfl, rfl⟩).trans
      (.of_setAt (t := s.disown core o) (i := core) rfl fun _ => ⟨rfl, rfl, rfl, rfl⟩)

section
variable {s : State} {src dst : Nat}

/-! ### A migration begins -/

theorem migrationRequest_eq (hm : s.mayMigrate src dst = true) : exec (.migrationRequest src dst) s =
    .next (((s.modCore src fun c => { c with migrating := some dst }).modCore dst fun c =>
      { c with migrating := some src }).askTeams ((s.movers src).map (·.uid)) (.migrate dst)) := by
  have he : exec (.migrationRequest src dst) s = execMigrationRequest src dst s := rfl
  rw [he, execMigrationRequest, if_pos hm, State.askTeams, List.foldl_map]

theorem migrationRequest_refused (hm : s.mayMigrate src dst = false) :
    exec (.migrationRequest src dst) s = .next s := by
  have he : exec (.migrationRequest src dst) s = execMigrationRequest src dst s := rfl
  rw [he, execMigrationRequest, hm]
  rfl

theorem State.mayMigrate_cores (hm : s.mayMigrate src dst = true) : src < 128 ∧ dst < 128 ∧ src ≠ dst := by
  simp only [State.mayMigrate, Bool.and_eq_true, decide_eq_true_eq, bne_iff_ne] at hm
  obtain ⟨⟨⟨⟨⟨⟨⟨⟨⟨⟨h1, h2⟩, h3⟩, -⟩, -⟩, -⟩, -⟩, -⟩, -⟩, -⟩, -⟩ := hm
  exact ⟨h1, h2, h3⟩

/-! ### A migration ends -/

variable (hm : (s.core src).migrating = some dst) (hd : (s.movers dst).isEmpty = true) (hne : src ≠ dst)
  (hs : src < s.cores.length) (ht : dst < s.cores.length)

include hm hd in
theorem migrationTransferDone_none (h0 : s.movers src = []) :
    exec (.migrationTransferDone src) s = .next (s.endMigration src dst) := by
  have he : exec (.migrationTransferDone src) s = execMigrationTransferDone src s := rfl
  rw [he, execMigrationTransferDone, hm]
  simp only [hd, h0, Bool.not_true, Bool.false_eq_true, if_false, List.isEmpty_nil, if_true]

include hm hd in
theorem migrationTransferDone_moved (h0 : s.movers src ≠ [])
    (hall : ∀ u ∈ s.movers src, u.sched = .migrating ∧ u.target = some dst) :
    exec (.migrationTransferDone src) s = .next (((s.movers src).foldl (fun s t => s.landTeam t dst)
      (s.exchange src dst ((s.movers src).map (·.uid)))).endMigration src dst) := by
  have he : exec (.migrationTransferDone src) s = execMigrationTransferDone src s := rfl
  have all : (s.movers src).all (fun t => t.sched == .migrating && t.target == some dst) = true :=
    List.all_eq_true.mpr fun u hu => by
      obtain ⟨h1, h2⟩ := hall u hu
      simp [h1, h2]
  rw [he, execMigrationTransferDone, hm]
  simp only [hd, h0, all, Bool.not_true, Bool.false_eq_true, if_false, List.isEmpty_iff, if_true]

include hne hs ht in
/-- Both cores are free, and show else what they showed. -/
theorem State.endMigration_cores : (s.endMigration src dst).core src = { s.core src with migrating := none } ∧
    (s.endMigration src dst).core dst = { s.core dst with migrating := none } := by
  rw [State.endMigration, State.modCore_core_other hne, State.modCore_core_same hs,
    State.modCore_core_same (by rw [State.modCore_length]; exact ht), State.modCore_core_other hne.symm]
  exact ⟨rfl, rfl⟩

include hne hs ht in
/-- The cores exchange their LCIDs, and the target has the teams' statuses and the source's handle count (R333). -/
theorem State.exchange_cores (teams : List Nat) :
    (s.exchange src dst teams).cores.length = s.cores.length ∧
      ((s.exchange src dst teams).core src).lcid = (s.core dst).lcid ∧
      ((s.exchange src dst teams).core dst).lcid = (s.core src).lcid ∧
      ((s.exchange src dst teams).core dst).nextHandle = (s.core src).nextHandle ∧
      ((s.exchange src dst teams).core dst).done = (s.core src).done.filter fun d => teams.contains d.team := by
  have shows := State.Shows.foldl (fun s o => s.disown dst o) (fun s o => s.disown_shows dst o) (s.core dst).ops s
  unfold State.exchange
  dsimp only
  generalize (s.core dst).ops.foldl (fun s o => s.disown dst o) s = w at shows
  have hs' : src < w.cores.length := shows.count ▸ hs
  have ht' : dst < w.cores.length := shows.count ▸ ht
  rw [State.modCore_core_other hne, State.modCore_core_same hs', State.modCore_core_same
    (by rw [State.modCore_length]; exact ht'), State.modCore_length, State.modCore_length]
  exact ⟨shows.count, rfl, rfl, rfl, rfl⟩

end

end Sys2Proof.Machine

namespace Sys2Proof
open Machine

/-- Settles O44: requests and saves go team by team, a save filters by what is live where lanes stand, a restore runs
one
stub per safe point, and a migration's end exchanges what the two cores show. -/
theorem savesRestoresAndMigrations : Obligations.SavesRestoresAndMigrations := by
  unfold Obligations.SavesRestoresAndMigrations
  intro s tm htm slice asked entry? live
  have asks {i : Instr} {r : Request} (hx : exec i s = .next (s.askTeams (s.clusterTeams tm) r)) : asked i r := by
    obtain ⟨hgroups, hmem, -⟩ := s.askTeams_rest (s.clusterTeams tm) r
    exact ⟨_, hx, hgroups, hmem, fun v hv hu => s.askTeams_asked r hu v hv rfl⟩
  refine ⟨fun hs h0 hd => ⟨fun ⟨c, hc, hle⟩ => asks ?_, fun hall => ?_⟩, fun hp => asks (preemptionRequest_eq hp),
    fun hm => ?_, fun hm => ?_, ?_, ?_, ?_, ?_⟩
  · rw [timeSliceExpiry_eq htm hs h0 hd, if_pos (List.any_eq_true.mpr ⟨c, hc, decide_eq_true hle⟩)]
  · have none : ¬ (s.candidates.any fun c => tm.prio ≤ c.eff s.gtime s.fw.quantum) = true := by
      simpa using hall
    refine ⟨_, _, by rw [timeSliceExpiry_eq htm hs h0 hd, if_neg none], State.modTeam_team?_same htm rfl, rfl⟩
  · obtain ⟨hmem, hsaves⟩ := State.beginSaves (s.cluster tm)
      (fun t => t.gtime + Config.latency s.clock.fresh) s.newFresh.2
    refine ⟨_, by rw [teamSave_eq htm, if_pos hm], hmem, fun v hv hu => ?_, fun g hg hu => ?_⟩
    · obtain ⟨u, hu, huid⟩ := State.mem_clusterTeams.mp hu
      exact (hsaves u hu).1 v hv huid.symm
    · obtain ⟨u, hu, huid⟩ := State.mem_clusterTeams.mp hu
      exact (hsaves u hu).2 g hg huid.symm
  · rw [teamSave_eq htm, hm]
    rfl
  · intro hc hr gr hgr
    have hu := State.modTeam_team?_same (f := Machine.Team.saved s tm gr) htm rfl
    rw [saveComplete_eq htm hc hr, State.endSave_eq hgr]
    refine ⟨_, _, rfl, hu, rfl, fun h => ?_, fun h => ?_, fun a ha => ?_, fun a ha => ?_, fun k => ?_, rfl, rfl, rfl,
      fun g hg hteam => ?_, fun c' hc' => ?_⟩
    · simp [Machine.Team.saved, h]
    · have h' : tm.target.isNone = false := Option.isNone_eq_false_iff.mpr (Option.isSome_iff_ne_none.mpr h)
      simp [Machine.Team.saved, h']
    · exact (Machine.Team.keep_scratch tm gr.image (s.teamAlive tm gr.image) a).trans (if_pos ha)
    · exact (Machine.Team.keep_scratch tm gr.image (s.teamAlive tm gr.image) a).trans (if_neg (Bool.eq_false_iff.mp ha))
    · refine (Machine.Team.keep_acc tm gr.image (s.teamAlive tm gr.image) k).trans (if_congr ?_ rfl rfl)
      rw [keepsTile, Bool.and_eq_true, decide_eq_true_eq, State.teamAlive_getLsbD]
      rfl
    · refine ⟨_, State.group?_map rfl (fun k => ?_) hg, ?_⟩
      · split <;> rfl
      · rw [if_pos hteam]
        exact ⟨fun r => g.keep_u gr.image r, fun r => g.keep_jmask gr.image r, fun r => g.keep_td gr.image r, rfl, rfl,
          rfl,
          rfl, rfl, fun i l hl => g.keep_lane gr.image hl⟩
    · obtain ⟨c, -, rfl⟩ := List.mem_map.mp hc'
      exact Machine.Core.left_gives c
  · intro c cores gr hf ht hid hs _ hc
    obtain ⟨u, hu, h⟩ := State.restoreTeam_restores (s := s.newFresh.2) (tm := tm) htm (cores.getD tm.member 0)
      (s.newFresh.2.gtime + Config.latency s.clock.fresh)
    exact ⟨_, u, teamRestore_saved htm hc hf ht hid hs, hu, h⟩
  · intro gr hs hd hgr hc
    have hx := teamRestore_restoring htm hc hs hd hgr
    rw [State.bindGroups_eq] at hx
    let resident : State := s.modTeam tm.uid fun t => { t with sched := .resident, slice := s.gtime }
    obtain ⟨hteams, hmem, -⟩ := State.bindAll_rest (s.teamGroups tm.uid) (tm.core.getD 0) gr.image resident
    have hu : resident.team? tm.uid = some _ := State.modTeam_team?_same htm rfl
    refine ⟨_, _, hx, hmem, (State.team?_congr hteams _).trans hu, rfl, rfl, rfl, fun g h1 hteam hn => ?_⟩
    have hfirst : resident.group? g.uid = some g := by
      rw [State.group?, ← List.head?_filter]
      exact congrArg List.head? h1
    have honce : (s.teamGroups tm.uid).filter (fun k => k.uid == g.uid) = [g] := by
      rw [State.teamGroups, List.filter_comm, h1]
      simp [hteam]
    obtain ⟨w, hw⟩ := State.bindAll_bound (core := tm.core.getD 0) (img := gr.image) honce hfirst
    refine ⟨_, hw, rfl, rfl, rfl, ⟨_, rfl, w.bestSlot_lt _⟩, stubsFrom_pairwise .., fun i l hl => ?_⟩
    exact g.beginStubs_lane hl ((List.getElem?_eq_some_iff.mp hl).1.trans_le hn)
  · intro src dst
    refine ⟨migrationRequest_refused, fun hm hlen => ?_, fun hm hne hsrc hdst hd => ⟨fun h0 => ?_, fun h0 hall => ?_⟩⟩
    · obtain ⟨hsrc, hdst, hne⟩ := State.mayMigrate_cores hm
      rw [← hlen] at hsrc hdst
      refine ⟨_, migrationRequest_eq hm, ?_, ?_, fun u hu v hv huid =>
        State.askTeams_asked _ (Request.migrate dst) (List.mem_map.mpr ⟨u, hu, rfl⟩) v hv huid⟩
      · rw [State.core, (State.askTeams_rest ..).2.2]
        exact congrArg _ ((State.modCore_core_other hne _).trans (State.modCore_core_same hsrc _))
      · rw [State.core, (State.askTeams_rest ..).2.2]
        exact congrArg _ (State.modCore_core_same (by rw [State.modCore_length]; exact hdst) _)
    · obtain ⟨h1, h2⟩ := State.endMigration_cores hne hsrc hdst
      refine ⟨_, migrationTransferDone_none hm hd h0, ?_, ?_, ?_⟩
      · rw [h1]
      · rw [h2]
      · rw [h1]
    · have landed := State.Shows.foldl (fun s t => s.landTeam t dst) (fun s t => s.landTeam_shows t dst) (s.movers src)
        (s.exchange src dst ((s.movers src).map (·.uid)))
      obtain ⟨hcount, hl1, hl2, hnext, hdone⟩ := State.exchange_cores hne hsrc hdst ((s.movers src).map (·.uid))
      have hx := migrationTransferDone_moved hm hd h0 hall
      generalize (s.movers src).foldl (fun s t => s.landTeam t dst)
        (s.exchange src dst ((s.movers src).map (·.uid))) = w
        at landed hx
      have hw := landed.count.trans hcount
      obtain ⟨h1, h2⟩ := State.endMigration_cores (s := w) hne (hw ▸ hsrc) (hw ▸ hdst)
      refine ⟨_, hx, ?_, ?_, ?_, ?_, ?_, fun st => ?_⟩
      · rw [h1]
      · rw [h2]
      · rw [h1]
        exact (landed.core src).lcid.trans hl1
      · rw [h2]
        exact (landed.core dst).lcid.trans hl2
      · rw [h2]
        exact (landed.core dst).nextHandle.trans hnext
      · have moved : ({ w.core dst with migrating := none } : Machine.Core).done = _ :=
          (landed.core dst).done.trans hdone
        rw [h2, moved, List.mem_filter, List.contains_iff_mem, List.mem_map]

end Sys2Proof
end

section
/-!
PROOFS. Words and instructions: every row's encoding is read back, and example words by the decoder's tables (R68 to
R94, R344).
-/

namespace Sys2Proof.Laws.Encoding

/-- Each row is read back, by the law of the row; the rows stand in the order of the table. -/
theorem statement_of_every_row : ∀ i : Instr, Statement i := Instr.rec (motive := Statement)
  -- IALU (R76)
  iadd isub imul imulh imulhu imad imin imax iminu imaxu iabs ineg and or xor andn shl shr sar rotl popc clz brev
  bfx bfxs bfi iadds isubs mov retag
  -- UALU (R77)
  ualuIadd ualuIsub ualuImul ualuImin ualuImax ualuIminu ualuImaxu ualuAnd ualuOr ualuXor ualuAndn ualuShl ualuShr
  ualuSar ualuMov
  -- IALUI and UALUI (R78)
  iaddi andi ori xori shli shri sari imuli ualuiIaddi ualuiAndi ualuiOri ualuiXori ualuiShli ualuiShri ualuiSari
  ualuiImuli
  -- MOVW (R85)
  movl movh movlUniform movhUniform
  -- ICMP (R79)
  icmp
  -- ADDR (R80)
  aadd aaddx asub alea acmpeq acmpltu afroms
  -- FALU (R81)
  fadd fsub fmul ffma ffms fnma fmin fmax fminnum fmaxnum fabs fneg fcopysign frnd fclass fdot2 fdot4 fdiv fscale
  fgetexp fgetman
  -- FCMP and CVT (R79, R82)
  fcmp cvt
  -- SFU (R83)
  frcp frsq fsqrt flut atload atbind atstat
  -- XLANE (R84)
  shfli shflu shfld shflx voteall voteany ballot redadd redmin redmax redand redor redxor scanadd scanmax matchLanes
  bcast splat
  -- PRED (R86)
  pand por pxor pnot pmov pandn ptos pfroms
  -- SEL, BRA and CALL (R87)
  sel bra call
  -- CTRL (R88)
  brx ret wbase wadj jenr jarv jstk jclr jqry yield safept exit nop resume acbase
  -- SYS (R89)
  sread swrite trap svcNull svcStack svcMap svcLog svcUnprovided bkpt tret tskip tkill
  -- Memory (R92, R93)
  ldg stg ldp stp ldu stu
  -- Atomics (R94)
  atom atomp
  -- SYNC (R90, R91)
  fence bar cbar bcinit bcexp bcwait tginit tgacq tgcmt tgwait tgrel evsig evwait twait
  -- ENG (R90)
  cpy gath scat coll bankop bankred pfetch cflush cinv engst
  -- TASK (R90)
  task tsucc tstat ctdecl ctdeclFree ctpost ctget ctstat
  -- MMA (R90)
  tdset bload bloadFree scpush mma bstatSlot bstatQueue bstatError bstatDrain
  -- ACC (R90)
  aczero acld acst acadd acmul acovf acmov
  -- No word of its own
  illegalInstruction
  -- Trellis scripts (R344)
  kmov kmovi kmoviSh kadd ksub kand kor kld kst kbeq kbne kblt kjmp ktime ksleep khalt knop creq cwait crel ctol
  cstat cpathRoute cpathRank cpathClear ewait esig
  -- Events: no word
  ksleepExpiry cwaitTimeout launch launchQueueHead carveoutWaitEnd read write tinval terminate debugAttach
  debugDetach debugHalt debugResume debugReadRegister debugWriteRegister mgmtThresholds mgmtAgeingQuantum
  mgmtParkDelay mgmtSpdistCap mgmtPowerLimit mgmtReadCounters mgmtRaiseSvn mgmtReservedBase attest devrsp
  devrspTimeout bootdata powerGood boardReset firmwareReady gridCompletion gridTerminationDone candidatePlacement
  taskDispatch spillRefill ringPageMapped serviceablePageMapped fairnessRotation rotationEnd safePointDistanceFault
  pendingResultLands fenceRelease twaitRelease handlerStart trackerEntryFree successorDecrement companionRetry
  groupPark groupWake timeSliceExpiry preemptionRequest teamSave saveComplete teamRestore sensorSample powerStop
  migrationRequest migrationTransferDone leaseExpiry ingressWriteback engineRunDelivered engineCompletion
  circuitBarrierMatch atloadComplete bloadTurn mmaStep acstTurn matrixQueueTurn circuitGrant brokerRefusal
  lightDetected lightTimeout lockAchieved lockTimeout trainingDone trainingTimeout liveHandshakeDone portDoze
  portNap portWake drainEnd drainTimeout laneFailure retrainEnd retrainTimeout lightLoss ucieFailure elinkDown
  flitReceive retryTimeout packetReceive collChunkReceive cuttingWaitExpiry ctgetTurn ctpostTurn commitWritebackDone
  speculativeRoomSquash speculativeLineError fetchFault scriptIllegalWord peerRelease peerFault rankReport
  electricalLinkTrained powerStopEnd heldRecordRetry unknownMtype

end Sys2Proof.Laws.Encoding

namespace Sys2Proof

/-- Settles O58: case by case over the rows of the table, each by the law of its row. -/
theorem decodeReadsBackEncode : Obligations.DecodeReadsBackEncode := by
  unfold Obligations.DecodeReadsBackEncode
  exact Laws.Encoding.statement_of_every_row

/-- Settles O57: the decoders, run on each word, give the instruction or the refusal named beside it. -/
theorem wordsDecodeByTheTables : Obligations.WordsDecodeByTheTables := by
  unfold Obligations.WordsDecodeByTheTables
  and_intros
  all_goals rfl

end Sys2Proof
end

section
/-!
PROOFS. Formats, exact sums and products, and roundings that lose nothing (R111, R114, R118, R150, R151).
-/

-- One proof after another: each that waits beside others holds a stack of its own.
set_option Elab.async false

namespace Sys2Proof.Machine

/-! ## Dyadic numbers as rationals -/

/-- A power of two taken apart at a lower exponent. -/
theorem two_zpow_split {e g : Int} (h : g ≤ e) : (2 : ℚ) ^ e = 2 ^ (e - g).toNat * 2 ^ g := by
  rw [← zpow_natCast, Int.toNat_of_nonneg (by omega), ← zpow_add₀ two_ne_zero, Int.sub_add_cancel]

theorem Num.rat_fin (s : Bool) (m : Nat) (e : Int) :
    (Num.fin s m e).rat = (if s then -1 else 1) * (m : ℚ) * 2 ^ e := rfl

theorem Num.rat_zero (s : Bool) (e : Int) : (Num.fin s 0 e).rat = 0 := by simp [Num.rat_fin]

/-- A dyadic lies in the binade that the length of its count and its exponent name. -/
theorem binade_bounds {n : Nat} (hn : n ≠ 0) (q : Int) :
    (2 : ℚ) ^ (Nat.log2 n + q) ≤ n * 2 ^ q ∧ (n : ℚ) * 2 ^ q < 2 ^ (Nat.log2 n + q + 1) := by
  have pos : (0 : ℚ) < 2 ^ q := by positivity
  have low : (2 : ℚ) ^ Nat.log2 n ≤ n := by exact_mod_cast Nat.log2_self_le hn
  have high : (n : ℚ) < 2 ^ (Nat.log2 n + 1) := by exact_mod_cast Nat.lt_log2_self
  rw [show (Nat.log2 n : Int) + q + 1 = ((Nat.log2 n + 1 : Nat) : Int) + q by omega, zpow_add₀ two_ne_zero,
    zpow_add₀ two_ne_zero, zpow_natCast, zpow_natCast]
  exact ⟨by gcongr, by gcongr⟩

/-- Two dyadics of one value have their leading bits at one exponent. -/
theorem leading_exponent_eq {n m : Nat} {q e : Int} (hn : n ≠ 0) (hm : m ≠ 0) (h : (n : ℚ) * 2 ^ q = m * 2 ^ e) :
    (Nat.log2 n : Int) + q = Nat.log2 m + e := by
  obtain ⟨nlow, nhigh⟩ := binade_bounds hn q
  obtain ⟨mlow, mhigh⟩ := binade_bounds hm e
  rw [← h] at mlow mhigh
  have h1 := (zpow_lt_zpow_iff_right₀ one_lt_two).mp (nlow.trans_lt mhigh)
  have h2 := (zpow_lt_zpow_iff_right₀ one_lt_two).mp (mlow.trans_lt nhigh)
  omega

/-! ## Exact sums and products (R118) -/

/-- A number that is neither infinite nor NaN, and the rational it stands for. -/
def Num.Denotes (x : Num) (y : ℚ) : Prop := (∃ s m e, x = .fin s m e) ∧ x.rat = y

theorem Num.Denotes.neg {x : Num} {p : ℚ} : x.Denotes p → x.neg.Denotes (-p) := by
  rintro ⟨⟨s, m, e, rfl⟩, rfl⟩
  refine ⟨⟨!s, m, e, rfl⟩, ?_⟩
  cases s <;> simp [Num.neg, Num.rat_fin]

theorem Num.Denotes.mul {x y : Num} {p q : ℚ} : x.Denotes p → y.Denotes q → (x.mul y).Denotes (p * q) := by
  rintro ⟨⟨s, m, e, rfl⟩, rfl⟩ ⟨⟨t, n, g, rfl⟩, rfl⟩
  refine ⟨⟨s != t, m * n, e + g, rfl⟩, ?_⟩
  simp only [Num.mul, Num.rat_fin, zpow_add₀ (two_ne_zero (α := ℚ))]
  cases s <;> cases t <;> simp <;> ring

theorem scaled_rat (s : Bool) (m : Nat) {e g : Int} (h : g ≤ e) :
    (scaled s m e g : ℚ) * 2 ^ g = (Num.fin s m e).rat := by
  rw [Num.rat_fin, two_zpow_split h, scaled]
  cases s <;> simp <;> ring

/-- A count with its sign apart. -/
theorem Num.rat_fin_natAbs (x g : Int) : (Num.fin (x < 0) x.natAbs g).rat = x * 2 ^ g := by
  rw [Num.rat_fin]
  congr 1
  by_cases h : x < 0
  · simp [h, Nat.cast_natAbs, abs_of_neg]
  · simp [h, Nat.cast_natAbs, abs_of_nonneg (Int.not_lt.mp h)]

theorem Num.Denotes.add {x y : Num} {p q : ℚ} (mode : RMode) :
    x.Denotes p → y.Denotes q → (x.add mode y).Denotes (p + q) := by
  rintro ⟨⟨s, m, e, rfl⟩, rfl⟩ ⟨⟨t, n, g, rfl⟩, rfl⟩
  have hx := scaled_rat s m (min_le_left e g)
  have hy := scaled_rat t n (min_le_right e g)
  rw [← hx, ← hy, ← add_mul, ← Int.cast_add, Num.add]
  split
  next h => exact ⟨⟨_, _, _, rfl⟩, by rw [h, Num.rat_zero, Int.cast_zero, zero_mul]⟩
  · exact ⟨⟨_, _, _, rfl⟩, Num.rat_fin_natAbs ..⟩

/-! ## Rounding at a position that holds every bit (R114) -/

theorem roundAt_exact {mode : RMode} {s : Bool} {m : Nat} {e q : Int} (h : (roundAt mode s m e q).2 = true) :
    ((roundAt mode s m e q).1 : ℚ) * 2 ^ q = m * 2 ^ e := by
  unfold roundAt at h ⊢
  split at h
  next hq =>
    rw [if_pos hq, Nat.cast_mul, Nat.cast_pow, Nat.cast_ofNat, mul_assoc, ← two_zpow_split hq]
  next hq =>
  rw [if_neg hq]
  split at h
  next hm => simp [hm]
  next hm =>
  rw [if_neg hm]
  dsimp only at h ⊢
  split at h
  · cases h
  next hk =>
  rw [if_neg hk]
  split at h
  next hr =>
    have whole := Nat.div_add_mod m (2 ^ (q - e).toNat)
    rw [hr, Nat.add_zero] at whole
    rw [if_pos hr, two_zpow_split (show e ≤ q by omega), ← mul_assoc, mul_comm ((m / _ : Nat) : ℚ)]
    congr 1
    exact_mod_cast whole
  · cases h

theorem roundAt_exact_ne_zero {mode : RMode} {s : Bool} {m : Nat} {e q : Int} (hm : m ≠ 0)
    (h : (roundAt mode s m e q).2 = true) : (roundAt mode s m e q).1 ≠ 0 := by
  intro h0
  have same := roundAt_exact h
  rw [h0, Nat.cast_zero, zero_mul] at same
  have : (m : ℚ) * 2 ^ e ≠ 0 := by positivity
  exact this same.symm

/-- An exact rounding keeps the leading bit where it was. -/
theorem roundAt_exact_log2 {mode : RMode} {s : Bool} {m : Nat} {e q : Int} (hm : m ≠ 0)
    (h : (roundAt mode s m e q).2 = true) : (Nat.log2 (roundAt mode s m e q).1 : Int) + q = Nat.log2 m + e :=
  leading_exponent_eq (roundAt_exact_ne_zero hm h) hm (roundAt_exact h)

/-! ## Patterns of the signed formats with infinities (R111) -/

/-- A format with a sign and with infinities, whose fields fill its width and whose finite exponents end at the bias. -/
structure Fmt.Interchange (f : Fmt) : Prop where
  signed : f.signed = true
  specials : f.specials = .ieee
  width : f.width = f.frac + f.ebits + 1
  top : 2 ^ f.ebits = 2 * f.bias + 2
  emax : f.emax = f.bias

theorem Fmt.interchange_of_float {f : Fmt} (h : f = fF32 ∨ f = fBF16 ∨ f = fF16) : f.Interchange := by
  rcases h with rfl | rfl | rfl <;> exact ⟨rfl, rfl, by decide, by decide, rfl⟩

theorem Fmt.value_denotes {f : Fmt} {x : Nat} (h : f.finite x) :
    (f.value x).Denotes (f.value x).rat := by
  obtain ⟨-, hnan, hinf⟩ := h
  simp only [Fmt.value, hnan, hinf, Bool.false_eq_true, if_false]
  split <;> exact ⟨⟨_, _, _, rfl⟩, rfl⟩

section
variable {f : Fmt} (hf : f.Interchange) (s : Bool) {E S : Nat} (hE : E < 2 ^ f.ebits) (hS : S < 2 ^ f.frac)
include hf hE hS

/-- What the fields of a pattern read as, and that it fits the format's width. -/
theorem Fmt.fields_of_pattern :
    f.signBits s + (E * 2 ^ f.frac + S) < 2 ^ f.width ∧ f.sign (f.signBits s + (E * 2 ^ f.frac + S)) = s ∧
      f.expField (f.signBits s + (E * 2 ^ f.frac + S)) = E ∧
      f.sigField (f.signBits s + (E * 2 ^ f.frac + S)) = S := by
  have hw : f.width - 1 = f.frac + f.ebits := by rw [hf.width]; rfl
  have below : E * 2 ^ f.frac + S < 2 ^ (f.width - 1) := calc
    E * 2 ^ f.frac + S < (E + 1) * 2 ^ f.frac := by rw [Nat.add_mul, Nat.one_mul]; omega
    _ ≤ 2 ^ f.ebits * 2 ^ f.frac := Nat.mul_le_mul_right _ hE
    _ = 2 ^ (f.width - 1) := by rw [hw, pow_add, Nat.mul_comm]
  have full : 2 ^ f.width = 2 * 2 ^ (f.width - 1) := by rw [hw, hf.width, pow_succ]; ring
  have sign (b : Bool) : f.signBits b = (if b then 2 ^ f.ebits else 0) * 2 ^ f.frac := by
    rw [Fmt.signBits, hw, pow_add]
    cases b <;> simp [Nat.mul_comm]
  refine ⟨?_, ?_, ?_, ?_⟩
  · rw [Fmt.signBits, full]
    split <;> omega
  · rw [Fmt.sign, hf.signed, bitsOf, Fmt.signBits]
    cases s
    · simp [Nat.div_eq_of_lt below]
    · simp [Nat.add_div_left _ (Nat.two_pow_pos _), Nat.div_eq_of_lt below]
  · rw [Fmt.expField, bitsOf, sign, ← Nat.add_assoc, ← Nat.add_mul, Nat.add_comm,
      Nat.add_mul_div_right _ _ (by positivity), Nat.div_eq_of_lt hS, Nat.zero_add]
    cases s <;> simp [Nat.mod_eq_of_lt hE]
  · rw [Fmt.sigField, bitsOf, sign, pow_zero, Nat.div_one, ← Nat.add_assoc, ← Nat.add_mul, Nat.mul_add_mod_self_right,
      Nat.mod_eq_of_lt hS]

/-- The value of a pattern below the infinities. -/
theorem Fmt.value_of_pattern (hspecial : E ≠ 2 ^ f.ebits - 1) :
    f.finite (f.signBits s + (E * 2 ^ f.frac + S)) ∧
      f.value (f.signBits s + (E * 2 ^ f.frac + S)) =
        if E = 0 then .fin s S (f.emin - f.frac) else .fin s (2 ^ f.frac + S) ((E : Int) - f.bias - f.frac) := by
  obtain ⟨hwidth, hsign, hexp, hsig⟩ := Fmt.fields_of_pattern hf s hE hS
  have hnan : f.isNan (f.signBits s + (E * 2 ^ f.frac + S)) = false := by simp [Fmt.isNan, hexp, hspecial]
  have hinf : f.isInf (f.signBits s + (E * 2 ^ f.frac + S)) = false := by simp [Fmt.isInf, hexp, hspecial]
  exact ⟨⟨hwidth, hnan, hinf⟩, by simp only [Fmt.value, hnan, hinf, hexp, hsig, hsign, Bool.false_eq_true, if_false]⟩

end

/-! ## Roundings that raise no IXE (R114) -/

/-- Where no bit is lost, the count that is kept has the value of the magnitude. -/
theorem Fmt.roundMag_exact {f : Fmt} {mode : RMode} {s : Bool} {m : Nat} {e : Int}
    (hx : (f.roundMag mode s m e).inexact = false) :
    (roundAt mode s m e (f.roundMag mode s m e).q).2 = true := by
  simpa [Fmt.roundMag] using hx

/-- A normal magnitude that loses no bit is counted as if exponents had no bound, and so is not beyond vmax unless its
leading bit is. -/
theorem Fmt.le_emax_of_not_beyond {f : Fmt} {mode : RMode} {s : Bool} {m : Nat} (hm : m ≠ 0) {e : Int}
    (hx : (roundAt mode s m e (Nat.log2 m + e - f.frac)).2 = true) (hb : (f.roundMag mode s m e).beyond = false) :
    (Nat.log2 m : Int) + e ≤ f.emax := by
  have hlog := roundAt_exact_log2 hm hx
  have hu : ¬ f.emax < Nat.log2 m + e - f.frac + Nat.log2 (roundAt mode s m e (Nat.log2 m + e - f.frac)).1 := by
    intro h
    simp [Fmt.roundMag, h] at hb
  omega

/-- R114 step 5: where IXE is not raised, no bit is lost. -/
theorem Rounded.inexact_of_flags {r : Rounded} (h : r.flags &&& ixe = 0) : r.inexact = false := by
  rw [Rounded.flags] at h
  generalize r.inexact = inexact, r.tiny = tiny at h ⊢
  revert inexact tiny
  decide

section
variable {f : Fmt} (hf : f.Interchange) (s : Bool)
include hf

/-- A count below the implicit bit stands for itself at the least exponent. -/
theorem Fmt.pattern_subnormal {n : Nat} (hn : n < 2 ^ f.frac) (q : Int) :
    f.finite (f.pattern s n q) ∧ f.value (f.pattern s n q) = .fin s n (f.emin - f.frac) := by
  have htop := hf.top
  obtain ⟨hfin, hval⟩ := Fmt.value_of_pattern hf s (E := 0) (by positivity) hn (by omega)
  rw [Nat.zero_mul, Nat.zero_add] at hfin hval
  rw [Fmt.pattern, if_pos hn]
  exact ⟨hfin, by rw [hval, if_pos rfl]⟩

theorem Fmt.value_signBits : f.finite (f.signBits s) ∧ (f.value (f.signBits s)).rat = 0 := by
  obtain ⟨hfin, hval⟩ := Fmt.pattern_subnormal hf s (n := 0) (by positivity) 0
  rw [Fmt.pattern, if_pos (by positivity), Nat.add_zero] at hfin hval
  exact ⟨hfin, by rw [hval, Num.rat_zero]⟩

/-- A count of `frac + 1` bits whose exponent is in range stands for itself. -/
theorem Fmt.pattern_normal {n : Nat} (hn : n ≠ 0) {q : Int} (hlog : Nat.log2 n = f.frac) (hlow : f.emin ≤ f.frac + q)
    (hhigh : f.frac + q ≤ f.emax) : f.finite (f.pattern s n q) ∧ f.value (f.pattern s n q) = .fin s n q := by
  have htop := hf.top
  have hge : 2 ^ f.frac ≤ n := hlog ▸ Nat.log2_self_le hn
  have hlt : n < 2 ^ f.frac * 2 := by rw [← pow_succ, ← hlog]; exact Nat.lt_log2_self
  rw [hf.emax] at hhigh
  rw [Fmt.emin] at hlow
  obtain ⟨E, hE⟩ : ∃ E : Nat, q + f.frac + f.bias = E := ⟨_, (Int.toNat_of_nonneg (by omega)).symm⟩
  obtain ⟨hfin, hval⟩ := Fmt.value_of_pattern hf s (E := E) (S := n - 2 ^ f.frac) (by omega) (by omega) (by omega)
  have hp : f.pattern s n q = f.signBits s + (E * 2 ^ f.frac + (n - 2 ^ f.frac)) := by
    simp only [Fmt.pattern, if_neg (Nat.not_lt.mpr hge), hlog, Nat.sub_self, pow_zero, Nat.div_one, Nat.cast_zero,
      add_zero, hE, Int.toNat_natCast]
  rw [hp]
  refine ⟨hfin, ?_⟩
  rw [hval, if_neg (by omega), show 2 ^ f.frac + (n - 2 ^ f.frac) = n by omega,
    show (E : Int) - f.bias - f.frac = q by omega]

/-- Counting at a position that loses nothing, and not beyond vmax, gives the pattern of the value. -/
theorem Fmt.pattern_of_roundMag {mode : RMode} {m : Nat} (hm : m ≠ 0) {e : Int}
    (hx : (f.roundMag mode s m e).inexact = false) (hb : (f.roundMag mode s m e).beyond = false) :
    f.finite (f.pattern s (f.roundMag mode s m e).n (f.roundMag mode s m e).q) ∧
      (f.value (f.pattern s (f.roundMag mode s m e).n (f.roundMag mode s m e).q)).rat = (Num.fin s m e).rat := by
  have hexact := Fmt.roundMag_exact hx
  have hq : (f.roundMag mode s m e).q = max (Nat.log2 m + e - f.frac) (f.emin - f.frac) := rfl
  have hn : (f.roundMag mode s m e).n = (roundAt mode s m e (f.roundMag mode s m e).q).1 := rfl
  rw [hn]
  generalize (f.roundMag mode s m e).q = q at hexact hq ⊢
  have hlog := roundAt_exact_log2 hm hexact
  have hne := roundAt_exact_ne_zero hm hexact
  have hval : (Num.fin s m e).rat = (Num.fin s (roundAt mode s m e q).1 q).rat := by
    rw [Num.rat_fin, Num.rat_fin, mul_assoc, mul_assoc, roundAt_exact hexact]
  rw [hval]
  by_cases hsub : (Nat.log2 m : Int) + e < f.emin
  · -- The value is subnormal: it is counted at the least exponent.
    rw [max_eq_right (by omega)] at hq
    obtain ⟨hfin, hv⟩ := Fmt.pattern_subnormal hf s ((Nat.log2_lt hne).mp (by omega)) q
    exact ⟨hfin, by rw [hv, hq]⟩
  · -- The value is normal: its position follows its leading bit.
    rw [max_eq_left (by omega)] at hq
    have htop := Fmt.le_emax_of_not_beyond hm (hq ▸ hexact) hb
    obtain ⟨hfin, hv⟩ := Fmt.pattern_normal hf s hne (q := q) (by omega) (by omega) (by omega)
    exact ⟨hfin, by rw [hv]⟩

theorem Fmt.round_exact {mode : RMode} {m : Nat} {e : Int} (hx : (f.round mode s m e).2 &&& ixe = 0) :
    f.finite (f.round mode s m e).1 ∧ (f.value (f.round mode s m e).1).rat = (Num.fin s m e).rat := by
  unfold Fmt.round at hx ⊢
  split at hx
  next hm =>
    rw [if_pos hm, hm, Num.rat_zero]
    exact Fmt.value_signBits hf s
  next hm =>
  rw [if_neg hm]
  dsimp only at hx ⊢
  split at hx
  · exact absurd (show (ofe ||| ixe) &&& ixe = 0 from hx) (by decide)
  next hb =>
  rw [if_neg hb]
  exact Fmt.pattern_of_roundMag hf s hm (Rounded.inexact_of_flags hx) (Bool.eq_false_iff.mpr hb)

end

theorem Fmt.settle_exact {f : Fmt} (hf : f.Interchange) {mode : RMode} {x : Num} {y : ℚ} (hd : x.Denotes y)
    (hx : (f.settle mode x).2 &&& ixe = 0) :
    f.finite (f.settle mode x).1 ∧ (f.value (f.settle mode x).1).rat = y := by
  obtain ⟨⟨s, m, e, rfl⟩, rfl⟩ := hd
  exact Fmt.round_exact hf s hx

theorem Fmt.nanOf_of_finite {f : Fmt} {xs : List Nat} (h : ∀ x ∈ xs, f.finite x) : f.nanOf xs = none := by
  rw [Fmt.nanOf, Option.map_eq_none_iff, List.find?_eq_none]
  intro x hx
  obtain ⟨-, hnan, -⟩ := h x hx
  rw [hnan]
  exact Bool.false_ne_true

section
variable {f : Fmt} {a b d : Nat} (mode : RMode) (ha : f.finite a) (hb : f.finite b) (hd : f.finite d)
include ha hb

theorem Fmt.add_of_finite : f.add mode a b = f.settle mode ((f.value a).add mode (f.value b)) := by
  rw [Fmt.add, Fmt.nanOf_of_finite (by simp [ha, hb]), Option.getD_none]

theorem Fmt.sub_of_finite : f.sub mode a b = f.settle mode ((f.value a).add mode (f.value b).neg) := by
  rw [Fmt.sub, Fmt.nanOf_of_finite (by simp [ha, hb]), Option.getD_none]

theorem Fmt.mul_of_finite : f.mul mode a b = f.settle mode ((f.value a).mul (f.value b)) := by
  rw [Fmt.mul, Fmt.nanOf_of_finite (by simp [ha, hb]), Option.getD_none]

include hd

theorem Fmt.fma_of_finite (negP negD : Bool) :
    f.fma mode negP negD a b d = f.settle mode
      ((if negP then ((f.value a).mul (f.value b)).neg else (f.value a).mul (f.value b)).add mode
        (if negD then (f.value d).neg else f.value d)) := by
  rw [Fmt.fma, Fmt.nanOf_of_finite (by simp [ha, hb, hd])]

end

end Sys2Proof.Machine

namespace Sys2Proof
open Machine

/-- Settles O7: finite operands have an exact result, and a rounding of it that raises no IXE keeps its value. -/
theorem floatWithoutInexactIsExact : Obligations.FloatWithoutInexactIsExact := by
  unfold Obligations.FloatWithoutInexactIsExact
  intro f rm a b d hf ha hb hd exact v
  have va := Fmt.value_denotes ha
  have vb := Fmt.value_denotes hb
  have vd := Fmt.value_denotes hd
  have settled {x : Machine.Num} {y : ℚ} (h : x.Denotes y) : exact (f.settle rm x) y :=
    Fmt.settle_exact (Fmt.interchange_of_float hf) h
  rw [Fmt.add_of_finite rm ha hb, Fmt.sub_of_finite rm ha hb, Fmt.mul_of_finite rm ha hb,
    Fmt.fma_of_finite rm ha hb hd, Fmt.fma_of_finite rm ha hb hd, Fmt.fma_of_finite rm ha hb hd,
    sub_eq_add_neg, sub_eq_add_neg, sub_eq_neg_add]
  exact ⟨settled (va.add rm vb), settled (va.add rm vb.neg), settled (va.mul vb), settled ((va.mul vb).add rm vd),
    settled ((va.mul vb).add rm vd.neg), settled ((va.mul vb).neg.add rm vd)⟩

end Sys2Proof
end

section
/-!
PROOFS. The turns of the matrix queue: the rows that a step or an ACC operation writes, and the overflow counters (R127
to R129, R242, R251, R254, R255, R257).
-/

-- One proof after another: each that waits beside others holds a stack of its own.
set_option Elab.async false

namespace Sys2Proof.Machine

/-! ## Runs of entries and words of the scratchpad -/

/-- What a table reads after values are written at rising keys from `p + i` on. -/
theorem tget_tputs_run {α : Type} (dflt : α) (p k : Nat) (ws : List α) (t : List (Nat × α)) (i : Nat) :
    tget dflt (tputs t (mapFrom (fun j w => (p + j, w)) i ws)) k =
      if p + i ≤ k then ws.getD (k - (p + i)) (tget dflt t k) else tget dflt t k := by
  induction ws generalizing t i with
  | nil => simp [mapFrom, tputs]
  | cons w ws ih =>
    rw [mapFrom, tputs, ih]
    rcases Nat.lt_trichotomy k (p + i) with h | rfl | h
    · rw [if_neg (by omega), if_neg (by omega), tget_tput_other _ _ _ _ _ (by omega)]
    · rw [if_neg (by omega), if_pos (Nat.le_refl _), tget_tput_same, Nat.sub_self, List.getD_cons_zero]
    · rw [if_pos (by omega), if_pos (by omega), tget_tput_other _ _ _ _ _ (by omega),
        show k - (p + i) = k - (p + (i + 1)) + 1 by omega, List.getD_cons_succ]

/-- Four bytes side by side are the integer they denote, little-endian (R11). -/
theorem append_bytes_eq (b0 b1 b2 b3 : Byte) : b3 ++ b2 ++ b1 ++ b0 = BitVec.ofNat 32 (leNat [b0, b1, b2, b3]) := by
  have joined {n : Nat} (x : BitVec n) (b : Byte) : (x ++ b).toNat = b.toNat + 256 * x.toNat := by
    rw [BitVec.toNat_append, ← Nat.shiftLeft_add_eq_or_of_lt b.isLt, Nat.shiftLeft_eq]
    omega
  refine BitVec.eq_of_toNat_eq ?_
  have h0 := b0.isLt
  have h1 := b1.isLt
  have h2 := b2.isLt
  have h3 := b3.isLt
  rw [joined, joined, joined, BitVec.toNat_ofNat, leNat, leNat, leNat, leNat, leNat, Nat.mod_eq_of_lt (by omega)]
  omega

/-- Bytes of the scratchpad read as words are its words. -/
theorem Team.wordsOf_bytes (t : Team) (n off : Nat) :
    wordsOf (t.bytes off (4 * n)) = (List.range n).map fun j => t.word (off + 4 * j) := by
  induction n generalizing off with
  | zero => rfl
  | succ n ih =>
    rw [List.range_succ_eq_map, List.map_cons, List.map_map]
    refine (congrArg₂ List.cons (append_bytes_eq ..) (ih (off + 4))).trans ?_
    refine congrArg _ (List.map_congr_left fun j _ => ?_)
    exact congrArg t.word (by omega)

theorem sum_map_ite_one {α : Type} (p : α → Bool) (xs : List α) :
    (xs.map fun x => if p x then 1 else 0).sum = (xs.filter p).length := by
  induction xs with
  | nil => rfl
  | cons x xs ih => cases h : p x <;> simp [h, ih, Nat.add_comm]

/-! ## The rows of a mask (R254) -/

theorem ownedRows_nodup (mask : BitVec 32) : (ownedRows mask).Nodup := by
  have lanes : (laneList mask).Nodup := List.nodup_range.filter _
  rw [ownedRows, List.nodup_flatMap]
  refine ⟨fun l _ => by simp, lanes.imp fun {a b} hab => ?_⟩
  intro r ha hb
  simp only [List.mem_cons, List.not_mem_nil, or_false] at ha hb
  omega

/-- A row of an operation: what its elements become, and how many of them overflow. -/
def rowOf (value : Nat → Nat) (ovf : Nat → Bool) : List Word × Nat :=
  ((List.range 64).map fun j => BitVec.ofNat 32 (value j), ((List.range 64).filter ovf).length)

theorem rowOf_overflows (value : Nat → Nat) (ovf : Nat → Bool) :
    (rowOf value ovf).2 = ((List.range 64).filter ovf).length := rfl

/-- What an operation on rows of a tile leaves: its elements and its counter are the new ones, and the team's other
elements and counters and its scratchpad are as they were. -/
structure Team.RowsWritten (t u : Team) (tile : Nat) (rows : List Nat) (value : Nat → Nat → Nat) (counter : Nat) :
    Prop where
  uid : u.uid = t.uid
  scratch : u.scratch = t.scratch
  counter : u.counter tile = counter
  others : ∀ k, k ≠ tile → u.counter k = t.counter k
  written : ∀ r ∈ rows, ∀ j < 64, tget 0 u.acc (accPlace tile r j) = BitVec.ofNat 32 (value r j)
  kept : ∀ k, (∀ r ∈ rows, k < accPlace tile r 0 ∨ accPlace tile r 64 ≤ k) → tget 0 u.acc k = tget 0 t.acc k

section
variable {t u v : Team} {tile : Nat} {rows : List Nat} {value : Nat → Nat → Nat} {c d : Nat}

theorem Team.setCounter_counter (t : Team) (tile n k : Nat) :
    (t.setCounter tile n).counter k = if k = tile then n else t.counter k := by
  split
  next h => rw [h]; exact tget_tput_same ..
  next h => exact tget_tput_other _ _ _ _ _ h

/-- A counter that is set afterwards. -/
theorem Team.RowsWritten.setCounter (h : t.RowsWritten u tile rows value c) (n : Nat) :
    t.RowsWritten (u.setCounter tile n) tile rows value n where
  uid := h.uid
  scratch := h.scratch
  counter := by rw [Team.setCounter_counter, if_pos rfl]
  others k hk := by rw [Team.setCounter_counter, if_neg hk, h.others k hk]
  written := h.written
  kept := h.kept

theorem Team.RowsWritten.countOverflow (h : t.RowsWritten u tile rows value c) (n : Nat) :
    t.RowsWritten (u.countOverflow tile n) tile rows value (min (c + n) (2 ^ 32 - 1)) := by
  rw [Team.countOverflow, h.counter]
  exact h.setCounter _

theorem Team.RowsWritten.nil (t : Team) (tile : Nat) (value : Nat → Nat → Nat) :
    t.RowsWritten t tile [] value (t.counter tile) :=
  ⟨rfl, rfl, rfl, fun _ _ => rfl, fun _ h => (List.not_mem_nil h).elim, fun _ _ => rfl⟩

/-- A row that no later one is written over. -/
theorem Team.RowsWritten.cons {i : Nat} (h : t.RowsWritten u tile [i] value c) (k : u.RowsWritten v tile rows value d)
    (hi : i ∉ rows) : t.RowsWritten v tile (i :: rows) value d where
  uid := k.uid.trans h.uid
  scratch := k.scratch.trans h.scratch
  counter := k.counter
  others n hn := (k.others n hn).trans (h.others n hn)
  written r hr j hj := by
    rcases List.mem_cons.mp hr with rfl | hr
    · rw [k.kept _ fun q hq => ?_]
      · exact h.written r (List.mem_singleton.mpr rfl) j hj
      · have : q ≠ r := fun e => hi (e ▸ hq)
        simp only [accPlace]
        omega
    · exact k.written r hr j hj
  kept n hn := by
    rw [k.kept n fun r hr => hn r (List.mem_cons_of_mem _ hr),
      h.kept n fun r hr => hn r (List.mem_singleton.mp hr ▸ List.mem_cons_self)]

theorem Team.setAccRow_acc (t : Team) (tile i : Nat) (ws : List Word) (k : Nat) :
    tget 0 (t.setAccRow tile i ws).acc k =
      if accPlace tile i 0 ≤ k then ws.getD (k - accPlace tile i 0) (tget 0 t.acc k) else tget 0 t.acc k :=
  tget_tputs_run 0 (4096 * tile + 64 * i) k ws t.acc 0

theorem Team.setAccRow_uid (t : Team) (tile i : Nat) (ws : List Word) : (t.setAccRow tile i ws).uid = t.uid := rfl

theorem Team.setAccRow_scratch (t : Team) (tile i : Nat) (ws : List Word) :
    (t.setAccRow tile i ws).scratch = t.scratch := rfl

theorem Team.setAccRow_counter (t : Team) (tile i : Nat) (ws : List Word) (k : Nat) :
    (t.setAccRow tile i ws).counter k = t.counter k := rfl

theorem Team.setAccRow_written (t : Team) (tile i : Nat) (value : Nat → Nat → Nat) (ovf : Nat → Bool) :
    t.RowsWritten (t.setAccRow tile i (rowOf (value i) ovf).1) tile [i] value (t.counter tile) where
  uid := t.setAccRow_uid ..
  scratch := t.setAccRow_scratch ..
  counter := t.setAccRow_counter ..
  others _ _ := t.setAccRow_counter ..
  written r hr j hj := by
    obtain rfl := List.mem_singleton.mp hr
    rw [Team.setAccRow_acc, accPlace, accPlace, if_pos (by omega), Nat.add_zero, Nat.add_sub_cancel_left, rowOf,
      List.getD_eq_getElem?_getD, List.getElem?_map, List.getElem?_range hj, Option.map_some, Option.getD_some]
  kept k hk := by
    have outside := hk i (List.mem_singleton.mpr rfl)
    simp only [accPlace] at outside
    rw [Team.setAccRow_acc, accPlace]
    split
    · exact List.getD_eq_default _ _ (by simp only [rowOf, List.length_map, List.length_range]; omega)
    · rfl

/-- A row written, and its overflows counted. -/
theorem Team.countedRow_written (t : Team) (tile i : Nat) (value : Nat → Nat → Nat) (ovf : Nat → Bool) :
    t.RowsWritten ((t.setAccRow tile i (rowOf (value i) ovf).1).countOverflow tile (rowOf (value i) ovf).2) tile [i]
      value (min (t.counter tile + ((List.range 64).filter ovf).length) (2 ^ 32 - 1)) :=
  rowOf_overflows (value i) ovf ▸ (t.setAccRow_written tile i value ovf).countOverflow _

/-- Counting in two parts saturates as counting at once does. -/
theorem min_add_min_right (x n k m : Nat) : min (min (x + n) m + k) m = min (x + (n + k)) m := by omega

end

section
variable {f : Nat → List Nat → List Word × Nat} {value : Nat → Nat → Nat} {ovf : Nat → Nat → Bool} {tile : Nat}

/-- A row not yet written is as it was. -/
theorem Team.RowsWritten.accRow_other {t u : Team} {i r c : Nat} (h : t.RowsWritten u tile [i] value c) (hr : r ≠ i) :
    u.accRow tile r = t.accRow tile r := by
  refine List.map_congr_left fun j hj => congrArg _ (h.kept _ fun q hq => ?_)
  obtain rfl := List.mem_singleton.mp hq
  have := List.mem_range.mp hj
  simp only [accPlace]
  omega

theorem Team.foldRows_written {rows : List Nat} (hd : rows.Nodup) {t : Team} (hc : t.counter tile < 2 ^ 32)
    (hf : ∀ r ∈ rows, f r (t.accRow tile r) = rowOf (value r) (ovf r)) :
    t.RowsWritten (rows.foldl (fun t i => (t.setAccRow tile i (f i (t.accRow tile i)).1).countOverflow tile
      (f i (t.accRow tile i)).2) t) tile rows value
      (min (t.counter tile + (rows.map fun r => ((List.range 64).filter (ovf r)).length).sum) (2 ^ 32 - 1)) := by
  induction rows generalizing t with
  | nil =>
    rw [List.map_nil, List.sum_nil, Nat.add_zero, Nat.min_eq_left (by omega)]
    exact .nil ..
  | cons i rows ih =>
    obtain ⟨hi, hd⟩ := List.nodup_cons.mp hd
    have row := t.countedRow_written tile i value (ovf i)
    rw [List.foldl_cons, hf i List.mem_cons_self]
    have rest := ih hd (by rw [row.counter]; omega) fun r hr => by
      rw [row.accRow_other fun e => hi (e ▸ hr)]
      exact hf r (List.mem_cons_of_mem _ hr)
    rw [row.counter] at rest
    rw [List.map_cons, List.sum_cons, ← min_add_min_right]
    exact row.cons rest hi

/-- An operation on the rows of a mask whose new elements and overflows are given. -/
theorem Team.mapRows_written {t : Team} (mask : BitVec 32) (hc : t.counter tile < 2 ^ 32)
    (hf : ∀ r ∈ ownedRows mask, f r (t.accRow tile r) = rowOf (value r) (ovf r)) :
    t.RowsWritten (t.mapRows tile mask f) tile (ownedRows mask) value
      (min (t.counter tile + ((ownedRows mask).map fun r => ((List.range 64).filter (ovf r)).length).sum) (2 ^ 32 - 1)) :=
  Team.foldRows_written (ownedRows_nodup mask) hc hf

/-- The same where nothing overflows. -/
theorem Team.mapRows_written_exact {t : Team} (mask : BitVec 32) (hc : t.counter tile < 2 ^ 32)
    (hf : ∀ r ∈ ownedRows mask, f r (t.accRow tile r) = rowOf (value r) fun _ => false) :
    t.RowsWritten (t.mapRows tile mask f) tile (ownedRows mask) value (t.counter tile) := by
  have h := t.mapRows_written mask hc hf
  simp only [List.filter_false, List.length_nil, List.map_const', List.sum_replicate, smul_zero, Nat.add_zero] at h
  rwa [Nat.min_eq_left (by omega)] at h

end

/-! ## The rows of each operation (R127 to R129, R251, R255) -/

theorem zeroRow_eq (t : Team) (tile r : Nat) :
    ((t.accRow tile r).map fun _ => (0 : Word), 0) = rowOf (fun _ => 0) fun _ => false := by
  simp only [rowOf, Team.accRow, List.map_map, List.filter_false, List.length_nil]
  rfl

theorem loadedRow_eq (t : Team) (off : Nat) :
    (wordsOf (t.bytes off 256), 0) = rowOf (fun j => (t.word (off + 4 * j)).toNat) fun _ => false := by
  rw [show 256 = 4 * 64 from rfl, Team.wordsOf_bytes]
  simp [rowOf]

theorem movedRow_eq (t : Team) (a r : Nat) :
    ((t.accRow a r).map (BitVec.ofNat 32), 0) =
      rowOf (fun j => (tget 0 t.acc (accPlace a r j)).toNat) fun _ => false := by
  simp [rowOf, Team.accRow]

/-- An element-wise operation on two rows. -/
theorem accRowArith_eq (f : Nat → Nat → Nat × FpFlags) (x y : Nat → Nat) :
    accRowArith f ((List.range 64).map x) ((List.range 64).map y) =
      rowOf (fun j => (f (x j) (y j)).1) fun j => fF32.isInf (f (x j) (y j)).1 &&
        (!fF32.isNan (x j) && !fF32.isInf (x j)) && (!fF32.isNan (y j) && !fF32.isInf (y j)) := by
  rw [accRowArith, rowOf, List.zip_map', ← sum_map_ite_one]
  simp only [List.map_map]
  rfl

/-- What an element becomes under the column of its place, if there is one. -/
def stepOn (c : Nat) (blocks : Column → List Block) (ba bb : Num) : Option Column → Nat × Bool
  | none => (0, false)
  | some col => stepElement c (blocks col) ba bb

theorem stepRow_eq (tag spk : Nat) (ba bb : Num) (a sa : List Num) {cols : List Column} (hc : cols.length = 64)
    (x : Nat → Nat) :
    stepRow tag spk ba bb a sa cols ((List.range 64).map x) =
      rowOf (fun j => (stepOn (x j) (elementBlocks tag spk a sa) ba bb cols[j]?).1)
        fun j => (stepOn (x j) (elementBlocks tag spk a sa) ba bb cols[j]?).2 := by
  have elems : (((List.range 64).map x).zip cols).map
      (fun (c, col) => stepElement c (elementBlocks tag spk a sa col) ba bb) =
      (List.range 64).map fun j => stepOn (x j) (elementBlocks tag spk a sa) ba bb cols[j]? := by
    refine List.ext_getElem (by simp [hc]) fun j hj _ => ?_
    have hj : j < cols.length := by simp at hj; omega
    simp [stepOn, hj]
  rw [stepRow, elems, rowOf, List.map_map, List.filter_map, List.length_map]
  rfl

theorem WData.columns_length (w : WData) (tag spk : Nat) : (w.columns tag spk).length = 64 := by
  simp [WData.columns]

/-! ## What each operation leaves of its tile (R251, R255) -/

section
variable {t : Team} {c : Core} {o : MatOp} {tile : Nat} (hc : t.counter tile < 2 ^ 32)
include hc

theorem Team.perform_mma_written {td : TileDesc} {slot : Nat} {bandb : BitVec 16} {claim : List Nat}
    (hk : o.kind = .mma tile td slot bandb claim) :
    let n := tileK td.tag td.spk / 8
    let scales := (claim.filterMap fun id => (c.packets.find? fun p => p.id == id).map fun p => p.bytes).flatten
    let new (r j : Nat) : Nat × Bool := stepOn (tget 0 t.acc (accPlace tile r j)).toNat
      (elementBlocks td.tag td.spk (elements td.tag (t.aRow td r))
        (((scales.drop (n * r)).take n).map fun b => fE3M5.value b.toNat))
      (fBF16.value (td.banda.toNat % 2 ^ 16)) (fBF16.value bandb.toNat)
      ((tget WData.empty c.contents slot).columns td.tag td.spk)[j]?
    t.RowsWritten (t.perform c o) tile (ownedRows o.lanes) (fun r j => (new r j).1)
      (min (t.counter tile + ((ownedRows o.lanes).map fun r => ((List.range 64).filter fun j => (new r j).2).length).sum)
        (2 ^ 32 - 1)) := by
  intro n scales new
  have hband : bitsOf td.banda.toNat 0 16 = td.banda.toNat % 2 ^ 16 := by rw [bitsOf, pow_zero, Nat.div_one]
  have hperform : t.perform c o = t.mma c tile td slot bandb claim o.lanes := by rw [Team.perform, hk]
  rw [hperform, Team.mma, hband]
  exact Team.mapRows_written o.lanes hc fun r _ => stepRow_eq td.tag td.spk _ _ _ _ (WData.columns_length ..) _

theorem Team.perform_aczero_written (hk : o.kind = .aczero tile) :
    t.RowsWritten (t.perform c o) tile (ownedRows o.lanes) (fun _ _ => 0)
      (if o.lanes == BitVec.allOnes 32 then 0 else t.counter tile) := by
  have rows := Team.mapRows_written_exact (f := fun _ old => (old.map fun _ => 0, 0)) o.lanes hc
    fun r _ => zeroRow_eq t tile r
  rw [Team.perform, hk]
  dsimp only
  split
  · exact rows.setCounter 0
  · exact rows

theorem Team.perform_acld_written {address stride : Nat} (hk : o.kind = .acld tile address stride) :
    t.RowsWritten (t.perform c o) tile (ownedRows o.lanes)
      (fun r j => (t.word (address % 2 ^ 21 + r * stride + 4 * j)).toNat) (t.counter tile) := by
  rw [Team.perform, hk]
  exact Team.mapRows_written_exact o.lanes hc fun r _ => loadedRow_eq t _

theorem Team.perform_acmov_written {a : Nat} (hk : o.kind = .acmov tile a) :
    t.RowsWritten (t.perform c o) tile (ownedRows o.lanes) (fun r j => (tget 0 t.acc (accPlace a r j)).toNat)
      (if o.lanes == BitVec.allOnes 32 then t.counter a else t.counter tile) := by
  have rows := Team.mapRows_written_exact (f := fun r _ => ((t.accRow a r).map (BitVec.ofNat 32), 0)) o.lanes hc
    fun r _ => movedRow_eq t a r
  rw [Team.perform, hk]
  dsimp only
  split
  · exact rows.setCounter _
  · exact rows

/-- A tile that an element-wise operation on two values of each place writes. -/
theorem Team.mapRows_arith_written (mask : BitVec 32) (f : Nat → Nat → Nat × FpFlags) (x y : Nat → Nat → Nat) :
    t.RowsWritten
      (t.mapRows tile mask fun r _ => accRowArith f ((List.range 64).map (x r)) ((List.range 64).map (y r))) tile
      (ownedRows mask) (fun r j => (f (x r j) (y r j)).1)
      (min (t.counter tile + ((ownedRows mask).map fun r => ((List.range 64).filter fun j =>
        fF32.isInf (f (x r j) (y r j)).1 && (!fF32.isNan (x r j) && !fF32.isInf (x r j)) &&
          (!fF32.isNan (y r j) && !fF32.isInf (y r j))).length).sum) (2 ^ 32 - 1)) :=
  Team.mapRows_written mask hc fun r _ => accRowArith_eq f (x r) (y r)

end

/-! ## The queue at a turn (R242) -/

theorem Core.perform_matrix (c : Core) (t : Team) (o : MatOp) : (c.perform t o).matrix = c.matrix := by
  unfold Core.perform
  dsimp only
  split
  case h_2 => split <;> rfl
  all_goals rfl

/-- A team that has a group stays. -/
theorem State.dropTeam_of_group {s : State} {u : Nat} {t : Team} (ht : s.team? u = some t)
    (hg : ∃ g ∈ s.groups, g.team = u) : s.dropTeam u = s := by
  obtain ⟨g, hg, rfl⟩ := hg
  have huid : t.uid = g.team := by simpa using List.find?_some ht
  have self : g.team ∈ s.clusterTeams t :=
    List.mem_map.mpr ⟨t, List.mem_filter.mpr ⟨List.mem_of_find?_eq_some ht, by simp⟩, huid⟩
  have held : (s.groups.any fun g => (s.clusterTeams t).contains g.team) = true :=
    List.any_eq_true.mpr ⟨g, hg, List.contains_iff_mem.mpr self⟩
  rw [State.dropTeam, ht]
  simp only [held, Bool.true_or, if_true]

/-- The operations whose turn is MATRIX_QUEUE_TURN: all but those with a turn of their own. -/
def MatKind.inQueueTurn : MatKind → Bool
  | .bload _ _ _ _ _ _ | .mma _ _ _ _ _ | .acst _ _ => false
  | _ => true

section
variable {s : State} {core : Nat} {c : Core} {o : MatOp} {rest : List MatOp} {tm : Team}
variable (hc : s.cores[core]? = some c)
include hc

theorem State.core_of_getElem? : s.core core = c := by rw [State.core, hc, Option.getD_some]

section
variable (hm : c.matrix = o :: rest) (hd : o.due ≤ s.clock.tick)
include hm hd

theorem State.matTurn_due {p : MatKind → Bool} (hp : p o.kind = true) : s.matTurn core p = some o := by
  simp only [State.matTurn, State.core_of_getElem? hc, hm, hd, hp, decide_true, Bool.and_self, if_true]

theorem mmaStep_eq {tile : Nat} {td : TileDesc} {slot : Nat} {bandb : BitVec 16} {claim : List Nat}
    (hk : o.kind = .mma tile td slot bandb claim) : exec (.mmaStep core) s = .next (s.performMat core o) := by
  have he : exec (.mmaStep core) s = execMmaStep core s := rfl
  rw [he, execMmaStep, State.matTurn_due hc hm hd]
  rw [hk]

theorem matrixQueueTurn_eq (hk : o.kind.inQueueTurn = true) :
    exec (.matrixQueueTurn core) s = .next (s.performMat core o) := by
  have he : exec (.matrixQueueTurn core) s = execMatrixQueueTurn core s := rfl
  rw [he, execMatrixQueueTurn, State.matTurn_due hc hm hd]
  exact hk

end

/-- An operation that is performed leaves the queue with its locks, and its team is changed by it alone. -/
theorem State.performMat_leaves (hm : c.matrix = o :: rest) (ht : s.team? o.team = some tm)
    (hg : ∃ g ∈ s.groups, g.team = o.team) (hp : c.parityMet o = none) (hdam : o.damaged c tm = false)
    (huid : (tm.perform c o).uid = tm.uid) :
    ∃ c', (s.performMat core o).mem = s.mem ∧ (s.performMat core o).cores[core]? = some c' ∧
      c'.matrix = (o :: rest).filter (·.id != o.id) ∧ (∀ k ∈ c'.locks, k.matrix = true → k.owner ≠ o.id) ∧
      (s.performMat core o).team? o.team = some (tm.perform c o) := by
  have hself : tm.uid = o.team := by simpa using List.find?_some ht
  have hteam : ((s.modTeam o.team fun t => t.perform c o).modCore core fun c => (c.perform tm o).endMat o.id).team?
      o.team = some (tm.perform c o) :=
    State.modTeam_team?_same (f := fun t => t.perform c o) ht (huid.trans hself)
  have done : s.performMat core o =
      (s.modTeam o.team fun t => t.perform c o).modCore core fun c => (c.perform tm o).endMat o.id := by
    simp only [State.performMat, ht, State.core_of_getElem? hc, hp, hdam, Bool.false_eq_true, if_false]
    exact State.dropTeam_of_group hteam hg
  rw [done]
  refine ⟨(c.perform tm o).endMat o.id, rfl, ?_, ?_, fun k hk hmat => ?_, hteam⟩
  · exact (setAt_getElem?_same ..).trans (by rw [State.modTeam_cores, hc, Option.map_some])
  · rw [Core.endMat, Core.perform_matrix, hm]
  · have := (List.mem_filter.mp hk).2
    simpa [hmat] using this

end

end Sys2Proof.Machine

namespace Sys2Proof
open Machine

/-- Settles O31: each operation at its turn, by the rows that it writes; a step and the element-wise operations count the
elements that overflow, and the others set the counter or leave it. -/
theorem matrixTurnsWriteTheirRows : Obligations.MatrixTurnsWriteTheirRows := by
  unfold Obligations.MatrixTurnsWriteTheirRows
  intro s core c o rest tm hc hm hd ht hg hp hdam rows full leaves was risen finite
  have left {i : Instr} {tile : Nat} {value : Nat → Nat → Nat} {counter : Nat}
      (he : exec i s = .next (s.performMat core o))
      (hw : tm.counter tile < 2 ^ 32 → tm.RowsWritten (tm.perform c o) tile rows value counter) :
      leaves i tile value counter := by
    intro hcount
    have w := hw hcount
    obtain ⟨c', hmem, hcore, hmat, hlocks, hteam⟩ := State.performMat_leaves hc hm ht hg hp hdam w.uid
    exact ⟨_, c', _, he, hmem, hcore, hmat, hlocks, hteam, w.scratch, w.counter, w.others, w.written, w.kept⟩
  have queue {k : MatKind} (hk : o.kind = k) (hq : k.inQueueTurn = true) :=
    matrixQueueTurn_eq hc hm hd (hk ▸ hq)
  refine ⟨?_, ?_, ?_, ?_, ?_, ?_, ?_⟩
  · intro tile td slot bandb claim hk
    exact left (mmaStep_eq hc hm hd hk) fun h => Team.perform_mma_written h hk
  · intro tile hk
    exact left (queue hk rfl) fun h => Team.perform_aczero_written h hk
  · intro tile address stride hk
    exact left (queue hk rfl) fun h => Team.perform_acld_written h hk
  · intro tile a b hk
    refine left (queue hk rfl) fun h => ?_
    rw [Team.perform, hk]
    exact Team.mapRows_arith_written h o.lanes (fF32.add rne) (was a) (was b)
  · intro tile a address hk
    refine left (queue hk rfl) fun h => ?_
    have one (v : Nat) : List.replicate 64 v = (List.range 64).map fun _ => v := by
      rw [List.map_const', List.length_range]
    rw [Team.perform, hk]
    simp only [one]
    exact Team.mapRows_arith_written h o.lanes (fF32.mul rne) (was a)
      fun r _ => (tm.word (address % 2 ^ 21 + 4 * r)).toNat
  · intro tile a hk
    exact left (queue hk rfl) fun h => Team.perform_acmov_written h hk
  · intro tile hk
    have hperform : tm.perform c o = tm.setCounter tile 0 := by rw [Team.perform, hk]
    obtain ⟨c', hmem, hcore, hmat, -, hteam⟩ :=
      State.performMat_leaves hc hm ht hg hp hdam (by rw [hperform]; rfl)
    rw [hperform] at hteam
    have cleared := (Team.RowsWritten.nil tm tile fun _ _ => 0).setCounter 0
    exact ⟨_, c', _, queue hk rfl, hmem, hcore, hmat, hteam, rfl, cleared.scratch, cleared.counter, cleared.others⟩

end Sys2Proof
end

section
/-!
PROOFS. What the shapes of the register instructions leave where every active lane passes (R21, R22), and the integer
values of a word as arithmetic (R140).
-/

-- One proof after another: each that waits beside others holds a stack of its own.
set_option Elab.async false

namespace Sys2Proof.Machine

/-! ## Shapes of register instructions -/

section
variable {s : State} {x : Site} {m : Bool} {d a b : BitVec 7} (h : Issuing s x .plain)
include h

/-- An instruction that changes each lane that passes its check, by what it makes of an active lane. -/
theorem Op.issue_acts {check : Site → Nat → Lane → Option Cause} {g : Nat → Lane → Lane}
    {f : Site → BitVec 32 → Nat → Lane → Lane} (hc : ActiveLanes x fun i l => check x i l = none)
    (hg : ∀ i l, f x x.mask i l = g i l) :
    Op.issue { m := m, kind := .plain, check := check,
               effect := fun x good s => s.modGroup x.g.uid fun g => g.onLanes good (f x good) } s =
      .next (s.completed x m .plain (onActive x g)) := by
  have hf : f x x.mask = g := funext fun i => funext (hg i)
  rw [Op.issue_completed _ s x h hc (fun _ _ _ _ => rfl) rfl rfl, ← hf]
  rfl

theorem laneOp_acts {o : Operands} {tags : Site → Lane → Bool} {f : Site → Nat → Lane → Lane}
    {g : Nat → Lane → Lane} (hc : OperandsPass x o (tags x)) (hg : ∀ i l, f x i l = g i l) :
    (laneOp m o tags f).issue s = .next (s.completed x m .plain (onActive x g)) :=
  Op.issue_acts h hc hg

theorem crossOp_acts {o : Operands} {tags : Site → Lane → Bool} {f : Site → BitVec 32 → Nat → Lane → Lane}
    {g : Nat → Lane → Lane} (hc : OperandsPass x o (tags x)) (hg : ∀ i l, f x x.mask i l = g i l) :
    (crossOp m o tags f).issue s = .next (s.completed x m .plain (onActive x g)) :=
  Op.issue_acts h hc hg

theorem vecUnary_writes {ok : BitVec 5 → Bool} {tag : BitVec 5} {f : Word → Word} {r : Lane → Word}
    (hc : OperandsPass x { vs := [d.toNat, a.toNat] } fun l => ok (l.get a.toNat).tag)
    (hr : ∀ l : Lane, f (l.get a.toNat).bits = r l) :
    (vecUnary m d a ok tag f).issue s = s.writesLane x m d tag r :=
  laneOp_acts h hc fun _ l => by rw [hr]

theorem vecBinary_writes {ok : BitVec 5 → Bool} {tag : BitVec 5} {f : Word → Word → Word} {r : Lane → Word}
    (hc : OperandsPass x { vs := [d.toNat, a.toNat, b.toNat] }
      fun l => ok (l.get a.toNat).tag && ok (l.get b.toNat).tag)
    (hr : ∀ l : Lane, f (l.get a.toNat).bits (l.get b.toNat).bits = r l) :
    (vecBinary m d a b ok tag f).issue s = s.writesLane x m d tag r :=
  laneOp_acts h hc fun _ l => by rw [hr]

theorem vecTernary_writes {ok okD : BitVec 5 → Bool} {tag : BitVec 5} {f : Word → Word → Word → Word}
    {r : Lane → Word}
    (hc : OperandsPass x { vs := [d.toNat, a.toNat, b.toNat] }
      fun l => ok (l.get a.toNat).tag && ok (l.get b.toNat).tag && okD (l.get d.toNat).tag)
    (hr : ∀ l : Lane, f (l.get a.toNat).bits (l.get b.toNat).bits (l.get d.toNat).bits = r l) :
    (vecTernary m d a b ok okD tag f).issue s = s.writesLane x m d tag r :=
  laneOp_acts h hc fun _ l => by rw [hr]

/-- A uniform instruction, once for the group. -/
theorem groupOp_writes {us : List Nat} {f : Site → BitVec 32 → Group → Group} {r : Group → Word}
    (hc : OperandsPass x { us := us } fun _ => true) (hr : ∀ g, f x x.mask g = g.setU d.toNat (r g)) :
    (groupOp m us f).issue s = s.writesUniform x m d r := by
  rw [groupOp_issue s x m us f h hc, show f x x.mask = _ from funext hr, State.writesUniform]

theorem ualuBinary_uniform {ok : BitVec 5 → Bool} {tag : BitVec 5} {f : Word → Word → Word} {r : Group → Word}
    (hc : OperandsPass x { us := [d.toNat, a.toNat, b.toNat] } fun _ => true)
    (hr : ∀ g : Group, f (g.u a.toNat) (g.u b.toNat) = r g) :
    (ualuBinary m false d a b ok tag f).issue s = s.writesUniform x m d r :=
  groupOp_writes h hc fun g => by rw [hr]

theorem ualuBinary_vector {ok : BitVec 5 → Bool} {tag : BitVec 5} {f : Word → Word → Word} {r : Lane → Word}
    (hc : OperandsPass x { vs := [d.toNat, a.toNat], us := [b.toNat] } fun l => ok (l.get a.toNat).tag)
    (hr : ∀ l : Lane, f (l.get a.toNat).bits (x.g.u b.toNat) = r l) :
    (ualuBinary m true d a b ok tag f).issue s = s.writesLane x m d tag r :=
  laneOp_acts h hc fun _ l => by rw [hr]

theorem uniUnary_writes {f : Word → Word} {r : Group → Word}
    (hc : OperandsPass x { us := [d.toNat, a.toNat] } fun _ => true) (hr : ∀ g : Group, f (g.u a.toNat) = r g) :
    (uniUnary m d a f).issue s = s.writesUniform x m d r :=
  groupOp_writes h hc fun g => by rw [hr]

end

/-! ## Integer values (R140) -/

theorem intLesser_eq (p q : Word) : intLesser p q = BitVec.ofInt 32 (min p.toInt q.toInt) := by
  unfold intLesser
  split
  · rw [min_eq_right (by omega), BitVec.ofInt_toInt]
  · rw [min_eq_left (by omega), BitVec.ofInt_toInt]

theorem intGreater_eq (p q : Word) : intGreater p q = BitVec.ofInt 32 (max p.toInt q.toInt) := by
  unfold intGreater
  split
  · rw [max_eq_right (by omega), BitVec.ofInt_toInt]
  · rw [max_eq_left (by omega), BitVec.ofInt_toInt]

theorem natLesser_eq (p q : Word) : natLesser p q = BitVec.ofNat 32 (min p.toNat q.toNat) := by
  unfold natLesser
  split
  · rw [min_eq_right (by omega), BitVec.ofNat_toNat, BitVec.setWidth_eq]
  · rw [min_eq_left (by omega), BitVec.ofNat_toNat, BitVec.setWidth_eq]

theorem natGreater_eq (p q : Word) : natGreater p q = BitVec.ofNat 32 (max p.toNat q.toNat) := by
  unfold natGreater
  split
  · rw [max_eq_right (by omega), BitVec.ofNat_toNat, BitVec.setWidth_eq]
  · rw [max_eq_left (by omega), BitVec.ofNat_toNat, BitVec.setWidth_eq]

end Sys2Proof.Machine

namespace Sys2Proof
open Machine

/-- Settles O1: each operation is a shape of register instruction, and its value the one of its row. -/
theorem integerArithmeticResults : Obligations.IntegerArithmeticResults := by
  intro s x m d a b h A B D signed unsigned
  refine ⟨fun hc => ⟨?iadd, ?isub, ?imul, ?imulh, ?imulhu, ?imin, ?imax, ?iminu, ?imaxu, ?iadds, ?isubs⟩,
    fun hc => vecTernary_writes h hc fun _ => rfl,
    fun hc => ⟨vecUnary_writes h hc fun _ => rfl, vecUnary_writes h hc fun _ => rfl⟩⟩
  case iadd | isub | imul | imulh | imulhu | iadds | isubs => exact vecBinary_writes h hc fun _ => rfl
  case imin => exact vecBinary_writes h hc fun _ => intLesser_eq ..
  case imax => exact vecBinary_writes h hc fun _ => intGreater_eq ..
  case iminu => exact vecBinary_writes h hc fun _ => natLesser_eq ..
  case imaxu => exact vecBinary_writes h hc fun _ => natGreater_eq ..

end Sys2Proof
end

section
/-!
PROOFS. The shifts, counts and fields of a word as arithmetic (R141, R142).
-/

-- One proof after another: each that waits beside others holds a stack of its own.
set_option Elab.async false

namespace Sys2Proof.Machine

/-! ## Shifts (R141) -/

theorem wordShl_eq (p n : Word) : wordShl p n = BitVec.ofNat 32 (p.toNat * 2 ^ n.toNat) := by
  unfold wordShl
  split
  next hn =>
    obtain ⟨k, hk⟩ := Nat.exists_eq_add_of_le hn
    refine BitVec.eq_of_toNat_eq ?_
    rw [BitVec.toNat_ofNat, hk, pow_add, Nat.mul_left_comm, Nat.mul_mod_right]
    rfl
  next => exact BitVec.eq_of_toNat_eq (by rw [BitVec.toNat_shiftLeft, Nat.shiftLeft_eq, BitVec.toNat_ofNat])

theorem wordShr_eq (p n : Word) : wordShr p n = BitVec.ofNat 32 (p.toNat / 2 ^ n.toNat) := by
  have hp := p.isLt
  unfold wordShr
  split
  next hn =>
    rw [Nat.div_eq_of_lt (hp.trans_le (Nat.pow_le_pow_right two_pos hn))]
    rfl
  next =>
    refine BitVec.eq_of_toNat_eq ?_
    rw [BitVec.toNat_ushiftRight, Nat.shiftRight_eq_div_pow, BitVec.toNat_ofNat,
      Nat.mod_eq_of_lt (lt_of_le_of_lt (Nat.div_le_self ..) hp)]

/-- Divided by 2^31 or a greater power of two, a word leaves copies of its sign. -/
theorem toInt_div_pow_of_le (p : Word) {n : Nat} (hn : 31 ≤ n) : p.toInt / 2 ^ n = if p.toInt < 0 then -1 else 0 := by
  have hpow : (2 : Int) ^ 31 ≤ 2 ^ n := pow_le_pow_right₀ (by decide) hn
  have hlow := p.le_toInt
  have hhigh := p.toInt_lt
  split
  next h => exact Int.ediv_eq_neg_one_of_neg_of_le h (by omega)
  next h => exact Int.ediv_eq_zero_of_lt (by omega) (by omega)

theorem wordSar_eq (p n : Word) : wordSar p n = BitVec.ofInt 32 (p.toInt / 2 ^ n.toNat) := by
  rw [← BitVec.ofInt_toInt (x := wordSar p n), wordSar, BitVec.toInt_sshiftRight, Int.shiftRight_eq_div_pow]
  congr 1
  rcases Nat.le_total n.toNat 31 with hn | hn
  · rw [min_eq_left hn]
    norm_cast
  · have h31 := toInt_div_pow_of_le p (le_refl 31)
    rw [min_eq_right hn, toInt_div_pow_of_le p hn, ← h31]
    norm_cast

/-! ## Counts (R141) -/

theorem wordPopc_eq (p : Word) : wordPopc p = BitVec.ofNat 32 ((List.range 32).countP p.getLsbD) := by
  rw [wordPopc, List.countP_eq_length_filter]

/-- The numbers from 0 on of which `p` holds, up to the first of which it does not. -/
theorem takeWhile_range_length {p : Nat → Bool} {k n : Nat} (hk : k ≤ n) (hp : ∀ i, i < k → p i = true)
    (hn : k < n → p k = false) : ((List.range n).takeWhile p).length = k := by
  obtain ⟨j, rfl⟩ := Nat.exists_eq_add_of_le hk
  rw [List.range_add, List.takeWhile_append_of_pos fun i hi => hp i (List.mem_range.mp hi)]
  cases j with
  | zero => simp
  | succ j => simp [List.range_succ_eq_map, hn (by omega)]

theorem wordClz_eq (p : Word) :
    wordClz p = BitVec.ofNat 32 ((List.range 32).takeWhile fun i => !p.getMsbD i).length := by
  unfold wordClz
  split
  next h =>
    subst h
    rw [takeWhile_range_length (le_refl 32) (by simp) (by simp)]
    rfl
  next h =>
    have hp : p.toNat ≠ 0 := fun h0 => h (BitVec.eq_of_toNat_eq h0)
    have hlog : Nat.log2 p.toNat < 32 := (Nat.log2_lt hp).mpr p.isLt
    rw [takeWhile_range_length (k := 31 - Nat.log2 p.toNat) (by omega)]
    · intro i hi
      have : p.toNat < 2 ^ (31 - i) := (Nat.log2_lt hp).mp (by omega)
      simp [BitVec.getMsbD, BitVec.getLsbD, Nat.testBit_lt_two_pow this]
    · intro _
      have : 31 - (31 - Nat.log2 p.toNat) = Nat.log2 p.toNat := by omega
      simp [BitVec.getMsbD, BitVec.getLsbD, this, Nat.testBit_log2 hp]
      omega

/-! ## Fields (R142) -/

theorem fieldPos_eq (b : Word) : fieldPos b = b.toNat % 32 := by simp [fieldPos, bitsOf]

theorem fieldLen_eq (b : Word) : fieldLen b = min (b.toNat / 256 % 64) (32 - b.toNat % 32) := by
  simp [fieldLen, fieldPos_eq, bitsOf]

/-- A number of `n` bits, read as a signed one. -/
theorem bmod_two_pow {f n : Nat} (hn : n ≠ 0) (hf : f < 2 ^ n) :
    Int.bmod f (2 ^ n) = if 2 ^ (n - 1) ≤ f then (f : Int) - 2 ^ n else f := by
  obtain ⟨k, rfl⟩ := Nat.exists_eq_succ_of_ne_zero hn
  have double : (2 : Nat) ^ (k + 1) = 2 * 2 ^ k := by rw [pow_succ, Nat.mul_comm]
  have cast : (2 : Int) ^ (k + 1) = ((2 ^ (k + 1) : Nat) : Int) := by norm_cast
  rw [Int.bmod, cast, Int.emod_eq_of_lt (by omega) (by omega)]
  simp only [Nat.succ_eq_add_one, Nat.add_sub_cancel]
  split <;> split <;> omega

/-- A number with a field of `n` bits at `p` replaced, in its parts below, at and above the field. -/
theorem field_replaced (D A p n : Nat) : D - D / 2 ^ p % 2 ^ n * 2 ^ p + A % 2 ^ n * 2 ^ p =
    2 ^ p * (2 ^ n * (D / 2 ^ (p + n)) + A % 2 ^ n) + D % 2 ^ p := by
  have low := Nat.div_add_mod D (2 ^ p)
  have high := Nat.div_add_mod (D / 2 ^ p) (2 ^ n)
  rw [Nat.div_div_eq_div_mul, ← pow_add] at high
  have whole : D = 2 ^ p * (2 ^ n * (D / 2 ^ (p + n))) + D / 2 ^ p % 2 ^ n * 2 ^ p + D % 2 ^ p := by
    calc D = 2 ^ p * (D / 2 ^ p) + D % 2 ^ p := low.symm
      _ = 2 ^ p * (2 ^ n * (D / 2 ^ (p + n)) + D / 2 ^ p % 2 ^ n) + D % 2 ^ p := by rw [high]
      _ = _ := by ring
  rw [Nat.mul_add, Nat.mul_comm (2 ^ p) (A % 2 ^ n)]
  omega

section
variable {a b d : Word} {p n : Nat} (hp : fieldPos b = p) (hn : fieldLen b = n)
include hp hn

theorem wordBfx_eq : wordBfx a b = BitVec.ofNat 32 (a.toNat / 2 ^ p % 2 ^ n) := by rw [wordBfx, hp, hn, bitsOf]

theorem wordBfxs_eq : wordBfxs a b =
    if n = 0 then 0 else BitVec.ofInt 32 (Int.bmod ((a.toNat / 2 ^ p % 2 ^ n : Nat) : Int) (2 ^ n)) := by
  simp only [wordBfxs, hp, hn, bitsOf]
  split
  next => rfl
  next h =>
    rw [bmod_two_pow h (Nat.mod_lt _ (by positivity))]
    split
    · rfl
    · exact (BitVec.ofInt_natCast ..).symm

theorem wordBfi_eq : wordBfi a b d =
    BitVec.ofNat 32 (d.toNat - d.toNat / 2 ^ p % 2 ^ n * 2 ^ p + a.toNat % 2 ^ n * 2 ^ p) := by
  rw [field_replaced]
  refine BitVec.eq_of_getLsbD_eq fun i hi => ?_
  have field (k : Nat) : Nat.testBit (k * 2 ^ p) i = (decide (p ≤ i) && k.testBit (i - p)) := by
    rw [Nat.mul_comm, Nat.testBit_two_pow_mul]
  simp only [wordBfi, hp, hn, bitsOf, pow_zero, Nat.div_one, BitVec.getLsbD_or, BitVec.getLsbD_and, BitVec.getLsbD_not,
    BitVec.getLsbD_ofNat, hi, decide_true, Bool.true_and, field, Nat.testBit_two_pow_sub_one,
    Nat.testBit_mod_two_pow, Nat.testBit_div_two_pow,
    Nat.testBit_two_pow_mul_add _ (Nat.mod_lt d.toNat (Nat.two_pow_pos p)),
    Nat.testBit_two_pow_mul_add _ (Nat.mod_lt a.toNat (Nat.two_pow_pos n))]
  rcases Nat.lt_or_ge i p with hip | hip
  · simp [hip, Nat.not_le.mpr hip, BitVec.getLsbD]
  · rcases Nat.lt_or_ge (i - p) n with hin | hin
    · simp [hip, hin, Nat.not_lt.mpr hip]
    · have : i - p - n + (p + n) = i := by omega
      simp [hip, Nat.not_lt.mpr hip, Nat.not_lt.mpr hin, BitVec.getLsbD, this]

end

end Sys2Proof.Machine

namespace Sys2Proof
open Machine

/-- Settles O2: each operation is a shape of register instruction, and its value the word that its row's arithmetic
gives. -/
theorem logicShiftFieldMoveResults : Obligations.LogicShiftFieldMoveResults := by
  intro s x m d a b h A B D raw pos len field
  refine ⟨fun hc => ⟨?and, ?or, ?xor, ?andn, ?shl, ?shr, ?sar, ?rotl, ?bfx, ?bfxs⟩,
    fun hc => vecTernary_writes h hc fun _ => wordBfi_eq (fieldPos_eq _) (fieldLen_eq _),
    fun hc => ⟨?popc, ?clz, ?brev, laneOp_acts h hc fun _ _ => rfl, fun k _ => laneOp_acts h hc fun _ _ => rfl⟩⟩
  case and | or | xor | andn | rotl => exact vecBinary_writes h hc fun _ => rfl
  case shl => exact vecBinary_writes h hc fun _ => wordShl_eq ..
  case shr => exact vecBinary_writes h hc fun _ => wordShr_eq ..
  case sar => exact vecBinary_writes h hc fun _ => wordSar_eq ..
  case bfx => exact vecBinary_writes h hc fun _ => wordBfx_eq (fieldPos_eq _) (fieldLen_eq _)
  case bfxs => exact vecBinary_writes h hc fun _ => wordBfxs_eq (fieldPos_eq _) (fieldLen_eq _)
  case popc => exact vecUnary_writes h hc fun _ => wordPopc_eq _
  case clz => exact vecUnary_writes h hc fun _ => wordClz_eq _
  case brev => exact vecUnary_writes h hc fun _ => rfl

end Sys2Proof
end

section
/-!
PROOFS. Uniform operations and immediates (R144 to R146): the values of the lane operations, with other operands.
-/

-- One proof after another: each that waits beside others holds a stack of its own.
set_option Elab.async false

namespace Sys2Proof.Machine

/-! ## Immediates (R145, R146) -/

theorem imm9_toInt (imm : BitVec 9) : (imm9 imm).toInt = imm.toInt := BitVec.toInt_signExtend_of_le (by decide)

/-- A shift count. -/
theorem imm9_toNat {imm : BitVec 9} (h : imm.toNat < 32) : (imm9 imm).toNat = imm.toNat := by
  have hmsb : imm.msb = false := by rw [BitVec.msb_eq_false_iff_two_mul_lt]; omega
  rw [imm9, BitVec.signExtend_eq_setWidth_of_msb_false hmsb, BitVec.toNat_setWidth, Nat.mod_eq_of_lt (by omega)]

theorem toNat_append_eq {m n : Nat} (p : BitVec m) (q : BitVec n) : (p ++ q).toNat = p.toNat * 2 ^ n + q.toNat := by
  rw [BitVec.toNat_append, ← Nat.shiftLeft_add_eq_or_of_lt q.isLt, Nat.shiftLeft_eq]

theorem highPart_eq (imm : BitVec 17) (w : Word) :
    highPart imm w = BitVec.ofNat 32 (imm.toNat * 2 ^ 15 + w.toNat % 2 ^ 15) := by
  have himm := imm.isLt
  refine BitVec.eq_of_toNat_eq ?_
  rw [highPart, toNat_append_eq, BitVec.toNat_setWidth, BitVec.toNat_ofNat, Nat.mod_eq_of_lt (a := _ + _) (by omega)]

theorem intAdd_imm9 (p : Word) (imm : BitVec 9) : intAdd p (imm9 imm) = BitVec.ofInt 32 (p.toInt + imm.toInt) := by
  rw [intAdd, trunc32, imm9_toInt]

theorem intMul_imm9 (p : Word) (imm : BitVec 9) : intMul p (imm9 imm) = BitVec.ofInt 32 (p.toInt * imm.toInt) := by
  rw [intMul, trunc32, imm9_toInt]

section
variable (p : Word) {imm : BitVec 9} (h : imm.toNat < 32)
include h

theorem wordShl_imm9 : wordShl p (imm9 imm) = BitVec.ofNat 32 (p.toNat * 2 ^ imm.toNat) := by
  rw [wordShl_eq, imm9_toNat h]

theorem wordShr_imm9 : wordShr p (imm9 imm) = BitVec.ofNat 32 (p.toNat / 2 ^ imm.toNat) := by
  rw [wordShr_eq, imm9_toNat h]

theorem wordSar_imm9 : wordSar p (imm9 imm) = BitVec.ofInt 32 (p.toInt / 2 ^ imm.toNat) := by
  rw [wordSar_eq, imm9_toNat h]

end

end Sys2Proof.Machine

namespace Sys2Proof
open Machine

/-- Settles O3: the operations of O1 and O2, once for the group, lane by lane with a uniform b, or with an immediate. -/
theorem uniformAndImmediateResults : Obligations.UniformAndImmediateResults := by
  refine ⟨fun s x m d a b h => ⟨fun hc => ?uniform, fun hc => groupOp_writes h hc fun _ => rfl,
      fun hc => laneOp_acts h hc fun _ _ => rfl, fun hc => ?vectorInt, fun hc => ?vectorRaw⟩,
    fun s x m d a imm big h => ⟨fun hc => ?immInt, fun hc => ?immRaw, fun hc => ?immUniform,
      fun hc => ⟨laneOp_acts h hc fun _ _ => rfl, laneOp_acts h hc fun _ _ => by rw [highPart_eq]⟩,
      fun hc => ⟨groupOp_writes h hc fun _ => rfl, groupOp_writes h hc fun _ => by rw [highPart_eq]⟩⟩⟩
  case uniform =>
    refine ⟨?iadd, ?isub, ?imul, ?imin, ?imax, ?iminu, ?imaxu, ?and, ?or, ?xor, ?andn, ?shl, ?shr, ?sar⟩
    case iadd | isub | imul | and | or | xor | andn => exact ualuBinary_uniform h hc fun _ => rfl
    case imin => exact ualuBinary_uniform h hc fun _ => intLesser_eq ..
    case imax => exact ualuBinary_uniform h hc fun _ => intGreater_eq ..
    case iminu => exact ualuBinary_uniform h hc fun _ => natLesser_eq ..
    case imaxu => exact ualuBinary_uniform h hc fun _ => natGreater_eq ..
    case shl => exact ualuBinary_uniform h hc fun _ => wordShl_eq ..
    case shr => exact ualuBinary_uniform h hc fun _ => wordShr_eq ..
    case sar => exact ualuBinary_uniform h hc fun _ => wordSar_eq ..
  case vectorInt =>
    refine ⟨?iadd, ?isub, ?imul, ?imin, ?imax, ?iminu, ?imaxu⟩
    case iadd | isub | imul => exact ualuBinary_vector h hc fun _ => rfl
    case imin => exact ualuBinary_vector h hc fun _ => intLesser_eq ..
    case imax => exact ualuBinary_vector h hc fun _ => intGreater_eq ..
    case iminu => exact ualuBinary_vector h hc fun _ => natLesser_eq ..
    case imaxu => exact ualuBinary_vector h hc fun _ => natGreater_eq ..
  case vectorRaw =>
    refine ⟨?and, ?or, ?xor, ?andn, ?shl, ?shr, ?sar⟩
    case and | or | xor | andn => exact ualuBinary_vector h hc fun _ => rfl
    case shl => exact ualuBinary_vector h hc fun _ => wordShl_eq ..
    case shr => exact ualuBinary_vector h hc fun _ => wordShr_eq ..
    case sar => exact ualuBinary_vector h hc fun _ => wordSar_eq ..
  case immInt => exact ⟨vecUnary_writes h hc fun _ => intAdd_imm9 .., vecUnary_writes h hc fun _ => intMul_imm9 ..⟩
  case immRaw =>
    refine ⟨?andi, ?ori, ?xori, fun hk => ⟨?shli, ?shri, ?sari⟩⟩
    case andi | ori | xori => exact vecUnary_writes h hc fun _ => rfl
    case shli => exact vecUnary_writes h hc fun _ => wordShl_imm9 _ hk
    case shri => exact vecUnary_writes h hc fun _ => wordShr_imm9 _ hk
    case sari => exact vecUnary_writes h hc fun _ => wordSar_imm9 _ hk
  case immUniform =>
    refine ⟨?iaddi, ?imuli, ?andi, ?ori, ?xori, fun hk => ⟨?shli, ?shri, ?sari⟩⟩
    case iaddi => exact uniUnary_writes h hc fun _ => intAdd_imm9 ..
    case imuli => exact uniUnary_writes h hc fun _ => intMul_imm9 ..
    case andi | ori | xori => exact uniUnary_writes h hc fun _ => rfl
    case shli => exact uniUnary_writes h hc fun _ => wordShl_imm9 _ hk
    case shri => exact uniUnary_writes h hc fun _ => wordShr_imm9 _ hk
    case sari => exact uniUnary_writes h hc fun _ => wordSar_imm9 _ hk

end Sys2Proof
end

section
/-!
PROOFS. Comparisons, 64-bit addresses and predicates (R147, R148, R177 to R179).
-/

-- One proof after another: each that waits beside others holds a stack of its own.
set_option Elab.async false

namespace Sys2Proof.Machine

/-! ## Conditions and 64-bit pairs (R147, R148) -/

/-- The conditions of ICMP, one after another. -/
theorem intCond_eq {c : BitVec 5} (hc : c.toNat ≤ 9) (p q : Word) :
    intCond c.toNat p q =
      if c = 0 then decide (p = q) else if c = 1 then decide (p ≠ q)
      else if c = 2 then decide (p.toInt < q.toInt) else if c = 3 then decide (p.toInt ≤ q.toInt)
      else if c = 4 then decide (q.toInt < p.toInt) else if c = 5 then decide (q.toInt ≤ p.toInt)
      else if c = 6 then decide (p.toNat < q.toNat) else if c = 7 then decide (p.toNat ≤ q.toNat)
      else if c = 8 then decide (q.toNat < p.toNat) else decide (q.toNat ≤ p.toNat) := by
  obtain ⟨n, hn, rfl⟩ : ∃ n, n ≤ 9 ∧ c = BitVec.ofNat 5 n := ⟨c.toNat, hc, by simp⟩
  interval_cases n <;> simp [intCond, bne, beq_eq_decide]

theorem extended_eq (r : VReg) :
    extended r = BitVec.ofInt 64 (if r.tag = tagUI32 then (r.bits.toNat : Int) else r.bits.toInt) := by
  unfold extended
  by_cases h : r.tag = tagUI32
  · rw [if_pos (beq_iff_eq.mpr h), if_pos h, BitVec.ofInt_natCast, BitVec.ofNat_toNat]
  · rw [if_neg (by simpa using h), if_neg h, BitVec.signExtend]

/-- A word as the number that it is, plus an integer. -/
theorem add_ofInt {w : Nat} (p : BitVec w) (n : Int) : p + BitVec.ofInt w n = BitVec.ofInt w (p.toNat + n) := by
  rw [BitVec.ofInt_add, BitVec.ofInt_natCast, BitVec.ofNat_toNat, BitVec.setWidth_eq]

theorem pair_sub (p q : DWord) : p - q = BitVec.ofInt 64 (p.toNat - q.toNat) := by
  rw [Int.sub_eq_add_neg, ← add_ofInt, BitVec.ofInt_neg, BitVec.ofInt_natCast, BitVec.ofNat_toNat,
    BitVec.setWidth_eq, sub_eq_add_neg]

theorem pair_add (p q : DWord) : p + q = BitVec.ofNat 64 (p.toNat + q.toNat) :=
  BitVec.eq_of_toNat_eq (by rw [BitVec.toNat_add, BitVec.toNat_ofNat])

@[simp] theorem Word.pair_lo (hi lo : Word) : (Word.pair hi lo).lo = lo := BitVec.setWidth_append_eq_right

@[simp] theorem Word.pair_hi (hi lo : Word) : (Word.pair hi lo).hi = hi := by
  refine BitVec.eq_of_getLsbD_eq fun i hlt => ?_
  rw [DWord.hi, Word.pair, BitVec.getLsbD_setWidth, BitVec.getLsbD_ushiftRight, BitVec.getLsbD_append]
  simp [hlt]

/-! ## Shapes of address and predicate instructions -/

section
variable {s : State} {x : Site} {m : Bool} {d a b : BitVec 7} (h : Issuing s x .plain)
include h

theorem pairBinary_writes {f : DWord → DWord → DWord} {r : Lane → DWord}
    (hc : OperandsPass x { vs := [d.toNat, d.toNat + 1, a.toNat, a.toNat + 1, b.toNat, b.toNat + 1] }
      fun l => isWide l a.toNat && isWide l b.toNat)
    (hr : ∀ l : Lane, f (l.pair a.toNat) (l.pair b.toNat) = r l) :
    (pairBinary m d a b f).issue s = s.writesPair x m d r :=
  laneOp_acts h hc fun _ l => by rw [hr, Lane.putWide]

theorem pairIndexed_writes {f : DWord → DWord → DWord} {r : Lane → DWord}
    (hc : OperandsPass x { vs := [d.toNat, d.toNat + 1, a.toNat, a.toNat + 1, b.toNat] }
      fun l => isWide l a.toNat && isInt (l.get b.toNat).tag)
    (hr : ∀ l : Lane, f (l.pair a.toNat) (extended (l.get b.toNat)) = r l) :
    (pairIndexed m d a b f).issue s = s.writesPair x m d r :=
  laneOp_acts h hc fun _ l => by rw [hr, Lane.putWide]

theorem pairCompare_writes {f : DWord → DWord → Bool} {r : Lane → Bool}
    (hc : OperandsPass x { vs := [a.toNat, a.toNat + 1, b.toNat, b.toNat + 1] }
      fun l => isWide l a.toNat && isWide l b.toNat)
    (hr : ∀ l : Lane, f (l.pair a.toNat) (l.pair b.toNat) = r l) :
    (pairCompare m d a b f).issue s = s.writesPred x m d r :=
  laneOp_acts h hc fun _ l => by rw [hr]

/-- An instruction on predicates, whose checks every lane passes. -/
theorem predOp_acts {f : Lane → Lane} :
    (predOp m f).issue s = .next (s.completed x m .plain (onActive x fun _ => f)) :=
  laneOp_acts h (fun _ _ _ _ => rfl) fun _ _ => rfl

end

end Sys2Proof.Machine

namespace Sys2Proof
open Machine

/-- Settles O4: comparisons by the condition, addresses by the pairs as numbers, and predicates by each lane's bits. -/
theorem compareAddressPredicateResults : Obligations.CompareAddressPredicateResults := by
  refine ⟨fun s x m c e d a b h => ⟨fun hc hk => ?icmp, fun hc => ⟨?aadd, ?asub⟩, fun hc => ⟨?aaddx, ?alea⟩,
    fun hc => ⟨?acmpeq, ?acmpltu⟩, fun hc => ?afroms⟩, fun s x m n p d a b h => ⟨predOp_acts h, predOp_acts h,
    predOp_acts h, predOp_acts h, predOp_acts h, predOp_acts h, fun hc => ?ptos, fun hc => ?pfroms, fun hc => ?sel⟩⟩
  case icmp => exact laneOp_acts h hc fun _ l => by rw [intCond_eq hk]
  case aadd => exact pairBinary_writes h hc fun _ => pair_add ..
  case asub => exact pairBinary_writes h hc fun _ => pair_sub ..
  case aaddx => exact pairIndexed_writes h hc fun _ => by rw [extended_eq, add_ofInt]
  case alea =>
    refine pairIndexed_writes h hc fun _ => ?_
    rw [extended_eq, ← BitVec.ofInt_natCast, ← BitVec.ofInt_mul, add_ofInt, Nat.cast_pow, Nat.cast_ofNat]
  case acmpeq => exact pairCompare_writes h hc fun _ => beq_eq_decide ..
  case acmpltu => exact pairCompare_writes h hc fun _ => rfl
  case afroms =>
    refine laneOp_acts h hc fun _ _ => ?_
    rw [Lane.putWide, Group.uPair, Word.pair_lo, Word.pair_hi]
  case ptos =>
    refine ⟨x.g.maskOf fun _ l => l.pred a.toNat, groupOp_writes h hc fun _ => rfl, fun j hj => ?_⟩
    rw [Group.maskOf_getLsbD, decide_eq_true hj, Bool.true_and]
  case pfroms => exact laneOp_acts h hc fun _ _ => rfl
  case sel => exact laneOp_acts h hc fun _ _ => rfl

end Sys2Proof
end

section
/-!
PROOFS. Participants of cross-lane instructions: shuffles, votes and masks (R171 to R173, R176).
-/

-- One proof after another: each that waits beside others holds a stack of its own.
set_option Elab.async false

namespace Sys2Proof.Machine

/-! ## Participants (R171) -/

/-- Lane `j`, where it takes part. -/
def Site.participant (x : Site) (j : Nat) : Option Lane := if x.mask.getLsbD j then x.g.lanes[j]? else none

def Site.participants (x : Site) : List Lane := (List.range 32).filterMap x.participant

theorem Site.participant_eq_some {x : Site} {j : Nat} {l : Lane} :
    x.participant j = some l ↔ x.mask.getLsbD j = true ∧ x.g.lanes[j]? = some l := by
  unfold Site.participant
  split
  next h => simp [h]
  next h => simp [h]

/-- The mask of the participants of which `q` holds. -/
theorem Site.maskOf_participants (x : Site) (q : Lane → Bool) (j : Nat) :
    (x.g.maskOf fun i l => x.mask.getLsbD i && q l).getLsbD j = (x.participant j).any q := by
  rw [Group.maskOf_getLsbD, Site.participant]
  split
  next h =>
    simp only [h, BitVec.lt_of_getLsbD h, decide_true, Bool.true_and]
  next h => simp [Bool.eq_false_iff.mpr h]

theorem Site.some_mem_values {α : Type} {x : Site} {f : Lane → α} {v : α} :
    some v ∈ values x x.mask f ↔ ∃ l ∈ x.participants, f l = v := by
  simp only [Site.participants, List.mem_filterMap, Site.participant_eq_some, List.mem_iff_getElem? (a := some v),
    values_getElem?, Option.map_eq_some_iff]
  constructor
  · rintro ⟨k, l, hl, hv⟩
    split at hv
    next hm =>
      exact ⟨l, ⟨k, List.mem_range.mpr (BitVec.lt_of_getLsbD hm), hm, hl⟩, Option.some.inj hv⟩
    next => cases hv
  · rintro ⟨l, ⟨k, -, hm, hl⟩, rfl⟩
    exact ⟨k, l, hl, if_pos hm⟩

/-- A lane that does not take part bears on no vote. -/
theorem Site.all_values (x : Site) (f : Lane → Bool) :
    ((values x x.mask f).all fun v => v.getD true) = x.participants.all f := by
  rw [Bool.eq_iff_iff, List.all_eq_true, List.all_eq_true]
  constructor
  · exact fun h l hl => h (some (f l)) (Site.some_mem_values.mpr ⟨l, hl, rfl⟩)
  · rintro h (_ | v) hv
    · rfl
    · obtain ⟨l, hl, rfl⟩ := Site.some_mem_values.mp hv
      exact h l hl

theorem Site.any_values (x : Site) (f : Lane → Bool) :
    ((values x x.mask f).any fun v => v.getD false) = x.participants.any f := by
  rw [Bool.eq_iff_iff, List.any_eq_true, List.any_eq_true]
  constructor
  · rintro ⟨_ | v, hv, h⟩
    · cases h
    · obtain ⟨l, hl, rfl⟩ := Site.some_mem_values.mp hv
      exact ⟨l, hl, h⟩
  · rintro ⟨l, hl, h⟩
    exact ⟨some (f l), Site.some_mem_values.mpr ⟨l, hl, rfl⟩, h⟩

/-! ## Shuffles (R172) -/

/-- What a lane takes of register `a` from the source lane `j`: its own where `j` is no lane that takes part. -/
def Site.taken (x : Site) (a : Nat) (j : Int) (l : Lane) : VReg :=
  if 0 ≤ j ∧ j < 32 then ((x.participant j.toNat).map (·.get a)).getD (l.get a) else l.get a

theorem Site.taken_of_nonneg (x : Site) (a : Nat) {j : Int} (hj : 0 ≤ j) (l : Lane) :
    x.taken a j l = if j.toNat < 32 && x.mask.getLsbD j.toNat then
      ((x.g.lane? j.toNat).map fun p : Lane => p.get a).getD (l.get a) else l.get a := by
  rw [Site.taken, Site.participant, Group.lane?]
  by_cases hlt : j < 32
  · have hn : decide (j.toNat < 32) = true := by simpa using by omega
    rw [if_pos ⟨hj, hlt⟩, hn, Bool.true_and]
    split <;> rfl
  · have hn : decide (j.toNat < 32) = false := by simpa using by omega
    rw [if_neg fun h => hlt h.2, hn, Bool.false_and, if_neg Bool.false_ne_true]

theorem shuffle_acts {s : State} {x : Site} {m : Bool} {d a : BitVec 7} (h : Issuing s x .plain) {vs : List Nat}
    {src : Nat → Lane → Option Nat} {j : Nat → Lane → Int}
    (hc : OperandsPass x { vs := d.toNat :: a.toNat :: vs } fun _ => true)
    (hj : ∀ i l, src i l = if 0 ≤ j i l then some (j i l).toNat else none) :
    (shuffle m d a vs src).issue s = .next (s.completed x m .plain (onActive x fun i l =>
      l.put d.toNat (x.taken a.toNat (j i l) l).bits (x.taken a.toNat (j i l) l).tag)) := by
  refine crossOp_acts h hc fun i l => ?_
  by_cases hn : 0 ≤ j i l
  · have hsrc : src i l = some (j i l).toNat := (hj i l).trans (if_pos hn)
    simp only [hsrc, x.taken_of_nonneg _ hn]
  · have hsrc : src i l = none := (hj i l).trans (if_neg hn)
    have hown : x.taken a.toNat (j i l) l = l.get a.toNat := if_neg fun h => hn h.1
    simp only [hsrc, hown]

end Sys2Proof.Machine

namespace Sys2Proof
open Machine

/-- Settles O10: what a lane takes by its source lane, and votes and masks by the participants. -/
theorem shuffleVoteBallotResults : Obligations.ShuffleVoteBallotResults := by
  intro s x m d a b k h part own from_ parts
  refine ⟨fun hc => ?shfli, fun hc => ⟨?shflu, ?shfld, ?shflx, ?bcast, ?matchLanes⟩, ?voteall, ?voteany,
    fun hc => ?ballot, fun hc => ?splat⟩
  case shfli => exact shuffle_acts h hc fun _ l => by simp [bitsOf]; omega
  case shflu => exact shuffle_acts h hc fun i _ => by simp only [Int.sub_nonneg, Int.ofNat_le, Int.toNat_sub]
  case shfld => exact shuffle_acts h hc fun i _ => by simp; omega
  case shflx => exact shuffle_acts h hc fun i _ => by simp
  case bcast => exact shuffle_acts h hc fun _ _ => by simp
  case matchLanes =>
    exact ⟨_, crossOp_acts h hc fun _ _ => rfl, fun l j => x.maskOf_participants _ j⟩
  case voteall => exact crossOp_acts h (fun _ _ _ _ => rfl) fun _ l => by rw [x.all_values]; rfl
  case voteany => exact crossOp_acts h (fun _ _ _ _ => rfl) fun _ l => by rw [x.any_values]; rfl
  case ballot => exact ⟨_, groupOp_writes h hc fun _ => rfl, x.maskOf_participants _⟩
  case splat => exact crossOp_acts h hc fun _ _ => rfl

end Sys2Proof
end

section
/-!
PROOFS. Branches, calls and windows (R71, R180 to R184): the addresses and window bases of good lanes.
-/

-- One proof after another: each that waits beside others holds a stack of its own.
set_option Elab.async false

namespace Sys2Proof.Machine

/-! ## Control (R71, R180 to R184) -/

@[simp] theorem Group.onLanes_same (g : Group) (mask : BitVec 32) : (g.onLanes mask fun _ l => l) = g := by
  have h : (g.onLanes mask fun _ l => l).lanes = g.lanes := by
    refine List.ext_getElem? fun k => ?_
    rw [Group.onLanes_lane]
    simp
  exact congrArg (fun ls => { g with lanes := ls }) h

theorem onActive_same (x : Site) (s : State) : onActive x (fun _ l => l) s = s :=
  s.modGroup_of_same x.g.uid fun g => g.onLanes_same x.mask

theorem branchTarget_eq (pc : Addr) (off : BitVec 21) :
    branchTarget pc off = BitVec.ofInt 48 (pc.toNat + 4 * off.toInt) := by
  rw [← add_ofInt, BitVec.ofInt_mul]
  rfl

/-- The offset that CALL leaves for RET. -/
theorem returnOffset_eq (pc : Addr) : pc.setWidth 32 = BitVec.ofNat 32 (pc.toNat % 2 ^ 32) :=
  BitVec.eq_of_toNat_eq (by rw [BitVec.toNat_setWidth, BitVec.toNat_ofNat, Nat.mod_mod])

/-- The address that RET takes from an offset in the issuing word's 4 GiB. -/
theorem returnAddr_eq (pc : Addr) (w : Word) :
    (pc.extractLsb' 32 16 ++ w.extractLsb' 2 30 ++ (0 : BitVec 2) : BitVec (16 + 30 + 2)) =
      BitVec.ofNat 48 (pc.toNat / 2 ^ 32 * 2 ^ 32 + w.toNat / 4 * 4) := by
  have hpc := pc.isLt
  have hw := w.isLt
  refine BitVec.eq_of_toNat_eq ?_
  simp only [toNat_append_eq, BitVec.extractLsb'_toNat, Nat.shiftRight_eq_div_pow, BitVec.ofNat_eq_ofNat,
    BitVec.toNat_ofNat]
  omega

/-- The address of BRX: bits 47 to 2 of a pair. -/
theorem pairAddr_eq (p : DWord) :
    (p.extractLsb' 2 46 ++ (0 : BitVec 2) : BitVec (46 + 2)) = BitVec.ofNat 48 (p.toNat % 2 ^ 48 / 4 * 4) := by
  refine BitVec.eq_of_toNat_eq ?_
  simp only [toNat_append_eq, BitVec.extractLsb'_toNat, Nat.shiftRight_eq_div_pow, BitVec.ofNat_eq_ofNat,
    BitVec.toNat_ofNat]
  omega

/-- v0 and v1 of a window can be written. -/
theorem operandFault_frame {x : Site} {l : Lane} (hva : l.window + 1 < x.img.va) (h0 : l.window ∉ l.pend)
    (h1 : l.window + 1 ∉ l.pend) : operandFault x l { vs := [0, 1] } true = none := by
  refine operandFault_none.mpr ⟨?_, ?_, rfl⟩
  · simpa [Machine.outOfBounds] using ⟨by omega, hva⟩
  · simp [isPending, h0, h1]

theorem badWindow_eq_false {x : Site} {w : Nat} : badWindow x w = false ↔ w % 8 = 0 ∧ w < x.img.va := by
  simp [badWindow]

/-- A window base is taken where its register can be read, is an integer and holds a good one (R38). -/
theorem windowCheck_none {x : Site} {l : Lane} {vs : List Nat} {r : Nat}
    (hc : operandFault x l { vs := vs } (vs.all fun v => isInt (l.get v).tag) = none)
    (hw : (l.get r).bits.toNat % 8 = 0 ∧ (l.get r).bits.toNat < x.img.va) : windowCheck x l vs r = none := by
  rw [windowCheck, (operandFault_none.mp hc).1, badWindow_eq_false.mpr hw, Bool.and_false, hc]
  rfl

end Sys2Proof.Machine

namespace Sys2Proof
open Machine

/-- Settles O12: each instruction changes the lanes, whose windows and operands are good; addresses are sums or fields
of words. -/
theorem branchCallWindowResults : Obligations.BranchCallWindowResults := by
  intro s x m n p off wsh a k h target lanes
  refine ⟨?nop, ?bra, fun hc => ?call, fun hc hw => ?ret, fun hc => ?brx, fun hc hw => ?wbase, fun hw => ?wadj⟩
  case nop =>
    have same : (onActive x fun _ l => id l) = fun s => s := funext (onActive_same x)
    dsimp only [lanes]
    rw [same]
    exact Op.issue_completed { m := m, kind := .plain, check := fun _ _ _ => none, effect := fun _ _ s => s } s x h
      (fun _ _ _ _ => rfl) (fun _ _ _ _ => rfl) rfl rfl
  case bra => exact laneOp_acts h (fun _ _ _ _ => rfl) fun _ l => by rw [branchTarget_eq]
  case call =>
    refine Op.issue_acts h (fun i l hl hm => ?_) fun _ l => ?_
    · obtain ⟨hva, h0, h1⟩ := hc i l hl hm
      rw [if_neg (by omega)]
      exact operandFault_frame hva h0 h1
    · rw [branchTarget_eq, returnOffset_eq]
  case ret =>
    refine Op.issue_acts h (fun i l hl hm => windowCheck_none ?_ (hw i l hl hm)) fun _ l => by rw [returnAddr_eq]
    simpa using hc i l hl hm
  case brx => exact laneOp_acts h hc fun _ l => by rw [pairAddr_eq]
  case wbase =>
    refine Op.issue_acts h (fun i l hl hm => windowCheck_none ?_ (hw i l hl hm)) fun _ l => rfl
    simpa using hc i l hl hm
  case wadj =>
    refine Op.issue_acts h (fun i l hl hm => ?_) fun _ l => rfl
    obtain ⟨h0, h8, hva⟩ := hw i l hl hm
    dsimp only
    rw [decide_eq_false (by omega), badWindow_eq_false.mpr (by omega)]
    rfl

end Sys2Proof
end

section
/-!
PROOFS. Two groups of one number, of which the instruction checks the tags of the first alone (R44, R149).
-/

-- One proof after another: each that waits beside others holds a stack of its own.
set_option Elab.async false

namespace Sys2Proof.Machine

/-! ## What an issue leaves of every group of its number -/

section
variable {s : State} {x : Site} {m : Bool} {kind : IssueKind} {n i : Nat} {g : Group} {l : Lane}
  (hg : s.groups[n]? = some g) (hu : g.uid = x.g.uid) (hl : g.lanes[i]? = some l) (hm : x.mask.getLsbD i = true)
include hg hu hl hm

/-- An issue on the active lanes acts on the lanes of every group of the chosen one's number. -/
theorem State.completed_lane_vregs (f : Nat → Lane → Lane) :
    ((s.completed x m kind (onActive x f)).groups[n]?.bind (·.lanes[i]?)).map (·.vregs) =
      some (f i { l with lpc := x.pc + 4 }).vregs := by
  obtain ⟨a, r, hb⟩ := Group.book_lane x.g x.pc x.mask m kind (overDistance s.fw.spdistCap x kind) s.clock.stamp
    ((g.onLanes x.mask fun _ l => { l with lpc := x.pc + 4 }).onLanes x.mask f) i
  have hgroup : (s.completed x m kind (onActive x f)).groups[n]? = some (x.g.book x.pc x.mask m kind
      (overDistance s.fw.spdistCap x kind) s.clock.stamp
      ((g.onLanes x.mask fun _ l => { l with lpc := x.pc + 4 }).onLanes x.mask f)) := by
    simp [State.completed, onActive, State.advance, State.modGroup, hg, hu]
  rw [hgroup, Option.bind_some, hb, Group.onLanes_lane, Group.onLanes_lane, hl]
  simp [hm]

/-- Where two effects leave one state, they have written the same word. -/
theorem State.completed_writes_inj {f f' : Nat → Lane → Lane} {d : Nat} {w w' : Word} {t t' : BitVec 5}
    (h : s.completed x m kind (onActive x f) = s.completed x m kind (onActive x f'))
    (hf : (f i { l with lpc := x.pc + 4 }).vregs = (l.put d w t).vregs)
    (hf' : (f' i { l with lpc := x.pc + 4 }).vregs = (l.put d w' t').vregs) : w = w' := by
  have hv := State.completed_lane_vregs (kind := kind) (m := m) hg hu hl hm f
  rw [h, State.completed_lane_vregs hg hu hl hm f', hf, hf'] at hv
  have hr := congrArg (fun v => tget ⟨0, 0⟩ v (l.window + d)) (Option.some.inj hv)
  simp only [Lane.put, tget_tput_same] at hr
  exact (congrArg VReg.bits hr).symm

end

section
variable {s : State} {x : Site} {m : Bool} {d a : BitVec 7} (h : Issuing s x .plain)
  (hc : OperandsPass x { vs := [d.toNat, a.toNat] } fun l => isFloat (l.get a.toNat).tag)
include h hc

theorem fabs_acts : exec (.fabs m d a) s = .next (s.completed x m .plain (onActive x fun _ l =>
    l.putFloat d.toNat (l.get a.toNat).tag
      (elementwise (floatFmt (l.get a.toNat).tag) (fun p _ _ => (p % 2 ^ ((floatFmt (l.get a.toNat).tag).width - 1), 0))
        (l.get a.toNat).bits 0 0))) := laneOp_acts h hc fun _ _ => rfl

theorem fclass_writes : exec (.fclass m d a) s = s.writesLane x m d tagUI32 fun l => classMask (l.get a.toNat) :=
  laneOp_acts h hc fun _ _ => rfl

end

/-! ## The state -/

/-- The lanes of the placed group (log 22), with a word in v0. -/
def placedLanes (w : Word) (tag : BitVec 5) : List Lane := placedGroup.lanes.map fun l => l.put 0 w tag

/-- The placed group, with a float in v0, before a group of the same number, with a word that is none. -/
def mixedState : State :=
  { State.reset.withFetchWord 32 0 with
    groups := [{ placedGroup with lanes := placedLanes 0 tagF32 },
      { placedGroup with lanes := placedLanes 0x8000 tagRAW }] }

theorem mixedLane_get {l : Lane} : (l.put 0 0x8000 tagRAW).get 0 = ⟨0x8000, tagRAW⟩ := tget_tput_same ..

/-- The first group issues, lane 0 among its lanes, and its operands are good. -/
theorem mixedState_issues : mixedState.issuesWhere .plain (fun x =>
    x.everyLane (fun _ l => (operandFault x l { vs := [1, 0] } (isFloat (l.get 0).tag)).isNone) &&
    x.mask.getLsbD 0 && x.g.uid == placedGroup.uid) = true := by decide +kernel

/-- The lanes of the first group pass; lane 0, of the same number in the second, has a word that is no float. -/
theorem mixedState_site : ∃ (x : Site) (g : Group) (l : Lane), Issuing mixedState x .plain ∧
    OperandsPass x { vs := [1, 0] } (fun l => isFloat (l.get 0).tag) ∧ mixedState.groups[1]? = some g ∧
    g.uid = x.g.uid ∧ g.lanes[0]? = some l ∧ x.mask.getLsbD 0 = true ∧
    ∀ pc, ({ l with lpc := pc } : Lane).get (0 : BitVec 7).toNat = ⟨0x8000, tagRAW⟩ := by
  obtain ⟨x, hi, hx⟩ := State.issuesWhere_site mixedState_issues
  simp only [Bool.and_eq_true, beq_iff_eq] at hx
  obtain ⟨⟨hpass, hm⟩, hu⟩ := hx
  exact ⟨x, _, _, hi, Site.everyLane_operands hpass, rfl, hu.symm, rfl, hm, fun _ => mixedLane_get⟩

end Sys2Proof.Machine

namespace Sys2Proof
open Machine

/-- Refutes O5: FABS acts on every group of the issuing one's number and checks the tags of the first alone. A lane of
the second, whose word 0x8000 is no float, keeps it as one element of 32 bits; as two of 16 bits it would be 0. -/
theorem not_floatElementResults : ¬ Obligations.FloatElementResults := by
  intro h
  obtain ⟨x, g, l, hi, hpass, hg, hu, hl, hm, hreg⟩ := mixedState_site
  obtain ⟨-, -, unary, -⟩ := h mixedState x false 1 0 0 hi
  obtain ⟨hfabs, -⟩ := unary hpass
  have same := Host.Outcome.next.inj ((fabs_acts (d := 1) (a := 0) hi hpass).symm.trans hfabs)
  refine absurd (State.completed_writes_inj (d := 1) (w := 0x8000) (w' := 0) (t := tagRAW) (t' := tagRAW)
    hg hu hl hm same ?_ ?_) (by decide)
  · simp only [hreg]
    rfl
  · simp only [hreg]
    rfl

/-- Refutes O6: likewise of FCLASS, for which the same word in that lane is a subnormal of 32 bits, and would be a zero
of 16. -/
theorem not_floatClassCompareDotConvertResults : ¬ Obligations.FloatClassCompareDotConvertResults := by
  intro h
  obtain ⟨x, g, l, hi, hpass, hg, hu, hl, hm, hreg⟩ := mixedState_site
  obtain ⟨hclass, -⟩ := h mixedState x false 1 0 0 hi
  have same := Host.Outcome.next.inj ((fclass_writes (d := 1) (a := 0) hi hpass).symm.trans (hclass hpass))
  refine absurd (State.completed_writes_inj (d := 1) (w := 0x400080) (w' := 0x400020) (t := tagUI32) (t' := tagUI32)
    hg hu hl hm same ?_ ?_) (by decide)
  · simp only [hreg]
    rfl
  · simp only [hreg]
    rfl

end Sys2Proof
end

section
/-!
PROOFS. An issue at which every active lane fails; traps, services and breakpoints, and the ends of a handler (R232 to
R235).
-/

-- One proof after another: each that waits beside others holds a stack of its own.
set_option Elab.async false

namespace Sys2Proof.Machine

/-- Where every active lane of an operation fails, none passes. -/
theorem Op.none_good (o : Op) {s : State} {x : Site} (hx : s.site? = some x)
    (hf : ActiveLanes x fun i l => (o.faultOf s.fw.spdistCap x i l).isSome) : o.good s x = 0 := by
  refine BitVec.eq_of_getLsbD_eq fun k _ => ?_
  refine Eq.trans (Bool.eq_false_iff.mpr fun hk => ?_) BitVec.getLsbD_zero.symm
  have hm : x.mask.getLsbD k = true := by
    rw [Op.good, BitVec.getLsbD_and, Bool.and_eq_true] at hk
    exact hk.1
  obtain ⟨-, l, hl, -⟩ := State.site?_active hx hm
  rw [o.good_lane hx hl, Bool.and_eq_true, Option.isNone_iff_eq_none] at hk
  have hs : (o.faultOf s.fw.spdistCap x k l).isSome = true := hf k l hl hm
  rw [hk.2] at hs
  cases hs

/-- An issue at which every active lane fails, outside handler mode: the lanes are trapped where they stand, and
nothing else happens to memory or to the group's uniform state (R319 step 1). -/
theorem Op.issue_traps (o : Op) {s : State} {x : Site} (hx : s.site? = some x) (hn : x.NoHandler)
    (hw : o.wait x = false) (cause : Nat → Lane → Cause)
    (hf : ActiveLanes x fun i l => o.faultOf s.fw.spdistCap x i l = some (cause i l)) :
    ∃ t g, o.issue s = .next t ∧ t.mem = s.mem ∧ t.group? x.g.uid = some g ∧
      ∀ (i : Nat) (l : Lane), x.g.lanes[i]? = some l → x.mask.getLsbD i = true → ∃ a r, g.lanes[i]? =
        some { l.trap x.pc (!x.g.stubs.isEmpty) (cause i l) with atSafe := a, redo := r } := by
  have h0 : o.good s x = 0 := o.none_good hx fun i l hl hm => Option.isSome_of_eq_some (hf i l hl hm)
  obtain ⟨g, hg, hseen, -⟩ := State.site?_group hx
  have hu : s.group? x.g.uid = some g := by rw [State.site?_uid hx]; exact hg
  have held : o.isHeld s x = false := by simp [Op.isHeld, hw, h0]
  have hi := o.issue_not_held hx hn held
  rw [if_pos h0] at hi
  refine ⟨_, _, hi, rfl, State.modGroup_group?_same (State.onLanes_group? hu _ _)
    ((Group.book_uid ..).trans (State.group?_uid (g := g) hu)), fun i l hl hm => ?_⟩
  obtain ⟨a, r, hlane⟩ := Group.book_lane x.g x.pc x.mask o.m o.kind (overDistance s.fw.spdistCap x o.kind)
    s.clock.stamp (g.onLanes (o.bad s x) (x.trapAt (o.faultOf s.fw.spdistCap x))) i
  have hgl : g.lanes[i]? = some l := by rw [← hl, hseen, Group.seen_lanes]
  have hbad : (o.bad s x).getLsbD i = true := by simp [o.bad_lane hx hl, hm, hf i l hl hm]
  let trapped := l.trap x.pc (!x.g.stubs.isEmpty) (cause i l)
  refine ⟨a trapped, r trapped, hlane.trans ?_⟩
  rw [Group.onLanes_lane, hgl, Option.map_some, Option.map_some, if_pos hbad, if_pos hm]
  simp only [Site.trapAt, hf i l hl hm, trapped]

/-! ## The ends of a handler (R235) -/

theorem handlerCheck_in {x : Site} (h : ActiveLanes x fun _ l => l.handler = true) :
    ActiveLanes x fun i l => handlerCheck x i l = none := fun i l hl hm => if_pos (h i l hl hm)

/-- An end of a handler that is issued outside handler mode. -/
theorem handlerCheck_traps (o : Op) {s : State} {x : Site} (h : Issuing s x .plain) (hn : x.NoHandler)
    (hk : o.kind = .plain) (hw : o.wait x = false) (hc : o.check = handlerCheck) :
    ∃ t g, o.issue s = .next t ∧ t.group? x.g.uid = some g ∧ ∀ (j : Nat) (l : Lane), g.lanes[j]? = some l →
      x.mask.getLsbD j = true → l.state = .trap ∧ bitsOf l.tcause.toNat 0 8 = 0x02 := by
  obtain ⟨t, g, ht, -, hg, hl⟩ := o.issue_traps h.site hn hw (fun _ _ => Cause.illegalOperand) fun i l hl hm => by
    simp only [Op.faultOf, hk, h.allowed, hc, handlerCheck, hn i l hl hm, Bool.false_eq_true, if_false]
  refine ⟨t, g, ht, hg, fun j l hj hm => ?_⟩
  obtain ⟨-, l0, hl0, -⟩ := State.site?_active h.site hm
  obtain ⟨a, r, hlane⟩ := hl j l0 hl0 hm
  obtain rfl := Option.some.inj (hj.symm.trans hlane)
  exact ⟨rfl, illegalOperand_word _⟩

/-- TKILL's effect: the lanes' fault records are posted, and they leave as at EXIT. -/
def killEffect (x : Site) (good : BitVec 32) (s : State) : State :=
  exitEffect x good (s.addRecords x.g.grid (s.laneRecords x.g good))

def killOp (m : Bool) (s : State) : Op :=
  { m := m, kind := .plain, check := handlerCheck, hold := fun x good => s.exitStalls x.g good,
    effect := killEffect }

theorem tkill_issue {s : State} {x : Site} (m : Bool) (h : Issuing s x .plain)
    (hh : ActiveLanes x fun _ l => l.handler = true) (he : s.exitStalls x.g x.mask = false) :
    exec (.tkill m) s = .next (s.completed x m .plain (killEffect x x.mask)) :=
  (killOp m s).issue_completed s x h (handlerCheck_in hh) (fun _ _ _ _ => rfl) rfl
    (by simpa only [killOp] using he)

/-- Retiring leaves the grids as they are. -/
@[simp] theorem State.retire_grids (s : State) (u : Nat) : (s.retire u).grids = s.grids := by
  unfold State.retire
  (repeat' split) <;> rfl

/-- Lanes that leave are in DONE, unless their group has left its slot. -/
theorem exitEffect_done {x : Site} {mask : BitVec 32} {t : State} {g0 g : Group} (hg : t.group? x.g.uid = some g0)
    (h : (exitEffect x mask t).group? x.g.uid = some g) {i : Nat} {l : Lane} (hl : g.lanes[i]? = some l)
    (hm : mask.getLsbD i = true) : l.state = .done := by
  have hf : (t.modGroup x.g.uid fun g => g.finishLanes mask).group? x.g.uid = some (g0.finishLanes mask) :=
    State.modGroup_group?_same hg ((Group.finishLanes_keeps ..).1.trans (State.group?_uid hg))
  rcases State.retire_group? _ x.g.uid hf with hr | hr
  · obtain rfl := Option.some.inj (hr.symm.trans h)
    obtain ⟨-, -, hn, hd⟩ := g0.finishLanes_keeps mask
    obtain ⟨hi, -⟩ := List.getElem?_eq_some_iff.mp hl
    obtain ⟨l', hl', hs⟩ := hd i _ (List.getElem?_eq_getElem (hn ▸ hi)) (.inl hm)
    obtain rfl := Option.some.inj (hl.symm.trans hl')
    exact hs
  · exact absurd (hr.symm.trans h) (by simp)

theorem mem_laneRecords {s : State} {g : Group} {tm : Team} (ht : s.team? g.team = some tm) {mask : BitVec 32} {i : Nat}
    {l : Lane} (hl : g.lanes[i]? = some l) (hm : mask.getLsbD i = true) :
    faultRec tm g.index i l ∈ s.laneRecords g mask := by
  simp only [State.laneRecords, ht, List.mem_flatten]
  refine ⟨[faultRec tm g.index i l], List.mem_iff_getElem?.mpr ⟨i, ?_⟩, List.mem_singleton.mpr rfl⟩
  rw [mapFrom_getElem?, hl]
  simp [hm]

end Sys2Proof.Machine

namespace Sys2Proof
open Machine

/-- Settles O17: inside the handler TRET and TSKIP leave it for their addresses and TKILL posts its lanes' records and
ends them; outside it each traps its lanes. -/
theorem handlerReturns : Obligations.HandlerReturns := by
  intro s x m h
  refine ⟨fun hh => ⟨?_, ?_, fun hstall => ?_⟩, fun hn i hi => ?_⟩
  · exact Op.issue_completed _ s x h (handlerCheck_in hh) (fun _ _ _ _ => rfl) rfl rfl
  · exact Op.issue_completed _ s x h (handlerCheck_in hh) (fun _ _ _ _ => rfl) rfl rfl
  · obtain ⟨g0, hg0, -, -⟩ := State.site?_group h.site
    rw [← State.site?_uid h.site] at hg0
    refine ⟨_, tkill_issue m h hh hstall, fun g hg i l hl hm => ?_, fun tm ht gr hgr hu i l hl hm => ?_⟩
    · obtain ⟨g', hg', rfl⟩ := State.completed_group?_inv hg
      obtain ⟨a, r, hk⟩ := Group.book_lane x.g x.pc x.mask m .plain (overDistance s.fw.spdistCap x .plain) s.clock.stamp
        g' i
      rw [hk] at hl
      obtain ⟨l', hl', rfl⟩ := Option.map_eq_some_iff.mp hl
      have hdone := exitEffect_done (t := (s.advance x x.mask).addRecords x.g.grid _)
        (State.advance_group? hg0 x.mask) hg' hl' hm
      rw [if_pos hm]
      exact hdone
    · have hgr : gr ∈ (exitEffect x x.mask ((s.advance x x.mask).addRecords x.g.grid
          ((s.advance x x.mask).laneRecords x.g x.mask))).grids := hgr
      rw [exitEffect, State.retire_grids] at hgr
      obtain ⟨gr0, -, rfl⟩ := List.mem_map.mp hgr
      have hu0 : gr0.uid = x.g.grid := by
        split at hu <;> exact hu
      rw [if_pos hu0]
      exact List.mem_append_right _ (mem_laneRecords ht hl hm)
  · simp only [List.mem_cons, List.not_mem_nil, or_false] at hi
    rcases hi with rfl | rfl | rfl
    · exact handlerCheck_traps _ h hn rfl rfl rfl
    · exact handlerCheck_traps _ h hn rfl rfl rfl
    · exact handlerCheck_traps (killOp m s) h hn rfl rfl rfl

end Sys2Proof

namespace Sys2Proof.Machine

/-! ## Traps and services (R232 to R234) -/

/-- A group after a change that keeps its uid. -/
theorem State.modGroup_group?_keeps {s : State} {u : Nat} {f : Group → Group} {g : Group} (h : s.group? u = some g)
    (hf : ∀ g, (f g).uid = g.uid) : (s.modGroup u f).group? u = some (f g) :=
  State.modGroup_group?_same h ((hf g).trans (State.group?_uid h))

theorem Cause.softwareTrap_word (k : Nat) (none? : Bool) :
    (Cause.softwareTrap k).word (!none?) = BitVec.ofNat 32 (0x11 + 2 ^ 8 * k + (if none? then 0 else 2 ^ 17)) := by
  cases none? <;> rfl

/-- What a service does once firmware has answered: what firmware did, the status in s124, and the answer is used. -/
def svcEffect (f : Site → State → Word × State) (x : Site) (s : State) : State :=
  (f x s).2.modGroup x.g.uid fun g => { g.setU 124 (f x s).1 with service := none }

section
variable {s : State} {x : Site} (m : Bool) (f : Site → State → Word × State) (h : Issuing s x .plain)
  (hc : OperandsPass x { us := [124, 125, 126, 127] } (fun _ => true)) (hk : s.keepsBack x.g = false)
include h hc hk

/-- A service that is asked for: the group is held at it until an answer is due (R193, R233). -/
theorem svcOp_asks (hs : x.g.service = none) :
    ∃ t g due, (svcOp m s f).issue s = .next t ∧ t.group? x.g.uid = some g ∧ g.blocked = true ∧
      g.service = some (x.pc, due) ∧ s.clock.tick ≤ due ∧ g.lanes = x.g.lanes := by
  obtain ⟨g, hg, hseen, -⟩ := State.site?_group h.site
  rw [← State.site?_uid h.site] at hg
  have hheld : (svcOp m s f).hold x x.mask = true := by simp [svcOp, Group.answered, hs]
  have hi := (svcOp m s f).issue_heldBack h hc (fun _ _ _ _ => rfl) hheld
  simp only [svcOp, hk, hs, Option.any_none, Bool.or_self, Bool.false_eq_true, if_false] at hi
  have hb := State.modGroup_group?_keeps (f := fun g => { g with blocked := true }) hg fun _ => rfl
  exact ⟨_, _, _, hi, State.modGroup_group?_keeps hb fun _ => rfl, rfl, rfl, Nat.le_add_right _ _,
    by rw [hseen, Group.seen_lanes]⟩

theorem svcOp_answers (ha : x.g.answered x.pc s.clock.tick = true) :
    (svcOp m s f).issue s = .next (s.completed x m .plain (svcEffect f x)) :=
  (svcOp m s f).issue_completed s x h hc (fun _ _ _ _ => rfl) hk (by simp [svcOp, ha])

end

/-- The group after a service has been answered: its status, and its stack limit as firmware left it. -/
theorem svc_group {s : State} {x : Site} (m : Bool) {f : Site → State → Word × State} {g : Group}
    (hg : (f x (s.advance x x.mask)).2.group? x.g.uid = some g) :
    ∃ g', (s.completed x m .plain (svcEffect f x)).group? x.g.uid = some g' ∧
      g'.u 124 = (f x (s.advance x x.mask)).1 ∧ g'.stackLimit = g.stackLimit := by
  refine ⟨_, State.completed_group? m .plain (State.modGroup_group?_keeps hg fun _ => rfl), ?_,
    (Group.book_settled ..).stackLimit⟩
  rw [Group.u, Group.book_uregs]
  exact tget_tput_same ..

/-- Steps of which any may fail, all of which keep `p`. -/
theorem foldl_bind_keeps {α β γ : Type} (p : β → γ) (f : β → α → Option β)
    (hf : ∀ b a c, f b a = some c → p c = p b) (xs : List α) (b c : β)
    (h : xs.foldl (fun o a => o.bind fun b => f b a) (some b) = some c) : p c = p b := by
  induction xs generalizing b with
  | nil => rw [Option.some.inj h]
  | cons a xs ih =>
    rw [List.foldl_cons, Option.bind_some] at h
    cases hb : f b a with
    | none =>
      have hn : xs.foldl (fun o a => o.bind fun b => f b a) none = none := by
        clear h ih hb
        induction xs with
        | nil => rfl
        | cons _ _ ih => exact ih
      rw [hb, hn] at h
      cases h
    | some d => rw [ih d (hb ▸ h), hf b a d hb]

theorem State.backPage_groups {s t : State} {core grid va : Nat} (h : s.backPage core grid va = some t) :
    t.groups = s.groups := by
  simp only [State.backPage] at h
  split at h
  · split at h
    · rw [Option.some.inj h]
    · cases h
  · obtain ⟨⟨entryAt, size⟩, -, rfl⟩ := Option.map_eq_some_iff.mp h
    rfl

/-- What firmware does for SVC 1 (R233, R310). -/
def stackAnswer (x : Site) (s : State) : Word × State :=
  let limit := x.g.stackLimit + (x.g.u 125).toNat
  let (n, s1) := s.newFresh
  match s.grid? x.g.grid with
  | none => (1, s1)
  | some gr =>
    let backed : Option State :=
      (stackPages gr.launch x.g limit).foldl
        (fun (o : Option State) va => o.bind fun s => s.backPage (s.coreOf x.g.team) x.g.grid va) (some s1)
    if gr.launch.stkLane < limit || Config.freeBit n then (1, s1)
    else
      match backed with
      | none => (1, s1)
      | some s2 => (0, s2.modGroup x.g.uid fun g => { g with stackLimit := limit })

/-- Firmware refuses a stack, or raises its limit. -/
theorem stackAnswer_group {x : Site} {s : State} {g : Group} (hg : s.group? x.g.uid = some g) :
    ∃ g', (stackAnswer x s).2.group? x.g.uid = some g' ∧ ((stackAnswer x s).1 = 1 ∨
      ((stackAnswer x s).1 = 0 ∧ g'.stackLimit = x.g.stackLimit + (x.g.u 125).toNat)) := by
  unfold stackAnswer
  dsimp only
  split
  · exact ⟨g, hg, .inl rfl⟩
  · split
    · exact ⟨g, hg, .inl rfl⟩
    · split
      · exact ⟨g, hg, .inl rfl⟩
      next s2 hb =>
        have hgroups : s2.groups = s.newFresh.2.groups :=
          foldl_bind_keeps State.groups (fun s va => s.backPage (s.coreOf x.g.team) x.g.grid va)
            (fun _ _ _ => State.backPage_groups) _ _ _ hb
        have hg2 : s2.group? x.g.uid = some g := by rw [State.group?, hgroups]; exact hg
        exact ⟨_, State.modGroup_group?_keeps hg2 fun _ => rfl, .inr ⟨rfl, rfl⟩⟩

/-- What firmware does for SVC 2 (R233). -/
def mapAnswer (x : Site) (s : State) : Word × State :=
  let va := (x.g.uPair 125).toNat
  let write := (x.g.u 127).toNat == 1
  let root := ((s.grid? x.g.grid).map (·.launch.troot)).getD 0
  let (n, s1) := s.newFresh
  if 2 ^ 48 ≤ va || 2 ≤ (x.g.u 127).toNat || Config.freeBit n then (1, s1)
  else
    match s.missingEntry va walkLevels root with
    | some (entryAt, size) =>
      (0, (s1.writeEntry entryAt (firmwareLeaf write size (Config.reservedBase s.fw.reservedGiB)
        (Config.serviceAnswer n).toNat)).dropXlat (va / size * size) size)
    | none =>
      match s.xlatG (s.coreOf x.g.team) x.g.grid va with
      | .ok p => if p.readable && (p.writable || !write) then (0, s1) else (1, s1)
      | _ => (1, s1)

/-- Firmware maps a page or refuses, and leaves the groups as they are. -/
theorem mapAnswer_group (x : Site) (s : State) :
    (mapAnswer x s).2.groups = s.groups ∧ ((mapAnswer x s).1 = 0 ∨ (mapAnswer x s).1 = 1) := by
  unfold mapAnswer
  dsimp only
  split
  · exact ⟨rfl, .inr rfl⟩
  · split
    · exact ⟨rfl, .inl rfl⟩
    · split
      · split
        · exact ⟨rfl, .inl rfl⟩
        · exact ⟨rfl, .inr rfl⟩
      · exact ⟨rfl, .inr rfl⟩

/-- What firmware does for SVC 3: the word goes out under the launch's tag. -/
def logAnswer (x : Site) (s : State) : Word × State :=
  (0, s.post mtLogWord 0 (((s.grid? x.g.grid).map (·.launch.ltag)).getD 0) 0 (natLe 4 (x.g.u 125).toNat))

theorem trap_traps {s : State} {x : Site} (m : Bool) (k : BitVec 7) (h : Issuing s x .plain) (hn : x.NoHandler) :
    ∃ t, exec (.trap m k) s = .next t ∧ t.mem = s.mem ∧ ∃ g', t.group? x.g.uid = some g' ∧
      ∀ (i : Nat) (l : Lane), x.g.lanes[i]? = some l → x.mask.getLsbD i = true → ∃ a r, g'.lanes[i]? =
        some { l.trap x.pc (!x.g.stubs.isEmpty) (Cause.softwareTrap k.toNat) with atSafe := a, redo := r } := by
  let o : Op := { m := m, kind := .plain, check := fun _ _ _ => none,
                  fault := fun _ _ _ => some (Cause.softwareTrap k.toNat), effect := fun _ _ s => s }
  obtain ⟨t, g, ht, hm, hg, hl⟩ := o.issue_traps h.site hn rfl (fun _ _ => Cause.softwareTrap k.toNat)
    fun i l hl hm => by
      have hnear : overDistance s.fw.spdistCap x o.kind = false := h.near
      have hkind : kindFault x o.kind = none := h.allowed
      simp only [Op.faultOf, hkind, hnear, o, Bool.false_eq_true, if_false]
  exact ⟨t, ht, hm, g, hg, hl⟩

end Sys2Proof.Machine

namespace Sys2Proof
open Machine

/-- Settles O16: TRAP traps its active lanes with their registers as they are; a service is held until firmware has
answered and then has its status in s124; BKPT halts under a debugger. -/
theorem trapsServicesAndBreakpoints : Obligations.TrapsServicesAndBreakpoints := by
  refine ⟨fun s x m k h hn => ?_, fun s x m k h => ⟨fun hc hk hs i hi => ?_, fun hc hk ha => ?_, fun hd => ?_,
    fun hd => ?_⟩⟩
  · obtain ⟨t, ht, hm, g, hg, hl⟩ := trap_traps m k h hn
    refine ⟨t, ht, hm, g, hg, fun i l l' hli hli' hmask => ?_⟩
    obtain ⟨a, r, hlane⟩ := hl i l hli hmask
    obtain rfl := Option.some.inj (hli'.symm.trans hlane)
    exact ⟨rfl, Cause.softwareTrap_word .., rfl, rfl, rfl, rfl, rfl, rfl⟩
  · simp only [List.mem_cons, List.not_mem_nil, or_false] at hi
    rcases hi with rfl | rfl | rfl | rfl | rfl
    all_goals exact svcOp_asks m _ h hc hk hs
  · obtain ⟨g0, hg0, -, -⟩ := State.site?_group h.site
    rw [← State.site?_uid h.site] at hg0
    have hg := State.advance_group? hg0 x.mask
    refine ⟨svcOp_answers m _ h hc hk ha, svcOp_answers m _ h hc hk ha, ?_, ?_, ?_⟩
    · obtain ⟨g, hg', hu, -⟩ := svc_group (f := logAnswer) m hg
      exact ⟨_, svcOp_answers m logAnswer h hc hk ha, rfl, g, hg', hu⟩
    · obtain ⟨g1, hg1, hst⟩ := stackAnswer_group hg
      obtain ⟨g, hg', hu, hlim⟩ := svc_group m hg1
      refine ⟨_, g, svcOp_answers m stackAnswer h hc hk ha, hg', ?_⟩
      rw [hu, hlim]
      exact hst
    · obtain ⟨hgroups, hst⟩ := mapAnswer_group x (s.advance x x.mask)
      obtain ⟨g, hg', hu, -⟩ := svc_group (f := mapAnswer) (s := s) (x := x) m
        (by rw [State.group?, hgroups]; exact hg)
      refine ⟨_, g, svcOp_answers m mapAnswer h hc hk ha, hg', ?_⟩
      rw [hu]
      exact hst
  · refine (Op.issue_completed _ s x h (fun _ _ _ _ => rfl) (fun _ _ _ _ => rfl) rfl rfl).trans ?_
    have hda : (s.advance x x.mask).fw.debugger = true := hd
    simp only [State.completed, hda, if_true]
    rfl
  · refine (Op.issue_completed _ s x h (fun _ _ _ _ => rfl) (fun _ _ _ _ => rfl) rfl rfl).trans ?_
    have hda : (s.advance x x.mask).fw.debugger = false := hd
    simp only [State.completed, hda, Bool.false_eq_true, if_false]
    rfl

end Sys2Proof
end

section
/-!
PROOFS. The node's DEBUG and MGMT messages (R234, R322, R328, R389, R395).
-/

-- One proof after another: each that waits beside others holds a stack of its own.
set_option Elab.async false

namespace Sys2Proof.Machine

/-! ## DEBUG and MGMT (R234, R322, R328, R389, R395) -/

/-- A message of its kind is served once the part is ready. -/
theorem State.serve_ready {s : State} {msg : CtlMsg} {kind : MsgKind} (hb : s.boot.phase = .ready)
    (hk : isKind msg kind = true) (f : State → State) : s.serve msg kind f = .next (f s) := by
  simp only [State.serve, hb, hk, if_true]

/-- A change of the one group of a uid that reads only that group. -/
theorem State.modGroup_congr {s : State} {u : Nat} {f f' : Group → Group}
    (h : ∀ g ∈ s.groups, g.uid = u → f g = f' g) : s.modGroup u f = s.modGroup u f' := by
  have hmap : (s.groups.map fun g => if g.uid = u then f g else g) =
      s.groups.map fun g => if g.uid = u then f' g else g := by
    refine List.map_congr_left fun g hg => ?_
    split
    next hu => exact h g hg hu
    · rfl
  rw [State.modGroup, State.modGroup, hmap]

/-- A setting that is in its range is taken, and the earlier one stands otherwise. -/
theorem State.setting_eq (s : State) (msg : CtlMsg) (ok : Bool) (f : Firmware → Firmware) :
    s.setting msg ok f =
      (if ok then { s with fw := f s.fw } else s).send (outMsg 0x0104 msg.seq 0 msg.tag (if ok then 0 else 3) []) := by
  cases ok <;> rfl

theorem thresholdsOk_eq (p m t : Nat) :
    thresholdsOk p m t =
      decide (60 ≤ p ∧ p ≤ 100 ∧ 70 ≤ m ∧ m ≤ 104 ∧ 80 ≤ t ∧ t ≤ 104 ∧ p ≤ m ∧ m ≤ t) := by
  rw [thresholdsOk, Bool.eq_iff_iff]
  simp only [Bool.and_eq_true, decide_eq_true_eq, and_assoc]

section
variable {s : State} {msg : CtlMsg} (hb : s.boot.phase = .ready)
include hb

theorem debugHalt_halts (hk : isKind msg .debugHalt = true) {g : Group} (hg : s.dbgGroup msg = some g)
    (hh : g.halted = none) (hu : ∀ k ∈ s.groups, k.uid = g.uid → k = g) :
    exec (.debugHalt msg) s = .next ((s.modGroup g.uid fun g => { g with halted := some none }).send
      (outMsg 0x0103 msg.seq 0 msg.tag 0 [])) := by
  simp only [exec, execDebugHalt, State.serve_ready hb hk]
  have hc : (s.modGroup g.uid fun g => { g with halted := if g.halted.isSome then g.halted else some none }) =
      s.modGroup g.uid fun g => { g with halted := some none } :=
    State.modGroup_congr fun k hkm hku => by rw [hu k hkm hku, hh]; rfl
  simp only [State.debugHalt, hg, hc]
  rfl

theorem debugRead_uniform (hk : isKind msg .debugReadRegister = true) {g : Group} (hg : s.dbgHalted msg = some g)
    (hcls : CtlMsg.dbg msg 32 8 = 1) (hidx : CtlMsg.dbg msg 24 8 < 128) (hi : s.dbgImage g ≠ none) :
    exec (.debugReadRegister msg) s = .next (s.send (outMsg 0x0103 msg.seq 0 msg.tag 0
      (natLe 4 (g.u (CtlMsg.dbg msg 24 8)).toNat))) := by
  obtain ⟨img, himg⟩ := Option.ne_none_iff_exists'.mp hi
  simp only [exec, execDebugReadRegister, State.serve_ready hb hk]
  simp only [State.debugRead, hg, hcls, himg, Option.bind_some, State.dbgRead, if_neg (Nat.not_le.mpr hidx)]
  rfl

theorem debugWrite_uniform (hk : isKind msg .debugWriteRegister = true) {g : Group} (hg : s.dbgHalted msg = some g)
    (hu : ∀ k ∈ s.groups, k.uid = g.uid → k = g) (hcls : CtlMsg.dbg msg 32 8 = 1)
    (hidx : CtlMsg.dbg msg 24 8 < 128) (hi : s.dbgImage g ≠ none) :
    exec (.debugWriteRegister msg) s = .next ((s.modGroup g.uid fun g =>
      g.setU (CtlMsg.dbg msg 24 8) (BitVec.ofNat 32 (leNat ((msg.payload.drop 8).take 4)))).send
        (outMsg 0x0103 msg.seq 0 msg.tag 0 [])) := by
  obtain ⟨img, himg⟩ := Option.ne_none_iff_exists'.mp hi
  simp only [exec, execDebugWriteRegister, State.serve_ready hb hk]
  simp only [State.debugWrite, hg, hcls, himg, Option.bind_some, Group.dbgWrite, if_neg (Nat.not_le.mpr hidx)]
  rw [State.modGroup_congr (f' := fun g =>
    g.setU (CtlMsg.dbg msg 24 8) (BitVec.ofNat 32 (leNat ((msg.payload.drop 8).take 4))))
    fun k hkm hku => by rw [hu k hkm hku]]
  rfl

theorem mgmtThresholds_sets (hk : isKind msg .mgmtThresholds = true) (hv : CtlMsg.mgmtValue msg < 2 ^ 24) :
    exec (.mgmtThresholds msg) s =
      .next (s.setting msg (thresholdsOk (CtlMsg.mgmtValue msg % 256) (CtlMsg.mgmtValue msg / 256 % 256)
        (CtlMsg.mgmtValue msg / 65536)) fun fw =>
          { fw with placement := CtlMsg.mgmtValue msg % 256, migration := CtlMsg.mgmtValue msg / 256 % 256,
                    throttle := CtlMsg.mgmtValue msg / 65536 }) := by
  simp only [exec, execMgmtThresholds, State.serve_ready hb hk]
  generalize CtlMsg.mgmtValue msg = v at hv ⊢
  have h0 : bitsOf v 24 8 = 0 := by unfold bitsOf; omega
  have hp : bitsOf v 0 8 = v % 256 := by unfold bitsOf; omega
  have hm : bitsOf v 8 8 = v / 256 % 256 := rfl
  have ht : bitsOf v 16 8 = v / 65536 := by unfold bitsOf; omega
  simp only [h0, hp, hm, ht, bne_self_eq_false, Bool.false_eq_true, if_false]

end

end Sys2Proof.Machine

namespace Sys2Proof
open Machine

/-- Settles O38: each DEBUG and MGMT message, once the part is ready, acts as its kind says and answers with its
status. -/
theorem debugAndManagementMessages : Obligations.DebugAndManagementMessages := by
  intro s msg hb
  dsimp only
  refine ⟨fun hk => ?_, fun hk => ?_, fun hk => ⟨fun hn => ?_, fun g hg hh hu => ?_⟩,
    fun hk => ⟨fun hn => ?_, fun g hg => ?_⟩,
    fun hk => ⟨fun hn => ?_, fun g hg => ⟨fun hcls hidx hi => ?_, fun hcls => ?_⟩⟩,
    fun hk => ⟨fun hn => ?_, fun g hg hu => ⟨fun hcls hidx hi => ?_, fun hcls => ?_⟩⟩,
    fun hk hv => ?_, fun hk => ?_, fun hk => ?_, fun hk => ?_, fun hk => ?_,
    fun hk => ⟨fun hv => ?_, s.newFresh.2, rfl, rfl, ?_⟩,
    fun hk => ⟨fun hlo hhi => ?_, fun hout => ?_⟩, fun hk => ⟨fun hv => ?_, fun hv => ?_⟩⟩
  · simp only [exec, execDebugAttach, State.serve_ready hb hk]
    rfl
  · simp only [exec, execDebugDetach, State.serve_ready hb hk]
    rfl
  · simp only [exec, execDebugHalt, State.serve_ready hb hk]
    simp only [State.debugHalt, hn]
    rfl
  · exact debugHalt_halts hb hk hg hh hu
  · simp only [exec, execDebugResume, State.serve_ready hb hk]
    simp only [State.debugResume, hn]
    rfl
  · simp only [exec, execDebugResume, State.serve_ready hb hk]
    simp only [State.debugResume, hg]
    rfl
  · simp only [exec, execDebugReadRegister, State.serve_ready hb hk]
    simp only [State.debugRead, hn]
    rfl
  · exact debugRead_uniform hb hk hg hcls hidx hi
  · simp only [exec, execDebugReadRegister, State.serve_ready hb hk]
    simp only [State.debugRead, hg, hcls, if_true]
    rfl
  · simp only [exec, execDebugWriteRegister, State.serve_ready hb hk]
    simp only [State.debugWrite, hn]
    rfl
  · exact debugWrite_uniform hb hk hg hu hcls hidx hi
  · simp only [exec, execDebugWriteRegister, State.serve_ready hb hk]
    simp only [State.debugWrite, hg, hcls, if_true]
    rfl
  · rw [← thresholdsOk_eq, mgmtThresholds_sets hb hk hv, State.setting_eq]
  · simp only [exec, execMgmtAgeingQuantum, State.serve_ready hb hk]
    rw [State.setting_eq, Bool.decide_and]
  · simp only [exec, execMgmtParkDelay, State.serve_ready hb hk, State.setting_eq]
  · simp only [exec, execMgmtSpdistCap, State.serve_ready hb hk]
    rw [State.setting_eq, Bool.decide_and]
  · simp only [exec, execMgmtPowerLimit, State.serve_ready hb hk]
    rw [State.setting_eq, Bool.decide_and]
  · simp only [exec, execMgmtReadCounters, State.serve_ready hb hk]
    rw [if_pos hv]
    rfl
  · have reads (hv : CtlMsg.mgmtValue msg ≤ 3) : exec (.mgmtReadCounters msg) s =
        .next (s.newFresh.2.send (outMsg 0x0104 msg.seq 0 msg.tag 0
          ((s.counters s.newFresh.1 (CtlMsg.mgmtValue msg)).map (natLe 8)).flatten)) := by
      simp only [exec, execMgmtReadCounters, State.serve_ready hb hk]
      rw [if_neg (Nat.not_lt.mpr hv)]
      rfl
    refine ⟨fun hv => ?_, fun hv => ?_, fun hv => ?_, fun hv => ⟨_, ?_, reads (by omega)⟩⟩
    · rw [reads (by omega), hv]
      simp [State.counters]
    · rw [reads (by omega), hv]
      simp [State.counters]
    · rw [reads (by omega), hv]
      simp [State.counters]
    · rw [hv]
      rfl
  · simp only [exec, execMgmtRaiseSvn, State.serve_ready hb hk]
    simp only [hlo, hhi, decide_true, Bool.and_self, if_true]
    rfl
  · simp only [exec, execMgmtRaiseSvn, State.serve_ready hb hk]
    rw [if_neg (by simp only [Bool.and_eq_true, decide_eq_true_eq]; omega)]
    rfl
  · simp only [exec, execMgmtReservedBase, State.serve_ready hb hk]
    simp only [hv, bne_self_eq_false, Bool.false_eq_true, if_false]
    rfl
  · simp only [exec, execMgmtReservedBase, State.serve_ready hb hk]
    rw [if_pos (bne_iff_ne.mpr hv)]
    rfl

end Sys2Proof
end

section
/-!
PROOFS. A release of the matrix queue: the slots that become EMPTY stand by themselves (R241, R252).
-/

-- One proof after another: each that waits beside others holds a stack of its own.
set_option Elab.async false

namespace Sys2Proof.Machine

/-! ## A span that is freed (R241, R252) -/

/-- A release at the head of core 0's queue. -/
def freeing : MatOp := { id := 1, group := 3, team := 2, grid := 1, lanes := 1, due := 0, kind := .bfree 5 }

/-- The placed team owns slot 5, a span of one slot, and its release has its turn (log 22). -/
def freeingState : State :=
  (State.reset.withFetchWord 32 0).modCore 0 fun c =>
    { c with matrix := [freeing],
             slots := [(5, { state := .ready, owner := 2, head := 5, tag := 0, spk := 0, bandb := 0 })] }

theorem freeingState_core : ∃ c, freeingState.cores[0]? = some c ∧ c.matrix = [freeing] ∧
    c.parityMet freeing = none ∧ freeing.damaged c placedTeam = false := ⟨_, rfl, by decide +kernel⟩

/-- An empty slot stands by itself: slot 5 is the head of what was its span. -/
theorem freeingState_head :
    (match exec (.matrixQueueTurn 0) freeingState with
     | .next t => (t.cores[0]?).any fun c => c.slots.any fun (n, w) => n == 5 && w.head == 5
     | _ => false) = true := by decide +kernel

end Sys2Proof.Machine

namespace Sys2Proof
open Machine

/-- Refutes O32: a released slot is EMPTY and stands by itself, so that the slot which was the span's head still names
itself as its head. -/
theorem not_matrixTurnsMoveTheirData : ¬ Obligations.MatrixTurnsMoveTheirData := by
  intro h
  obtain ⟨c, hc, hm, hp, hd⟩ := freeingState_core
  obtain ⟨good, -⟩ := h freeingState 0 c freeing [] placedTeam hc hm (Nat.le_refl _) (by decide +kernel)
    (by decide +kernel)
  obtain ⟨-, frees, -⟩ := good hp hd
  obtain ⟨t, c', u, ht, -, hc', -, -, -, -, hslots⟩ := frees 5 rfl fun ⟨_, hq, _⟩ => nomatch hq
  have head := freeingState_head
  rw [ht] at head
  simp only [hc', Option.any_some, List.any_eq_true, Bool.and_eq_true, beq_iff_eq] at head
  obtain ⟨⟨n, w⟩, hw, -, hhead⟩ := head
  exact hslots n w hw hhead

end Sys2Proof
end

section
/-!
PROOFS. An engine operation that reads no list, in a group with a read on its way for its instruction (R214).
-/

-- One proof after another: each that waits beside others holds a stack of its own.
set_option Elab.async false

namespace Sys2Proof.Machine

/-! ## A read on its way that no instruction of the group asked for (R214, R364) -/

/-- The placed group (log 22), with the block of a BANKOP over one element at virtual address 0 in s16 to s31, and a
read of address 0 on its way for its next instruction. -/
def awaitingGroup (g : Group) : Group :=
  { ((g.setU 16 5).setU 24 1) with
    held := some { pc := BitVec.ofNat 48 placedPc, va := 0, request := some 0, refused := 0, bytes := [] } }

def awaitingState : State :=
  let s := State.reset.withFetchWord 32 0
  { s with groups := s.groups.map awaitingGroup }

/-- The BANKOP issues with a good block and no lock in its way. -/
theorem awaitingState_issues : awaitingState.issuesWhere .plain (fun x =>
    x.everyLane (fun _ l => (operandFault x l { us := (0 : BitVec 7).toNat :: regsFrom (16 : BitVec 7).toNat 16 }
      true).isNone) &&
    !awaitingState.keepsBack x.g && (awaitingState.team? x.g.team).any fun tm =>
      let ws := x.g.words16 (16 : BitVec 7).toNat
      !bankopBad ws && (bankopAddress x.img tm ws).isNone &&
        !awaitingState.lockFull (awaitingState.coreOf x.g.team) (bankopSpans ws) &&
        (awaitingState.cores[awaitingState.coreOf x.g.team]?).isSome) = true := by decide +kernel

/-- It is held, as one whose list is on its way: no operation starts. -/
theorem awaitingState_holds :
    (match exec (.bankop false 0 16) awaitingState with
     | .next t => t.cores.all fun c => c.ops.isEmpty
     | _ => false) = true := by decide +kernel

end Sys2Proof.Machine

namespace Sys2Proof
open Machine

/-- Refutes O22: a BANKOP that reads no list looks for one of no bytes at address 0. Where the group has a read of that
address on its way for its instruction, a BANKOP with a good block is held and starts no operation. -/
theorem not_engineOperationsStart : ¬ Obligations.EngineOperationsStart := by
  intro h
  obtain ⟨x, hi, hx⟩ := State.issuesWhere_site awaitingState_issues
  simp only [Bool.and_eq_true, Bool.not_eq_true'] at hx
  obtain ⟨⟨hpass, hkeeps⟩, hteam⟩ := hx
  obtain ⟨tm, htm, hgood⟩ := (Option.any_eq_true ..).mp hteam
  simp only [Bool.and_eq_true, Bool.not_eq_true', Option.isNone_iff_eq_none] at hgood
  obtain ⟨⟨⟨hbad, haddress⟩, hfull⟩, hcore⟩ := hgood
  obtain ⟨c, hc⟩ := Option.isSome_iff_exists.mp hcore
  obtain ⟨hblock, -⟩ := h awaitingState x tm false 0 16 0 hi htm hkeeps
  obtain ⟨-, -, hbankop, -⟩ := hblock (Site.everyLane_operands (tags := fun _ => true) hpass)
  obtain ⟨-, hstarts⟩ := hbankop hbad haddress
  obtain ⟨t, c', op, g, ht, -, -, hc', hops, -⟩ := hstarts hfull c hc
  have held := awaitingState_holds
  rw [ht] at held
  have hempty := List.all_eq_true.mp held c' (List.mem_of_getElem? hc')
  rw [hops] at hempty
  simp at hempty

end Sys2Proof
end

section
/-!
PROOFS. A real post on a slot number that two slots have (R376, R380).
-/

-- One proof after another: each that waits beside others holds a stack of its own.
set_option Elab.async false

namespace Sys2Proof.Machine

/-! ## A slot number that two slots have (R371, R380) -/

/-- Slot 0 with no bytes and a speculative version of group 3 pending. -/
def pendingSlot : CutSlot :=
  { declaredSlot 1 [] (0x10000, 128, 0) with version := 5, specVer := 6, specLevel := 1, specBy := 3 }

/-- A second slot 0, with the header that the first will have when the next version has been posted, and its STORE
elsewhere. -/
def shadowSlot : CutSlot := { declaredSlot 1 [] (0x20000, 128, 0) with version := 6, squashes := 1 }

/-- A real post on slot 0, of no bytes, by a group that is on no cutting. -/
def realPost : EngOp :=
  EngOp.new { g := { placedGroup with uid := 9 }, img := placedImage, pc := 0, mask := 0 } placedTeam
    { cls := 1, chip := 0, lcid := 0, team := 0, group := 9, lane := 32 } 1 11 [0, 0]

/-- What the placed group (log 22) holds on a cutting for version 6 of slot 0. -/
def onCutting : Spec :=
  { level := 1, slot := 0, want := 6, producer := none, predicted := false, counted := false, lines := [], held := [],
    committing := none, doomed := none }

def shadowedState : State :=
  let s := (State.reset.withFetchWord 32 0).modCore 0 fun c => { c with ops := [realPost] }
  { s with groups := s.groups.map fun g => { g with spec := some onCutting },
           cuts := [(0, pendingSlot), (0, shadowSlot)] }

/-- The post squashes the group, with a time that has come: no header counts as written. -/
theorem shadowedState_squashes :
    (match exec (.ctpostTurn 0 1) shadowedState with
     | .next t => (t.specOf 3).any fun sp => sp.doomed == some 0
     | _ => false) = true := by decide +kernel

end Sys2Proof.Machine

namespace Sys2Proof
open Machine

/-- Refutes O48: where two slots have one number, the header that a post writes may be one that the second had before,
which does not count as changed; the group that the post squashes then returns its records before the header's write. -/
theorem not_cuttingTurns : ¬ Obligations.CuttingTurns := by
  intro h
  obtain ⟨-, -, turns, -⟩ := h shadowedState
  obtain ⟨-, posting⟩ := turns 0 1 _ realPost pendingSlot rfl (by decide +kernel) rfl (by decide +kernel)
    (by decide +kernel)
  obtain ⟨u, hu, hd⟩ : ∃ u, shadowedState.engScratch realPost (wd realPost.words 1) pendingSlot.bytes = some (u, 0) ∧
      scratchDamaged u 0 pendingSlot.bytes = none := ⟨_, rfl, by decide +kernel⟩
  obtain ⟨-, withdraws, -⟩ := posting rfl (by decide +kernel) u 0 hu hd
  obtain ⟨t, op', ht, -, -, -, r, slot', -, -, -, -, -, squashed⟩ :=
    withdraws (by decide +kernel) (by decide) rfl
  obtain ⟨sp, time, hsp, hdoomed, -, hwritten, -⟩ := squashed 3 onCutting (by decide +kernel) rfl (.inl rfl)
  have now := shadowedState_squashes
  rw [ht] at now
  simp only [hsp, Option.any_some, hdoomed, beq_iff_eq, Option.some.injEq] at now
  subst now
  obtain ⟨w, -, -, -, hlow, hhigh⟩ := hwritten rfl rfl rfl 0 _ rfl 0 _ rfl
  exact absurd (Nat.lt_of_lt_of_le hlow hhigh) (Nat.not_lt_zero _)

end Sys2Proof
end

section
/-!
PROOFS. Instructions that wait; updates of barrier words, trugs and event counters (R205 to R213).
-/

-- One proof after another: each that waits beside others holds a stack of its own.
set_option Elab.async false

namespace Sys2Proof.Machine

/-! ## Lanes that enter WAIT (R205, R206, R208, R211, R213) -/

/-- The lanes of an issue stand at it in one wait. -/
def State.WaitsAt (s : State) (x : Site) (r : Result) (w : Wait) : Prop :=
  ∃ t g, r = .next t ∧ t.mem = s.mem ∧ t.group? x.g.uid = some g ∧
    ∀ (j : Nat) (l : Lane), g.lanes[j]? = some l → x.mask.getLsbD j = true → l.state = .wait w ∧ l.lpc = x.pc

/-- An instruction whose effect makes its lanes wait. -/
theorem Op.issue_waits (o : Op) {now : State} (s : State) (x : Site) (s1 : State) (h : Issuing s x o.kind)
    (hc : ActiveLanes x fun i l => o.check x i l = none) (hf : ActiveLanes x fun i l => o.fault x i l = none)
    (hw : o.wait x = false) (hh : o.hold x x.mask = false) (hmem : s.mem = now.mem) {w : Wait}
    (he : o.effect x x.mask (s.advance x x.mask) = s1.enterWait x x.mask fun _ => w)
    (hg1 : s1.groups = (s.advance x x.mask).groups) (hm1 : s1.mem = s.mem) : now.WaitsAt x (o.issue s) w := by
  obtain ⟨g, hg, -, -⟩ := State.site?_group h.site
  rw [← State.site?_uid h.site] at hg
  have hadv : s1.group? x.g.uid = some (g.onLanes x.mask fun _ l => { l with lpc := x.pc + 4 }) := by
    rw [State.group?, hg1]
    exact State.advance_group? hg x.mask
  have hwait := State.onLanes_group? hadv x.mask fun _ l => { l with state := .wait w, lpc := x.pc }
  rw [← State.enterWait, ← he] at hwait
  refine ⟨_, _, o.issue_completed s x h hc hf hw hh, ?_, State.completed_group? o.m o.kind hwait, fun j l hl hm => ?_⟩
  · change (o.effect x x.mask (s.advance x x.mask)).mem = now.mem
    rw [he]
    exact hm1.trans hmem
  · obtain ⟨a, r, hb⟩ := Group.book_lane x.g x.pc x.mask o.m o.kind (overDistance s.fw.spdistCap x o.kind)
      s.clock.stamp ((g.onLanes x.mask fun _ l => { l with lpc := x.pc + 4 }).onLanes x.mask fun _ l =>
        { l with state := .wait w, lpc := x.pc }) j
    rw [hb, Group.onLanes_lane] at hl
    obtain ⟨l', hl', rfl⟩ := Option.map_eq_some_iff.mp hl
    obtain ⟨l0, -, rfl⟩ := Option.map_eq_some_iff.mp hl'
    simp only [hm, if_true, and_self]

/-- An instruction leaves one team as `v`, and memory as it was. -/
def State.LeavesTeam (s : State) (r : Result) (u : Nat) (v : Team) : Prop :=
  ∃ t, r = .next t ∧ t.mem = s.mem ∧ t.team? u = some v

/-! ## The state that an instruction on a trug meets (R211, R290) -/

/-- With nothing of the group on its way to a bank, nothing is accepted there first. -/
theorem State.acceptEarlier_none {s : State} {group team : Nat} (mask : BitVec 32)
    (h : ∀ p ∈ s.pend, p.group = group → p.what.bank ≠ some team) : s.acceptEarlier group mask team = s := by
  have hnone : s.earlierThere group mask team = [] := by
    unfold State.earlierThere
    generalize hps : s.pend = ps at h
    clear hps
    induction ps with
    | nil => rfl
    | cons p ps ih =>
      rw [List.foldr_cons, ih fun q hq => h q (List.mem_cons_of_mem _ hq), if_neg]
      simp only [Bool.and_eq_true, beq_iff_eq, not_and]
      exact fun hp => absurd hp.2 (h p List.mem_cons_self hp.1)
  rw [State.acceptEarlier, hnone, List.foldl_nil]

section
variable {s : State} {x : Site} {tm u : Team} {a off : Nat}

theorem State.team?_uid {v : Nat} (h : s.team? v = some u) : u.uid = v := by
  simpa using List.find?_some h

variable (ht : s.team? x.g.team = some tm) (hp : s.trugPlace x.img tm (x.g.u a).toNat = some (u, off))
include ht hp

theorem State.trugNamed_eq : s.trugNamed x a = some (tm, u, off) := by
  simp only [State.trugNamed, ht, Option.bind_some, hp, Option.map_some]

theorem State.atTrug_same (hx : s.site? = some x) (hq : ∀ p ∈ s.pend, p.group = x.g.uid → p.what.bank ≠ some u.uid) :
    s.atTrug a = s := by
  simp only [State.atTrug, hx, State.trugNamed_eq ht hp]
  exact State.acceptEarlier_none _ hq

/-- An instruction on an undamaged descriptor whose operands are good takes no fault. -/
theorem State.trugFault_none (hd : u.scratchDamage = []) {pieces : Team → Nat → Nat → List (Nat × Nat)}
    {bad : Team → Nat → Nat → Bool} (hb : bad u off tm.member = false) : s.trugFault x a pieces bad = none := by
  have hnone : trugDamaged u off (pieces u off tm.member) = none := by
    simp [trugDamaged, scratchDamaged, hd, least]
  simp only [State.trugFault, State.trugNamed_eq ht hp, hnone, hb, Bool.false_eq_true, if_false]

/-- An instruction on a trug that changes its descriptor at its home. -/
theorem Op.issue_trug (o : Op) (f : Team → Nat → Nat → Team) (h : Issuing s x o.kind) (hc : ActiveLanes x fun i l => o.check x i l = none)
    (hf : ActiveLanes x fun i l => o.fault x i l = none) (hw : o.wait x = false) (hh : o.hold x x.mask = false)
    (hu : s.team? u.uid = some u) (hfu : (f u off tm.member).uid = u.uid)
    (he : ∀ t, o.effect x x.mask t = t.onTrug x a f) :
    s.LeavesTeam (o.issue s) u.uid (f u off tm.member) := by
  have hn : (s.advance x x.mask).trugNamed x a = some (tm, u, off) := State.trugNamed_eq (s := s) ht hp
  have heff : o.effect x x.mask (s.advance x x.mask) =
      (s.advance x x.mask).modTeam u.uid fun u => f u off tm.member := by
    rw [he, State.onTrug, hn]
  refine ⟨_, o.issue_completed s x h hc hf hw hh, ?_, ?_⟩
  · change (o.effect x x.mask (s.advance x x.mask)).mem = s.mem
    rw [heff]
    rfl
  · change (o.effect x x.mask (s.advance x x.mask)).team? u.uid = _
    rw [heff]
    exact State.modTeam_team?_same (s := s.advance x x.mask) (f := fun u => f u off tm.member) hu hfu

end

/-! ## Byte-counting barriers (R208) -/

section
variable {s : State} {x : Site} {tm : Team} {a off : Nat} (ht : s.team? x.g.team = some tm)
  (hoff : barrierOffset x.img tm (x.g.u a).toNat = some off)
include ht hoff

theorem State.barrierFault_eq (reads : Bool) : s.barrierFault x a reads =
    if reads && (scratchDamaged tm off 8).isSome then some (Cause.dataError (x.g.u a).toNat) else none := by
  simp only [State.barrierFault, ht, Option.bind_some, hoff, Option.map_some]

/-- An instruction that changes a barrier word of its own core. -/
theorem Op.issue_barrier (o : Op) (f : Team → Nat → Team) (h : Issuing s x o.kind) (hc : ActiveLanes x fun i l => o.check x i l = none)
    (hf : ActiveLanes x fun i l => o.fault x i l = none) (hw : o.wait x = false) (hh : o.hold x x.mask = false)
    (hfu : (f tm off).uid = tm.uid) (he : ∀ t, o.effect x x.mask t = t.onBarrier x a f) :
    s.LeavesTeam (o.issue s) tm.uid (f tm off) := by
  refine ⟨_, o.issue_completed s x h hc hf hw hh, ?_, ?_⟩
  · change (o.effect x x.mask (s.advance x x.mask)).mem = s.mem
    rw [he]
    rfl
  · change (o.effect x x.mask (s.advance x x.mask)).team? tm.uid = _
    rw [he, State.team?_uid ht, State.onBarrier]
    refine (State.modTeam_team?_same (s := s.advance x x.mask) ht ?_).trans ?_ <;> simp only [hoff]
    exact hfu.trans (State.team?_uid ht)

end

/-! ## Events (R213) -/

/-- EVSIG's effect: the counter of the launch's script context rises by 1. -/
def signalEffect (x : Site) (k : Nat) (s : State) : State :=
  { s with ctxs := setAt (fun c => { c with k := tput c.k k (tget 0 c.k k + 1) }) (s.sctx x.g.grid) s.ctxs }

theorem evsig_signals {s : State} {x : Site} (m : Bool) (k : BitVec 7) (h : Issuing s x .plain)
    (hk : s.keepsBack x.g = false) (hf : s.fenceHolds x.g x.mask 3 = true) (hc : s.sctx x.g.grid < s.ctxs.length) :
    ∃ t, exec (.evsig m k) s = .next t ∧
      tget 0 (t.ctx (s.sctx x.g.grid)).k k.toNat = tget 0 (s.ctx (s.sctx x.g.grid)).k k.toNat + 1 ∧
      ∀ j, j ≠ s.sctx x.g.grid → t.ctx j = s.ctx j := by
  have hi : exec (.evsig m k) s = .next (s.completed x m .plain (signalEffect x k.toNat)) :=
    Op.issue_completed _ s x h (fun _ _ _ _ => rfl) (fun _ _ _ _ => rfl) (by simp [hk, scopeChip, hf]) rfl
  have hctxs : (s.completed x m .plain (signalEffect x k.toNat)).ctxs =
      setAt (fun c => { c with k := tput c.k k.toNat (tget 0 c.k k.toNat + 1) }) (s.sctx x.g.grid) s.ctxs := rfl
  refine ⟨_, hi, ?_, fun j hj => ?_⟩
  · rw [State.ctx, hctxs, setAt_getElem?_same, State.ctx, List.getElem?_eq_getElem hc]
    exact tget_tput_same ..
  · rw [State.ctx, hctxs, setAt_getElem?_other _ _ _ _ hj, State.ctx]

/-! ## The updates keep the team's name -/

@[simp] theorem Team.write_uid (t : Team) (off : Nat) (bs : List Byte) : (t.write off bs).uid = t.uid := rfl
@[simp] theorem Team.setField_uid (t : Team) (off n v : Nat) : (t.setField off n v).uid = t.uid := rfl
@[simp] theorem Team.setSlot_uid (t : Team) (off i w : Nat) : (t.setSlot off i w).uid = t.uid := rfl

theorem Team.trugInit_uid (t : Team) (off : Nat) : (t.trugInit off).uid = t.uid := by
  simp only [Team.trugInit, Team.write_uid, Team.setField_uid]

theorem Team.trugCount_uid (t : Team) (off i n : Nat) : (t.trugCount off i n).uid = t.uid := by
  simp only [Team.trugCount]
  split <;> rfl

theorem Team.trugRelease_uid (t : Team) (off m : Nat) : (t.trugRelease off m).uid = t.uid := by
  simp only [Team.trugRelease]
  split <;> rfl

end Sys2Proof.Machine

namespace Sys2Proof
open Machine

/-- Settles O21: each waiting instruction puts its lanes into its wait at itself; the updates of barrier words, trugs
and event counters are made at their homes. -/
theorem waitsBarriersTrugsAndEvents : Obligations.WaitsBarriersTrugsAndEvents := by
  refine ⟨fun s x m d a k => ⟨fun h => ⟨?_, fun hc => ?_⟩, fun h => ⟨?_, ?_, fun hc => ⟨?_, fun hb => ?_⟩⟩,
    fun x h hc => ⟨fun hf => ⟨(s.atTrug a.toNat).clock.uid, ?_⟩,
      fun hf => ⟨(s.atTrug a.toNat).clock.uid, ?_⟩⟩⟩, fun s x tm m d a b h ht => ⟨fun hc off hoff => ⟨?_, fun hd => ?_⟩,
    fun u off hp hu hd hq => ?_, fun k hk hf hctx => evsig_signals m k h hk hf hctx⟩⟩
  · change s.WaitsAt x (exec (.fence m k) s) _
    exact Op.issue_waits _ s x ((s.advance x x.mask).newUid.2) h (fun _ _ _ _ => rfl) (fun _ _ _ _ => rfl) rfl rfl rfl
      rfl rfl rfl
  · change s.WaitsAt x (exec (.twait m a) s) _
    exact Op.issue_waits _ s x (s.advance x x.mask) h (by exact hc) (fun _ _ _ _ => rfl) rfl rfl rfl rfl rfl rfl
  · change s.WaitsAt x (exec (.bar m) s) _
    exact Op.issue_waits _ s x ((s.advance x x.mask).newUid.2) h (fun _ _ _ _ => rfl) (fun _ _ _ _ => rfl) rfl rfl rfl
      rfl rfl rfl
  · change s.WaitsAt x (exec (.cbar m) s) _
    exact Op.issue_waits _ s x ((s.advance x x.mask).newUid.2) h (fun _ _ _ _ => rfl) (fun _ _ _ _ => rfl) rfl rfl rfl
      rfl rfl rfl
  · change s.WaitsAt x (exec (.evwait m a k) s) _
    exact Op.issue_waits _ s x (s.advance x x.mask) h (by exact hc) (fun _ _ _ _ => rfl) rfl rfl rfl rfl rfl rfl
  · change s.WaitsAt x (exec (.bcwait m a) s) _
    exact Op.issue_waits _ s x (s.advance x x.mask) h (by exact hc) (fun _ _ _ _ => hb) rfl rfl rfl rfl rfl rfl
  · change s.WaitsAt x (exec (.tgacq m d a) s) _
    exact Op.issue_waits _ (s.atTrug a.toNat) x (((s.atTrug a.toNat).advance x x.mask).newUid.2) h (by exact hc) (fun _ _ _ _ => hf) rfl rfl
      (s.atTrug_held a.toNat).1 rfl rfl rfl
  · change s.WaitsAt x (exec (.tgwait m d a) s) _
    exact Op.issue_waits _ (s.atTrug a.toNat) x (((s.atTrug a.toNat).advance x x.mask).newUid.2) h (by exact hc) (fun _ _ _ _ => hf) rfl rfl
      (s.atTrug_held a.toNat).1 rfl rfl rfl
  · change s.LeavesTeam (exec (.bcinit m a b) s) _ _
    exact Op.issue_barrier ht hoff _ (fun t off => t.setBarrier off (x.g.u b.toNat).toNat 0 false) h hc
      (fun _ _ _ _ => State.barrierFault_eq ht hoff false) rfl rfl rfl fun _ => rfl
  · change s.LeavesTeam (exec (.bcexp m a b) s) _ _
    exact Op.issue_barrier ht hoff _ (fun t off => t.setBarrier off ((t.expected off + (x.g.u b.toNat).toNat) % 2 ^ 32)
      (t.arrivedBytes off) (t.barrierErr off)) h hc
      (fun _ _ _ _ => (State.barrierFault_eq ht hoff true).trans (if_neg (by simp [hd]))) rfl rfl rfl fun _ => rfl
  · have hs : s.atTrug a.toNat = s := State.atTrug_same ht hp h.site hq
    refine ⟨fun hc => ⟨fun hbad => ?_, fun hcons hready => ?_⟩, fun hc => ?_⟩
    · change s.LeavesTeam (exec (.tginit m a) s) _ _
      simp only [exec, execTginit, hs]
      refine Op.issue_trug ht hp _ (fun u off _ => u.trugInit off) h hc ?_ rfl rfl hu (Team.trugInit_uid ..) fun _ => rfl
      intro _ _ _ _
      dsimp only
      exact State.trugFault_none ht hp hd hbad
    · change s.LeavesTeam (exec (.tgrel m a) s) _ _
      simp only [exec, execTgrel, hs]
      refine Op.issue_trug ht hp _ (fun u off k => u.trugRelease off k) h hc ?_ rfl rfl hu (Team.trugRelease_uid ..)
        fun _ => rfl
      intro _ _ _ _
      dsimp only
      exact State.trugFault_none ht hp hd (by simp [hcons, hready])
    · intro i hfence hi hacq hlt hfit
      change s.LeavesTeam (exec (.tgcmt m d a b) s) _ _
      simp only [exec, execTgcmt, hs, ite_self]
      refine Op.issue_trug ht hp _ (fun u off _ => u.trugCount off (x.g.u d.toNat).toNat (x.g.u b.toNat).toNat) h hc ?_
        (by simp [scopeCluster, hfence]) rfl hu (Team.trugCount_uid ..) fun _ => rfl
      intro _ _ _ _
      dsimp only
      refine State.trugFault_none ht hp hd ?_
      simp only [Bool.or_eq_false_iff, decide_eq_false_iff_not, Bool.not_eq_false', Bool.and_eq_true, decide_eq_true_eq]
      exact ⟨⟨Nat.not_le.mpr hi, hacq, hlt⟩, Nat.not_lt.mpr hfit⟩

end Sys2Proof
end

section
/-!
PROOFS. The instructions on cutting slots, and the start of an operation of the engines (R214, R227 to R229, R381).
-/

-- One proof after another: each that waits beside others holds a stack of its own.
set_option Elab.async false

namespace Sys2Proof.Machine

/-! ## Good blocks of words (R65) -/

/-- A block whose words break no rule is no illegal operand. -/
theorem blockFault_good {rules : Rules} (h : (rules.any (·.2)) = false) (x : Site) (l : Lane) (a : Nat)
    (rest : Option Cause) : blockFault x l a rules rest = rest := by
  refine if_neg fun hbad => ?_
  obtain ⟨_, hmem, hb⟩ := List.any_eq_true.mp hbad
  obtain ⟨rule, hin, rfl⟩ := List.mem_map.mp hmem
  rw [Bool.and_eq_true] at hb
  exact List.any_eq_false.mp h rule hin hb.1

theorem valueFault_good (x : Site) (l : Lane) (o : Operands) (rest : Option Cause) {bad : Bool} (h : bad = false) :
    valueFault x l o bad rest = rest :=
  if_neg (by simp [h])

/-! ## Slots by number (R371) -/

theorem find?_tput_same {α : Type} (t : List (Nat × α)) (n : Nat) (v : α) :
    (tput t n v).find? (fun (k, _) => k == n) = some (n, v) := by
  induction t with
  | nil => simp [tput]
  | cons e t ih =>
    obtain ⟨k, w⟩ := e
    unfold tput
    split
    · simp
    · split
      · simp
      next hne =>
        rw [List.find?_cons_of_neg (by simpa using hne)]
        exact ih

theorem tdel_keys {α : Type} (t : List (Nat × α)) (n : Nat) : (tdel t n).map (·.1) = (t.map (·.1)).erase n := by
  induction t with
  | nil => rfl
  | cons e t ih =>
    obtain ⟨k, w⟩ := e
    unfold tdel
    split
    next h => rw [List.map_cons, h, List.erase_cons_head]
    next h => rw [List.map_cons, List.map_cons, ih, List.erase_cons_tail (by simpa using h)]

@[simp] theorem tmap_keys {α : Type} (t : List (Nat × α)) (n : Nat) (f : α → α) :
    (tmap t n f).map (·.1) = t.map (·.1) := by
  rw [tmap, List.map_map]
  refine List.map_congr_left fun e _ => ?_
  simp only [Function.comp_apply]
  split <;> rfl

theorem State.mem_cuts_iff {s : State} {n : Nat} :
    (s.cuts.any fun (k, _) => k == n) = true ↔ n ∈ s.cuts.map (·.1) := by
  simp [List.any_eq_true, List.mem_map]

/-- The lowest slot that is not declared. -/
theorem State.freeSlot_lowest {s : State} {n : Nat} (hn : n < 64) (hfree : n ∉ s.cuts.map (·.1))
    (hlow : ∀ k, k < n → k ∈ s.cuts.map (·.1)) : s.freeSlot = some n := by
  refine List.find?_range_eq_some.mpr ⟨?_, List.mem_range.mpr hn, fun k hk => ?_⟩
  · rw [Bool.eq_false_iff.mpr (mt State.mem_cuts_iff.mp hfree)]
    rfl
  · rw [State.mem_cuts_iff.mpr (hlow k hk)]
    rfl

theorem State.freeSlot_none {s : State} (h : ∀ n < 64, n ∈ s.cuts.map (·.1)) : s.freeSlot = none := by
  refine List.find?_eq_none.mpr fun n hn => ?_
  rw [State.mem_cuts_iff.mpr (h n (List.mem_range.mp hn))]
  exact Bool.false_ne_true

/-! ## What the writes of a cutting leave alone -/

theorem State.slotWrite_rest (s : State) (c : CutSlot) (off : Nat) (bs : List Byte) (w : Writer) :
    (s.slotWrite c off bs w).1.groups = s.groups ∧ (s.slotWrite c off bs w).1.cuts = s.cuts := by
  simp only [State.slotWrite]
  split <;> exact ⟨rfl, rfl⟩

/-- The names of the groups and the numbers of the slots. -/
def State.names (s : State) : List Nat × List Nat := (s.groups.map (·.uid), s.cuts.map (·.1))

theorem State.slotWrite_names (s : State) (c : CutSlot) (off : Nat) (bs : List Byte) (w : Writer) :
    (s.slotWrite c off bs w).1.names = s.names := by
  rw [State.names, (s.slotWrite_rest ..).1, (s.slotWrite_rest ..).2, State.names]

theorem State.writeHeader_names (s : State) (n : Nat) (w : Writer) : (s.writeHeader n w).1.names = s.names := by
  unfold State.writeHeader
  split
  · rfl
  · exact s.slotWrite_names ..

theorem State.modSpec_names (s : State) (u : Nat) (f : Spec → Option Spec) : (s.modSpec u f).names = s.names := by
  simp only [State.names, State.modSpec, List.map_map, Prod.mk.injEq, and_true]
  refine List.map_congr_left fun g _ => ?_
  simp only [Function.comp_apply]
  split <;> rfl

theorem State.modSlot_names (s : State) (n : Nat) (f : CutSlot → CutSlot) : (s.modSlot n f).names = s.names := by
  simp only [State.names, State.modSlot, tmap_keys]

theorem State.roomAgain_names (s : State) : s.roomAgain.names = s.names := by
  simp only [State.names, State.roomAgain, List.map_map, Prod.mk.injEq, and_true]
  exact List.map_congr_left fun _ _ => rfl

theorem State.withdraw_names (s : State) (us : List Nat) (w : Writer) : (s.withdraw us w).names = s.names := by
  refine foldl_keeps State.names _ (fun s e => ?_) _ _
  dsimp only
  split
  · rw [State.writeHeader_names, State.modSlot_names, State.slotWrite_names]
  · rfl

theorem State.squash_names (s : State) (all : List Nat) (n : Nat) (w : Writer) : (s.squash all n w).names = s.names := by
  simp only [State.squash]
  rw [State.roomAgain_names, State.modSlot_names, State.withdraw_names]
  exact foldl_keeps State.names _ (fun _ _ => State.modSpec_names ..) _ _

theorem State.timeSquash_names (before s : State) : (before.timeSquash s).names = s.names :=
  foldl_keeps State.names _ (fun _ _ => State.modSpec_names ..) _ _

theorem State.keys_of_names {s t : State} (h : t.names = s.names) : t.cuts.map (·.1) = s.cuts.map (·.1) :=
  congrArg Prod.snd h

/-- A group stays while the names stay. -/
theorem State.group?_of_names {s t : State} (h : t.names = s.names) {u : Nat} {g : Group} (hg : s.group? u = some g) :
    ∃ g', t.group? u = some g' := by
  have hu : u ∈ t.groups.map (·.uid) := by
    rw [show t.groups.map (·.uid) = s.groups.map (·.uid) from congrArg Prod.fst h]
    exact List.mem_map.mpr ⟨g, List.mem_of_find?_eq_some hg, State.group?_uid hg⟩
  obtain ⟨g', hg', hu'⟩ := List.mem_map.mp hu
  exact Option.isSome_iff_exists.mp (List.find?_isSome.mpr ⟨g', hg', by simpa using hu'⟩)

/-! ## Answers in a uniform register -/

/-- An instruction whose effect writes a register last: it reads so when the issue is complete, and the slots are as the
effect left them. -/
theorem State.completed_answers {s t : State} {x : Site} {m : Bool} {k : IssueKind} {e : State → State} {d : Nat}
    {w : Word} {r : Result} (hr : r = .next (s.completed x m k e))
    (he : e (s.advance x x.mask) = t.modGroup x.g.uid fun g => g.setU d w) {g : Group} (hg : t.group? x.g.uid = some g) :
    ∃ t' g', r = .next t' ∧ t'.group? x.g.uid = some g' ∧ g'.u d = w ∧ t'.cuts = t.cuts := by
  have hset : (e (s.advance x x.mask)).group? x.g.uid = some (g.setU d w) := by
    rw [he]
    exact State.modGroup_group?_keeps hg fun _ => rfl
  refine ⟨_, _, hr, State.completed_group? m k hset, ?_, ?_⟩
  · rw [Group.u, Group.book_uregs]
    exact tget_tput_same ..
  · change (e (s.advance x x.mask)).cuts = t.cuts
    rw [he, State.modGroup_cuts]

/-! ## Declaring and freeing (R227, R381) -/

section
variable {s : State} {x : Site} (m : Bool) (d a : BitVec 7) (h : Issuing s x .plain)
  (hc : OperandsPass x { us := d.toNat :: regsFrom a.toNat 16 } (fun _ => true)) {i : Instr}
  (hi : i ∈ [Instr.ctdecl m d a, Instr.ctdeclFree m d a])
include hi

theorem exec_declare (hb : s.curBit a.toNat 31 = false) : exec i s = (declareOp m d a s).issue s := by
  simp only [List.mem_cons, List.not_mem_nil, or_false] at hi
  rcases hi with rfl | rfl <;> exact if_neg (by simp [hb])

theorem exec_undeclare (hb : s.curBit a.toNat 31 = true) : exec i s = (undeclareOp m d a s).issue s := by
  simp only [List.mem_cons, List.not_mem_nil, or_false] at hi
  rcases hi with rfl | rfl <;> exact if_pos hb

include h hc

theorem declare_issue (hb : s.curBit a.toNat 31 = false) (hgood : declBad (x.g.words16 a.toNat) = false)
    {place : Nat × Nat × Nat} (hp : s.storePlace (s.coreOf x.g.team) x.g.grid (wd64 (x.g.words16 a.toNat) 5)
      (storeBytes3 (wd (x.g.words16 a.toNat) 1)) = .inl place) :
    exec i s = .next (s.completed x m .plain ((declareOp m d a s).effect x x.mask)) := by
  rw [exec_declare m d a hi hb]
  refine (declareOp m d a s).issue_completed s x h (fun j l hl hm => ?_) (fun _ _ _ _ => ?_) rfl rfl
  · exact (blockFault_good hgood ..).trans (hc j l hl hm)
  · simp only [declareOp, hp]

theorem undeclare_issue (hb : s.curBit a.toNat 31 = true) (hgood : freeBad (x.g.words16 a.toNat) = false) :
    exec i s = .next (s.completed x m .plain ((undeclareOp m d a s).effect x x.mask)) := by
  rw [exec_undeclare m d a hi hb]
  exact (undeclareOp m d a s).issue_completed s x h (fun j l hl hm => (blockFault_good hgood ..).trans (hc j l hl hm))
    (fun _ _ _ _ => rfl) rfl rfl

end

end Sys2Proof.Machine
namespace Sys2Proof.Machine

section
variable {s : State} {x : Site} (m : Bool) (d a : BitVec 7)

theorem declare_full {w : Nat × Nat × Nat} (hp : s.storePlace (s.coreOf x.g.team) x.g.grid (wd64 (x.g.words16 a.toNat) 5)
      (storeBytes3 (wd (x.g.words16 a.toNat) 1)) = .inl w) (hfull : s.freeSlot = none) (t : State) :
    (declareOp m d a s).effect x x.mask t = t.modGroup x.g.uid fun g => g.setU d.toNat 0xFFFFFFFF := by
  simp only [declareOp, hp, hfull]

/-- The state in which a declaration has written the slot's STORE. -/
def clearedStore (s : State) (x : Site) (a : Nat) (place : Nat × Nat × Nat) (t : State) : State :=
  let c := declaredSlot x.g.grid (x.g.words16 a) place
  ((t.cacheXlat (s.coreOf x.g.team) (s.rootOf x.g.grid) (wd64 (x.g.words16 a) 5)).slotWrite c 0
    (List.replicate (storeBytes3 c.bytes) 0) (s.writer x.g 32)).1

theorem declare_takes {place : Nat × Nat × Nat} (hp : s.storePlace (s.coreOf x.g.team) x.g.grid
      (wd64 (x.g.words16 a.toNat) 5) (storeBytes3 (wd (x.g.words16 a.toNat) 1)) = .inl place) {n : Nat}
    (hfree : s.freeSlot = some n) (t : State) :
    (declareOp m d a s).effect x x.mask t =
      ({ clearedStore s x a.toNat place t with
          cuts := tput (clearedStore s x a.toNat place t).cuts n (declaredSlot x.g.grid (x.g.words16 a.toNat) place) } :
        State).modGroup x.g.uid fun g => g.setU d.toNat (BitVec.ofNat 32 n) := by
  simp only [declareOp, hp, hfree, clearedStore]

theorem clearedStore_groups (place : Nat × Nat × Nat) (t : State) :
    (clearedStore s x a.toNat place t).groups = t.groups := by
  rw [clearedStore, (State.slotWrite_rest ..).1, (State.cacheXlat_rest ..).1]

theorem undeclare_missing (hn : s.slot? x.g.grid (bitsOf (wd (x.g.words16 a.toNat) 0) 0 6) = none) (t : State) :
    (undeclareOp m d a s).effect x x.mask t = t.modGroup x.g.uid fun g => g.setU d.toNat 0xFFFFFFFF := by
  simp only [undeclareOp, hn]

/-- The state in which a free has squashed the groups grown from its slot. -/
def squashedFrom (s : State) (x : Site) (n : Nat) (t : State) : State :=
  t.timeSquash (t.squash (s.closure ((s.specs.filter fun (_, sp) => sp.live && sp.slot == n).map fun (u, _) => u)) n
    (s.writer x.g 32))

theorem squashedFrom_names (n : Nat) (t : State) : (squashedFrom s x n t).names = t.names := by
  rw [squashedFrom, State.timeSquash_names, State.squash_names]

/-- A slot is declared no longer. -/
def State.dropSlot (s : State) (n : Nat) : State := { s with cuts := tdel s.cuts n }

theorem State.dropSlot_group? (t : State) (n u : Nat) : (t.dropSlot n).group? u = t.group? u := rfl

theorem undeclare_frees {n : Nat} (hn : bitsOf (wd (x.g.words16 a.toNat) 0) 0 6 = n) (hs : s.slot? x.g.grid n ≠ none)
    (t : State) : (undeclareOp m d a s).effect x x.mask t =
      ((squashedFrom s x n t).dropSlot n).modGroup x.g.uid fun g => g.setU d.toNat 0 := by
  obtain ⟨c, hslot⟩ := Option.ne_none_iff_exists'.mp hs
  simp only [undeclareOp, hn, hslot, squashedFrom, State.dropSlot]

end

/-! ## An operation of the engines starts (R214) -/

/-- The handle that an operation takes. -/
def Core.newHandle (c : Core) : Nat := pickHandle (c.ops.map (·.handle)) (c.ops.length + 1) c.nextHandle

/-- A number that no operation has is taken as it stands. -/
theorem Core.newHandle_free {c : Core} (h : ∀ o ∈ c.ops, o.handle ≠ c.nextHandle) : c.newHandle = c.nextHandle := by
  refine if_neg ?_
  simpa using h

/-- A core with one more operation, its locks, and the number that follows. -/
def startingCore (op : EngOp) (spans : List Span) (c : Core) : Core :=
  { c with ops := c.ops ++ [op], nextHandle := op.handle % 65535 + 1, locks := c.locks ++ locksOf false op.handle spans }

/-- A team whose lists of handles no longer name one. -/
def Team.reuses (h : Nat) (t : Team) : Team :=
  { t with ended := t.ended.filter (· != h), stale := t.stale.filter (· != h) }

theorem nextHandle_after {h : Nat} (hlt : h < 2 ^ 16) : h % 65535 + 1 = if h = 2 ^ 16 - 1 then 1 else h + 1 := by
  split <;> omega

section
variable {s : State} {x : Site} {tm : Team} {d kind : Nat} {ws : List Word} {spans : List Span}
  (ht : s.team? x.g.team = some tm)
include ht

theorem State.startOp_eq :
    s.startOp x d kind ws spans id =
      let op := EngOp.new x tm (s.writer x.g 32) (s.core (s.coreOf x.g.team)).newHandle kind ws
      (((s.modCore (s.coreOf x.g.team) (startingCore op spans)).modTeam x.g.team (Team.reuses op.handle)).modGroup
        x.g.uid fun g => g.setU d (BitVec.ofNat 32 op.handle)) := by
  have hcore : s.coreOf x.g.team = tm.core.getD 0 := by simp [State.coreOf, ht]
  simp only [State.startOp, ht, hcore, State.team?_uid ht]
  rfl

/-- An instruction that starts an operation of the engines. -/
theorem Op.issue_starts (o : Op) (i : Instr) (hi : exec i s = o.issue s) (h : Issuing s x o.kind)
    (hc : ActiveLanes x fun i l => o.check x i l = none) (hf : ActiveLanes x fun i l => o.fault x i l = none)
    (hw : o.wait x = false) (hh : o.hold x x.mask = false)
    (he : ∀ t, o.effect x x.mask t = t.startOp x d kind ws spans id) : s.startsOperation x i d kind ws spans := by
  intro c hcore
  obtain ⟨g, hg, hseen, -⟩ := State.site?_group h.site
  rw [← State.site?_uid h.site] at hg
  have hcore' : s.core (s.coreOf x.g.team) = c := by rw [State.core, hcore]; rfl
  let op := EngOp.new x tm (s.writer x.g 32) c.newHandle kind ws
  let started : State := ((s.advance x x.mask).modCore (s.coreOf x.g.team) (startingCore op spans)).modTeam x.g.team
    (Team.reuses op.handle)
  have heff : o.effect x x.mask (s.advance x x.mask) =
      started.modGroup x.g.uid fun g => g.setU d (BitVec.ofNat 32 op.handle) := by
    rw [he, State.startOp_eq (s := s.advance x x.mask) ht]
    simp only [started, op, ← hcore']
    rfl
  have hstarted : started.group? x.g.uid = some _ := State.advance_group? hg x.mask
  have hgroup := State.modGroup_group?_keeps (f := fun g => g.setU d (BitVec.ofNat 32 op.handle)) hstarted fun _ => rfl
  rw [← heff] at hgroup
  refine ⟨_, startingCore op spans c, op, _, hi.trans (o.issue_completed s x h hc hf hw hh), ?_, ?_, ?_, rfl, rfl, rfl, rfl,
    rfl, rfl, fun hne hlt hfree => ?_, State.completed_group? o.m o.kind hgroup, ?_, fun g0 hg0 r hr => ?_⟩
  · change (o.effect x x.mask (s.advance x x.mask)).mem = _
    rw [heff]
    rfl
  · change (o.effect x x.mask (s.advance x x.mask)).teams = _
    rw [heff]
    rfl
  · change (o.effect x x.mask (s.advance x x.mask)).cores[_]? = _
    rw [heff]
    exact (setAt_getElem?_same ..).trans (congrArg _ hcore)
  · have hn : op.handle = c.nextHandle := Core.newHandle_free hfree
    refine ⟨hn, ?_⟩
    rw [startingCore, hn]
    exact nextHandle_after hlt
  · rw [Group.u, Group.book_uregs]
    exact tget_tput_same ..
  · obtain rfl := Option.some.inj (hg.symm.trans hg0)
    rw [Group.u, Group.book_uregs]
    exact tget_tput_other _ _ _ _ _ hr

/-- An instruction that starts one with range locks, and is held while they do not fit. -/
theorem Op.issue_locks (o : Op) (i : Instr) (hi : exec i s = o.issue s) (h : Issuing s x o.kind)
    (hc : ActiveLanes x fun i l => o.check x i l = none) (hf : ActiveLanes x fun i l => o.fault x i l = none)
    (hw : o.wait x = false) (hh : o.hold x x.mask = s.lockFull (s.coreOf x.g.team) spans)
    (hn : o.onHold x x.mask = id)
    (he : ∀ t, o.effect x x.mask t = t.startOp x d kind ws spans id) : s.startsLocked x i d kind ws spans := by
  refine ⟨fun hfull => ?_, fun hroom => o.issue_starts ht i hi h hc hf hw (hh.trans hroom) he⟩
  rw [hi, o.issue_heldBack h hc hf (hh.trans hfull), hn]
  rfl

end

/-! ## CTPOST, CTGET and CTSTAT (R228, R229) -/

theorem cutOp_starts {s : State} {x : Site} {tm : Team} (m : Bool) {kind d a b off : Nat} {reserved : Nat → Bool}
    {write : Bool} {c : CutSlot} {i : Instr} (hi : exec i s = (cutOp m s kind d a b reserved write).issue s)
    (h : Issuing s x .plain) (ht : s.team? x.g.team = some tm)
    (hc : OperandsPass x { us := [d, a, b] } (fun _ => true)) (hslot : s.slot? x.g.grid ((x.g.u a).toNat % 64) = some c)
    (hoff : ownOffset tm (x.g.u b).toNat = some off) (halign : off % 16 = 0) (hfit : off + c.bytes ≤ x.img.scratch)
    (hr : reserved (x.g.u a).toNat = false) :
    s.startsLocked x i d kind [x.g.u a, x.g.u b] [⟨write, true, normScratch tm.member (x.g.u b).toNat, c.bytes⟩] := by
  have hslot' : s.slot? x.g.grid (bitsOf (x.g.u a).toNat 0 6) = some c := by simpa [bitsOf] using hslot
  refine (cutOp m s kind d a b reserved write).issue_locks ht i hi h (fun j l hl hm => ?_) (fun _ _ _ _ => ?_) rfl ?_ rfl
    fun t => ?_
  · exact (valueFault_good _ _ _ _ (by simp [hr, hslot'])).trans (hc j l hl hm)
  · simp only [cutOp, ht, hslot', hoff, halign, hfit, and_self, if_true]
  · simp only [cutOp, ht, hslot']
  · simp only [cutOp, ht, hslot']

/-- The fields of a slot's snapshot. -/
theorem slotStatus_fields {c : CutSlot} (now : Nat) (hm : c.mode < 4) (hl : c.specLevel < 8) :
    (BitVec.ofNat 32 (slotStatus now (some c))).extractLsb' 0 16 = BitVec.ofNat 16 c.version ∧
      (BitVec.ofNat 32 (slotStatus now (some c))).extractLsb' 16 2 = BitVec.ofNat 2 c.mode ∧
      (BitVec.ofNat 32 (slotStatus now (some c))).extractLsb' 18 3 = BitVec.ofNat 3 c.specLevel ∧
      (BitVec.ofNat 32 (slotStatus now (some c))).getLsbD 21 = true ∧
      (BitVec.ofNat 32 (slotStatus now (some c))).getLsbD 22 = decide (now < c.resolving) ∧
      (BitVec.ofNat 32 (slotStatus now (some c))).extractLsb' 23 9 = 0 := by
  have hbit : (decide (now < c.resolving)).toNat ≤ 1 := Bool.toNat_le _
  obtain ⟨v, hv⟩ : ∃ v, v = slotStatus now (some c) := ⟨_, rfl⟩
  rw [← hv]
  rw [slotStatus] at hv
  have hlt : v < 2 ^ 32 := by omega
  have field (lo w f : Nat) (hf : v / 2 ^ lo % 2 ^ w = f % 2 ^ w) :
      (BitVec.ofNat 32 v).extractLsb' lo w = BitVec.ofNat w f := by
    refine BitVec.eq_of_toNat_eq ?_
    rw [BitVec.extractLsb'_toNat, BitVec.toNat_ofNat, BitVec.toNat_ofNat, Nat.mod_eq_of_lt hlt,
      Nat.shiftRight_eq_div_pow, hf]
  have bit (k : Nat) (hk : k < 32) : (BitVec.ofNat 32 v).getLsbD k = decide (v / 2 ^ k % 2 = 1) := by
    rw [BitVec.getLsbD_ofNat, Nat.testBit_eq_decide_div_mod_eq, decide_eq_true hk, Bool.true_and]
  refine ⟨field 0 16 _ (by omega), field 16 2 _ (by omega), field 18 3 _ (by omega), ?_, ?_, field 23 9 0 (by omega)⟩
  · rw [bit 21 (by decide)]
    exact decide_eq_true (by omega)
  · rw [bit 22 (by decide)]
    cases hd : decide (now < c.resolving) with
    | false =>
      rw [hd, Bool.toNat_false] at hv
      exact decide_eq_false (by omega)
    | true =>
      rw [hd, Bool.toNat_true] at hv
      exact decide_eq_true (by omega)

theorem ctstat_writes {s : State} {x : Site} (m : Bool) (d a : BitVec 7) (h : Issuing s x .plain)
    (hc : OperandsPass x { us := [d.toNat, a.toNat] } (fun _ => true)) (ha : (x.g.u a.toNat).toNat < 64) :
    exec (.ctstat m d a) s = s.writesUniform x m d fun _ =>
      BitVec.ofNat 32 (slotStatus s.gtime (s.slot? x.g.grid (x.g.u a.toNat).toNat)) := by
  refine Op.issue_completed _ s x h (fun j l hl hm => ?_) (fun _ _ _ _ => rfl) rfl rfl
  refine (valueFault_good _ _ _ _ ?_).trans (hc j l hl hm)
  simp only [bitsOf, bne_eq_false_iff_eq]
  omega

end Sys2Proof.Machine

namespace Sys2Proof
open Machine

/-- Settles O26: a declaration takes the lowest free slot and a free gives it back; CTPOST and CTGET start an operation
with the lock of the slot's bytes; CTSTAT gives the slot's snapshot. -/
theorem cuttingInstructions : Obligations.CuttingInstructions := by
  refine ⟨fun s x m d a h hc => ?_, fun s x tm m d a b h ht => ?_⟩
  · intro ws i hi
    obtain ⟨g, hg, -, -⟩ := State.site?_group h.site
    rw [← State.site?_uid h.site] at hg
    refine ⟨fun hb hgood place hp => ⟨fun hfull => ?_, fun n hn hfree hlow => ?_⟩, fun hb hgood =>
      ⟨fun hslot => ?_, fun hslot => ?_⟩⟩
    · exact State.completed_answers (t := s.advance x x.mask) (declare_issue m d a h hc hi hb hgood hp)
        (declare_full m d a hp (State.freeSlot_none hfull) _) (State.advance_group? hg x.mask)
    · have hcleared : (clearedStore s x a.toNat place (s.advance x x.mask)).group? x.g.uid =
          some (g.onLanes x.mask fun _ l => { l with lpc := x.pc + 4 }) := by
        rw [State.group?, clearedStore_groups]
        exact State.advance_group? hg x.mask
      obtain ⟨t, g', ht, hg', hu, hcuts⟩ := State.completed_answers (declare_issue m d a h hc hi hb hgood hp)
        (declare_takes m d a hp (State.freeSlot_lowest hn hfree hlow) _) hcleared
      refine ⟨t, g', ht, hg', hu, declaredSlot x.g.grid ws place, ?_, rfl, rfl, rfl, rfl, rfl, rfl⟩
      simp only [State.slot?, hcuts, find?_tput_same]
      exact if_pos rfl
    · exact State.completed_answers (t := s.advance x x.mask) (undeclare_issue m d a h hc hi hb hgood) (undeclare_missing m d a hslot _)
        (State.advance_group? hg x.mask)
    · have hnames := squashedFrom_names (s := s) (x := x) (bitsOf (wd ws 0) 0 6) (s.advance x x.mask)
      obtain ⟨g1, hg1⟩ := State.group?_of_names hnames (State.advance_group? hg x.mask)
      rw [← State.dropSlot_group? _ (bitsOf (wd ws 0) 0 6)] at hg1
      obtain ⟨t, g', ht, hg', hu, hcuts⟩ := State.completed_answers (undeclare_issue m d a h hc hi hb hgood)
        (undeclare_frees m d a rfl hslot _) hg1
      refine ⟨t, g', ht, hg', hu, ?_⟩
      change t.cuts.map (·.1) = _
      rw [hcuts, State.dropSlot, tdel_keys, State.keys_of_names hnames, State.advance_cuts]
  · refine ⟨fun hc c off hslot hoff halign hfit => ⟨fun ha => ?_, fun ha => ?_⟩, fun hc ha => ⟨fun hslot => ?_,
      fun c hslot hmode hlevel => ?_⟩⟩
    · refine cutOp_starts (reserved := fun w => bitsOf w 6 26 != 0) (write := false) m rfl h ht hc hslot hoff halign hfit ?_
      simp only [bitsOf, bne_eq_false_iff_eq]
      omega
    · refine cutOp_starts (reserved := fun w => bitsOf w 6 10 != 0) (write := true) m rfl h ht hc hslot hoff halign hfit ?_
      simp only [bitsOf, bne_eq_false_iff_eq]
      omega
    · rw [ctstat_writes m d a h hc ha, hslot]
      rfl
    · exact ⟨_, by rw [ctstat_writes m d a h hc ha, hslot], slotStatus_fields s.gtime hmode hlevel⟩

end Sys2Proof
end

section
/-!
PROOFS. ENGST and PFETCH (R216, R223, R333).
-/

-- One proof after another: each that waits beside others holds a stack of its own.
set_option Elab.async false

namespace Sys2Proof.Machine

/-! ## ENGST (R216, R333) -/

theorem engst_brings {s : State} {x : Site} (m : Bool) (d a k : BitVec 7) (h : Issuing s x .plain)
    (hc : OperandsPass x { us := [d.toNat, a.toNat] } fun _ => true) {v : Nat}
    (hv : BitVec.ofNat 32 ((s.core (s.coreOf x.g.team)).engStatus (((s.team? x.g.team).map (·.stale)).getD [])
      (x.g.u a.toNat).toNat k.toNat) = BitVec.ofNat 32 v) :
    ∃ t, exec (.engst m d a k) s = .next t ∧ t.mem = s.mem ∧ t.brings x.g.uid none [d.toNat]
      (.value [{ reg := d.toNat, bits := BitVec.ofNat 32 v, tag := 0 }]) := by
  obtain ⟨g0, hg0, -, -⟩ := State.site?_group h.site
  rw [← State.site?_uid h.site] at hg0
  have hg1 := State.advance_group? hg0 x.mask
  let what : Awaited := .value [{ reg := d.toNat, bits := BitVec.ofNat 32 v, tag := 0 }]
  let e (s : State) : State := s.await x.g.uid none [d.toNat] what
  have hi : exec (.engst m d a k) s = .next (s.completed x m .plain e) := by
    refine (Op.issue_completed _ s x h (fun i l hl hm => hc i l hl hm) (fun _ _ _ _ => rfl) rfl rfl).trans ?_
    simp only [hv]
    rfl
  obtain ⟨g2, hg2, -⟩ := ((s.advance x x.mask).await_marks x.g.uid none [d.toNat] what).own _ hg1
  exact ⟨_, hi, rfl, State.completed_brings m .plain (e := e) hg2 ((s.advance x x.mask).await_brings _ _ _ _ hg1)⟩

/-- A number that is a handle, of an operation that did not complete before its team was saved. -/
def isHandle (stale : List Nat) (h : Nat) : Bool := decide (0 < h) && decide (h < 2 ^ 16) && !stale.contains h

section
variable {c : Core} {stale : List Nat} {h : Nat}

theorem Core.engStatus_unknown (hu : isHandle stale h = false) (k : Nat) :
    c.engStatus stale h k = if k = 0 then 15 else 0 := by
  refine if_pos ?_
  simp only [isHandle, Bool.and_eq_false_iff, decide_eq_false_iff_not, Bool.not_eq_false'] at hu
  rcases hu with (hu | hu) | hu
  · exact .inl (Nat.eq_zero_of_not_pos hu)
  · exact .inr (.inl (Nat.not_lt.mp hu))
  · exact .inr (.inr hu)

variable (hk : isHandle stale h = true)
include hk

theorem isHandle_passes : ¬ (h = 0 ∨ 2 ^ 16 ≤ h ∨ stale.contains h = true) := by
  simp only [isHandle, Bool.and_eq_true, decide_eq_true_eq, Bool.not_eq_true'] at hk
  obtain ⟨⟨h0, hlt⟩, hstale⟩ := hk
  rintro (h | h | h)
  · exact absurd h (Nat.ne_of_gt h0)
  · exact absurd h (Nat.not_le.mpr hlt)
  · exact absurd h (by rw [hstale]; exact Bool.false_ne_true)

theorem Core.engStatus_pending {o : EngOp} (ho : (c.ops.find? fun o => o.handle == h && !o.silent) = some o) (k : Nat) :
    c.engStatus stale h k = 0 := by
  rw [Core.engStatus, if_neg (isHandle_passes hk), ho]

variable (ho : (c.ops.find? fun o => o.handle == h && !o.silent) = none)
include ho

theorem Core.engStatus_kept {st : OpStatus} (hd : c.done.find? (·.handle == h) = some st) :
    c.engStatus stale h 0 = st.state.code + 2 ^ 8 * st.pred.toNat + 2 ^ 16 * (st.version % 2 ^ 16) ∧
      c.engStatus stale h 1 = st.address % 2 ^ 32 ∧ c.engStatus stale h 2 = st.address / 2 ^ 32 := by
  simp only [Core.engStatus, if_neg (isHandle_passes hk), ho, hd, and_self]

theorem Core.engStatus_other (hd : c.done.find? (·.handle == h) = none) (k : Nat) :
    c.engStatus stale h k = if k = 0 then 15 else 0 := by
  simp only [Core.engStatus, if_neg (isHandle_passes hk), ho, hd]

end

/-! ## PFETCH (R223) -/

/-- Two states between which only fills have come to be on their way. -/
structure State.Fills (s t : State) : Prop where
  groups : t.groups = s.groups
  teams : t.teams = s.teams
  kept : ∀ q ∈ s.pend, q ∈ t.pend
  added : ∀ q ∈ t.pend, q ∈ s.pend ∨ (q.regs = [] ∧ q.what.fills = true)

theorem State.Fills.of_eq {s t : State} (hg : t.groups = s.groups) (ht : t.teams = s.teams) (hp : t.pend = s.pend) :
    s.Fills t :=
  ⟨hg, ht, fun _ h => hp ▸ h, fun _ h => .inl (hp ▸ h)⟩

theorem State.Fills.trans {a b c : State} (h : a.Fills b) (k : b.Fills c) : a.Fills c where
  groups := k.groups.trans h.groups
  teams := k.teams.trans h.teams
  kept q hq := k.kept q (h.kept q hq)
  added q hq := (k.added q hq).elim (h.added q) .inr

theorem State.Fills.foldl {α : Type} (f : State → α → State) (hf : ∀ s a, State.Fills s (f s a)) (xs : List α)
    (s : State) : s.Fills (xs.foldl f s) := by
  induction xs generalizing s with
  | nil => exact .of_eq rfl rfl rfl
  | cons a xs ih => exact (hf s a).trans (ih _)

theorem State.fillBlock_fills (s : State) (core cls : Nat) (l1 : Bool) (pa : Nat) :
    s.Fills (s.fillBlock core cls l1 pa) :=
  State.Fills.trans (.of_eq (t := { s with mem := s.mem.reclaim pa 512 }) rfl rfl rfl)
    (State.Fills.foldl (fun s k =>
      let (blocks, mem) := fillLine s.gtime cls (pa + 128 * k) (s.core core).l1 s.mem
      { s.modCore core fun c => { c with l1 := blocks } with mem := mem }) (fun _ _ => .of_eq rfl rfl rfl) _ _)

/-- A result that marks no register leaves its group as it was. -/
theorem State.awaitAt_fills (s : State) (o : Origin) (u : Nat) {what : Awaited} (hw : what.fills = true) (due : Nat) :
    s.Fills (s.awaitAt o u none [] what due) where
  groups := by
    change (s.newUid.2.modGroup u fun g => { g with upend := g.upend ++ [] }).groups = s.groups
    rw [State.modGroup_of_same _ u fun g => by rw [List.append_nil]]
    rfl
  teams := rfl
  kept q hq := List.mem_append_left _ hq
  added q hq := (List.mem_append.mp hq).imp id fun h => by
    obtain rfl := List.mem_singleton.mp h
    exact ⟨rfl, hw⟩

theorem State.reachHome_fills (s : State) (p : Place) (write : Bool) (n : Nat) : s.Fills (s.reachHome p write n) := by
  unfold State.reachHome State.atHome
  split <;> exact .of_eq rfl rfl rfl

theorem State.cacheXlat_fills (s : State) (core root va : Nat) : s.Fills (s.cacheXlat core root va) := by
  obtain ⟨mem, h⟩ := s.cacheXlat_memory core root va
  rw [h]
  exact .of_eq rfl rfl rfl

theorem State.prefetch_fills (s : State) (g : Group) (core : Nat) (l1 : Bool) (va : Nat) :
    s.Fills (s.prefetch g core l1 va) := by
  simp only [State.prefetch]
  split
  next p _ =>
    split
    · have home := (s.cacheXlat_fills core (s.rootOf g.grid) va).trans (State.reachHome_fills _ p false 512)
      split
      · exact home.trans (State.awaitAt_fills _ _ _ rfl _)
      · exact home.trans (State.fillBlock_fills ..)
    · exact .of_eq rfl rfl rfl
  · exact .of_eq rfl rfl rfl

/-- PFETCH's effect: the superblocks of the range, one after another. -/
def prefetchEffect (lvl a b : BitVec 7) (x : Site) (s : State) : State :=
  let va := (x.g.uPair a.toNat).toNat
  let n := (x.g.u b.toNat).toNat
  let most := if lvl = 0 then l1Blocks else 2 ^ 20
  if n = 0 then s
  else
    (List.range (min most ((va + n - 1) / 512 + 1 - va / 512))).foldl
      (fun s k =>
        let at512 := (va / 512 + k) * 512
        if 2 ^ 48 ≤ at512 then s else s.prefetch x.g (s.coreOf x.g.team) (lvl = 0) at512) s

theorem prefetchEffect_fills (lvl a b : BitVec 7) (x : Site) (s : State) : s.Fills (prefetchEffect lvl a b x s) := by
  unfold prefetchEffect
  dsimp only
  split
  · exact .of_eq rfl rfl rfl
  · refine .foldl _ (fun t k => ?_) _ _
    split
    · exact .of_eq rfl rfl rfl
    · exact t.prefetch_fills ..

/-- The issue of an instruction that changes no lane leaves the vector registers as they were. -/
theorem Group.book_vregs (g : Group) (x : Site) (m : Bool) (k : IssueKind) (past : Bool) (stamp : Nat)
    (mask : BitVec 32) :
    (x.g.book x.pc x.mask m k past stamp (g.onLanes mask fun _ l => { l with lpc := x.pc + 4 })).lanes.map (·.vregs) =
      g.lanes.map (·.vregs) := by
  refine List.ext_getElem? fun i => ?_
  obtain ⟨a, r, hb⟩ := Group.book_lane x.g x.pc x.mask m k past stamp
    (g.onLanes mask fun _ l => { l with lpc := x.pc + 4 }) i
  rw [List.getElem?_map, List.getElem?_map, hb, Group.onLanes_lane, Option.map_map, Option.map_map]
  refine Option.map_congr fun l _ => ?_
  simp only [Function.comp_apply]
  split <;> split <;> rfl

end Sys2Proof.Machine

namespace Sys2Proof
open Machine

/-- Settles O23: ENGST brings what the core knows of a handle; PFETCH leaves fills on their way and nothing else. -/
theorem engineStatusAndPrefetch : Obligations.EngineStatusAndPrefetch := by
  intro s x m d a b k h
  refine ⟨fun hc => ⟨fun hk o ho => ?_, fun hk hu st hst => ?_, fun hn => ?_⟩, fun hc hkeeps => ?_⟩
  · exact ⟨engst_brings m d a 0 h hc (congrArg _ (Core.engStatus_pending hk ho _)),
      engst_brings m d a 1 h hc (congrArg _ (Core.engStatus_pending hk ho _)),
      engst_brings m d a 2 h hc (congrArg _ (Core.engStatus_pending hk ho _))⟩
  · obtain ⟨h0, h1, h2⟩ := Core.engStatus_kept hk hu hst
    refine ⟨engst_brings m d a 0 h hc (congrArg _ (h0.trans ?_)), engst_brings m d a 1 h hc ?_,
      engst_brings m d a 2 h hc (congrArg _ h2)⟩
    · cases st.pred <;> rfl
    · exact (congrArg _ h1).trans (BitVec.eq_of_toNat_eq (by simp))
  · have unknown (k : Nat) : (s.core (s.coreOf x.g.team)).engStatus (((s.team? x.g.team).map (·.stale)).getD [])
        (x.g.u a.toNat).toNat k = if k = 0 then 15 else 0 := by
      cases hk : isHandle (((s.team? x.g.team).map (·.stale)).getD []) (x.g.u a.toNat).toNat with
      | false => exact Core.engStatus_unknown hk k
      | true =>
        obtain ⟨hu, hd⟩ := hn.resolve_left fun hf => absurd (hk.symm.trans hf) (by decide)
        exact Core.engStatus_other hk hu hd k
    exact ⟨engst_brings m d a 0 h hc (congrArg _ (unknown 0)), engst_brings m d a 1 h hc (congrArg _ (unknown 1)),
      engst_brings m d a 2 h hc (congrArg _ (unknown 2))⟩
  · obtain ⟨g, hg, hseen, -⟩ := State.site?_group h.site
    rw [← State.site?_uid h.site] at hg
    have hi : exec (.pfetch m k a b) s = .next (s.completed x m .plain (prefetchEffect k a b x)) :=
      Op.issue_completed _ s x h hc (fun _ _ _ _ => rfl) hkeeps rfl
    have fills := prefetchEffect_fills k a b x (s.advance x x.mask)
    have hadv : (prefetchEffect k a b x (s.advance x x.mask)).group? x.g.uid =
        some (g.onLanes x.mask fun _ l => { l with lpc := x.pc + 4 }) := by
      rw [State.group?, fills.groups]
      exact State.advance_group? hg x.mask
    obtain ⟨t, ht, calm⟩ := pfetch_calm m k a b s
    obtain rfl := Host.Outcome.next.inj (hi.symm.trans ht)
    refine ⟨_, _, hi, calm.cells, calm.updates, fills.kept, fills.added, fills.teams,
      State.completed_group? m .plain hadv, fun g0 hg0 => ?_, ?_⟩
    · obtain rfl := Option.some.inj (hg.symm.trans hg0)
      exact Group.book_uregs ..
    · rw [Group.book_vregs, hseen, Group.seen_lanes]

end Sys2Proof
end

section
/-!
PROOFS. Stores: what memory receives of STG and STU, and what a bank accepts of STP (R196, R197, R199, R280, R290).
-/

-- One proof after another: each that waits beside others holds a stack of its own.
set_option Elab.async false


namespace Sys2Proof.Machine

/-! ## The words of a store (R280, R285) -/

theorem mem_mapFrom {α β : Type} {f : Nat → α → β} {xs : List α} {b : β} :
    b ∈ mapFrom f 0 xs ↔ ∃ i a, xs[i]? = some a ∧ f i a = b := by
  simp only [List.mem_iff_getElem?, mapFrom_getElem?, Nat.zero_add, Option.map_eq_some_iff]

/-- Every byte of a store is in the part of its word. -/
theorem splitWords_covers {pa k : Nat} {bs : List Byte} {v : Byte} (h : bs[k]? = some v) :
    ∃ part, ((pa + k) / 4 * 4, part) ∈ splitWords pa bs ∧ ((pa + k) % 4, v) ∈ part := by
  have placed : (pa + k, v) ∈ mapFrom (fun i b => (pa + i, b)) 0 bs := mem_mapFrom.mpr ⟨k, v, h, rfl⟩
  refine ⟨_, List.mem_map.mpr ⟨_, mem_nubNat.mpr (List.mem_map.mpr ⟨_, placed, rfl⟩), rfl⟩, ?_⟩
  refine List.mem_map.mpr ⟨_, List.mem_filter.mpr ⟨placed, beq_self_eq_true _⟩, ?_⟩
  exact congrArg (·, v) (show pa + k - (pa + k) / 4 * 4 = (pa + k) % 4 by omega)

/-- Every word of a store meets its bytes. -/
theorem splitWords_within {pa w : Nat} {bs : List Byte} {part : List (Nat × Byte)}
    (h : (w, part) ∈ splitWords pa bs) : pa < w + 4 ∧ w < pa + bs.length := by
  obtain ⟨w', hw, he⟩ := List.mem_map.mp h
  obtain ⟨⟨a, v⟩, ha, rfl⟩ := List.mem_map.mp (mem_nubNat.mp hw)
  obtain ⟨k, v', hk, hak⟩ := mem_mapFrom.mp ha
  obtain ⟨hlt, -⟩ := List.getElem?_eq_some_iff.mp hk
  have hw : a / 4 * 4 = w := congrArg Prod.fst he
  have hpa : pa + k = a := congrArg Prod.fst hak
  omega

/-- Of the updates, the new ones are to words of one of the stores. -/
def Memory.NewWithin (m n : Memory) (words : Nat → Prop) : Prop :=
  ∀ u ∈ n.updates, u ∈ m.updates ∨ words u.word

theorem Memory.wctFor_later (mem : Memory) (w : Nat) (writer : Writer) (source : Nat) (atomic : Bool) (arrival : Nat) :
    arrival < mem.wctFor w writer source atomic arrival :=
  Nat.lt_succ_of_le (Nat.le_max_left ..)

section
variable (mem : Memory) (pa : Nat) (bs : List Byte) (writer : Writer) (source : Nat) (atomic : Bool) (arrival : Nat)

/-- The update of one word of a store as it is received. -/
def Memory.wordUpdate (part : Nat × List (Nat × Byte)) : Update :=
  { word := part.1, bytes := part.2, wct := mem.wctFor part.1 writer source atomic arrival, writer := writer,
    source := source, atomic := atomic, arrival := mem.receivedAt part.1 writer source atomic arrival }

/-- Receives the update of one word, and answers the greatest WCT so far. -/
def receiveWord (b : Memory × Nat) (part : Nat × List (Nat × Byte)) : Memory × Nat :=
  let u := b.1.wordUpdate writer source atomic arrival part
  ({ b.1 with updates := b.1.updates ++ [u] }, max b.2 u.wct)

theorem Memory.receiveWords_eq : mem.receiveWords pa bs writer source atomic arrival =
    (splitWords pa bs).foldl (receiveWord writer source atomic arrival) (mem.reclaim pa bs.length, 0) := rfl

theorem receiveWord_foldl_le (parts : List (Nat × List (Nat × Byte))) (b : Memory × Nat) :
    b.2 ≤ (parts.foldl (receiveWord writer source atomic arrival) b).2 ∧
      ∀ u ∈ b.1.updates, u ∈ (parts.foldl (receiveWord writer source atomic arrival) b).1.updates :=
  foldl_rel (fun b c : Memory × Nat => b.2 ≤ c.2 ∧ ∀ u ∈ b.1.updates, u ∈ c.1.updates)
    (fun _ => ⟨Nat.le_refl _, fun _ h => h⟩) (fun h k => ⟨h.1.trans k.1, fun u hu => k.2 u (h.2 u hu)⟩) id _
    (fun _ _ => ⟨Nat.le_max_left .., fun _ h => List.mem_append_left _ h⟩) parts b

/-- What a store of words receives of each, and that it receives no more. -/
theorem receiveWord_foldl (parts : List (Nat × List (Nat × Byte))) (b : Memory × Nat) :
    let r := parts.foldl (receiveWord writer source atomic arrival) b
    (∀ p ∈ parts, ∃ u ∈ r.1.updates, u.word = p.1 ∧ u.bytes = p.2 ∧ arrival < u.wct ∧ u.wct ≤ r.2) ∧
      ∀ u ∈ r.1.updates, u ∈ b.1.updates ∨ ∃ p ∈ parts, u.word = p.1 := by
  induction parts generalizing b with
  | nil => exact ⟨fun _ h => (nomatch h), fun _ h => .inl h⟩
  | cons p ps ih =>
    obtain ⟨each, only⟩ := ih (receiveWord writer source atomic arrival b p)
    obtain ⟨hle, hkept⟩ := receiveWord_foldl_le writer source atomic arrival ps
      (receiveWord writer source atomic arrival b p)
    refine ⟨fun q hq => ?_, fun u hu => ?_⟩
    · cases hq with
      | head =>
        exact ⟨_, hkept _ (List.mem_append_right _ (List.mem_singleton.mpr rfl)), rfl, rfl,
          Memory.wctFor_later .., (Nat.le_max_right ..).trans hle⟩
      | tail _ hq => exact each q hq
    · rcases only u hu with h | ⟨q, hq, hw⟩
      · rcases List.mem_append.mp h with h | h
        · exact .inl h
        · exact .inr ⟨p, List.mem_cons_self .., by rw [List.mem_singleton.mp h]; rfl⟩
      · exact .inr ⟨q, List.mem_cons_of_mem _ hq, hw⟩

theorem Memory.receive_updates : (mem.receive pa bs writer source atomic arrival).1.updates =
    (mem.receiveWords pa bs writer source atomic arrival).1.updates := by
  simp [Memory.receive]

theorem Memory.receive_received {after : Nat} (h : after ≤ arrival) :
    (mem.receive pa bs writer source atomic arrival).1.received pa bs after
      (mem.receive pa bs writer source atomic arrival).2 := by
  intro k v hk
  obtain ⟨part, hp, hv⟩ := splitWords_covers (pa := pa) hk
  obtain ⟨u, hu, hw, hb, hlt, hle⟩ := (receiveWord_foldl writer source atomic arrival _
    (mem.reclaim pa bs.length, 0)).1 _ hp
  exact ⟨u, by rw [Memory.receive_updates]; exact hu, hw, hb ▸ hv, h.trans_lt hlt, hle⟩

theorem Memory.receive_newWithin : mem.NewWithin (mem.receive pa bs writer source atomic arrival).1
    fun w => pa < w + 4 ∧ w < pa + bs.length := by
  intro u hu
  rw [Memory.receive_updates] at hu
  rcases (receiveWord_foldl writer source atomic arrival _ (mem.reclaim pa bs.length, 0)).2 u hu with h | ⟨p, hp, hw⟩
  · exact .inl h
  · exact .inr (hw ▸ splitWords_within hp)

end

/-! ## The stores of the lanes of one instruction (R199, R285) -/

/-- The words of the stores: lane, word, bytes. -/
def laneParts (ws : List (Nat × Nat × List Byte)) : List (Nat × Nat × List (Nat × Byte)) :=
  (ws.map fun (i, pa, bs) => (splitWords pa bs).map fun (w, b) => (i, w, b)).flatten

theorem mem_laneParts {ws : List (Nat × Nat × List Byte)} {i w : Nat} {part : List (Nat × Byte)} :
    (i, w, part) ∈ laneParts ws ↔ ∃ pa bs, (i, pa, bs) ∈ ws ∧ (w, part) ∈ splitWords pa bs := by
  rw [laneParts, List.mem_flatten]
  constructor
  · rintro ⟨parts, hp, hi⟩
    obtain ⟨⟨j, pa, bs⟩, hw, rfl⟩ := List.mem_map.mp hp
    obtain ⟨⟨w', part'⟩, hs, he⟩ := List.mem_map.mp hi
    cases he
    exact ⟨pa, bs, hw, hs⟩
  · rintro ⟨pa, bs, hw, hs⟩
    exact ⟨_, List.mem_map.mpr ⟨_, hw, rfl⟩, List.mem_map.mpr ⟨_, hs, rfl⟩⟩

section
variable (mem : Memory) (source : Nat) (writer : Nat → Writer) (arrival : Nat → Nat) (ws : List (Nat × Nat × List Byte))

/-- The WCT of a word, which is one for all the lanes that write it. -/
def Memory.laneWct (w : Nat) : Nat :=
  (((laneParts ws).filter fun (_, w', _) => w' == w).map fun (i, _, _) =>
    mem.wctFor w (writer i) source false (arrival i)).foldl max 0

/-- When a word is received. -/
def Memory.laneReceived (w : Nat) : Nat :=
  (((laneParts ws).filter fun (_, w', _) => w' == w).map fun (i, _, _) =>
    mem.receivedAt w (writer i) source false (arrival i)).foldl max 0

theorem Memory.laneWct_later {after i w : Nat} {part : List (Nat × Byte)} (ha : ∀ i, after ≤ arrival i)
    (h : (i, w, part) ∈ laneParts ws) : after < mem.laneWct source writer arrival ws w := by
  refine ((ha i).trans_lt (mem.wctFor_later w (writer i) source false (arrival i))).trans_le (le_foldl_max (.inl ?_))
  exact List.mem_map.mpr ⟨_, List.mem_filter.mpr ⟨h, beq_self_eq_true w⟩, rfl⟩

theorem Memory.foldl_updates {α : Type} (f : Memory → α → Memory) (hf : ∀ m a, (f m a).updates = m.updates)
    (xs : List α) (mem : Memory) : (xs.foldl f mem).updates = mem.updates :=
  foldl_rel (fun m n : Memory => n.updates = m.updates) (fun _ => rfl) (fun h k => k.trans h) id f hf xs mem

/-- What the stores add to the updates, and what they answer. -/
theorem Memory.receiveLanes_parts : ∃ m : Memory,
    (mem.receiveLanes source writer arrival ws).1.updates = mem.updates ++ (laneParts ws).map (fun (i, w, b) =>
      { word := w, bytes := b, wct := m.laneWct source writer arrival ws w, writer := writer i, source := source,
        atomic := false, arrival := m.laneReceived source writer arrival ws w : Update }) ∧
    (mem.receiveLanes source writer arrival ws).2 = ws.map fun (i, pa, bs) =>
      (i, ((splitWords pa bs).map fun (w, _) => m.laneWct source writer arrival ws w).foldl max 0) := by
  refine ⟨ws.foldl (fun mem (_, pa, bs) => mem.reclaim pa bs.length) mem, ?_, ?_⟩
  · exact (Memory.foldl_updates _ (fun _ _ => Memory.rewrites_updates ..) _ _).trans
      (congrArg (· ++ _) (Memory.foldl_updates _ (by intro _ _; rfl) ws mem))
  · simp only [Memory.receiveLanes, List.map_map]
    rfl

variable {after : Nat} (ha : ∀ i, after ≤ arrival i)

include ha in
/-- Each lane's bytes are received, and it is answered a time by which they are visible. -/
theorem Memory.receiveLanes_received {i pa : Nat} {bs : List Byte} (h : (i, pa, bs) ∈ ws) :
    ∃ t, (i, t) ∈ (mem.receiveLanes source writer arrival ws).2 ∧
      (mem.receiveLanes source writer arrival ws).1.received pa bs after t := by
  obtain ⟨m, hu, ht⟩ := mem.receiveLanes_parts source writer arrival ws
  refine ⟨_, by rw [ht]; exact List.mem_map.mpr ⟨_, h, rfl⟩, fun k v hk => ?_⟩
  obtain ⟨part, hp, hv⟩ := splitWords_covers (pa := pa) hk
  have mine := mem_laneParts.mpr ⟨pa, bs, h, hp⟩
  refine ⟨_, by rw [hu]; exact List.mem_append_right _ (List.mem_map.mpr ⟨_, mine, rfl⟩), rfl, hv,
    m.laneWct_later source writer arrival ws ha mine, le_foldl_max (.inl (List.mem_map.mpr ⟨_, hp, rfl⟩))⟩

theorem Memory.receiveLanes_newWithin : mem.NewWithin (mem.receiveLanes source writer arrival ws).1 fun w =>
    ∃ i pa bs, (i, pa, bs) ∈ ws ∧ pa < w + 4 ∧ w < pa + bs.length := by
  obtain ⟨m, hu, -⟩ := mem.receiveLanes_parts source writer arrival ws
  intro u h
  rw [hu] at h
  rcases List.mem_append.mp h with h | h
  · exact .inl h
  · obtain ⟨⟨i, w, part⟩, hp, rfl⟩ := List.mem_map.mp h
    obtain ⟨pa, bs, hw, hs⟩ := mem_laneParts.mp hp
    exact .inr ⟨i, pa, bs, hw, splitWords_within hs⟩

end

/-! ## Stores of global memory (R196, R199, R280, R282) -/

/-- What goes before a store: no update comes, no time passes, and the group stays. -/
structure State.Readies (u : Nat) (s t : State) : Prop where
  updates : t.mem.updates = s.mem.updates
  tick : t.clock.tick = s.clock.tick
  group : (∃ g, s.group? u = some g) → ∃ g, t.group? u = some g

theorem State.Readies.refl (u : Nat) (s : State) : s.Readies u s := ⟨rfl, rfl, id⟩

theorem State.Readies.trans {u : Nat} {s t v : State} (h : s.Readies u t) (k : t.Readies u v) : s.Readies u v :=
  ⟨k.updates.trans h.updates, k.tick.trans h.tick, k.group ∘ h.group⟩

theorem State.Readies.foldl {α : Type} {u : Nat} (f : State → α → State) (hf : ∀ (s : State) a, s.Readies u (f s a))
    (xs : List α) (s : State) : s.Readies u (xs.foldl f s) :=
  foldl_rel (State.Readies u) (.refl u) .trans id f hf xs s

theorem State.Readies.foldl_snd {α γ : Type} {u : Nat} (f : γ × State → α → γ × State)
    (hf : ∀ (b : γ × State) a, b.2.Readies u (f b a).2) (xs : List α) (b : γ × State) :
    b.2.Readies u (xs.foldl f b).2 :=
  foldl_rel (State.Readies u) (.refl u) .trans Prod.snd f hf xs b

theorem State.Performs.group? {s t : State} (h : s.Performs t) (u : Nat) : t.group? u = s.group? u := by
  rw [State.Performs] at h
  rw [h]
  rfl

theorem State.performEarlier_readies (s : State) (u group : Nat) (who : Option Nat → Bool) (pa n : Nat) :
    s.Readies u (s.performEarlier group who pa n).2 :=
  ⟨(s.performEarlier_calm ..).updates, (s.performEarlier_calm ..).tick,
    fun h => by rwa [(s.performEarlier_performs ..).group?]⟩

theorem State.reachHome_readies (s : State) (u : Nat) (p : Place) (write : Bool) (n : Nat) :
    s.Readies u (s.reachHome p write n) :=
  ⟨(s.reachHome_still p write n).2.1, (s.reachHome_still p write n).2.2.2.2.2,
    fun h => by rwa [(s.reachHome_performs p write n).group?]⟩

theorem State.cacheXlat_readies (s : State) (u core root va : Nat) : s.Readies u (s.cacheXlat core root va) :=
  ⟨(s.cacheXlat_still core root va).2.1, (s.cacheXlat_still core root va).2.2.2.2.2,
    fun h => by rwa [(s.cacheXlat_performs core root va).group?]⟩

theorem State.settleMeetings_readies (s : State) (x : Site) (ms : List (Nat × Nat × Met)) :
    s.Readies x.g.uid (s.settleMeetings x ms) :=
  ⟨(s.settleMeetings_still x ms).2.1, (s.settleMeetings_still x ms).2.2.2.2.2, State.settleMeetings_group? ms⟩

/-- Every byte of a store stands in an update later than `after`, which the lane's LWCT covers. -/
def State.received (t : State) (u after i pa : Nat) (bs : List Byte) : Prop :=
  ∀ (k : Nat) (v : Byte), bs[k]? = some v → ∃ w ∈ t.mem.updates,
    w.word = (pa + k) / 4 * 4 ∧ ((pa + k) % 4, v) ∈ w.bytes ∧ after < w.wct ∧
    ∃ g, t.group? u = some g ∧ ∀ l, g.lanes[i]? = some l → w.wct ≤ l.lwct

/-- Received bytes whose time the lane's LWCT covers. -/
theorem Memory.received_covered {t : State} {u after i pa wct : Nat} {bs : List Byte}
    (h : t.mem.received pa bs after wct) {g : Group} (hg : t.group? u = some g)
    (hl : ∀ l, g.lanes[i]? = some l → wct ≤ l.lwct) : t.received u after i pa bs := fun k v hk =>
  let ⟨w, hw, hword, hb, hlt, hle⟩ := h k v hk
  ⟨w, hw, hword, hb, hlt, g, hg, fun l h => hle.trans (hl l h)⟩

/-- The books of an issue keep what is received, and the lanes' LWCTs. -/
theorem State.completed_received {s : State} {x : Site} (m : Bool) (kind : IssueKind) {e : State → State}
    {after i pa : Nat} {bs : List Byte} (h : (e (s.advance x x.mask)).received x.g.uid after i pa bs) :
    (s.completed x m kind e).received x.g.uid after i pa bs := by
  intro k v hk
  obtain ⟨w, hw, hword, hb, hlt, g, hg, hl⟩ := h k v hk
  refine ⟨w, hw, hword, hb, hlt, _, State.completed_group? m kind hg, fun l hi => ?_⟩
  obtain ⟨a, r, hbook⟩ := Group.book_lane x.g x.pc x.mask m kind (overDistance s.fw.spdistCap x kind) s.clock.stamp g i
  rw [hbook, Option.map_eq_some_iff] at hi
  obtain ⟨l0, hl0, rfl⟩ := hi
  have := hl l0 hl0
  split <;> exact this

/-- The lanes of a group as their stores' WCTs raise their LWCTs. -/
def Group.raised (g : Group) (ts : List (Nat × Nat)) : Group :=
  ts.foldl (fun g (i, t) => { g with lanes := setAt (fun l => l.raiseLwct t) i g.lanes }) g

theorem Group.raised_uid (g : Group) (ts : List (Nat × Nat)) : (g.raised ts).uid = g.uid :=
  foldl_rel (fun g h : Group => h.uid = g.uid) (fun _ => rfl) (fun h k => k.trans h) id _ (by intro _ _; rfl) ts g

theorem Group.raised_lwct (g : Group) {ts : List (Nat × Nat)} {i t : Nat} (h : (i, t) ∈ ts) :
    ∀ l, (g.raised ts).lanes[i]? = some l → t ≤ l.lwct := by
  refine foldl_establishes (I := fun _ => True) (Q := fun g : Group => ∀ l, g.lanes[i]? = some l → t ≤ l.lwct) _ h
    (fun _ _ _ _ => trivial) (fun g b _ _ hq l hl => ?_) (fun g _ l hl => ?_) g trivial
  · obtain ⟨j, t'⟩ := b
    by_cases hj : i = j
    · subst hj
      rw [setAt_getElem?_same, Option.map_eq_some_iff] at hl
      obtain ⟨l0, hl0, rfl⟩ := hl
      exact (hq l0 hl0).trans (Nat.le_max_left ..)
    · rw [setAt_getElem?_other _ _ _ _ hj] at hl
      exact hq l hl
  · rw [setAt_getElem?_same, Option.map_eq_some_iff] at hl
    obtain ⟨l0, -, rfl⟩ := hl
    exact Nat.le_max_right ..

theorem State.raiseLwcts_received {s : State} {u after i pa wct : Nat} {bs : List Byte} {ts : List (Nat × Nat)}
    (hg : ∃ g, s.group? u = some g) (h : s.mem.received pa bs after wct) (ht : (i, wct) ∈ ts) :
    (s.raiseLwcts u ts).received u after i pa bs := by
  obtain ⟨g, hg⟩ := hg
  have hnow := State.modGroup_group?_same (f := fun g => g.raised ts) hg
    ((g.raised_uid ts).trans (State.group?_uid hg))
  exact Memory.received_covered (t := s.raiseLwcts u ts) h hnow (g.raised_lwct ht)

section
variable (s : State) (x : Site) (who : Nat → Option Nat → Bool) (ws : List (Nat × Nat × List Byte))

/-- The lanes' earlier loads of the bytes of their stores are performed, and the greatest time that one needs. -/
def State.performLanes : Nat × State :=
  ws.foldl (fun (top, s) (i, pa, bs) =>
    let (t, s) := s.performEarlier x.g.uid (who i) pa bs.length
    (max top t, s)) (0, s)

theorem State.performLanes_readies : s.Readies x.g.uid (s.performLanes x who ws).2 :=
  State.Readies.foldl_snd _ (by intro b a; exact b.2.performEarlier_readies ..) ws (0, s)

/-- What memory receives of the lanes' stores. -/
def State.laneReceipts : Memory × List (Nat × Nat) :=
  let (top, s1) := s.performLanes x who ws
  s1.mem.receiveLanes x.g.uid (s.writer x.g) (fun i => max top (s1.arrivals.1 i)) ws

theorem State.storeLanes_eq : s.storeLanes x who ws =
    ({ (s.performLanes x who ws).2.arrivals.2 with mem := (s.laneReceipts x who ws).1 } : State).raiseLwcts x.g.uid
      (s.laneReceipts x who ws).2 := rfl

variable {s x who ws}

/-- Each lane's store is received. -/
theorem State.storeLanes_received (hg : ∃ g, s.group? x.g.uid = some g) {i pa : Nat} {bs : List Byte}
    (h : (i, pa, bs) ∈ ws) : (s.storeLanes x who ws).received x.g.uid s.gtime i pa bs := by
  have ready := s.performLanes_readies x who ws
  have late (top k : Nat) : s.gtime ≤ max top ((s.performLanes x who ws).2.arrivals.1 k) :=
    le_max_of_le_right (show s.clock.tick / 2 ≤ (s.performLanes x who ws).2.clock.tick / 2 + _ by
      rw [ready.tick]
      exact Nat.le_add_right ..)
  obtain ⟨t, ht, hr⟩ := Memory.receiveLanes_received (s.performLanes x who ws).2.mem x.g.uid (s.writer x.g) _ ws
    (late (s.performLanes x who ws).1) h
  rw [State.storeLanes_eq]
  exact State.raiseLwcts_received (ready.group hg) hr ht

theorem State.storeLanes_newWithin : s.mem.NewWithin (s.storeLanes x who ws).mem fun w =>
    ∃ i pa bs, (i, pa, bs) ∈ ws ∧ pa < w + 4 ∧ w < pa + bs.length := by
  intro u hu
  rw [← (s.performLanes_readies x who ws).updates]
  exact Memory.receiveLanes_newWithin (s.performLanes x who ws).2.mem x.g.uid (s.writer x.g)
    (fun i => max (s.performLanes x who ws).1 ((s.performLanes x who ws).2.arrivals.1 i)) ws u hu

end

/-- The bytes of a store are no more than its access has (R93). -/
theorem storeBytes_length_le (acc : Nat) (ws : List Word) : (storeBytes acc ws).length ≤ accBytes acc :=
  List.length_take_le ..

/-- What STG's lanes store at the places of this part. -/
def stgWrites (x : Site) (acc d : Nat) (ps : List (Nat × Nat × Place)) : List (Nat × Nat × List Byte) :=
  (ps.filter fun (_, _, p) => p.home).map fun (i, _, p) =>
    (i, p.pa, ((x.g.lane? i).map fun l => storeBytes acc (l.words d (accCount acc))).getD [])

/-- STG's effect where every place is on this part: the stores reach the slices and are received. -/
def stgEffect (x : Site) (acc d : Nat) (ms : List (Nat × Nat × Met)) (s : State) : State :=
  ((placesOf ms).foldl (fun s (_, _, p) => s.reachHome p true (accBytes acc)) (s.settleMeetings x ms)).storeLanes x
    (fun i lane => lane.all (· == i)) (stgWrites x acc d (placesOf ms))

section
variable {s : State} {x : Site} {acc d : Nat} {ms : List (Nat × Nat × Met)}

theorem mem_stgWrites {ps : List (Nat × Nat × Place)} {i pa : Nat} {bs : List Byte}
    (h : (i, pa, bs) ∈ stgWrites x acc d ps) :
    ∃ va p, (i, va, p) ∈ ps ∧ pa = p.pa ∧ bs.length ≤ accBytes acc := by
  obtain ⟨⟨j, va, p⟩, hp, he⟩ := List.mem_map.mp h
  cases he
  refine ⟨va, p, (List.mem_filter.mp hp).1, rfl, ?_⟩
  cases x.g.lane? i with
  | none => exact Nat.zero_le _
  | some l => exact storeBytes_length_le ..

theorem stgEffect_readies (s : State) (x : Site) (acc : Nat) (ms : List (Nat × Nat × Met)) :
    s.Readies x.g.uid
      ((placesOf ms).foldl (fun s (_, _, p) => s.reachHome p true (accBytes acc)) (s.settleMeetings x ms)) :=
  (s.settleMeetings_readies x ms).trans (.foldl _ (by intro s a; exact s.reachHome_readies ..) _ _)

theorem stgEffect_received (hg : ∃ g, s.group? x.g.uid = some g) {i va : Nat} {p : Place} {l : Lane}
    (hm : (i, va, .place p) ∈ ms) (hl : x.g.lanes[i]? = some l) (hp : p.home = true) :
    (stgEffect x acc d ms s).received x.g.uid s.gtime i p.pa (storeBytes acc (l.words d (accCount acc))) := by
  have ready := stgEffect_readies s x acc ms
  have hw : (i, p.pa, storeBytes acc (l.words d (accCount acc))) ∈ stgWrites x acc d (placesOf ms) := by
    refine List.mem_map.mpr ⟨(i, va, p), List.mem_filter.mpr ⟨mem_placesOf.mpr hm, hp⟩, ?_⟩
    have hi : x.g.lane? i = some l := hl
    dsimp only
    rw [hi]
    rfl
  have h := State.storeLanes_received (who := fun i lane => lane.all (· == i)) (ready.group hg) hw
  rwa [State.gtime, ready.tick] at h

theorem stgEffect_newWithin : s.mem.NewWithin (stgEffect x acc d ms s).mem fun w =>
    ∃ i va p, (i, va, .place p) ∈ ms ∧ p.pa < w + 4 ∧ w < p.pa + accBytes acc := by
  intro u hu
  rw [← (stgEffect_readies s x acc ms).updates]
  refine (State.storeLanes_newWithin u hu).imp_right ?_
  rintro ⟨i, pa, bs, hw, hlow, hhigh⟩
  obtain ⟨va, p, hp, rfl, hlen⟩ := mem_stgWrites hw
  exact ⟨i, va, p, mem_placesOf.mp hp, hlow, hhigh.trans_le (Nat.add_le_add_left hlen _)⟩

end

/-- STG, where every active lane's bytes are on this part and the group is not speculative. -/
theorem stg_issue {s : State} {x : Site} (m : Bool) (acc : BitVec 5) (d a b : BitVec 7) (h : Issuing s x .plain)
    (hc : OperandsPass x ((globalOperands a.toNat b.toNat).add { vs := regsFrom d.toNat (accCount acc.toNat) })
      fun l => globalTags l a.toNat b.toNat && storeTags l acc.toNat d.toNat)
    (hu : s.undecided x.g = false) (hs : x.g.speculative = false)
    (hp : ActiveLanes x fun i l => ∃ p,
      s.meetLane x.g i (globalAddr x.g l a.toNat b.toNat) (accBytes acc.toNat) .store = .place p ∧ p.home = true) :
    exec (.stg m acc d a b) s = .next (s.completed x m .plain (stgEffect x acc.toNat d.toNat
      (s.meetings x x.mask (fun l => globalAddr x.g l a.toNat b.toNat) (accBytes acc.toNat) .store))) := by
  have noFault : ActiveLanes x fun i l =>
      s.laneFault (fun g l => globalAddr g l a.toNat b.toNat) (accBytes acc.toNat) .store x i l = none := by
    intro i l hl hm
    obtain ⟨p, hp, -⟩ := hp i l hl hm
    rw [State.laneFault, hp]
    rfl
  have home : (placesOf (s.meetings x x.mask (fun l => globalAddr x.g l a.toNat b.toNat) (accBytes acc.toNat)
      .store)).filter (fun (_, _, p) => !p.home) = [] := by
    rw [List.filter_eq_nil_iff]
    rintro ⟨i, va, p⟩ hmem
    obtain ⟨l, hl, hm, -, hmet⟩ := State.mem_meetings.mp (mem_placesOf.mp hmem)
    obtain ⟨q, hq, hhome⟩ := hp i l hl hm
    cases hmet.trans hq
    simp [hhome]
  have hi : exec (.stg m acc d a b) s = .next _ :=
    Op.issue_completed _ s x h hc noFault rfl (by dsimp only; rw [hu, hs]; rfl)
  simp only [hs, home, Bool.false_eq_true, if_false, List.foldl_nil] at hi
  exact hi

/-- STU's receipt at a place: what memory receives, and the WCT. -/
def stuReceipt (s0 : State) (x : Site) (acc va : Nat) (p : Place) (bs : List Byte) (s : State) : State × Nat :=
  let (top, s2) := ((s.cacheXlat (s0.coreOf x.g.team) (s0.rootOf x.g.grid) va).reachHome p true
    (accBytes acc)).performEarlier x.g.uid (fun lane => lane.all x.mask.getLsbD) p.pa (accBytes acc)
  let (arr, s3) := s2.arrival
  let (mem, t) := s3.mem.receive p.pa bs (s0.writerOf x.g (lowestLane x.mask) x.mask) x.g.uid false (max top arr)
  ({ s3 with mem := mem }, t)

/-- STU's effect at a place of this part: its one store is received, and its WCT raises every active lane's LWCT. -/
def stuEffect (s0 : State) (x : Site) (acc va : Nat) (p : Place) (bs : List Byte) (s : State) : State :=
  (stuReceipt s0 x acc va p bs s).1.modGroup x.g.uid fun g =>
    g.onLanes x.mask fun _ l => l.raiseLwct (stuReceipt s0 x acc va p bs s).2

section
variable {s0 s : State} {x : Site} {acc va : Nat} {p : Place} {bs : List Byte}

theorem stuReceipt_readies (s0 s : State) (x : Site) (acc va : Nat) (p : Place) :
    s.Readies x.g.uid (((s.cacheXlat (s0.coreOf x.g.team) (s0.rootOf x.g.grid) va).reachHome p true
      (accBytes acc)).performEarlier x.g.uid (fun lane => lane.all x.mask.getLsbD) p.pa (accBytes acc)).2 :=
  ((s.cacheXlat_readies ..).trans (State.reachHome_readies ..)).trans (State.performEarlier_readies ..)

theorem stuEffect_received (hg : ∃ g, s.group? x.g.uid = some g) {i : Nat} (hm : x.mask.getLsbD i = true) :
    (stuEffect s0 x acc va p bs s).received x.g.uid s.gtime i p.pa bs := by
  have ready := stuReceipt_readies s0 s x acc va p
  obtain ⟨g, hg⟩ := ready.group hg
  have hid : g.uid = x.g.uid := State.group?_uid hg
  have hnow := State.modGroup_group?_same (f := fun g =>
    g.onLanes x.mask fun _ l => l.raiseLwct (stuReceipt s0 x acc va p bs s).2) hg hid
  refine Memory.received_covered (wct := (stuReceipt s0 x acc va p bs s).2) ?_ hnow fun l hl => ?_
  · refine Memory.receive_received _ _ _ _ _ _ _ (le_max_of_le_right ?_)
    rw [State.gtime, ← ready.tick]
    exact Nat.le_add_right ..
  · rw [Group.onLanes_lane, Option.map_eq_some_iff] at hl
    obtain ⟨l0, -, rfl⟩ := hl
    rw [if_pos hm]
    exact Nat.le_max_right ..

theorem stuEffect_newWithin : s.mem.NewWithin (stuEffect s0 x acc va p bs s).mem fun w =>
    p.pa < w + 4 ∧ w < p.pa + bs.length := by
  intro u hu
  rw [← (stuReceipt_readies s0 s x acc va p).updates]
  exact Memory.receive_newWithin _ _ _ _ _ _ _ u hu

end

/-- STU, where the group's bytes are on this part and it is not speculative. -/
theorem stu_issue {s : State} {x : Site} (m : Bool) (acc : BitVec 5) (d a b : BitVec 7) (h : Issuing s x .plain)
    (hc : OperandsPass x { us := [a.toNat, b.toNat, b.toNat + 1] ++ regsFrom d.toNat (accCount acc.toNat) }
      fun _ => true)
    (hu : s.undecided x.g = false) (hs : x.g.speculative = false) {p : Place}
    (hf : s.uniformFault x (uniformAddr x.g a.toNat b.toNat) (accBytes acc.toNat) .store = none)
    (hp : s.meet x.g.grid (s.coreOf x.g.team) (uniformAddr x.g a.toNat b.toNat) (accBytes acc.toNat) .store = .place p)
    (hhome : p.home = true) :
    exec (.stu m acc d a b) s = .next (s.completed x m .plain (stuEffect s x acc.toNat
      (uniformAddr x.g a.toNat b.toNat) p
      (storeBytes acc.toNat ((regsFrom d.toNat (accCount acc.toNat)).map x.g.u)))) := by
  have hi : exec (.stu m acc d a b) s = .next _ :=
    Op.issue_completed _ s x h hc (fun _ _ _ _ => hf) rfl (by dsimp only; rw [hu, hs]; rfl)
  simp only [hs, hp, hhome, Bool.not_true, Bool.false_eq_true, if_false] at hi
  exact hi
/-! ## Stores to a bank (R197, R199, R290, R298) -/

section
variable (s : State) (x : Site) (lane : Option Nat) (lanes : BitVec 32) (own : Bool) (address : Nat) (regs : List Nat)
  (what : Awaited)

/-- An access that goes to a bank takes the next number. -/
theorem State.reachBank_numbered :
    (s.reachBank x lane lanes own address regs what).clock.uid = s.clock.uid + 1 ∧
      ∃ p ∈ (s.reachBank x lane lanes own address regs what).pend, p.id = s.clock.uid ∧ p.group = x.g.uid ∧
        p.lane = lane ∧ p.what = what ∧ (own = true → p.due = s.clock.tick) := by
  cases own with
  | true =>
    exact ⟨rfl, _, List.mem_append_right _ (List.mem_singleton.mpr rfl), rfl, rfl, rfl, rfl, fun _ => rfl⟩
  | false =>
    exact ⟨rfl, _, List.mem_append_right _ (List.mem_singleton.mpr rfl), rfl, rfl, rfl, rfl, fun h => nomatch h⟩

end

section
variable (s0 : State) (x : Site) (addr : Lane → Nat) (n : Nat) (regs : Lane → List Nat)
    (what : Team → Nat → Lane → Awaited)

/-- What one lane number of a mask sends to a bank. -/
def bankStep (s : State) (i : Nat) : State :=
  match x.g.lane? i with
  | none => s
  | some l => bankAccess s0 x addr n regs what i l s

theorem forLanes_bankStep (s : State) :
    s.forLanes x.g x.mask (bankAccess s0 x addr n regs what) =
      (laneList x.mask).foldl (bankStep s0 x addr n regs what) s := rfl

theorem bankStep_banked (s : State) (i : Nat) : s.Banked x.g.uid (bankStep s0 x addr n regs what s i) := by
  unfold bankStep
  split
  · exact .refl ..
  · exact bankAccess_banked ..

variable {s0 x addr n}

theorem bankStep_numbered (s : State) {i : Nat} {l : Lane} {tm u : Team} {off : Nat} (hl : x.g.lanes[i]? = some l)
    (ht : s0.team? x.g.team = some tm) (hp : s0.scratchPlace x.img tm (addr l) n = some (u, off)) :
    (bankStep s0 x addr n regs what s i).clock.uid = s.clock.uid + 1 ∧
      ∃ p ∈ (bankStep s0 x addr n regs what s i).pend, p.id = s.clock.uid ∧ p.group = x.g.uid ∧
        p.lane = some i ∧ p.what = what u off l ∧ (u.uid = tm.uid → p.due = s.clock.tick) := by
  have hi : x.g.lane? i = some l := hl
  have h := s.reachBank_numbered x (some i) (BitVec.ofNat 32 (2 ^ i)) (u.uid == tm.uid) (addr l) (regs l) (what u off l)
  simp only [bankStep, bankAccess, hi, ht, hp]
  simpa only [beq_iff_eq] using h

/-- Lanes that all send to a bank take as many numbers. -/
theorem bankSteps_uid {tm : Team} (ht : s0.team? x.g.team = some tm) (is : List Nat)
    (h : ∀ i ∈ is, ∃ l, x.g.lanes[i]? = some l ∧ ∃ u off, s0.scratchPlace x.img tm (addr l) n = some (u, off))
    (s : State) : (is.foldl (bankStep s0 x addr n regs what) s).clock.uid = s.clock.uid + is.length := by
  induction is generalizing s with
  | nil => rfl
  | cons i is ih =>
    obtain ⟨l, hl, u, off, hp⟩ := h i (List.mem_cons_self ..)
    rw [List.foldl_cons, ih (fun j hj => h j (List.mem_cons_of_mem _ hj)),
      (bankStep_numbered regs what s hl ht hp).1, List.length_cons]
    omega

end

/-- The number that a lane's access to a bank takes: one for every lower lane of the mask comes before it. -/
def bankNumber (s : State) (mask : BitVec 32) (i : Nat) : Nat := s.clock.uid + (laneList mask).countP (· < i)

theorem mem_laneList_lt {mask : BitVec 32} {i : Nat} (h : i ∈ laneList mask) : i < 32 ∧ mask.getLsbD i = true := by
  rw [laneList, List.mem_filter, List.mem_range] at h
  exact h

/-- The lanes of a mask before one of them, and those after it. -/
theorem laneList_split {mask : BitVec 32} {i : Nat} (hm : mask.getLsbD i = true) : ∃ before later,
    laneList mask = before ++ i :: later ∧ (∀ j ∈ before, j < i) ∧ ∀ j ∈ later, i < j := by
  obtain ⟨before, later, he⟩ := List.append_of_mem (mem_laneList mask i hm)
  have sorted : (laneList mask).Pairwise (· < ·) := List.pairwise_lt_range.filter _
  rw [he, List.pairwise_append, List.pairwise_cons] at sorted
  obtain ⟨-, ⟨hlater, -⟩, hbefore⟩ := sorted
  exact ⟨before, later, he, fun j hj => hbefore j hj i (List.mem_cons_self ..), hlater⟩

theorem bankNumber_of_split {s : State} {mask : BitVec 32} {i : Nat} {before later : List Nat}
    (he : laneList mask = before ++ i :: later) (hb : ∀ j ∈ before, j < i) (hl : ∀ j ∈ later, i < j) :
    bankNumber s mask i = s.clock.uid + before.length := by
  have all : before.countP (· < i) = before.length := List.countP_eq_length.mpr fun j hj => decide_eq_true (hb j hj)
  have none : (i :: later).countP (· < i) = 0 := List.countP_eq_zero.mpr fun j hj => by
    rw [decide_eq_true_eq]
    rcases List.mem_cons.mp hj with rfl | hj
    · exact Nat.lt_irrefl _
    · exact Nat.lt_asymm (hl j hj)
  rw [bankNumber, he, List.countP_append, all, none, Nat.add_zero]

theorem bankNumber_lt (s : State) {mask : BitVec 32} {i j : Nat} (hij : i < j) (hi : mask.getLsbD i = true) :
    bankNumber s mask i < bankNumber s mask j := by
  obtain ⟨before, later, he, hb, hl⟩ := laneList_split hi
  rw [bankNumber_of_split he hb hl, bankNumber, he, List.countP_append, List.countP_cons_of_pos (by simpa using hij),
    List.countP_eq_length.mpr fun k hk => decide_eq_true ((hb k hk).trans hij)]
  omega

theorem State.scratchFault_none {s : State} {x : Site} {address n : Nat} {store : Bool}
    (h : s.scratchFault x address n store = none) :
    ∃ tm u off, s.team? x.g.team = some tm ∧ s.scratchPlace x.img tm address n = some (u, off) := by
  unfold State.scratchFault at h
  split at h
  · cases h
  next tm ht =>
    split at h
    · cases h
    · split at h
      · cases h
      next u off hp => exact ⟨tm, u, off, ht, hp⟩

section
variable {s0 s : State} {x : Site} {addr : Lane → Nat} {n : Nat} {regs : Lane → List Nat}
    {what : Team → Nat → Lane → Awaited}

/-- Every active lane's access is on its way to its bank under its number. -/
theorem forLanes_numbered (hall : ActiveLanes x fun _ l => ∃ tm u off, s0.team? x.g.team = some tm ∧
      s0.scratchPlace x.img tm (addr l) n = some (u, off))
    {i : Nat} {l : Lane} {tm u : Team} {off : Nat} (hl : x.g.lanes[i]? = some l) (hm : x.mask.getLsbD i = true)
    (ht : s0.team? x.g.team = some tm) (hp : s0.scratchPlace x.img tm (addr l) n = some (u, off)) :
    ∃ p ∈ (s.forLanes x.g x.mask (bankAccess s0 x addr n regs what)).pend, p.id = bankNumber s x.mask i ∧
      p.group = x.g.uid ∧ p.lane = some i ∧ p.what = what u off l ∧ (u.uid = tm.uid → p.due = s.clock.tick) := by
  obtain ⟨before, later, he, hb, hafter⟩ := laneList_split hm
  have huid : (before.foldl (bankStep s0 x addr n regs what) s).clock.uid = s.clock.uid + before.length := by
    refine bankSteps_uid regs what ht before (fun j hj => ?_) s
    obtain ⟨-, hmj⟩ := mem_laneList_lt (by rw [he]; exact List.mem_append_left _ hj : j ∈ laneList x.mask)
    obtain ⟨hi, -⟩ := List.getElem?_eq_some_iff.mp hl
    have hlj := List.getElem?_eq_getElem ((hb j hj).trans hi)
    obtain ⟨tm', u', off', ht', hp'⟩ := hall j _ hlj hmj
    obtain rfl := Option.some.inj (ht.symm.trans ht')
    exact ⟨_, hlj, u', off', hp'⟩
  have htick := (State.Banked.foldl _ (bankStep_banked s0 x addr n regs what) before s).tick
  obtain ⟨-, p, hpend, hid, hg, hlane, hwhat, hdue⟩ := bankStep_numbered regs what
    (before.foldl (bankStep s0 x addr n regs what) s) hl ht hp
  rw [forLanes_bankStep, he, List.foldl_append, List.foldl_cons]
  refine ⟨p, (State.Banked.foldl _ (bankStep_banked s0 x addr n regs what) later _).marks.grows p hpend, ?_, hg, hlane,
    hwhat, fun h => (hdue h).trans htick⟩
  rw [hid, huid, bankNumber_of_split he hb hafter]

end

/-- STP, where no active lane faults. -/
theorem stp_issue {s : State} {x : Site} (m : Bool) (acc : BitVec 5) (d a b : BitVec 7) (h : Issuing s x .plain)
    (hc : OperandsPass x ((scratchOperands a.toNat b.toNat).add { vs := regsFrom d.toNat (accCount acc.toNat) })
      fun l => scratchTags l a.toNat && storeTags l acc.toNat d.toNat)
    (hf : ActiveLanes x fun _ l =>
      s.scratchFault x (scratchAddr x.g l a.toNat b.toNat) (accBytes acc.toNat) true = none) :
    exec (.stp m acc d a b) s = .next (s.completed x m .plain fun s' => s'.forLanes x.g x.mask
      (bankAccess s x (fun l => scratchAddr x.g l a.toNat b.toNat) (accBytes acc.toNat) (fun _ => [])
        (fun u off l => .bankStore u.uid off s.clock.stamp
          (storeBytes acc.toNat (l.words d.toNat (accCount acc.toNat)))))) :=
  Op.issue_completed _ s x h hc hf rfl rfl

/-- A byte of a table that was written reads as written. -/
theorem cget_cputs_at {bs : List Byte} {k : Nat} {v : Byte} {t : List Host.Cell} {a : Nat} (h : cwf t = true)
    (hk : bs[k]? = some v) : cget (cputs t a bs) (a + k) = v := by
  induction bs generalizing t a k with
  | nil => cases hk
  | cons b bs ih =>
    cases k with
    | zero =>
      cases hk
      show cget (cputs (cput t a v) (a + 1) bs) a = v
      rw [cget_cputs_other bs _ _ _ (cwf_cput t a _ h) (.inl (Nat.lt_succ_self a)),
        cget_cput_same t a _ none h]
    | succ k =>
      rw [← Nat.add_assoc, Nat.add_right_comm]
      exact ih (cwf_cput t a b h) hk

/-- A bank that accepts an undamaged store writes it. -/
theorem State.accept_store {s : State} {p : Pend} {tm : Team} {off issue : Nat} {bs : List Byte}
    (hp : p.what = .bankStore tm.uid off issue bs) (ht : s.team? tm.uid = some tm)
    (hd : scratchMerged tm off bs.length = none) :
    (s.accept p).mem = s.mem ∧ (s.accept p).team? tm.uid = some (tm.write off bs) := by
  have whole : s.bankDamage p.what = none := by
    rw [hp, State.bankDamage, ht, Option.bind_some, hd]
    rfl
  have hw : s.accept p = { s.modTeam tm.uid fun t => t.write off bs with pend := s.pend.filter (·.id != p.id) } := by
    rw [State.accept, whole]
    dsimp only
    rw [State.performBank, hp]
  rw [hw]
  exact ⟨rfl, State.modTeam_team?_same ht rfl⟩

/-- While an access that is accepted before it is on its way, an access is not. -/
theorem State.acceptable_false {s : State} {p q : Pend} (hq : q ∈ s.pend) (h : q.precedes p = true) :
    s.acceptable p = false := by
  rw [State.acceptable, List.any_eq_true.mpr ⟨q, hq, h⟩]
  rfl

end Sys2Proof.Machine

namespace Sys2Proof
open Machine

/-- Settles O19: what STG and STU receive stands in updates that the lanes' LWCTs cover, the lanes' stores to banks take
rising numbers, and a bank writes the bytes that it accepts. -/
theorem storesAreReceivedOrAccepted : Obligations.StoresAreReceivedOrAccepted := by
  unfold Obligations.StoresAreReceivedOrAccepted
  refine ⟨?_, ?_, ?_, ?_⟩
  · intro s x m acc d a b h n count received hu hs
    obtain ⟨g0, hg0, -, -⟩ := State.site?_group h.site
    rw [← State.site?_uid h.site] at hg0
    have hadv : ∃ g, (s.advance x x.mask).group? x.g.uid = some g := ⟨_, State.advance_group? hg0 x.mask⟩
    constructor
    · intro hc meets hp
      have hi := stg_issue m acc d a b h hc hu hs hp
      obtain ⟨t, ht, sends⟩ : Answers s.Sends (exec (.stg m acc d a b) s) := stg_sends ..
      rw [hi] at ht
      cases ht
      refine ⟨_, hi, sends.cells, fun i l hl hm p hmet => ?_, fun u hnew => ?_⟩
      · obtain ⟨q, hq, hhome⟩ := hp i l hl hm
        obtain rfl : q = p := by
          cases hq.symm.trans hmet
          rfl
        exact State.completed_received m .plain (stgEffect_received hadv
          (State.mem_meetings.mpr ⟨l, hl, hm, rfl, hmet.symm⟩) hl hhome)
      · refine (stgEffect_newWithin u hnew).imp_right ?_
        rintro ⟨i, va, p, hmet, hlow, hhigh⟩
        obtain ⟨l, hl, hm, -, hp⟩ := State.mem_meetings.mp hmet
        exact ⟨i, l, p, hl, hm, hp.symm, hlow, hhigh⟩
    · intro hc va p hf hp hhome
      have hi := stu_issue m acc d a b h hc hu hs hf hp hhome
      obtain ⟨t, ht, sends⟩ : Answers s.Sends (exec (.stu m acc d a b) s) := stu_sends ..
      rw [hi] at ht
      cases ht
      refine ⟨_, hi, sends.cells, fun i l hl hm => State.completed_received m .plain (stuEffect_received hadv hm),
        fun u hnew => (stuEffect_newWithin u hnew).imp_right fun hw => ⟨hw.1, hw.2.trans_le ?_⟩⟩
      exact Nat.add_le_add_left (storeBytes_length_le ..) _
  · intro s x m acc d a b h n count address hc hf
    have hi := stp_issue m acc d a b h hc hf
    have hb := forLanes_banked s x address n (fun _ => []) (fun u off l => .bankStore u.uid off s.clock.stamp
      (storeBytes acc.toNat (l.words d.toNat count))) (s.advance x x.mask)
    refine ⟨_, bankNumber s x.mask, hi, hb.parts.mem, hb.parts.teams,
      fun i j hij _ hmi _ => bankNumber_lt s hij hmi, fun i l hl hm _ tm u off ht hp => ?_⟩
    exact forLanes_numbered (s := s.advance x x.mask)
      (fun i l hl hm => State.scratchFault_none (hf i l hl hm)) hl hm ht hp
  · intro s p tm off issue bs hp ht hw hd
    obtain ⟨hmem, hteam⟩ := State.accept_store hp ht hd
    exact ⟨hmem, _, hteam, fun k v hk => cget_cputs_at hw hk, fun e he => cget_cputs_other bs _ _ _ hw he⟩
  · intro s p q hq hid hgroup hsome hbank hpre
    refine State.acceptable_false hq ?_
    rw [Pend.precedes, decide_eq_true hid, hgroup, hbank, hsome, beq_self_eq_true, beq_self_eq_true, Bool.true_and,
      Bool.true_and, Bool.true_and, Bool.true_and, Bool.or_eq_true]
    refine hpre.imp_right ?_
    rintro ⟨i, hi, hpi, hqi⟩
    exact List.any_eq_true.mpr ⟨i, List.mem_range.mpr hi, by rw [hpi, hqi]; rfl⟩

end Sys2Proof
end

section
/-!
PROOFS. The end of engine operations: completions, runs, circuit waits, table loads and messages (R209, R215, R216,
R218, R363).
-/

-- One proof after another: each that waits beside others holds a stack of its own.
set_option Elab.async false

namespace Sys2Proof.Machine

/-! ## Bytes beside a write -/

theorem cget_cput_ne (t : List Host.Cell) {a b : Nat} (v : Byte) (hb : b ≠ a) : cget (cput t a v) b = cget t b := by
  induction t with
  | nil =>
    rw [cput]
    split
    · rfl
    · exact if_neg hb.symm
  | cons p t ih =>
    obtain ⟨k, w⟩ := p
    have skip {xs : List Host.Cell} {v : Byte} : cget ((a, v) :: xs) b = cget xs b := if_neg hb.symm
    rw [cput]
    split
    · split
      · rfl
      · exact skip
    · split
      next hk =>
        subst hk
        split
        · exact skip.symm
        · exact skip.trans skip.symm
      · show (if k = b then w else cget (cput t a v) b) = if k = b then w else cget t b
        rw [ih]

/-- A write leaves the bytes beside it, whatever form the table has. -/
theorem cget_cputs_outside (bs : List Byte) (t : List Host.Cell) {a b : Nat} (hb : b < a ∨ a + bs.length ≤ b) :
    cget (cputs t a bs) b = cget t b := by
  induction bs generalizing t a with
  | nil => rfl
  | cons c bs ih =>
    rw [List.length_cons] at hb
    rw [cputs, ih _ (by omega), cget_cput_ne t c (by omega)]

theorem Team.write_bytes {t : Team} (off : Nat) (bs : List Byte) (h : cwf t.scratch = true) :
    (t.write off bs).bytes off bs.length = bs := cgets_cputs bs t.scratch off h

/-! ## Operations of a core -/

/-- A core has an operation under a handle. -/
def State.HasOp (s : State) (core h : Nat) (op : EngOp) : Prop :=
  ∃ c, s.cores[core]? = some c ∧ c.ops.find? (fun o => o.handle == h) = some op

section
variable {s t : State} {core h : Nat} {op : EngOp} (ho : s.HasOp core h op)

include ho in
theorem State.HasOp.found : s.op? core h = some op := by
  obtain ⟨c, hc, hop⟩ := ho
  rw [State.op?, State.core, hc, Option.getD_some]
  exact hop

include ho in
theorem State.HasOp.handle : op.handle = h := by
  obtain ⟨c, -, hop⟩ := ho
  simpa only [beq_iff_eq] using List.find?_some hop

include ho in
theorem State.HasOp.congr (hc : t.cores = s.cores) : t.HasOp core h op := by
  rw [State.HasOp, hc]
  exact ho

include ho in
theorem State.HasOp.modOp {f : EngOp → EngOp} (hf : (f op).handle = op.handle) :
    (s.modOp core h f).HasOp core h (f op) := by
  have hh := ho.handle
  obtain ⟨c, hc, hop⟩ := ho
  refine ⟨{ c with ops := c.ops.map fun o => if o.handle = h then f o else o }, ?_,
    find?_changed (key := EngOp.handle) hop (hf.trans hh)⟩
  rw [State.modOp, State.modCore, setAt_getElem?_same, hc]
  rfl

include ho in
theorem State.HasOp.failOp (st : OpState) (a : Nat) : (s.failOp core h st a).HasOp core h
    { op with outcome := some (st, a), waiting := false, reading := none, data := [], work := none } :=
  ho.modOp rfl

end

/-! ## Counting a run (R209, R212) -/

/-- The barrier of an operation has counted a run and its error. -/
def State.Counted (s t : State) (op : EngOp) (n : Nat) (err : Bool) : Prop :=
  ∀ off tm, s.opBarrier op = some off → s.team? op.team = some tm → cwf tm.scratch = true →
    (op.kind = 1 → cpyDTRUG op.words = false) → ∃ u, t.team? op.team = some u ∧
      u.bytes off 8 = natLe 4 (tm.expected off) ++
        natLe 4 (min (tm.arrivedBytes off + n) (2 ^ 31 - 1) + 2 ^ 31 * (tm.barrierErr off || err).toNat) ∧
      ∀ a, a < off ∨ off + 8 ≤ a → cget u.scratch a = cget tm.scratch a

/-- The trug of an operation has counted a run. -/
def State.InTrug (s t : State) (op : EngOp) (n : Nat) : Prop :=
  ∀ v off i, op.kind = 1 → s.opBarrier op = none → s.opTrug op = some (v, off) → s.team? v.uid = some v →
    op.trugSlot = some i → n ≠ 0 → ∃ u, t.team? v.uid = some u ∧ u.scratch = (v.trugCount off i n).scratch

/-- The teams' scratchpads are the same. -/
def State.SameScratch (s t : State) : Prop :=
  ∀ v u, s.team? v = some u → ∃ u', t.team? v = some u' ∧ u'.scratch = u.scratch

theorem State.SameScratch.of_teams {s t : State} (h : t.teams = s.teams) : s.SameScratch t := fun v u hu =>
  ⟨u, (State.team?_congr h v).trans hu, rfl⟩

theorem State.SameScratch.trans {s t v : State} (h : s.SameScratch t) (k : t.SameScratch v) : s.SameScratch v :=
  fun w u hu =>
    let ⟨u1, h1, e1⟩ := h w u hu
    let ⟨u2, h2, e2⟩ := k w u1 h1
    ⟨u2, h2, e2.trans e1⟩

section
variable {s t t' : State} {op : EngOp} {n : Nat} {err : Bool}

theorem State.Counted.sameScratch (h : s.Counted t op n err) (k : t.SameScratch t') : s.Counted t' op n err := by
  intro off tm hb ht hw hd
  obtain ⟨u, hu, hbytes, hframe⟩ := h off tm hb ht hw hd
  obtain ⟨u', hu', he⟩ := k _ u hu
  exact ⟨u', hu', by rw [Team.bytes, he]; exact hbytes, by rw [he]; exact hframe⟩

theorem State.InTrug.sameScratch (h : s.InTrug t op n) (k : t.SameScratch t') : s.InTrug t' op n := by
  intro v off i hk hb ht hv hi hn
  obtain ⟨u, hu, he⟩ := h v off i hk hb ht hv hi hn
  obtain ⟨u', hu', he'⟩ := k _ u hu
  exact ⟨u', hu', he'.trans he⟩

theorem State.opTrug_none (h : cpyDTRUG op.words = false) : s.opTrug op = none := by
  unfold State.opTrug
  split
  · rw [h]
    rfl
  · rfl

/-- A run that goes into no trug is counted in its barrier alone. -/
theorem State.countRun_barrier {off : Nat} (hb : s.opBarrier op = some off)
    (hd : op.kind = 1 → cpyDTRUG op.words = false) :
    s.countRun op n err = s.modTeam op.team fun t => t.countBytes off n err := by
  unfold State.countRun
  rw [hb]
  dsimp only
  split
  · rfl
  next hk =>
    have hk1 : op.kind = 1 := by
      simp only [Bool.or_eq_true, bne_iff_ne, not_or, not_not] at hk
      exact hk.1
    rw [State.opTrug_none (hd hk1)]

/-- A run of a copy without a barrier is counted in its trug alone. -/
theorem State.countRun_trug {v : Team} {off i : Nat} (hk : op.kind = 1) (hb : s.opBarrier op = none)
    (ht : s.opTrug op = some (v, off)) (hi : op.trugSlot = some i) (hn : n ≠ 0) :
    s.countRun op n err = s.modTeam v.uid fun t => t.trugCount off i n := by
  unfold State.countRun
  simp only [hk, hb, ht, hi, hn, bne_self_eq_false, decide_false, Bool.or_self, Bool.false_eq_true, if_false]

theorem natLe_length (n x : Nat) : (natLe n x).length = n := by
  induction n generalizing x with
  | zero => rfl
  | succ n ih => rw [natLe, List.length_cons, ih]

/-- The barrier's words after an update, and that its other bytes stay. -/
theorem Team.countBytes_reads (tm : Team) (off n : Nat) (err : Bool) (hw : cwf tm.scratch = true) :
    (tm.countBytes off n err).bytes off 8 = natLe 4 (tm.expected off) ++
        natLe 4 (min (tm.arrivedBytes off + n) (2 ^ 31 - 1) + 2 ^ 31 * (tm.barrierErr off || err).toNat) ∧
      ∀ a, a < off ∨ off + 8 ≤ a → cget (tm.countBytes off n err).scratch a = cget tm.scratch a := by
  have small : min (tm.arrivedBytes off + n) (2 ^ 31 - 1) % 2 ^ 31 = min (tm.arrivedBytes off + n) (2 ^ 31 - 1) :=
    Nat.mod_eq_of_lt ((Nat.min_le_right ..).trans_lt (by decide))
  have len (x y : Nat) : (natLe 4 x ++ natLe 4 y).length = 8 := by
    rw [List.length_append, natLe_length, natLe_length]
  refine ⟨?_, fun a ha => cget_cputs_outside _ _ (by rwa [len])⟩
  rw [← small, ← len (tm.expected off) (min (tm.arrivedBytes off + n) (2 ^ 31 - 1) % 2 ^ 31 +
    2 ^ 31 * (tm.barrierErr off || err).toNat)]
  exact Team.write_bytes off _ hw

theorem State.countRun_counted (s : State) (op : EngOp) (n : Nat) (err : Bool) :
    s.Counted (s.countRun op n err) op n err := by
  intro off tm hb ht hw hd
  have hu : tm.uid = op.team := State.team?_uid ht
  rw [State.countRun_barrier hb hd]
  exact ⟨_, State.modTeam_team?_same ht hu, tm.countBytes_reads off n err hw⟩

theorem State.countRun_inTrug (s : State) (op : EngOp) (n : Nat) (err : Bool) :
    s.InTrug (s.countRun op n err) op n := by
  intro v off i hk hb ht hv hi hn
  rw [State.countRun_trug hk hb ht hi hn]
  exact ⟨_, State.modTeam_team?_same hv (Team.trugCount_uid ..), rfl⟩

theorem State.countRun_rest (s : State) (op : EngOp) (n : Nat) (err : Bool) :
    (s.countRun op n err).mem = s.mem ∧ (s.countRun op n err).cores = s.cores := by
  unfold State.countRun
  split <;> (dsimp only; (repeat' split) <;> exact ⟨rfl, rfl⟩)

end

/-! ## The end of an operation (R209, R215, R216) -/

/-- What an operation that ends leaves of its core: no lock of its own, and its status. -/
def Core.opEnds (c : Core) (op : EngOp) (st : OpStatus) : Core :=
  { c with ops := c.ops.filter (·.handle != op.handle),
           locks := c.locks.filter fun k => k.matrix || k.owner != op.handle,
           done := if op.silent then c.done else (st :: c.done.filter (·.handle != op.handle)).take 256 }

theorem State.collLeave_fabric (s : State) (op : EngOp) : ∃ f, s.collLeave op = { s with fabric := f } := by
  unfold State.collLeave
  dsimp only
  split
  · exact ⟨s.fabric, rfl⟩
  · exact ⟨_, rfl⟩

/-- An operation whose count meets no damage ends with its status. -/
theorem State.finishOp_eq {s : State} (core : Nat) {op : EngOp}
    (hd : s.countDamage op ((op.run.map (·.bytes)).getD 0) op.outcome.isSome = none) :
    ∃ f, s.finishOp core op = (({ s.countRun op ((op.run.map (·.bytes)).getD 0) op.outcome.isSome with
      fabric := f } : State).modCore core fun c => c.opEnds op op.status).modTeam op.team fun t =>
        { t with ended := op.named :: t.ended } := by
  unfold State.finishOp
  dsimp only
  simp only [hd]
  split
  next p _ =>
    obtain ⟨f, hf⟩ := State.collLeave_fabric { s.countRun op ((op.run.map (·.bytes)).getD 0) op.outcome.isSome with
      fabric := Fabric.touch (s.countRun op ((op.run.map (·.bytes)).getD 0) op.outcome.isSome).fabric p
        (s.countRun op ((op.run.map (·.bytes)).getD 0) op.outcome.isSome).gtime } op
    exact ⟨f, by rw [hf]; rfl⟩
  · obtain ⟨f, hf⟩ := State.collLeave_fabric (s.countRun op ((op.run.map (·.bytes)).getD 0) op.outcome.isSome) op
    exact ⟨f, by rw [hf]; rfl⟩

theorem State.modTeam_team? (s : State) (v w : Nat) {f : Team → Team} (hf : ∀ t, (f t).uid = t.uid) :
    (s.modTeam v f).team? w = (s.team? w).map fun t => if t.uid = v then f t else t := by
  have keeps : ((·.uid == w) ∘ fun t : Team => if t.uid = v then f t else t) = (·.uid == w) := funext fun t => by
    dsimp only [Function.comp_apply]
    split
    · rw [hf]
    · rfl
  rw [State.team?, State.modTeam, List.find?_map, keeps]
  rfl

theorem State.modTeam_sameScratch (s : State) (v : Nat) {f : Team → Team} (hf : ∀ t, (f t).uid = t.uid)
    (hs : ∀ t, (f t).scratch = t.scratch) : s.SameScratch (s.modTeam v f) := fun w u hu =>
  ⟨_, by rw [State.modTeam_team? s v w hf, hu]; rfl, by
    dsimp only
    split
    · exact hs u
    · rfl⟩

theorem State.finishOp_ends {s : State} {core : Nat} {c : Core} {op : EngOp} (hc : s.cores[core]? = some c)
    (hd : s.countDamage op ((op.run.map (·.bytes)).getD 0) op.outcome.isSome = none) :
    (s.finishOp core op).mem = s.mem ∧ (s.finishOp core op).cores[core]? = some (c.opEnds op op.status) ∧
      s.Counted (s.finishOp core op) op ((op.run.map (·.bytes)).getD 0) op.outcome.isSome ∧
      s.InTrug (s.finishOp core op) op ((op.run.map (·.bytes)).getD 0) := by
  obtain ⟨f, hf⟩ := State.finishOp_eq core hd
  obtain ⟨hmem, hcores⟩ := s.countRun_rest op ((op.run.map (·.bytes)).getD 0) op.outcome.isSome
  have same : (s.countRun op ((op.run.map (·.bytes)).getD 0) op.outcome.isSome).SameScratch (s.finishOp core op) := by
    rw [hf]
    refine State.SameScratch.trans (.of_teams rfl) (State.modTeam_sameScratch _ op.team ?_ ?_) <;> exact fun _ => rfl
  refine ⟨by rw [hf]; exact hmem, ?_, (s.countRun_counted op _ _).sameScratch same,
    (s.countRun_inTrug op _ _).sameScratch same⟩
  rw [hf]
  show (setAt _ core (s.countRun op _ _).cores)[core]? = _
  rw [hcores, setAt_getElem?_same, hc]
  rfl

section
variable {s : State} {core h : Nat} {op : EngOp} (ho : s.HasOp core h op)

include ho in
theorem engineCompletion_eq : exec (.engineCompletion core h) s =
    if s.mayComplete op then .next (s.finishOp core op) else .next s := by
  simp only [exec, execEngineCompletion, ho.found]

/-! ## Runs (R209, R291) -/

include ho in
theorem engineRun_bank {w : BankWrite} (hw : s.bankReady op = some w) :
    exec (.engineRunDelivered core h) s = .next (s.bankTake core op w) := by
  simp only [exec, execEngineRunDelivered, ho.found, hw]

section
variable (hb : s.bankReady op = none) (hwait : op.waiting = false) (hread : op.reading = none)
  (hex : op.exhausted = false) (hpause : op.atPause = false) (hk : op.kind ≤ 10)

include ho hb hwait hread hex hpause hk

/-- An operation that may go on counts its run, once that is visible. -/
theorem engineRun_run {r : EngRun} (hr : op.run = some r) : exec (.engineRunDelivered core h) s =
    if !s.runVisible r then .next s
    else if op.kind = 4 ∧ op.total ≤ op.progress then .next (s.opGo core op)
    else .next (s.countVisible core op r.bytes) := by
  simp only [exec, execEngineRunDelivered, ho.found, hb, hwait, hread, hex, hpause, hr, Option.isSome_none,
    Bool.or_self, Bool.false_or, decide_eq_true_eq, Nat.not_lt.mpr hk, if_false]

/-- Without a run on its way it goes on at once. -/
theorem engineRun_idle (hr : op.run = none) :
    exec (.engineRunDelivered core h) s = .next (s.opGo core op) := by
  simp only [exec, execEngineRunDelivered, ho.found, hb, hwait, hread, hex, hpause, hr, Option.isSome_none,
    Bool.or_self, Bool.false_or, decide_eq_true_eq, Nat.not_lt.mpr hk, if_false]

end

end

/-- A bank that meets no damage writes what has come to it. -/
theorem State.bankTake_written {s : State} {core h : Nat} {op : EngOp} (ho : s.HasOp core h op) {w : BankWrite}
    {tm : Team} (ht : s.team? w.team = some tm) (hd : scratchMerged tm w.offset w.bytes.length = none) :
    (s.bankTake core op w).mem = s.mem ∧
      (s.bankTake core op w).HasOp core h { op with run := op.run.map fun r => { r with banks := r.banks.erase w } } ∧
      (s.bankTake core op w).team? w.team = some (tm.write w.offset w.bytes) := by
  have hh := ho.handle
  have hu : tm.uid = w.team := State.team?_uid ht
  have hw : s.bankTake core op w = (s.modOp core h fun o =>
      { o with run := o.run.map fun r => { r with banks := r.banks.erase w } }).modTeam w.team fun t =>
        t.write w.offset w.bytes := by
    rw [State.bankTake, ht, Option.bind_some, hd, hh]
    rfl
  rw [hw]
  exact ⟨rfl, (ho.modOp (f := fun o => { o with run := o.run.map fun r => { r with banks := r.banks.erase w } })
    rfl).congr rfl, State.modTeam_team?_same ht hu⟩

/-- A run that meets no damage is counted. -/
theorem State.countVisible_counts {s : State} {core h : Nat} {op : EngOp} (ho : s.HasOp core h op) {n : Nat}
    (hd : s.countDamage op n false = none) :
    (s.countVisible core op n).mem = s.mem ∧
      (∃ op', (s.countVisible core op n).HasOp core h op' ∧ op'.run = none ∧ op'.progress = op.progress ∧
        op'.outcome = op.outcome) ∧
      s.Counted (s.countVisible core op n) op n false ∧ s.InTrug (s.countVisible core op n) op n := by
  obtain ⟨hmem, hcores⟩ := s.countRun_rest op n false
  have hv : ∃ slot : EngOp → Option Nat, s.countVisible core op n = (s.countRun op n false).modOp core h fun o =>
      { o with run := none, trugSlot := slot o } := by
    rw [State.countVisible, hd, ho.handle]
    exact ⟨_, rfl⟩
  obtain ⟨slot, hv⟩ := hv
  have same : (s.countRun op n false).SameScratch (s.countVisible core op n) := .of_teams (by rw [hv]; rfl)
  refine ⟨by rw [hv]; exact hmem, ?_, (s.countRun_counted op n false).sameScratch same,
    (s.countRun_inTrug op n false).sameScratch same⟩
  rw [hv]
  exact ⟨_, (ho.congr hcores).modOp (f := fun o => { o with run := none, trugSlot := slot o }) rfl, rfl, rfl, rfl⟩

/-! ## Copies that wait for a circuit (R218, R342) -/

/-- What a waiting copy makes of its word: a later generation ends it, an earlier one or another state keeps it waiting,
and a LIVE word of its own generation settles its sides. -/
def State.circuitMet (s : State) (core h : Nat) (op : EngOp) (w : LiveWord) : Result :=
  if 0 < laterGen w.gen (wd op.words 10) then .next (s.failOp core h .staleGen 0)
  else if laterGen w.gen (wd op.words 10) = 0 ∧ w.state = 4 then
    match (s.peerSides op).find? fun k => k.2 != w.peer with
    | some (a, _) => .next (s.failOp core h .aperture a)
    | none =>
      if !(s.sideWaits op).isEmpty then .next s
      else if !(s.peerSides op).isEmpty && !s.fabric.circuitUp w.port then .next (s.failOp core h .circuitLost 0)
      else .next (s.modOp core h fun o =>
        { o with waiting := false, bound := if (s.peerSides op).isEmpty then none else some w.port })
  else .next s

theorem circuitBarrierMatch_eq {s : State} {core h : Nat} {op : EngOp} (ho : s.HasOp core h op) (hk : op.kind = 1)
    (hw : op.waiting = true) (hout : op.outcome = none) {p : Place}
    (hp : s.xlatG core op.grid (wd64 op.words 8) = .ok p) (hhome : p.home = true) (hread : p.readable = true)
    (hd : s.mem.damagedByte p.pa 8 = none) :
    exec (.circuitBarrierMatch core h) s = s.circuitMet core h op (liveWord (s.peekNat p.pa 8)) := by
  simp only [exec, execCircuitBarrierMatch, ho.found, hk, hw, hout, hp, hhome, hread, hd, State.circuitMet,
    bne_self_eq_false, Option.isSome_none, Bool.not_true, Bool.or_self, Bool.false_eq_true, if_false] <;> rfl

/-! ## Table loads (R167) -/

/-- Reading a table changes no byte, no update and no bank. -/
structure State.KeepsBanks (s t : State) : Prop where
  cells : t.mem.cells = s.mem.cells
  updates : t.mem.updates = s.mem.updates
  banks : t.cores.map (·.banks) = s.cores.map (·.banks)

theorem State.KeepsBanks.refl (s : State) : s.KeepsBanks s := ⟨rfl, rfl, rfl⟩

theorem State.KeepsBanks.trans {s t u : State} (h : s.KeepsBanks t) (k : t.KeepsBanks u) : s.KeepsBanks u :=
  ⟨k.cells.trans h.cells, k.updates.trans h.updates, k.banks.trans h.banks⟩

theorem map_setAt {α β : Type} {f : α → α} {g : α → β} (h : ∀ a, g (f a) = g a) (i : Nat) (xs : List α) :
    (setAt f i xs).map g = xs.map g := by
  induction xs generalizing i with
  | nil => cases i <;> rfl
  | cons x xs ih =>
    cases i with
    | zero => rw [setAt, List.map_cons, List.map_cons, h]
    | succ i => rw [setAt, List.map_cons, List.map_cons, ih]

theorem State.performLoad_keepsBanks (s : State) (core cls pa n : Nat) :
    s.KeepsBanks (s.performLoad core cls pa n).2 :=
  ⟨(s.performLoad_calm core cls pa n).cells, (s.performLoad_calm core cls pa n).updates, by
    refine map_setAt ?_ core s.cores
    exact fun _ => rfl⟩

theorem State.reachHome_cores (s : State) (p : Place) (write : Bool) (n : Nat) :
    (s.reachHome p write n).cores = s.cores := by
  unfold State.reachHome State.atHome
  split <;> rfl

theorem State.reachHome_keepsBanks (s : State) (p : Place) (write : Bool) (n : Nat) :
    s.KeepsBanks (s.reachHome p write n) :=
  ⟨(s.reachHome_still p write n).1, (s.reachHome_still p write n).2.1, by rw [s.reachHome_cores]⟩

theorem State.cacheXlat_keepsBanks (s : State) (core root va : Nat) : s.KeepsBanks (s.cacheXlat core root va) := by
  refine ⟨(s.cacheXlat_still core root va).1, (s.cacheXlat_still core root va).2.1, ?_⟩
  obtain ⟨mem, h⟩ := s.cacheXlat_memory core root va
  rw [h]

theorem State.tableRead_keepsBanks (s : State) (grid core : Nat) (t : TableLoad) :
    s.KeepsBanks (s.tableRead grid core t) := by
  refine foldl_rel State.KeepsBanks State.KeepsBanks.refl State.KeepsBanks.trans id _ (fun (s : State) n => ?_)
    (List.range bankLines) s
  dsimp only [id]
  split
  · split
    · exact (s.reachHome_keepsBanks ..).trans (State.performLoad_keepsBanks ..)
    · exact .refl s
  · exact .refl s

/-- A bank with the table that was read. -/
def loadedBank (bs : List Byte) : ActBank := { state := .valid, bytes := cputs [] 0 bs, load := none }

/-- A table load that has read every line. -/
theorem atloadComplete_loads {s : State} {core k : Nat} {c : Core} {b : ActBank} {load : TableLoad} {bs : List Byte}
    (hc : s.cores[core]? = some c) (hb : c.banks[k]? = some b) (hl : b.load = some load)
    (hdue : load.due ≤ s.clock.tick) (hw : load.waiting = [])
    (hr : s.readLines (((s.group? load.group).map (·.grid)).getD 0) core load 0 bankLines [] = .bytes bs) :
    ∃ t c', exec (.atloadComplete core k) s = .next t ∧ t.mem.cells = s.mem.cells ∧ t.mem.updates = s.mem.updates ∧
      t.cores[core]? = some c' ∧
      c'.banks[k]? = some (loadedBank bs) := by
  have hbank : s.bank core k = b := by rw [State.bank, State.core, hc, Option.getD_some, hb, Option.getD_some]
  generalize hg : ((s.group? load.group).map (·.grid)).getD 0 = grid at hr
  have he : exec (.atloadComplete core k) s = .next (((s.tableRead grid core load).cacheXlat core (s.rootOf grid)
      load.address).modBank core k fun _ => loadedBank bs) := by
    simp only [exec, execAtloadComplete, hbank, hl, Nat.not_lt.mpr hdue, hw, hg, hr, decide_false, List.isEmpty_nil,
      Bool.not_true, Bool.or_self, Bool.false_eq_true, if_false]
    rfl
  have keeps := (s.tableRead_keepsBanks grid core load).trans
    (State.cacheXlat_keepsBanks (s.tableRead grid core load) core (s.rootOf grid) load.address)
  generalize (s.tableRead grid core load).cacheXlat core (s.rootOf grid) load.address = u at he keeps
  have hat := congrArg (·[core]?) keeps.banks
  simp only [List.getElem?_map, hc, Option.map_some, Option.map_eq_some_iff] at hat
  obtain ⟨c2, hc2, hbanks⟩ := hat
  refine ⟨_, { c2 with banks := setAt (fun _ => loadedBank bs) k c2.banks }, he, keeps.cells, keeps.updates, ?_, ?_⟩
  · rw [State.modBank, State.modCore, setAt_getElem?_same, hc2]
    rfl
  · dsimp only
    rw [hbanks, setAt_getElem?_same, hb]
    rfl

/-! ## Messages of collectives (R360, R363) -/

theorem State.collSend_sent (s : State) (op : EngOp) (rank : Nat) (msg : CollMsg) :
    s.Sent (s.collSend op rank msg) := by
  refine State.Sent.trans ?_ (State.flushColl_sent _)
  exact rfl

/-- The operations that a message is for, with their cores. -/
def State.collHits (s : State) (msg : CollMsg) : List (Nat × EngOp) :=
  (mapFrom (fun i (c : Core) => (c.ops.filter (·.hears msg)).map fun o => (i, o)) 0 s.cores).flatten

theorem State.mem_collHits {s : State} {msg : CollMsg} {i : Nat} {o : EngOp} :
    (i, o) ∈ s.collHits msg ↔ ∃ c, s.cores[i]? = some c ∧ o ∈ c.ops ∧ o.hears msg = true := by
  rw [State.collHits, mem_flatten_mapFrom]
  constructor
  · rintro ⟨j, c, hc, ho⟩
    obtain ⟨o', ho', he⟩ := List.mem_map.mp ho
    cases he
    exact ⟨c, hc, List.mem_filter.mp ho'⟩
  · rintro ⟨c, hc, ho⟩
    exact ⟨i, c, hc, List.mem_map.mpr ⟨o, List.mem_filter.mpr ho, rfl⟩⟩

/-- A message goes to the one operation that it is for. -/
theorem State.collTake_heard {s : State} {core : Nat} {c : Core} {op : EngOp} {msg : CollMsg}
    (hc : s.cores[core]? = some c) (hop : c.ops.filter (fun o => o.hears msg) = [op])
    (hothers : ∀ (j : Nat) (k : Core), s.cores[j]? = some k → j ≠ core → ∀ o ∈ k.ops, o.hears msg = false) :
    s.collTake msg = s.collHear core op msg := by
  have one (p : Nat × EngOp) (hp : p ∈ s.collHits msg) : p = (core, op) := by
    obtain ⟨k, hk, ho, hh⟩ := State.mem_collHits.mp hp
    by_cases hj : p.1 = core
    · rw [hj, hc, Option.some.injEq] at hk
      subst hk
      have : p.2 ∈ c.ops.filter fun o => o.hears msg := List.mem_filter.mpr ⟨ho, hh⟩
      rw [hop, List.mem_singleton] at this
      exact Prod.ext hj this
    · rw [hothers _ k hk hj _ ho] at hh
      cases hh
  have there : (core, op) ∈ s.collHits msg := by
    have : op ∈ c.ops.filter fun o => o.hears msg := by
      rw [hop]
      exact List.mem_singleton.mpr rfl
    exact State.mem_collHits.mpr ⟨c, hc, List.mem_filter.mp this⟩
  cases hits : s.collHits msg with
  | nil =>
    rw [hits] at there
    cases there
  | cons p rest =>
    rw [one p (by rw [hits]; exact List.mem_cons_self ..)] at hits
    rw [State.collHits] at hits
    rw [State.collTake, hits]

/-- A message that is for no operation. -/
theorem State.collTake_unheard {s : State} {msg : CollMsg} (h : ∀ k ∈ s.cores, ∀ o ∈ k.ops, o.hears msg = false) :
    s.collTake msg = if msg.kind != 0 then s
      else if s.fabric.collOwed.contains (msg.members, msg.number, msg.rank) then
        { s with fabric := { s.fabric with
            collOwed := s.fabric.collOwed.erase (msg.members, msg.number, msg.rank) } }
      else { s with fabric := { s.fabric with collIn := s.fabric.collIn ++ [msg] } } := by
  have none : s.collHits msg = [] := List.eq_nil_iff_forall_not_mem.mpr fun p hp => by
    obtain ⟨k, hk, ho, hh⟩ := State.mem_collHits.mp hp
    rw [h k (List.mem_of_getElem? hk) _ ho] at hh
    cases hh
  rw [State.collHits] at none
  rw [State.collTake, none]

theorem EngOp.hears_outcome {op : EngOp} {msg : CollMsg} (h : op.hears msg = true) : op.outcome = none := by
  simp only [EngOp.hears, Bool.and_eq_true, Option.isNone_iff_eq_none] at h
  exact h.1.2

section
variable {s : State} {core h : Nat} {op : EngOp} (ho : s.HasOp core h op)

include ho in
theorem State.collAck_keeps {o : EngOp} (hh : o.handle = h) (rank chunk : Nat) :
    (s.collAck core o rank chunk).mem = s.mem ∧ ∃ op', (s.collAck core o rank chunk).HasOp core h op' ∧
      op'.parts = op.parts ∧ op'.outcome = op.outcome := by
  unfold State.collAck
  rw [hh]
  split
  · exact ⟨rfl, _, ho.modOp (f := fun o => { o with peers := modPeer rank (·.ack chunk) o.peers }) rfl, rfl, rfl⟩
  · have sent := s.collSend_sent o rank (o.collMsg 2 chunk [] [])
    exact ⟨sent.mem, op, ho.congr sent.cores, rfl, rfl⟩

include ho in
/-- A chunk that has not come is held. -/
theorem State.collHold_holds {rank chunk : Nat} (data : List Byte)
    (hn : ∀ p ∈ op.peers, p.rank = rank → chunk ∉ p.got) : (s.collHold core op rank chunk data).mem = s.mem ∧
    ∃ op', (s.collHold core op rank chunk data).HasOp core h op' ∧ op'.parts = op.parts ++ [((rank, chunk), data)] ∧
      op'.outcome = op.outcome := by
  have new : (op.peers.any fun p => p.rank == rank && p.got.contains chunk) = false := by
    rw [List.any_eq_false]
    intro p hp hgot
    rw [Bool.and_eq_true, beq_iff_eq, List.contains_iff_mem] at hgot
    exact hn p hp hgot.1 hgot.2
  have held := ho.modOp (f := fun o => { o with
    parts := o.parts ++ [((rank, chunk), data)],
    peers := modPeer rank (fun p => { p with got := chunk :: p.got }) o.peers }) rfl
  unfold State.collHold
  rw [new, ho.handle]
  dsimp only
  rw [if_neg Bool.false_ne_true]
  split
  · obtain ⟨hmem, op', hop, hparts, hout⟩ := State.collAck_keeps held ho.handle rank chunk
    exact ⟨hmem, op', hop, hparts, hout⟩
  · exact ⟨rfl, _, held, rfl, rfl⟩

end

section
variable {s : State} {core h : Nat} {op : EngOp} (ho : s.HasOp core h op) {f : EngOp → Prop}

/-- A step leaves memory and makes of an operation one that `f` holds of. -/
def OpBecomes (s : State) (r : Result) (core h : Nat) (f : EngOp → Prop) : Prop :=
  ∃ t op', r = .next t ∧ t.mem = s.mem ∧ t.op? core h = some op' ∧ f op'

include ho in
theorem State.HasOp.becomes_modOp (g : EngOp → EngOp) (hg : (g op).handle = op.handle) (hf : f (g op)) :
    OpBecomes s (.next (s.modOp core h g)) core h f := ⟨_, g op, rfl, rfl, (ho.modOp hg).found, hf⟩

include ho in
theorem State.HasOp.becomes_failOp (st : OpState) (a : Nat)
    (hf : f { op with outcome := some (st, a), waiting := false, reading := none, data := [], work := none }) :
    OpBecomes s (.next (s.failOp core h st a)) core h f := ⟨_, _, rfl, rfl, (ho.failOp st a).found, hf⟩

include ho in
/-- A word of the copy's own generation that is LIVE settles its sides. -/
theorem circuitMet_live {w : LiveWord} (hd : laterGen w.gen (wd op.words 10) = 0) (hs : w.state = 4) :
    (∀ side, (s.peerSides op).find? (fun k => k.2 != w.peer) = some side →
      OpBecomes s (s.circuitMet core h op w) core h fun op' => op'.outcome = some (.aperture, side.1)) ∧
    ((∀ k ∈ s.peerSides op, k.2 = w.peer) → s.sideWaits op ≠ [] → s.circuitMet core h op w = .next s) ∧
    ((∀ k ∈ s.peerSides op, k.2 = w.peer) → s.sideWaits op = [] →
      (s.peerSides op = [] ∨ s.fabric.circuitUp w.port = true → OpBecomes s (s.circuitMet core h op w) core h fun op' =>
        op'.waiting = false ∧ op'.bound = (if (s.peerSides op).isEmpty then none else some w.port) ∧
          op'.outcome = op.outcome) ∧
      (s.peerSides op ≠ [] → s.fabric.circuitUp w.port = false →
        OpBecomes s (s.circuitMet core h op w) core h fun op' => op'.outcome = some (.circuitLost, 0))) := by
  have hnot : ¬ 0 < laterGen w.gen (wd op.words 10) := by rw [hd]; decide
  have allOn (hall : ∀ k ∈ s.peerSides op, k.2 = w.peer) : (s.peerSides op).find? (fun k => k.2 != w.peer) = none :=
    List.find?_eq_none.mpr fun k hk => by rw [hall k hk, bne_self_eq_false]; exact Bool.false_ne_true
  unfold State.circuitMet
  rw [if_neg hnot, if_pos ⟨hd, hs⟩]
  refine ⟨fun side hside => ?_, fun hall hne => ?_, fun hall hnil => ⟨fun hup => ?_, fun hne hdown => ?_⟩⟩
  · rw [hside]
    exact ho.becomes_failOp _ _ rfl
  · rw [allOn hall]
    exact if_pos (by simpa using hne)
  · rw [allOn hall]
    have up : (!(s.peerSides op).isEmpty && !s.fabric.circuitUp w.port) = false := by
      rcases hup with h | h <;> simp [h]
    simp only [hnil, up, List.isEmpty_nil, Bool.not_true, Bool.false_eq_true, if_false]
    exact ho.becomes_modOp (fun o => { o with
      waiting := false, bound := if (s.peerSides op).isEmpty then none else some w.port }) rfl ⟨rfl, rfl, rfl⟩
  · rw [allOn hall]
    have down : (!(s.peerSides op).isEmpty && !s.fabric.circuitUp w.port) = true := by simp [hne, hdown]
    simp only [hnil, down, List.isEmpty_nil, Bool.not_true, Bool.false_eq_true, if_false, if_true]
    exact ho.becomes_failOp _ _ rfl

end

/-- An operation's generation beside a word's, by the word's upper half. -/
theorem laterGen_liveWord (w g : Nat) :
    laterGen (liveWord w).gen g = (BitVec.ofNat 32 (w / 2 ^ 32) - BitVec.ofNat 32 g).toInt := by
  have : BitVec.ofNat 32 (w / 2 ^ 32 % 2 ^ 32) = BitVec.ofNat 32 (w / 2 ^ 32) :=
    BitVec.eq_of_toNat_eq (by simp only [BitVec.toNat_ofNat, Nat.mod_mod])
  simp only [laterGen, liveWord, bitsOf, this]

theorem liveWord_fields (w : Nat) : (liveWord w).peer = w % 2 ^ 12 ∧ (liveWord w).port = w / 2 ^ 16 % 32 ∧
    (liveWord w).state = w / 2 ^ 24 % 256 :=
  ⟨by simp only [liveWord, bitsOf, Nat.pow_zero, Nat.div_one], rfl, rfl⟩

/-- What a waiting copy does by its word's fields. -/
theorem circuitMet_outcomes {s : State} {core h : Nat} {op : EngOp} (ho : s.HasOp core h op)
    (hout : op.outcome = none) {r : Result} {w : Nat} (he : r = s.circuitMet core h op (liveWord w)) {ahead : Int}
    (ha : (BitVec.ofNat 32 (w / 2 ^ 32) - BitVec.ofNat 32 (wd op.words 10)).toInt = ahead) :
    (0 < ahead → OpBecomes s r core h fun op' => op'.outcome = some (.staleGen, 0) ∧ op'.waiting = false) ∧
    (ahead < 0 → r = .next s) ∧
    (ahead = 0 → w / 2 ^ 24 % 256 ≠ 4 → r = .next s) ∧
    (ahead = 0 → w / 2 ^ 24 % 256 = 4 →
      (∀ side, (s.peerSides op).find? (fun k => k.2 != w % 2 ^ 12) = some side → OpBecomes s r core h fun op' =>
        op'.outcome = some (.aperture, side.1)) ∧
      ((∀ k ∈ s.peerSides op, k.2 = w % 2 ^ 12) → s.sideWaits op ≠ [] → r = .next s) ∧
      (s.peerSides op = [] → s.sideWaits op = [] → OpBecomes s r core h fun op' =>
        op'.waiting = false ∧ op'.bound = none ∧ op'.outcome = none) ∧
      (s.peerSides op ≠ [] → (∀ k ∈ s.peerSides op, k.2 = w % 2 ^ 12) → s.sideWaits op = [] →
        (s.fabric.circuitUp (w / 2 ^ 16 % 32) = true → OpBecomes s r core h fun op' =>
          op'.waiting = false ∧ op'.bound = some (w / 2 ^ 16 % 32) ∧ op'.outcome = none) ∧
        (s.fabric.circuitUp (w / 2 ^ 16 % 32) = false → OpBecomes s r core h fun op' =>
          op'.outcome = some (.circuitLost, 0)))) := by
  obtain ⟨hpeer, hport, hstate⟩ := liveWord_fields w
  have hgen : laterGen (liveWord w).gen (wd op.words 10) = ahead := (laterGen_liveWord w _).trans ha
  rw [he, ← hpeer, ← hport, ← hstate]
  refine ⟨fun hlt => ?_, fun hlt => ?_, fun h0 h4 => ?_, fun h0 h4 => ?_⟩
  · rw [State.circuitMet, hgen, if_pos hlt]
    exact ho.becomes_failOp _ _ ⟨rfl, rfl⟩
  · rw [State.circuitMet, hgen, if_neg (Int.not_lt.mpr (Int.le_of_lt hlt)), if_neg fun hz => Int.ne_of_lt hlt hz.1]
  · rw [State.circuitMet, hgen, if_neg (by rw [h0]; decide), if_neg fun hz => h4 hz.2]
  · obtain ⟨hside, hwaits, hsettled⟩ := circuitMet_live ho (hgen.trans h0) h4
    refine ⟨hside, hwaits, fun hnil hw => ?_, fun hsome hall hw => ⟨fun hup => ?_, (hsettled hall hw).2 hsome⟩⟩
    · have := (hsettled (by rw [hnil]; exact fun _ h => nomatch h) hw).1 (.inl hnil)
      rwa [hnil, hout] at this
    · have := (hsettled hall hw).1 (.inr hup)
      rwa [show (s.peerSides op).isEmpty = false by simpa using hsome, hout] at this

theorem Core.opEnds_done (c : Core) {op : EngOp} (st : OpStatus) (hs : op.silent = false) :
    (c.opEnds op st).done.head? = some st ∧ (c.opEnds op st).done.length ≤ 256 := by
  rw [Core.opEnds, hs]
  exact ⟨rfl, List.length_take_le ..⟩

theorem CollPeer.ack_acked (p : CollPeer) (chunk : Nat) : chunk ∈ (p.ack chunk).acked := by
  unfold CollPeer.ack
  split
  next h => exact List.contains_iff_mem.mp h
  next => exact List.mem_cons_self ..

end Sys2Proof.Machine

namespace Sys2Proof
open Machine

/-- Settles O46: what a completion, a bank's acceptance, a counted run, a circuit's word, a table load and a message do
to the one operation or bank that they concern. -/
theorem engineOperationsEnd : Obligations.EngineOperationsEnd := by
  unfold Obligations.EngineOperationsEnd
  intro s core h c op hc hop counted inTrug
  have ho : s.HasOp core h op := ⟨c, hc, hop⟩
  have hh := ho.handle
  refine ⟨?_, ?_, ?_, ?_, ?_, ?_, ?_, ?_, ?_⟩
  · intro hmay hd
    obtain ⟨hmem, hcore, hcount, htrug⟩ := State.finishOp_ends hc hd
    refine ⟨_, _, by rw [engineCompletion_eq ho, if_pos hmay], hmem, hcore, ?_, ?_, ?_, ?_, hcount, htrug⟩
    · rw [← hh]
      rfl
    · intro k hk hm howner
      have := (List.mem_filter.mp hk).2
      simp [hm, howner, hh] at this
    · intro k hk hor
      refine List.mem_filter.mpr ⟨hk, ?_⟩
      simpa [hh] using hor
    · intro hs
      rw [← hh]
      exact c.opEnds_done op.status hs
  · intro hmay
    rw [engineCompletion_eq ho, hmay]
    rfl
  · intro w tm hw ht hd
    obtain ⟨hmem, hop', hteam⟩ := State.bankTake_written ho ht hd
    exact ⟨_, _, _, engineRun_bank ho hw, hmem, hop'.found, rfl, rfl, hteam, fun hwf => Team.write_bytes _ _ hwf,
      fun a ha => cget_cputs_outside _ _ ha⟩
  · intro r hr hb hwait hread hex hk hcoll
    have hpause : op.atPause = false := by simp [EngOp.atPause, hr]
    have hgo := engineRun_run ho hb hwait hread hex hpause hk hr
    constructor
    · intro hvis hd
      obtain ⟨hmem, ⟨op', hop', hrun, hprog, hout⟩, hcount, htrug⟩ := State.countVisible_counts ho hd
      refine ⟨_, op', ?_, hmem, hop'.found, hrun, hprog, hout, hcount, htrug⟩
      have more : ¬ (op.kind = 4 ∧ op.total ≤ op.progress) := fun hc => Nat.not_le.mpr (hcoll hc.1) hc.2
      rw [hgo, hvis, if_neg more]
      rfl
    · intro hvis
      rw [hgo, hvis]
      rfl
  · intro hrun hbegun hwait hread hex hpaused hk
    have hb : s.bankReady op = none := by rw [State.bankReady, hrun]; rfl
    have hgo := engineRun_idle ho hb hwait hread hex (by simp [EngOp.atPause, hpaused]) hk hrun
    have hcore : s.core core = c := by rw [State.core, hc]; rfl
    simp only [State.opGo, hbegun, hcore, hh, Bool.false_eq_true, if_false] at hgo
    constructor
    · intro hmay
      rw [hgo, if_pos hmay]
      exact ho.becomes_modOp (fun o => { o with begun := true }) rfl ⟨rfl, rfl⟩
    · intro hmay
      rw [hgo, hmay]
      rfl
  · intro hk hwait hout p hp hhome hread hd w ahead port becomes sides
    exact circuitMet_outcomes ho hout (circuitBarrierMatch_eq ho hk hwait hout hp hhome hread hd) rfl
  · intro k b load hb hl hdue hw bs hr
    obtain ⟨t, c', he, hcells, hupdates, hc', hb'⟩ := atloadComplete_loads hc hb hl hdue hw hr
    refine ⟨t, c', _, he, hcells, hupdates, hc', hb', rfl, rfl, fun i v hi => ?_⟩
    have := cget_cputs_at (a := 0) (t := []) rfl hi
    rwa [Nat.zero_add] at this
  · intro msg hear hothers becomes
    have he : exec (.collChunkReceive msg) s = .next (s.collHear core op msg) :=
      congrArg Host.Outcome.next (State.collTake_heard hc hear hothers)
    have hmem : op ∈ c.ops.filter fun o => o.hears msg := by
      rw [hear]
      exact List.mem_singleton.mpr rfl
    have hout : op.outcome = none := EngOp.hears_outcome (List.mem_filter.mp hmem).2
    have becomes_of {f : EngOp → Prop} (hb : OpBecomes s (.next (s.collHear core op msg)) core h f) : becomes f := by
      obtain ⟨t, op', ht, hb⟩ := hb
      exact ⟨t, op', he.trans ht, hb⟩
    refine ⟨fun hk hn => becomes_of ?_, fun hk hf => becomes_of ?_, fun hk hf => becomes_of ?_,
      fun hk => becomes_of ?_⟩
    · obtain ⟨hmem, op', hop', hparts, hout'⟩ := State.collHold_holds ho msg.data hn
      simp only [State.collHear, hk]
      exact ⟨_, op', rfl, hmem, hop'.found, hparts, hout'.trans hout⟩
    · simp only [State.collHear, hk, hf, hh, beq_self_eq_true, if_true]
      refine ho.becomes_modOp (fun o => { o with
        peers := modPeer msg.rank (fun p => { p with fields := some _ }) o.peers }) rfl ⟨hout, ?_⟩
      intro p hp hr
      obtain ⟨q, -, rfl⟩ := List.mem_map.mp hp
      dsimp only at hr ⊢
      split at hr
      next hq => rw [if_pos hq]
      next hq => exact absurd hr hq
    · simp only [State.collHear, hk, hh, beq_eq_false_iff_ne.mpr hf, Bool.false_eq_true, if_false]
      exact (ho.modOp (f := fun o => { o with
        peers := modPeer msg.rank (fun p => { p with fields := some msg.fields }) o.peers }) rfl).becomes_failOp _ _ rfl
    · simp only [State.collHear, hk, hh]
      refine ho.becomes_modOp (fun o => { o with peers := modPeer msg.rank (·.ack msg.chunk) o.peers }) rfl ⟨hout, ?_⟩
      intro p hp hr
      obtain ⟨q, -, rfl⟩ := List.mem_map.mp hp
      dsimp only at hr ⊢
      split at hr
      next hq =>
        rw [if_pos hq]
        exact q.ack_acked msg.chunk
      next hq => exact absurd hr hq
  · intro msg hnone key
    have he : exec (.collChunkReceive msg) s = .next _ :=
      congrArg Host.Outcome.next (State.collTake_unheard hnone)
    refine ⟨fun hk hkey => he.trans ?_, fun hk hkey => he.trans ?_, fun hk => he.trans ?_⟩
    · rw [hk, show s.fabric.collOwed.contains (msg.members, msg.number, msg.rank) = false by simpa using hkey]
      rfl
    · rw [hk, show s.fabric.collOwed.contains (msg.members, msg.number, msg.rank) = true by simpa using hkey]
      rfl
    · rw [if_pos (by simpa using hk)]

end Sys2Proof
end

section
/-!
PROOFS. The runs of engine operations: what each kind reads and writes (R215, R217 to R223, R361, R365).
-/

-- One proof after another: each that waits beside others holds a stack of its own.
set_option Elab.async false

namespace Sys2Proof.Machine

/-! ## A step of an operation (R215, R291) -/

/-- What caching the translations of a step leaves. -/
structure State.CacheKept (s t : State) : Prop where
  cells : t.mem.cells = s.mem.cells
  updates : t.mem.updates = s.mem.updates
  teams : t.teams = s.teams
  cores : t.cores = s.cores

theorem State.CacheKept.refl (s : State) : s.CacheKept s := ⟨rfl, rfl, rfl, rfl⟩

theorem State.CacheKept.trans {s t u : State} (h : s.CacheKept t) (k : t.CacheKept u) : s.CacheKept u :=
  ⟨k.cells.trans h.cells, k.updates.trans h.updates, k.teams.trans h.teams, k.cores.trans h.cores⟩

theorem State.cacheXlat_cacheKept (s : State) (core root va : Nat) : s.CacheKept (s.cacheXlat core root va) := by
  obtain ⟨mem, h⟩ := s.cacheXlat_memory core root va
  refine ⟨(s.cacheXlat_still core root va).1, (s.cacheXlat_still core root va).2.1, ?_, ?_⟩ <;> rw [h]

theorem State.reachHome_cacheKept (s : State) (p : Place) (write : Bool) (n : Nat) :
    s.CacheKept (s.reachHome p write n) := by
  refine ⟨(s.reachHome_still p write n).1, (s.reachHome_still p write n).2.1, ?_, s.reachHome_cores p write n⟩
  unfold State.reachHome State.atHome
  split <;> rfl

theorem State.opCache_cacheKept (s : State) (core : Nat) (op : EngOp) : s.CacheKept (s.opCache core op) := by
  refine foldl_rel State.CacheKept State.CacheKept.refl State.CacheKept.trans id _ (fun (s : State) t => ?_)
    op.touches s
  dsimp only [id]
  split
  next p _ =>
    have reached := (s.cacheXlat_cacheKept core (s.rootOf op.grid) t.1).trans
      (State.reachHome_cacheKept _ p t.2.2 t.2.1)
    split
    · exact reached.trans ⟨rfl, rfl, rfl, rfl⟩
    · exact reached
  · exact .refl s

/-- A step leaves memory's bytes and the teams, and the operation as `f` says, which has not ended. -/
def State.Advances (s u : State) (core h : Nat) (f : State → EngOp → Prop) : Prop :=
  u.mem.cells = s.mem.cells ∧ u.teams = s.teams ∧ ∃ op', u.HasOp core h op' ∧ op'.outcome = none ∧ f u op'

/-- An operation that has begun, waits for nothing and has read its list goes on with its next run. -/
structure EngOp.Running (op : EngOp) : Prop where
  begun : op.begun = true
  started : op.waiting = false
  read : op.reading = none
  arrived : op.run = none
  more : op.exhausted = false
  unpaused : op.paused = false
  listed : op.list.length = op.listSpan.2

section
variable {s : State} {core h : Nat} {op : EngOp} (ho : s.HasOp core h op) (hr : op.Running)

include hr in
theorem EngOp.Running.outcome : op.outcome = none := by
  have := hr.more
  rw [EngOp.exhausted, Bool.or_eq_false_iff, Option.isSome_eq_false_iff, Option.isNone_iff_eq_none] at this
  exact this.1

include hr in
/-- Such an operation has bytes to move, where it is not a collective. -/
theorem EngOp.Running.left (h4 : op.kind ≠ 4) (hk : op.kind < 10) : op.progress < op.total := by
  refine Nat.lt_of_not_le fun hle => Bool.false_ne_true (hr.more.symm.trans ?_)
  simp [EngOp.exhausted, hr.begun, hr.listed, hle, h4, hk]

include ho hr in
theorem engineRun_steps (hk : op.kind ≤ 10) :
    exec (.engineRunDelivered core h) s = .next ((s.opStep core op).opCache core op) := by
  have hb : s.bankReady op = none := by
    rw [State.bankReady, hr.arrived]
    rfl
  have hp : op.atPause = false := by
    rw [EngOp.atPause, hr.unpaused]
    rfl
  rw [engineRun_idle ho hb hr.started hr.read hr.more hp hk hr.arrived]
  simp only [State.opGo, hr.begun, if_true]

include ho hr in
/-- A step is the event's, up to what the caches then hold. -/
theorem engineRun_advances (hk : op.kind ≤ 10) {f : State → EngOp → Prop}
    (stable : ∀ op', f (s.opStep core op) op' → f ((s.opStep core op).opCache core op) op')
    (hs : s.Advances (s.opStep core op) core h f) :
    ∃ t op', exec (.engineRunDelivered core h) s = .next t ∧ t.mem.cells = s.mem.cells ∧ t.teams = s.teams ∧
      t.op? core h = some op' ∧ op'.outcome = none ∧ f t op' := by
  obtain ⟨hcells, hteams, op', hop', hout, hf⟩ := hs
  have kept := (s.opStep core op).opCache_cacheKept core op
  exact ⟨_, op', engineRun_steps ho hr hk, kept.cells.trans hcells, kept.teams.trans hteams,
    (hop'.congr kept.cores).found, hout, stable op' hf⟩

include hr in
theorem EngOp.Running.opStep_xfer (hk : op.kind = 1 ∨ op.kind = 2 ∨ op.kind = 3) :
    s.opStep core op = s.xferStep core op := by
  rcases hk with hk | hk | hk <;> simp only [State.opStep, hr.listed, Nat.lt_irrefl, if_false, hk]

include hr in
theorem EngOp.Running.opStep_coll (hk : op.kind = 4) : s.opStep core op = s.collStep core op := by
  simp only [State.opStep, hr.listed, Nat.lt_irrefl, if_false, hk]

include hr in
theorem EngOp.Running.opStep_bank (hk : op.kind = 5 ∨ op.kind = 6) : s.opStep core op = s.bankStep core op := by
  rcases hk with hk | hk <;> simp only [State.opStep, hr.listed, Nat.lt_irrefl, if_false, hk]

include hr in
theorem EngOp.Running.opStep_range (hk : op.kind = 8 ∨ op.kind = 9) : s.opStep core op = s.rangeStep core op := by
  rcases hk with hk | hk <;> simp only [State.opStep, hr.listed, Nat.lt_irrefl, if_false, hk]

end

/-! ## What an engine writes (R209, R215, R219, R291) -/

/-- An operation's run has gone to memory: it is received after every earlier one. -/
def EngOp.Wrote (op : EngOp) (pa : Nat) (bs : List Byte) (t : State) (op' : EngOp) : Prop :=
  op'.progress = op.progress + bs.length ∧ ∃ r, op'.run = some r ∧ r.bytes = bs.length ∧
    r.remote = [] ∧ r.banks = [] ∧ op'.lastWct = r.wct ∧ t.mem.received pa bs op.lastWct r.wct

/-- An operation's run is on its way to banks. -/
def EngOp.SentTo (op : EngOp) (s : State) (places : List (Team × Nat)) (bs : List Byte) (t : State) (op' : EngOp) :
    Prop :=
  op'.progress = op.progress + bs.length ∧ t.mem.updates = s.mem.updates ∧ ∃ r, op'.run = some r ∧
    r.bytes = bs.length ∧ r.remote = [] ∧ (∀ w ∈ r.banks, s.gtime ≤ w.due) ∧
    r.banks.map (fun w => (w.team, w.offset, w.bytes)) = places.map fun (u, off) => (u.uid, off, bs)

theorem Memory.received_congr {m n : Memory} (h : n.updates = m.updates) {pa : Nat} {bs : List Byte} {low high : Nat}
    (hr : m.received pa bs low high) : n.received pa bs low high := by
  rw [Memory.received, h]
  exact hr

theorem EngOp.Wrote.congr {op op' : EngOp} {pa : Nat} {bs : List Byte} {t t' : State}
    (h : t'.mem.updates = t.mem.updates) (hw : op.Wrote pa bs t op') : op.Wrote pa bs t' op' := by
  obtain ⟨hp, r, hrun, hb, hrem, hbanks, hlast, hrec⟩ := hw
  exact ⟨hp, r, hrun, hb, hrem, hbanks, hlast, Memory.received_congr h hrec⟩

theorem EngOp.SentTo.congr {op op' : EngOp} {s : State} {places : List (Team × Nat)} {bs : List Byte} {t t' : State}
    (h : t'.mem.updates = t.mem.updates) (hw : op.SentTo s places bs t op') : op.SentTo s places bs t' op' :=
  ⟨hw.1, h.trans hw.2.1, hw.2.2⟩

section
variable {s : State} {core h : Nat} {op : EngOp} (ho : s.HasOp core h op)

theorem State.engStore_rest (s : State) (op : EngOp) (pa : Nat) (bs : List Byte) (alu : Bool) :
    (s.engStore op pa bs alu).1.mem.cells = s.mem.cells ∧ (s.engStore op pa bs alu).1.teams = s.teams ∧
      (s.engStore op pa bs alu).1.cores = s.cores :=
  ⟨Memory.receive_cells .., rfl, rfl⟩

theorem State.engStore_received (s : State) (op : EngOp) (pa : Nat) (bs : List Byte) (alu : Bool) :
    (s.engStore op pa bs alu).1.mem.received pa bs op.lastWct (s.engStore op pa bs alu).2 :=
  Memory.receive_received _ _ _ _ _ _ _ (Nat.le_max_right ..)

/-- A store of some byte is visible after every earlier one of the operation. -/
theorem State.engStore_later {pa : Nat} {bs : List Byte} (hne : bs ≠ []) (alu : Bool) :
    op.lastWct ≤ (s.engStore op pa bs alu).2 := by
  cases bs with
  | nil => exact absurd rfl hne
  | cons b bs =>
    obtain ⟨u, -, -, -, hlow, hhigh⟩ := s.engStore_received op pa (b :: bs) alu 0 b rfl
    exact hlow.le.trans hhigh

variable (hout : op.outcome = none)

include ho hout in
theorem State.engWrite_writes {va : Nat} {bs : List Byte} {p : Place} (hp : s.engPlace op va true = .inl p)
    (hhome : p.home = true) (hm : s.mem.mergedByte p.pa bs.length = none) (hne : bs ≠ []) :
    s.Advances (s.engWrite core op va bs) core h (op.Wrote p.pa bs) := by
  obtain ⟨hcells, hteams, hcores⟩ := s.engStore_rest op p.pa bs false
  have hw : s.engWrite core op va bs = (s.engStore op p.pa bs false).1.modOp core h fun o =>
      o.wrote bs.length (s.engStore op p.pa bs false).2 [] := by
    rw [State.engWrite, hp]
    dsimp only
    rw [if_pos hhome, hm, ho.handle]
  rw [hw]
  refine ⟨hcells, hteams, _, (ho.congr hcores).modOp (f := fun o =>
    o.wrote bs.length (s.engStore op p.pa bs false).2 []) rfl, hout, rfl, _, rfl, rfl, rfl, rfl, ?_,
    s.engStore_received op p.pa bs false⟩
  exact max_eq_right (State.engStore_later hne false)

/-- The writes of a run to banks, each after a free delay. -/
def State.bankWrites (s : State) (places : List (Team × Nat)) (addr : Nat) (bs : List Byte) : List BankWrite :=
  mapFrom (fun k (u, off) => { due := s.gtime + Config.latency (s.clock.fresh + k), team := u.uid, offset := off,
                               address := addr, bytes := bs : BankWrite }) 0 places

include ho hout in
theorem State.engWriteScratch_sends {found : List (Option (Team × Nat))} {places : List (Team × Nat)}
    (hf : found = places.map some) (addr : Nat) (bs : List Byte) :
    s.Advances (s.engWriteScratch core op found addr bs) core h (op.SentTo s places bs) := by
  subst hf
  have all : (places.map some).any (·.isNone) = false := by
    rw [List.any_eq_false]
    intro p hp
    obtain ⟨q, -, rfl⟩ := List.mem_map.mp hp
    exact Bool.false_ne_true
  have these : (places.map some).filterMap id = places := by
    rw [List.filterMap_map]
    exact List.filterMap_some ..
  have hw : s.engWriteScratch core op (places.map some) addr bs =
      ({ s with clock := { s.clock with fresh := s.clock.fresh + (s.bankWrites places addr bs).length } } : State).modOp
        core h fun o => { o.wrote bs.length 0 [] with run := (o.wrote bs.length 0 []).run.map fun r =>
          { r with banks := s.bankWrites places addr bs } } := by
    rw [State.engWriteScratch, all, these, ho.handle]
    rfl
  rw [hw]
  refine ⟨rfl, rfl, _, (ho.congr rfl).modOp (f := fun o => { o.wrote bs.length 0 [] with
    run := (o.wrote bs.length 0 []).run.map fun r => { r with banks := s.bankWrites places addr bs } }) rfl, hout, rfl,
    rfl, _, rfl, rfl, rfl, fun w hw => ?_, List.ext_getElem? fun i => ?_⟩
  · obtain ⟨i, q, -, rfl⟩ := mem_mapFrom.mp hw
    exact Nat.le_add_right ..
  · dsimp only [State.bankWrites]
    rw [List.getElem?_map, List.getElem?_map, mapFrom_getElem?]
    cases places[i]? <;> rfl

end

/-! ## Transfers (R212, R217, R219) -/

/-- The bytes that an operation reads where nothing stands in its way on this part. -/
def State.Reads (s : State) (op : EngOp) (scratch : Bool) (a n : Nat) (bs : List Byte) : Prop :=
  if scratch then
    ∃ u off, s.engScratch op a n = some (u, off) ∧ scratchDamaged u off n = none ∧ bs = cgets u.scratch off n
  else ∃ p, s.engPlace op a false = .inl p ∧ p.home = true ∧ s.mem.ingressUntil p.pa n ≤ s.gtime ∧
    s.mem.damagedByte p.pa n = none ∧ bs = cgets s.mem.cells p.pa n

theorem cgets_length (t : List Host.Cell) (a n : Nat) : (cgets t a n).length = n := by
  induction n generalizing a with
  | zero => rfl
  | succ n ih => rw [cgets, List.length_cons, ih]

section
variable {s : State} {op : EngOp} {scratch : Bool} {a n : Nat} {bs : List Byte}

theorem State.engRead_bytes {p : Place} (hp : s.engPlace op a false = .inl p) (hhome : p.home = true)
    (hi : s.mem.ingressUntil p.pa n ≤ s.gtime) (hd : s.mem.damagedByte p.pa n = none) :
    s.engRead op a n = .bytes (cgets s.mem.cells p.pa n) := by
  rw [State.engRead, hp]
  simp only [hhome, Bool.not_true, Bool.false_eq_true, if_false, Nat.not_lt.mpr hi, hd]
  rfl

theorem State.Reads.fetched (h : s.Reads op scratch a n bs) :
    (if scratch then s.engReadScratch op a n else s.engRead op a n) = .bytes bs := by
  cases scratch with
  | true =>
    obtain ⟨u, off, hu, hd, rfl⟩ : ∃ u off, s.engScratch op a n = some (u, off) ∧ _ := h
    simp only [if_true, State.engReadScratch, hu, hd]
    rfl
  | false =>
    obtain ⟨p, hp, hhome, hi, hd, rfl⟩ : ∃ p, s.engPlace op a false = .inl p ∧ _ := h
    exact State.engRead_bytes hp hhome hi hd

theorem State.Reads.length (h : s.Reads op scratch a n bs) : bs.length = n := by
  cases scratch with
  | true =>
    obtain ⟨u, off, -, -, rfl⟩ : ∃ u off, s.engScratch op a n = some (u, off) ∧ _ := h
    exact cgets_length ..
  | false =>
    obtain ⟨p, -, -, -, -, rfl⟩ : ∃ p, s.engPlace op a false = .inl p ∧ _ := h
    exact cgets_length ..

end

theorem State.engPlace_modOp (s : State) (core h : Nat) (f : EngOp → EngOp) (op : EngOp) (va : Nat) (write : Bool) :
    (s.modOp core h f).engPlace op va write = s.engPlace op va write := by
  have view : s.SameView (s.modOp core h f) := ⟨rfl, rfl, rfl, rfl⟩
  rw [State.engPlace, State.engPlace, State.engPlaceIn, State.engPlaceIn,
    show (s.modOp core h f).coreOf op.team = s.coreOf op.team from rfl, view.xlatG]
  rfl

section
variable {s : State} {core h : Nat} {op : EngOp} (ho : s.HasOp core h op)

theorem State.xferStep_reads {src dst : Piece} {bs : List Byte} (hd : op.data = []) (hsrc : op.source = .inl src)
    (hdst : (if op.kind == 1 && cpyDTRUG op.words then .inl ⟨true, 0, 512⟩ else op.destination) = .inl dst)
    (hr : s.Reads op src.scratch src.addr (min (min src.len dst.len) (512 - op.progress % 512)) bs) :
    s.xferStep core op =
      (s.modOp core op.handle fun o => { o with data := bs }).xferWrite core { op with data := bs } := by
  unfold State.xferStep
  rw [hd, hsrc, hdst]
  dsimp only
  rw [hr.fetched]
  rfl

/-- Fetched bytes that go to a side that is no trug. -/
theorem State.xferWrite_side {dst : Piece} (ht : (cpyDTRUG op.words && op.kind == 1) = false)
    (hdst : op.destination = .inl dst) (hlen : op.data.length ≤ dst.len) : s.xferWrite core op =
      if !dst.scratch then s.engWrite core op dst.addr op.data
      else if op.kind == 1 && cpyMCAST op.words then
        s.engWriteScratch core op ((membersOf (wd op.words 11)).map fun m =>
          s.engScratch op (memberAddr m (dst.addr % 2 ^ 28)) op.data.length) dst.addr op.data
      else s.engWriteScratch core op [s.engScratch op dst.addr op.data.length] dst.addr op.data := by
  unfold State.xferWrite
  rw [ht, hdst]
  dsimp only
  rw [List.take_of_length_le hlen]
  rfl

/-- Fetched bytes that go to a slot of a trug, which every consumer has. -/
theorem State.xferWrite_slot (hk : op.kind = 1) (hc : cpyDTRUG op.words = true) {v : Team} {off i : Nat}
    (hv : s.opTrug op = some (v, off)) (hi : op.trugSlot = some i)
    (hdam : trugDamaged v off [(0, 16), (64 + 4 * i, 4)] = none)
    (hfit : op.data.length ≤ v.trugSize off - op.progress % v.trugSize off) : s.xferWrite core op =
      s.engWriteScratch core op ((membersOf (v.trugConsumers off)).map fun m => s.engScratch op
          (memberAddr m (v.trugBase off + i * v.trugSize off + op.progress % v.trugSize off)) op.data.length)
        (v.trugBase off + i * v.trugSize off + op.progress % v.trugSize off) op.data := by
  have same : { op with trugSlot := some i } = op := by rw [← hi]
  have copy : (op.kind == 1) = true := beq_iff_eq.mpr hk
  unfold State.xferWrite
  simp only [hc, copy, hv, hi, Option.getD_some, hdam, State.slotFor, List.take_of_length_le hfit, same, Bool.and_self,
    if_true]

variable {src dst : Piece} {n : Nat} {bs : List Byte} (hr : op.Running) (hd : op.data = [])
  (hsrc : op.source = .inl src) (hdst : op.destination = .inl dst)
  (ht : (cpyDTRUG op.words && op.kind == 1) = false)
  (hn : min (min src.len dst.len) (512 - op.progress % 512) = n) (hreads : s.Reads op src.scratch src.addr n bs)

include hd hsrc hdst ht hn hreads in
/-- A run that was read goes to its destination. -/
theorem State.xferStep_side : s.xferStep core op =
    (let s1 := s.modOp core op.handle fun o => { o with data := bs }
     let op1 : EngOp := { op with data := bs }
     if !dst.scratch then s1.engWrite core op1 dst.addr bs
     else if op.kind == 1 && cpyMCAST op.words then
       s1.engWriteScratch core op1 ((membersOf (wd op.words 11)).map fun m =>
         s.engScratch op (memberAddr m (dst.addr % 2 ^ 28)) bs.length) dst.addr bs
     else s1.engWriteScratch core op1 [s.engScratch op dst.addr bs.length] dst.addr bs) := by
  subst hn
  have hside : (if op.kind == 1 && cpyDTRUG op.words then .inl ⟨true, 0, 512⟩ else op.destination) = .inl dst := by
    rw [Bool.and_comm, ht]
    exact hdst
  have hlen : bs.length ≤ dst.len := hreads.length ▸ (Nat.min_le_left ..).trans (Nat.min_le_right ..)
  rw [State.xferStep_reads hd hsrc hside hreads]
  exact State.xferWrite_side (op := { op with data := bs }) ht hdst hlen

include ho in
/-- The operation with what it has read. -/
theorem State.HasOp.fetched (bs : List Byte) :
    (s.modOp core op.handle fun o => { o with data := bs }).HasOp core h { op with data := bs } := by
  obtain rfl := ho.handle
  exact ho.modOp (f := fun o => { o with data := bs }) rfl

include ho hr hd hsrc hdst ht hn hreads in
theorem State.xferStep_writes (hs : dst.scratch = false) (hpos : 0 < n) {p : Place}
    (hp : s.engPlace op dst.addr true = .inl p) (hhome : p.home = true)
    (hm : s.mem.mergedByte p.pa bs.length = none) :
    s.Advances (s.xferStep core op) core h (op.Wrote p.pa bs) := by
  have hne : bs ≠ [] := List.length_pos_iff.mp (hreads.length ▸ hpos)
  rw [State.xferStep_side hd hsrc hdst ht hn hreads, hs]
  exact State.engWrite_writes (ho.fetched bs) hr.outcome ((s.engPlace_modOp ..).trans hp) hhome hm hne

include ho hr hd hsrc hdst ht hn hreads in
theorem State.xferStep_sends (hs : dst.scratch = true) (hc : (op.kind == 1 && cpyMCAST op.words) = false)
    {places : List (Team × Nat)} (hp : [s.engScratch op dst.addr bs.length] = places.map some) :
    s.Advances (s.xferStep core op) core h (op.SentTo s places bs) := by
  rw [State.xferStep_side hd hsrc hdst ht hn hreads, hs, hc]
  exact State.engWriteScratch_sends (ho.fetched bs) hr.outcome hp dst.addr bs

include ho hr hd hsrc hdst ht hn hreads in
theorem State.xferStep_casts (hs : dst.scratch = true) (hc : (op.kind == 1 && cpyMCAST op.words) = true)
    {places : List (Team × Nat)} (hp : ((membersOf (wd op.words 11)).map fun m =>
      s.engScratch op (memberAddr m (dst.addr % 2 ^ 28)) bs.length) = places.map some) :
    s.Advances (s.xferStep core op) core h (op.SentTo s places bs) := by
  rw [State.xferStep_side hd hsrc hdst ht hn hreads, hs, hc]
  exact State.engWriteScratch_sends (ho.fetched bs) hr.outcome hp dst.addr bs

include ho hr hd hsrc hreads in
/-- A run of a copy into a trug goes to the slot of every consumer. -/
theorem State.xferStep_fills (hk : op.kind = 1) (hc : cpyDTRUG op.words = true) {v : Team} {off i : Nat}
    (hv : s.opTrug op = some (v, off)) (hi : op.trugSlot = some i)
    (hdam : trugDamaged v off [(0, 16), (64 + 4 * i, 4)] = none)
    (hn : min (min src.len 512) (512 - op.progress % 512) = n)
    (hfit : n ≤ v.trugSize off - op.progress % v.trugSize off)
    {places : List (Team × Nat)} (hp : ((membersOf (v.trugConsumers off)).map fun m => s.engScratch op
      (memberAddr m (v.trugBase off + i * v.trugSize off + op.progress % v.trugSize off)) bs.length) =
        places.map some) :
    s.Advances (s.xferStep core op) core h (op.SentTo s places bs) := by
  subst hn
  rw [State.xferStep_reads hd hsrc (dst := ⟨true, 0, 512⟩) (by rw [hk, hc]; rfl) hreads]
  have hw := State.xferWrite_slot (s := s.modOp core op.handle fun o => { o with data := bs }) (core := core)
    (op := { op with data := bs }) hk hc hv hi hdam (hreads.length ▸ hfit)
  rw [hw]
  exact State.engWriteScratch_sends (ho.fetched bs) hr.outcome hp _ bs

end

/-! ## Bank memory operations (R220, R221) -/

/-- A place in bank memory serves any operation, and is on this part. -/
theorem State.engPlaceIn_bank {s : State} {op : EngOp} {va : Nat} {write : Bool} {p : Place}
    (h : s.engPlaceIn true op va write = .inl p) : s.engPlace op va write = .inl p ∧ p.home = true := by
  unfold State.engPlace
  unfold State.engPlaceIn at h ⊢
  split at h
  · cases h
  next hva =>
    rw [if_neg hva]
    split at h
    next => cases h
    next => cases h
    next q hq =>
      simp only [Bool.true_and, bne_iff_ne] at h
      split at h
      · cases h
      next hbank =>
        have h3 : q.aper = 3 := not_not.mp hbank
        simp only [h3, Bool.false_and, Bool.false_eq_true, if_false, show ¬ (3 = 1) by decide] at h ⊢
        split at h
        · cases h
        next hperm =>
          cases h
          rw [if_neg hperm]
          exact ⟨rfl, by rw [Place.home, h3]; rfl⟩

section
variable {s : State} {core h : Nat} {op : EngOp}

theorem State.bankRead_bytes {a n : Nat} {p : Place} (hp : s.engPlaceIn true op a false = .inl p)
    (hi : s.mem.ingressUntil p.pa n ≤ s.gtime) (hd : s.mem.damagedByte p.pa n = none) :
    s.bankRead op a n = .bytes (cgets s.mem.cells p.pa n) := by
  obtain ⟨hplace, hhome⟩ := State.engPlaceIn_bank hp
  rw [State.bankRead, hp]
  exact State.engRead_bytes hplace hhome hi hd

/-- Operands that are all read. -/
theorem State.bankReads_columns {n : Nat} (as : List Nat) (columns : List (List Byte))
    (hlen : columns.length = as.length)
    (h : ∀ (k a : Nat), as[k]? = some a → ∃ column, columns[k]? = some column ∧ s.bankRead op a n = .bytes column) :
    s.bankReads op n as = .inl columns := by
  induction as generalizing columns with
  | nil => rw [List.length_eq_zero_iff.mp hlen]; rfl
  | cons a as ih =>
    cases columns with
    | nil => cases hlen
    | cons column columns =>
      obtain ⟨first, hfirst, hread⟩ := h 0 a rfl
      cases hfirst
      have rest := ih columns (Nat.succ.inj hlen) fun k b hk => h (k + 1) b hk
      rw [State.bankReads, hread]
      dsimp only
      rw [rest]

/-- An element of a piece's bytes. -/
theorem elemsOf_getD {size k i : Nat} (hi : i < k) {bs : List Byte}
    (hlen : size * i < bs.length) : (elemsOf size k bs).getD i 0 = leNat ((bs.drop (size * i)).take size) := by
  induction k generalizing i bs with
  | zero => cases hi
  | succ k ih =>
    have hne : bs.isEmpty = false := by
      cases bs with
      | nil => cases hlen
      | cons b bs => rfl
    rw [elemsOf, hne, if_neg Bool.false_ne_true]
    cases i with
    | zero => rfl
    | succ i =>
      have hmul : size * (i + 1) = size + size * i := by rw [Nat.mul_succ, Nat.add_comm]
      rw [List.getD_cons_succ, ih (Nat.lt_of_succ_lt_succ hi) (by rw [List.length_drop]; omega), List.drop_drop, hmul]

/-- The bytes that a bank operation's run may have: none past a boundary, and whole elements. -/
def bankRun (srcs : List Nat) (z left progress size : Nat) : Nat :=
  (srcs.foldl (fun n a => min n (toBoundary (a + progress))) (min left (toBoundary (z + progress)))) / size * size

theorem toBoundary_pos (a : Nat) : 0 < toBoundary a := Nat.sub_pos_of_lt (Nat.mod_lt _ (by decide))

theorem toBoundary_le (a : Nat) : toBoundary a ≤ 512 := Nat.sub_le ..

theorem bankRun_elements_le (srcs : List Nat) (z left progress : Nat) {size : Nat} (hs : 0 < size) :
    bankRun srcs z left progress size / size ≤ 512 := by
  have shrinks (x : Nat) : srcs.foldl (fun n a => min n (toBoundary (a + progress))) x ≤ x :=
    foldl_rel (fun m n : Nat => n ≤ m) Nat.le_refl (fun h k => k.trans h) id _ (by intro n a; exact Nat.min_le_left ..)
      srcs x
  rw [bankRun, Nat.mul_div_cancel _ hs]
  exact (Nat.div_le_self ..).trans ((shrinks _).trans ((Nat.min_le_right ..).trans (toBoundary_le _)))

/-- The bytes that a bank operation's run writes: the element of each place of the operands. -/
def EngOp.bankBytes (op : EngOp) (size n : Nat) (columns : List (List Byte)) : List Byte :=
  ((List.range (n / size)).map fun i =>
    natLe size (op.bankElem (columns.map fun column => leNat ((column.drop (size * i)).take size)))).flatten

theorem EngOp.bankBytes_elems (op : EngOp) {size n : Nat} (hs : 0 < size) (hn : n / size ≤ 512)
    {columns : List (List Byte)} (hlen : ∀ column ∈ columns, column.length = n) :
    (((List.range (n / size)).map fun i =>
      op.bankElem ((columns.map (elemsOf size 512)).map fun c => c.getD i 0)).map (natLe size)).flatten =
      op.bankBytes size n columns := by
  rw [EngOp.bankBytes, List.map_map]
  refine congrArg List.flatten (List.map_congr_left fun i hi => ?_)
  have hi : i < n / size := List.mem_range.mp hi
  rw [Function.comp_apply, List.map_map]
  refine congrArg (fun xs => natLe size (op.bankElem xs)) (List.map_congr_left fun column hc => ?_)
  refine elemsOf_getD (hi.trans_le hn) ?_
  rw [hlen column hc, Nat.mul_comm]
  exact (Nat.mul_lt_mul_of_pos_right hi hs).trans_le (Nat.div_mul_le_self ..)

/-- A run of a bank operation whose operands are all read writes their elements. -/
theorem State.bankStep_writes (ho : s.HasOp core h op) (hr : op.Running) {srcs : List Nat} {z size : Nat}
    (hops : op.bankOperands = (srcs, z, size)) (hs : 0 < size) (hsrcs : ∀ a ∈ srcs, a % size = 0 ∧ a < 2 ^ 48) {n : Nat}
    (hn : bankRun srcs z (op.total - op.progress) op.progress size = n) {columns : List (List Byte)} {q : Place}
    (hlen : columns.length = srcs.length)
    (hcols : ∀ (k a : Nat), srcs[k]? = some a → ∃ p, s.engPlaceIn true op (a + op.progress) false = .inl p ∧
      s.mem.ingressUntil p.pa n ≤ s.gtime ∧ s.mem.damagedByte p.pa n = none ∧
      columns[k]? = some (cgets s.mem.cells p.pa n))
    (hq : s.engPlaceIn true op (z + op.progress) true = .inl q) (hm : s.mem.mergedByte q.pa n = none) :
    s.Advances (s.bankStep core op) core h fun t op' => op'.progress = op.progress + n ∧ ∃ r, op'.run = some r ∧
      r.bytes = n ∧ r.banks = [] ∧ r.remote = [] ∧
      t.mem.received q.pa (op.bankBytes size n columns) op.lastWct r.wct := by
  have good : srcs.find? (fun a => a % size != 0 || 2 ^ 48 ≤ a) = none := List.find?_eq_none.mpr fun a ha => by
    obtain ⟨h0, hlt⟩ := hsrcs a ha
    simpa [h0] using hlt
  have whole (column : List Byte) (hc : column ∈ columns) : column.length = n := by
    obtain ⟨k, hk⟩ := List.mem_iff_getElem?.mp hc
    obtain ⟨hklt, -⟩ := List.getElem?_eq_some_iff.mp hk
    obtain ⟨p, -, -, -, hp⟩ := hcols k _ (List.getElem?_eq_getElem (hlen ▸ hklt))
    rw [Option.some.inj (hk.symm.trans hp), cgets_length]
  have read : s.bankReads op n (srcs.map (· + op.progress)) = .inl columns := by
    refine State.bankReads_columns _ _ (hlen.trans (List.length_map ..).symm) fun k a hk => ?_
    rw [List.getElem?_map, Option.map_eq_some_iff] at hk
    obtain ⟨b, hb, rfl⟩ := hk
    obtain ⟨p, hp, hi, hd, hcol⟩ := hcols k b hb
    exact ⟨_, hcol, State.bankRead_bytes hp hi hd⟩
  have hw : s.bankStep core op = (s.engStore op q.pa (op.bankBytes size n columns) true).1.modOp core h fun o =>
      o.wrote n (s.engStore op q.pa (op.bankBytes size n columns) true).2 [] := by
    have hn' : (srcs.map (· + op.progress)).foldl (fun n a => min n (toBoundary a))
        (min (op.total - op.progress) (toBoundary (z + op.progress))) / size * size = n := by
      rw [List.foldl_map]
      exact hn
    unfold State.bankStep
    rw [hops]
    dsimp only
    rw [good]
    dsimp only
    rw [hn', read]
    dsimp only
    rw [hq]
    dsimp only
    rw [hm]
    dsimp only
    rw [op.bankBytes_elems hs (hn ▸ bankRun_elements_le _ _ _ _ hs) whole, ho.handle]
  obtain ⟨hcells, hteams, hcores⟩ := s.engStore_rest op q.pa (op.bankBytes size n columns) true
  rw [hw]
  exact ⟨hcells, hteams, _, (ho.congr hcores).modOp (f := fun o =>
    o.wrote n (s.engStore op q.pa (op.bankBytes size n columns) true).2 []) rfl, hr.outcome, rfl, _, rfl, rfl, rfl, rfl,
    s.engStore_received op q.pa _ true⟩

/-! ## Collectives (R361, R365) -/

/-- A collective reads on of a chunk for a rank. -/
theorem State.collStep_reads (ho : s.HasOp core h op) (hr : op.Running) (hp : op.peers ≠ []) {q k : Nat}
    (hw : op.work = some (.send q k))
    (hlen : op.data.length < chunkLen (collOf op.words op.map) op.map (collOf op.words op.map).rank k) {bs : List Byte}
    (hread : s.Reads op false
      (sendPiece (collOf op.words op.map) op.map q (k * (collOf op.words op.map).chunk + op.data.length)
        (chunkLen (collOf op.words op.map) op.map (collOf op.words op.map).rank k - op.data.length)).1
      (sendPiece (collOf op.words op.map) op.map q (k * (collOf op.words op.map).chunk + op.data.length)
        (chunkLen (collOf op.words op.map) op.map (collOf op.words op.map).rank k - op.data.length)).2 bs) :
    s.Advances (s.collStep core op) core h fun t op' => t.mem.updates = s.mem.updates ∧ op'.data = op.data ++ bs ∧
      op'.progress = op.progress ∧ op'.run = none := by
  have hstep : s.collStep core op = s.modOp core h fun o => { o with data := o.data ++ bs } := by
    unfold State.collStep
    rw [if_neg (by simpa using hp), hw]
    dsimp only
    unfold State.collRead
    rw [if_pos hlen]
    dsimp only
    have := hread.fetched
    rw [if_neg Bool.false_ne_true] at this
    rw [this, ho.handle]
  rw [hstep]
  exact ⟨rfl, rfl, _, ho.modOp (f := fun o => { o with data := o.data ++ bs }) rfl, hr.outcome, rfl, rfl, rfl,
    hr.arrived⟩

theorem recvPiece_pos (c : Coll) (map : List Byte) (p b : Nat) {left : Nat} (hl : 0 < left) :
    0 < (recvPiece c map p b left).2 := by
  refine Nat.lt_min.mpr ⟨?_, toBoundary_pos _⟩
  split
  · exact Nat.sub_pos_of_lt (Nat.mod_lt _ (Nat.two_pow_pos _))
  · exact hl

/-- A collective writes on of a chunk of a rank. -/
theorem State.collStep_writes (ho : s.HasOp core h op) (hr : op.Running) (hp : op.peers ≠ []) {r k a n : Nat}
    (hw : op.work = some (.write r k)) (hd : op.data ≠ [])
    (hpiece : recvPiece (collOf op.words op.map) op.map r (k * (collOf op.words op.map).chunk +
      (chunkLen (collOf op.words op.map) op.map r k - op.data.length)) op.data.length = (a, n)) {p : Place}
    (hplace : s.engPlace op a true = .inl p) (hhome : p.home = true)
    (hm : s.mem.mergedByte p.pa (op.data.take n).length = none) :
    s.Advances (s.collStep core op) core h (op.Wrote p.pa (op.data.take n)) := by
  have hstep : s.collStep core op = s.engWrite core op a (op.data.take n) := by
    unfold State.collStep
    rw [if_neg (by simpa using hp), hw]
    dsimp only
    unfold State.collWrite
    rw [if_neg (by simpa using hd)]
    dsimp only
    rw [hpiece]
  have hpos : 0 < n := by
    have := recvPiece_pos (collOf op.words op.map) op.map r (k * (collOf op.words op.map).chunk +
      (chunkLen (collOf op.words op.map) op.map r k - op.data.length)) (List.length_pos_iff.mpr hd)
    rwa [hpiece] at this
  have hne : op.data.take n ≠ [] := by
    rw [ne_eq, List.take_eq_nil_iff, not_or]
    exact ⟨hpos.ne', hd⟩
  rw [hstep]
  exact State.engWrite_writes ho hr.outcome hplace hhome hm hne

end

/-! ## Cache maintenance (R223) -/

/-- A superblock of which `n` bytes at `pa` touch some byte. -/
def touchesBlock (pa n block : Nat) : Bool := pa < 512 * block + 512 && 512 * block < pa + n

/-- A slice's superblock after a write-back of the lines that `n` bytes at `pa` touch. -/
def SliceBlock.cleaned (pa n : Nat) (b : SliceBlock) : SliceBlock :=
  if touchesBlock pa n b.block then { b with dirty := b.dirty &&& ~~~linesIn b.block pa n } else b

/-- CINV's piece: the L1 holds the superblocks that it does not touch. -/
def State.dropped (s : State) (core pa n : Nat) : State :=
  s.modCore core fun c => { c with l1 := c.l1.filter fun b => !touchesBlock pa n b.block }

/-- CFLUSH's piece: the slices write back the lines that it touches. -/
def State.flushed (s : State) (pa n : Nat) : State :=
  let mem := (s.mem.llc.filter fun b => touchesBlock pa n b.block).foldl
    (fun mem b => mem.writeBack b.block (b.dirty &&& linesIn b.block pa n)) s.mem
  { s with mem := { mem with llc := mem.llc.map (SliceBlock.cleaned pa n) } }

theorem linesIn_of_meets {block pa n k : Nat} (hk : k < 4) (hlow : pa < 512 * block + 128 * k + 128)
    (hhigh : 512 * block + 128 * k < pa + n) : (linesIn block pa n).getLsbD k = true := by
  refine foldl_establishes (I := fun _ => True) (Q := fun m : BitVec 4 => m.getLsbD k = true) _
    (List.mem_range.mpr hk) (fun _ _ _ _ => trivial) (fun m j _ _ hq => ?_) (fun m _ => ?_) 0 trivial
  · dsimp only
    split
    · rw [BitVec.getLsbD_or, hq, Bool.true_or]
    · exact hq
  · dsimp only
    rw [if_pos ⟨hlow, hhigh⟩, BitVec.getLsbD_or, BitVec.getLsbD_ofNat, Nat.testBit_two_pow_self, decide_eq_true hk,
      Bool.and_self, Bool.or_true]

/-- No line that a write-back touches is dirty after it. -/
theorem SliceBlock.cleaned_clean {pa n k : Nat} {b : SliceBlock} (hk : k < 4)
    (hlow : pa < 512 * (b.cleaned pa n).block + 128 * k + 128)
    (hhigh : 512 * (b.cleaned pa n).block + 128 * k < pa + n) : (b.cleaned pa n).dirty.getLsbD k = false := by
  have hb : (b.cleaned pa n).block = b.block := by
    unfold SliceBlock.cleaned
    split <;> rfl
  rw [hb] at hlow hhigh
  have ht : touchesBlock pa n b.block = true := by
    simp only [touchesBlock, Bool.and_eq_true, decide_eq_true_eq]
    omega
  rw [SliceBlock.cleaned, if_pos ht]
  show (b.dirty &&& ~~~linesIn b.block pa n).getLsbD k = false
  rw [BitVec.getLsbD_and, BitVec.getLsbD_not, linesIn_of_meets hk hlow hhigh, Bool.not_true, Bool.and_false,
    Bool.and_false]

/-- The slices write a line back. -/
def Memory.flushBlock (pa n : Nat) (mem : Memory) (b : SliceBlock) : Memory :=
  mem.writeBack b.block (b.dirty &&& linesIn b.block pa n)

theorem State.flushed_rest (s : State) (pa n : Nat) : (s.flushed pa n).mem.cells = s.mem.cells ∧
    (s.flushed pa n).mem.updates = s.mem.updates :=
  foldl_rel (fun m n : Memory => n.cells = m.cells ∧ n.updates = m.updates) (fun _ => ⟨rfl, rfl⟩)
    (fun h k => ⟨k.1.trans h.1, k.2.trans h.2⟩) id (Memory.flushBlock pa n) (fun _ _ => ⟨rfl, rfl⟩)
    (s.mem.llc.filter fun b => touchesBlock pa n b.block) s.mem

theorem Memory.keepXlat_llc (mem : Memory) (t : TlbEntry) : (mem.keepXlat t).llc = mem.llc := by
  rw [Memory.keepXlat]

theorem State.cacheXlat_llc (s : State) (core root va : Nat) : (s.cacheXlat core root va).mem.llc = s.mem.llc := by
  unfold State.cacheXlat
  split
  · rfl
  · cases s.mem.tlb.find? (·.covers (dieCache core) root va) with
    | some t => exact Memory.keepXlat_llc ..
    | none =>
      cases s.walkFrom va walkLevels root with
      | leaf => exact (Memory.keepXlat_llc ..).trans (Memory.keepXlat_llc ..)
      | _ => rfl

section
variable {s : State} {core h : Nat} {op : EngOp}

/-- The bytes of a range operation's run, up to the end of a page. -/
def EngOp.rangeRun (op : EngOp) : Nat :=
  min (op.total - op.progress) (2 ^ 16 - (wd64 op.words 0 + op.progress) % 2 ^ 16)

theorem State.rangeStep_home {p : Place} (hva : wd64 op.words 0 + op.progress < 2 ^ 48)
    (hp : s.xlatG core op.grid (wd64 op.words 0 + op.progress) = .ok p) (hhome : p.home = true) :
    s.rangeStep core op =
      (if op.kind = 9 then s.dropped core p.pa op.rangeRun else s.flushed p.pa op.rangeRun).modOp core op.handle
        fun o => o.wrote op.rangeRun 0 [] := by
  unfold State.rangeStep
  rw [if_neg (Nat.not_le.mpr hva), hp]
  simp only [hhome, Bool.not_true, Bool.false_eq_true, if_false]
  rfl

/-- CINV's run. -/
theorem State.rangeStep_drops (ho : s.HasOp core h op) (hr : op.Running) (hk : op.kind = 9) {p : Place}
    (hva : wd64 op.words 0 + op.progress < 2 ^ 48)
    (hp : s.xlatG core op.grid (wd64 op.words 0 + op.progress) = .ok p) (hhome : p.home = true) :
    s.Advances (s.rangeStep core op) core h fun t op' => op'.progress = op.progress + op.rangeRun ∧
      t.mem.updates = s.mem.updates ∧
      ∀ b ∈ (t.core core).l1, 512 * b.block + 512 ≤ p.pa ∨ p.pa + op.rangeRun ≤ 512 * b.block := by
  rw [State.rangeStep_home hva hp hhome, if_pos hk, ho.handle]
  have hh := ho.handle
  obtain ⟨c, hc, hop⟩ := ho
  have hdrop : (s.dropped core p.pa op.rangeRun).cores[core]? =
      some { c with l1 := c.l1.filter fun b => !touchesBlock p.pa op.rangeRun b.block } := by
    rw [State.dropped, State.modCore, setAt_getElem?_same, hc]
    rfl
  have hthere : (s.dropped core p.pa op.rangeRun).HasOp core h op := ⟨_, hdrop, hop⟩
  refine ⟨rfl, rfl, _, hthere.modOp (f := fun o => o.wrote op.rangeRun 0 []) rfl, hr.outcome, rfl, rfl, fun b hb => ?_⟩
  rw [State.core, State.modOp, State.modCore, setAt_getElem?_same, hdrop] at hb
  have hb := (List.mem_filter.mp hb).2
  simp only [touchesBlock, Bool.not_eq_true', Bool.and_eq_false_iff, decide_eq_false_iff_not] at hb
  omega

/-- CFLUSH's run. -/
theorem State.rangeStep_flushes (ho : s.HasOp core h op) (hr : op.Running) (hk : op.kind = 8) {p : Place}
    (hva : wd64 op.words 0 + op.progress < 2 ^ 48)
    (hp : s.xlatG core op.grid (wd64 op.words 0 + op.progress) = .ok p) (hhome : p.home = true) :
    s.Advances (s.rangeStep core op) core h fun t op' => op'.progress = op.progress + op.rangeRun ∧
      t.mem.updates = s.mem.updates ∧
      ∀ b ∈ t.mem.llc, ∀ k < 4, p.pa < 512 * b.block + 128 * k + 128 →
        512 * b.block + 128 * k < p.pa + op.rangeRun → b.dirty.getLsbD k = false := by
  obtain ⟨hcells, hupdates⟩ := s.flushed_rest p.pa op.rangeRun
  rw [State.rangeStep_home hva hp hhome, if_neg (by rw [hk]; decide), ho.handle]
  refine ⟨hcells, rfl, _, (ho.congr (t := s.flushed p.pa op.rangeRun) rfl).modOp
    (f := fun o => o.wrote op.rangeRun 0 []) rfl, hr.outcome, rfl, hupdates, fun b hb k hk hlow hhigh => ?_⟩
  obtain ⟨b0, -, rfl⟩ := List.mem_map.mp hb
  exact SliceBlock.cleaned_clean hk hlow hhigh

/-- Caching the translations of a range operation allocates no line. -/
theorem State.opCache_llc (t : State) (hr : op.Running) (hk : op.kind = 8) :
    (t.opCache core op).mem.llc = t.mem.llc := by
  have touches : op.touches = [(wd64 op.words 0 + op.progress, 0, false)] := by
    have listed : ¬ op.list.length < op.listSpan.2 := by rw [hr.listed]; exact Nat.lt_irrefl _
    unfold EngOp.touches
    simp only [if_neg listed, hk]
  have reach (u : State) (p : Place) : (u.reachHome p false 0).mem.llc = u.mem.llc := by
    rw [State.reachHome, State.atHome, if_pos (by simp)]
  unfold State.opCache
  rw [touches, List.foldl_cons, List.foldl_nil]
  dsimp only
  split
  · simp only [bne_self_eq_false, Bool.and_false, Bool.false_and, Bool.false_eq_true, if_false]
    rw [reach, State.cacheXlat_llc]
  · rfl

end

/-! ## Runs by kind of operation -/

/-- The event leaves memory's bytes and the teams, and the operation as `f` says, which has not ended. -/
def State.Ran (s : State) (core h : Nat) (f : State → EngOp → Prop) : Prop :=
  ∃ t op', exec (.engineRunDelivered core h) s = .next t ∧ t.mem.cells = s.mem.cells ∧ t.teams = s.teams ∧
    t.op? core h = some op' ∧ op'.outcome = none ∧ f t op'

theorem runLength_pos {a b : Nat} (ha : 0 < a) (hb : 0 < b) (progress : Nat) :
    0 < min (min a b) (512 - progress % 512) :=
  Nat.lt_min.mpr ⟨Nat.lt_min.mpr ⟨ha, hb⟩, toBoundary_pos progress⟩

section
variable {s : State} {core h : Nat} {op : EngOp} (ho : s.HasOp core h op) (hr : op.Running)

include ho hr in
theorem engineRun_writes (hk : op.kind ≤ 10) {pa : Nat} {bs : List Byte}
    (hs : s.Advances (s.opStep core op) core h (op.Wrote pa bs)) : s.Ran core h (op.Wrote pa bs) :=
  engineRun_advances ho hr hk (fun _ => EngOp.Wrote.congr (State.opCache_cacheKept ..).updates) hs

include ho hr in
theorem engineRun_sends (hk : op.kind ≤ 10) {places : List (Team × Nat)} {bs : List Byte}
    (hs : s.Advances (s.opStep core op) core h (op.SentTo s places bs)) : s.Ran core h (op.SentTo s places bs) :=
  engineRun_advances ho hr hk (fun _ => EngOp.SentTo.congr (State.opCache_cacheKept ..).updates) hs

include ho hr in
/-- A transfer's run goes from its source to its destination. -/
theorem xfer_moves (hk : op.kind = 1 ∨ op.kind = 2 ∨ op.kind = 3) {src dst : Piece} (hd : op.data = [])
    (hsrc : op.source = .inl src) (hdst : op.destination = .inl dst)
    (ht : (cpyDTRUG op.words && op.kind == 1) = false)
    (hc : dst.scratch = true → (op.kind == 1 && cpyMCAST op.words) = false) {n : Nat}
    (hn : min (min src.len dst.len) (512 - op.progress % 512) = n) (hpos : 0 < n) {bs : List Byte}
    (hreads : s.Reads op src.scratch src.addr n bs) :
    if dst.scratch then ∀ places : List (Team × Nat), [s.engScratch op dst.addr bs.length] = places.map some →
        s.Ran core h (op.SentTo s places bs)
      else ∀ p, s.engPlace op dst.addr true = .inl p → p.home = true → s.mem.mergedByte p.pa bs.length = none →
        s.Ran core h (op.Wrote p.pa bs) := by
  have hx := hr.opStep_xfer (s := s) (core := core) hk
  have hk10 : op.kind ≤ 10 := by omega
  cases hs : dst.scratch with
  | true =>
    intro places hp
    exact engineRun_sends ho hr hk10 (hx ▸ State.xferStep_sends ho hr hd hsrc hdst ht hn hreads hs (hc hs) hp)
  | false =>
    intro p hp hhome hm
    exact engineRun_writes ho hr hk10 (hx ▸ State.xferStep_writes ho hr hd hsrc hdst ht hn hreads hs hpos hp hhome hm)

/-- A copy's sides. -/
theorem EngOp.copy_sides (hk : op.kind = 1) :
    op.source = .inl (op.contiguous (cpySSP op.words) (wd64 op.words 2)) ∧
      op.destination = .inl (op.contiguous (cpyDSP op.words) (wd64 op.words 4)) := by
  simp only [EngOp.source, EngOp.destination, hk, and_self]

/-- A gather's sides. -/
theorem EngOp.gather_sides (hk : op.kind = 2) : op.source = op.strided ∧ op.destination = op.contiguousGs := by
  simp only [EngOp.source, EngOp.destination, hk, and_self]

/-- A scatter's sides. -/
theorem EngOp.scatter_sides (hk : op.kind = 3) : op.source = op.contiguousGs ∧ op.destination = op.strided := by
  simp only [EngOp.source, EngOp.destination, hk, and_self]

/-- The strided side, where its element is aligned. -/
theorem EngOp.strided_eq {a : Int}
    (ha : gsStrided op.words (if gsIndex op.words then
        leNat ((op.list.drop (4 * (op.progress / gsSize op.words % wd op.words 6))).take 4)
        else op.progress / gsSize op.words % wd op.words 6)
      (op.progress / gsSize op.words / wd op.words 6 % wd op.words 7)
      (op.progress / gsSize op.words / wd op.words 6 / wd op.words 7) = a)
    (h0 : 0 ≤ a) (hm : a % (min (gsSize op.words) 4 : Nat) = 0) : op.strided =
      .inl ⟨gsTSP op.words, a.toNat + op.progress % gsSize op.words,
        min (gsSize op.words - op.progress % gsSize op.words) (toBoundary (a.toNat + op.progress % gsSize op.words))⟩ := by
  unfold EngOp.strided
  dsimp only
  rw [ha, if_neg (by rw [not_or]; exact ⟨Int.not_lt.mpr h0, not_not.mpr hm⟩)]

theorem EngOp.contiguousGs_eq (hm : wd64 op.words 2 % min (gsSize op.words) 4 = 0) :
    op.contiguousGs = .inl (op.contiguous (gsCSP op.words) (wd64 op.words 2)) :=
  if_neg (not_not.mpr hm)

theorem EngOp.bankOperands_eq (op : EngOp) : op.bankOperands =
    (if op.kind = 5 then (if bopOp op.words = 2 then [wd64 op.words 2] else [wd64 op.words 2, wd64 op.words 4])
      else sourcesOf op.list (bredCount op.words), wd64 op.words 6,
     if op.kind = 5 then bankSize (flagOf op.words 10) else bankSize (bredFmt op.words == 1)) := by
  unfold EngOp.bankOperands
  dsimp only
  split <;> rfl

theorem EngOp.bankElem_eq (op : EngOp) (xs : List Nat) : (if op.kind = 5 then
      bankopElem (bopOp op.words) (flagOf op.words 10) (wd op.words 9) (xs.headD 0) (xs.getD 1 0)
    else xs.tail.foldl (reduceElem (bopOp op.words) (bredFmt op.words)) (xs.headD 0)) = op.bankElem xs := by
  unfold EngOp.bankElem
  dsimp only
  rw [List.getD_eq_getElem?_getD]
  split
  · rfl
  · cases xs <;> rfl

theorem bankSize_pos (b : Bool) : 0 < bankSize b := by cases b <;> decide

theorem sendPiece_plain {c : Coll} (map : List Byte) (q b left : Nat) (he : c.esp = false) :
    (sendPiece c map q b left).1 = c.send + (if c.ckind = 0 ∨ c.ckind = 2 then q * c.bytes else 0) + b := by
  simp only [sendPiece, he, Bool.false_eq_true, if_false]
  split <;> rfl

theorem recvPiece_plain {c : Coll} (map : List Byte) (p b left : Nat) (he : c.esp = false) :
    (recvPiece c map p b left).1 = c.recv + (if c.ckind = 0 ∨ c.ckind = 1 then p * c.bytes else 0) + b := by
  simp only [recvPiece, he, Bool.false_eq_true, if_false]
  split <;> rfl

end

end Sys2Proof.Machine

namespace Sys2Proof
open Machine

/-- Settles O47: each kind's run reads where its source is and writes where its destination is, and the caching of its
translations keeps what it wrote. -/
theorem engineRunsMoveBytes : Obligations.EngineRunsMoveBytes := by
  unfold Obligations.EngineRunsMoveBytes
  intro s core h c op hc hop hbegun hwait hread hrun hex hpaused hlist ws becomes reads writes sends moves left
  have ho : s.HasOp core h op := ⟨c, hc, hop⟩
  have hr : op.Running := ⟨hbegun, hwait, hread, hrun, hex, hpaused, hlist⟩
  refine ⟨?_, ?_, ?_, ?_, ?_⟩
  · intro hk hd src dst n
    have hleft : 0 < left := Nat.sub_pos_of_lt (hr.left (by rw [hk]; decide) (by rw [hk]; decide))
    obtain ⟨hsrc, hdst⟩ := EngOp.copy_sides hk
    have hpos : 0 < n := runLength_pos (Nat.lt_min.mpr ⟨hleft, toBoundary_pos _⟩)
      (Nat.lt_min.mpr ⟨hleft, toBoundary_pos _⟩) _
    refine ⟨fun htrug => ⟨fun hcast bs hreads => ?_, fun hscratch hcast bs hreads places hp => ?_⟩, ?_⟩
    · refine xfer_moves ho hr (.inl hk) hd hsrc hdst (by rw [show cpyDTRUG op.words = false from htrug]; rfl)
        (fun hs => ?_) rfl hpos hreads
      rw [hcast.resolve_left (fun hf => Bool.false_ne_true (hf.symm.trans hs)), Bool.and_false]
    · refine engineRun_sends ho hr (by omega) (hr.opStep_xfer (.inl hk) ▸ State.xferStep_casts ho hr hd hsrc hdst
        (by rw [show cpyDTRUG op.words = false from htrug]; rfl) rfl hreads hscratch
        (by rw [hk, show cpyMCAST op.words = true from hcast]; rfl) ?_)
      rw [← hp, List.map_map]
      rfl
    · intro htrug v off i hv hi hdam n' in_ hfit bs hreads places hp
      refine engineRun_sends ho hr (by omega) (hr.opStep_xfer (.inl hk) ▸ State.xferStep_fills ho hr hd hsrc hreads hk
        htrug hv hi hdam rfl hfit ?_)
      rw [← hp, List.map_map]
      rfl
  · intro hk hd size e i0 j st a strided contiguous n h0 hm hbase
    have hne1 : (op.kind == 1) = false := beq_eq_false_iff_ne.mpr (by omega)
    have hleft : 0 < left := Nat.sub_pos_of_lt (hr.left (by omega) (by omega))
    have hstrided := EngOp.strided_eq (op := op) (a := a) rfl h0 hm
    have hcont := EngOp.contiguousGs_eq (op := op) hbase
    have hsize : 0 < size - op.progress % size := Nat.sub_pos_of_lt (Nat.mod_lt _ (Nat.two_pow_pos _))
    have hpos : 0 < n := runLength_pos (Nat.lt_min.mpr ⟨hsize, toBoundary_pos _⟩)
      (Nat.lt_min.mpr ⟨hleft, toBoundary_pos _⟩) _
    have ht : (cpyDTRUG op.words && op.kind == 1) = false := by rw [hne1, Bool.and_false]
    refine ⟨fun h2 bs hreads => ?_, fun h3 bs hreads => ?_⟩
    · obtain ⟨hsrc, hdst⟩ := EngOp.gather_sides h2
      exact xfer_moves ho hr (.inr (.inl h2)) hd (hsrc.trans hstrided) (hdst.trans hcont) ht
        (fun _ => by rw [hne1, Bool.false_and]) rfl hpos hreads
    · obtain ⟨hsrc, hdst⟩ := EngOp.scatter_sides h3
      exact xfer_moves ho hr (.inr (.inr h3)) hd (hsrc.trans hcont) (hdst.trans hstrided) ht
        (fun _ => by rw [hne1, Bool.false_and]) (congrArg (min · _) (Nat.min_comm ..)) hpos hreads
  · intro hk sources size elem result n hsources _ columns q hlen hcols hq hm bs
    have hx : s.opStep core op = s.bankStep core op := hr.opStep_bank hk
    have hs : 0 < size := by
      dsimp only [size]
      split <;> exact bankSize_pos _
    have step := State.bankStep_writes ho hr op.bankOperands_eq hs hsources rfl hlen hcols hq hm
    have hbs : op.bankBytes size n columns = bs := by
      dsimp only [bs, elem, EngOp.bankBytes]
      simp only [← EngOp.bankElem_eq]
      rfl
    obtain ⟨t, op', he, hcells, hteams, hfound, hout, hprog, r, hrun', hbytes, hbanks, hremote, hrec⟩ :=
      engineRun_advances ho hr (by omega) (fun op' hf => by
        obtain ⟨hprog, r, hrun', hbytes, hbanks, hremote, hrec⟩ := hf
        exact ⟨hprog, r, hrun', hbytes, hbanks, hremote,
          Memory.received_congr (State.opCache_cacheKept ..).updates (hx ▸ hrec)⟩) (hx ▸ step)
    have hrec : t.mem.received q.pa (op.bankBytes size n columns) op.lastWct r.wct := hrec
    rw [hbs] at hrec
    exact ⟨t, op', he, hcells, hteams, hfound, hout, hprog, r, hrun', hbytes, hbanks, hremote, hrec⟩
  · intro hk hpeers coll
    have hx : s.opStep core op = s.collStep core op := hr.opStep_coll hk
    constructor
    · intro q k hwork hlen piece
      refine ⟨fun hesp => sendPiece_plain _ _ _ _ hesp, fun bs hreads => ?_⟩
      refine engineRun_advances ho hr (by omega) (fun op' hf => ?_)
        (hx ▸ State.collStep_reads ho hr hpeers hwork hlen hreads)
      exact ⟨(State.opCache_cacheKept ..).updates.trans hf.1, hf.2⟩
    · intro p k hwork hdata done piece
      refine ⟨fun hesp => recvPiece_plain _ _ _ _ hesp, fun q hq hhome hm => ?_⟩
      exact engineRun_writes ho hr (by omega)
        (hx ▸ State.collStep_writes ho hr hpeers hwork hdata rfl hq hhome hm)
  · intro hk va n p hva hp hhome
    have hx : s.opStep core op = s.rangeStep core op := hr.opStep_range hk
    have kept := (s.opStep core op).opCache_cacheKept core op
    rcases hk with hk | hk
    · have hllc := (s.opStep core op).opCache_llc (core := core) hr hk
      obtain ⟨t, op', he, hcells, hteams, hfound, hout, hprog, hupdates, hclean⟩ := engineRun_advances ho hr (by omega)
        (fun op' hf => ⟨hf.1, kept.updates.trans hf.2.1, by rw [hllc]; exact hf.2.2⟩)
        (hx ▸ State.rangeStep_flushes ho hr hk hva hp hhome)
      exact ⟨t, op', he, hcells, hteams, hfound, hout, hprog, hupdates, fun h9 => absurd (hk.symm.trans h9) (by decide),
        fun _ => hclean⟩
    · obtain ⟨t, op', he, hcells, hteams, hfound, hout, hprog, hupdates, hclean⟩ := engineRun_advances ho hr (by omega)
        (fun op' hf => ⟨hf.1, kept.updates.trans hf.2.1, by rw [State.core, kept.cores]; exact hf.2.2⟩)
        (hx ▸ State.rangeStep_drops ho hr hk hva hp hhome)
      exact ⟨t, op', he, hcells, hteams, hfound, hout, hprog, hupdates, fun _ => hclean,
        fun h8 => absurd (hk.symm.trans h8) (by decide)⟩

end Sys2Proof
end
